-- ==== Sys2Proof/Word.lean ====
section
/-!
DEFINITION. The word types of the HK6480 and their plainest arithmetic.
-/
namespace Sys2Proof

/-- A 32-bit register, result, instruction or memory word. -/
abbrev Word := BitVec 32

/-- A byte of memory. -/
abbrev Byte := BitVec 8

/-- A 32-byte digest or nonce. -/
abbrev Digest := BitVec 256

/-- A channel number, 0 to 67 (R2). -/
abbrev Chan := Fin 68

/-- A bank number, 0 to 3 (R2). -/
abbrev Bank := Fin 4

/-- A context number of a Graver, 0 to 3 (R135). -/
abbrev Ctx := Fin 4

/-- A general register number of a context (R125). -/
abbrev Reg := Fin 16

/-- A serial lane number, 0 to 7. -/
abbrev Lane := Fin 8

/-- A drain engine or ring number, 0 to 7 (R308). -/
abbrev Ring := Fin 8

/-- A number reduced to the 32 bits of a word. -/
def word (n : Nat) : Word := BitVec.ofNat 32 n

/-- An integer reduced to the 32 bits of a word. -/
def wordI (n : Int) : Word := BitVec.ofInt 32 n

/-- The bit of a condition. -/
def bit (b : Bool) : Nat := if b then 1 else 0

end Sys2Proof
end

