-- ==== Sys2Proof/Syntax.lean ====
section
/-!
DEFINITION. The commands of the HK6480: one constructor for each row of the table of operations and events, with its operands.
Operands that the part receives from outside (a register value, a datagram's fields, what a Plate or a link partner answers, the
tick of an edge) are carried by the command; everything else is in the state.
-/
namespace Sys2Proof

/-- The access paths of R471. -/
inductive Path where
  | pcie | hht | spi | mp
  deriving DecidableEq, Repr

/-- The fields of a base instruction word below its opcode, and the extension word behind it (Tables 4.2 and 5.4). -/
structure Fields where
  a : BitVec 4
  b : BitVec 4
  c : BitVec 4
  imm : BitVec 14
  ext : Word
  deriving DecidableEq, Repr

/-- The 64-bit registers whose _LO read snapshots the pair (R42, R292, R312, R353, R377, R395, R414, R441). -/
inductive PairId where
  | tbNow | tbSyncCap | frmNum | frmNext
  | ringWr (d : Ring)
  | sigNext | sigBound | proofBase | proofWr | proofRd
  | plCyc | plLife | plWarn
  | wakeT
  | calTs | calEp | calEpoch
  | prbsErr (k : Lane) | prbsBits (k : Lane)
  deriving DecidableEq, Repr

/-- What a memory read finds in the check bits (R294, R314). -/
inductive EccResult where
  | clean | corrected | uncorrectable
  deriving DecidableEq, Repr

/-- A read over a path that changes what the path holds: of the lower half of a pair (R42), or of 32-bit words of the ring window BAR2 from an
offset (R312, R423). -/
inductive PathRead where
  | pair (which : PairId)
  | window (offset words : Nat) (ecc : EccResult)
  deriving DecidableEq, Repr

/-- States of a window comparator (R244). -/
inductive CmpState where
  | unresolved | below | inside | above
  deriving DecidableEq, Repr

/-- WA or WB of a channel (R243). -/
inductive Cmp where
  | a | b
  deriving DecidableEq, Repr

/-- The three blank timers of a comparator (R252). -/
inductive BlankKind where
  | change | command | mode
  deriving DecidableEq, Repr

/-- Where a memory error lies: a page of external memory, or a row of an SRAM macro (R295, R315). -/
inductive ErrPlace where
  | page (pa : Nat)
  | row (k row : Nat)
  deriving DecidableEq, Repr

/-- The header of a host command message (Table 14.5): the path it came on, its tag, its length in bytes, its deadline (0: none). -/
structure Hdr where
  path : Path
  tag : Word
  len : Nat
  deadline : Nat
  deriving DecidableEq, Repr

/-- An authorisation token (Table 10.9). -/
structure Token where
  magic : Word
  format : BitVec 16
  op : BitVec 16
  length : Word
  reserved : Word
  serial : BitVec 128
  nonce : Digest
  signer : Digest
  argDigest : Digest
  param0 : BitVec 64
  param1 : BitVec 64
  signature : List Byte
  deriving DecidableEq, Repr

/-- The action of RESUME (R149). -/
inductive ResumeAction where
  | retry | next | halt
  deriving DecidableEq, Repr

/-- What the device reads on the plate bus (R360, R363, R364): which address answered, the record, the counter slots (COUNT, SEQ,
CHECK) of an EEPROM, or the counter and the authentications left of a token with its nonce. -/
structure PlateRead where
  answers : Bool
  token : Bool
  body : List Byte
  signature : List Byte
  slots : List (Nat × Nat × BitVec 128)
  counter : Nat
  authsLeft : Nat
  tokenNonce : Digest
  deriving DecidableEq, Repr

/-- A network address and port of a host (R435): an IPv6 address, with IPv4 mapped, and a UDP port. -/
structure HostAddr where
  ip : BitVec 128
  port : BitVec 16
  deriving DecidableEq, Repr

/-- A received Ethernet frame as the firmware sorts it (R425, R435). -/
inductive EtherFrame where
  | arp | icmpEcho | icmp6Echo | neighbour | ptp | hhtBad | hht | pause | other
  deriving DecidableEq, Repr

/-- The IEEE 1588 event messages of R440. -/
inductive PtpKind where
  | sync | delayReq | pdelayReq | pdelayResp
  deriving DecidableEq, Repr

/-- The straps sampled when PORN rises (R442). -/
structure Straps where
  refsel : Bool
  recovery : Bool
  sysid : BitVec 5
  deriving DecidableEq, Repr

/-- The kinds of update session (R452). -/
inductive UpdKind where
  | image | library | board
  deriving DecidableEq, Repr

/-- What a calibration run measured (R403, R404): the widths of the 1,024 coarse segments and of the 32 spares in 2^-16 fine steps, the
deviations of the six least significant capacitors of the voltage and of the current ADC in 2^-8 raw LSB, and the trims and residuals found. -/
structure CalResult where
  widths : List Nat
  spareWidths : List Nat
  voltageCaps : List Int
  currentCaps : List Int
  trims : List (BitVec 12)
  coef : List (Int × Int)
  deriving DecidableEq, Repr

/-- How far a calibration run has got (R402, R408): the phase of Table 13.3 in progress ends; the last one gives the results; the write of the new set ends,
of whose read-backs so many failed. -/
inductive RunEvent where
  | phaseEnd
  | results (r : CalResult)
  | stored (fails : Nat)
  deriving DecidableEq, Repr

/-- The commands of the table, family by family. -/
inductive Instr where
  -- start-up and resets
  | powerOnReset (straps : Straps)
  | pornLow
  | firmwareStart
  | hostReady (regulatorLinear : Bool) (ddrMaGib ddrMbGib : Nat)
  | signingStateReady
  | wrstnLow
  | mpWatchdogExpiry
  | warmRestartComplete (adoptOk : Bool)
  -- timebase
  | pllLock
  | refclkLoss
  | pllRelock (edgePhase : Nat)
  | syncPulse
  | syncGen (p : Path)
  | tbAdj (p : Path) (v : Word)
  | skewStart (p : Path)
  | skewPeriodExpiry
  | skewMeasurementEnd
  | finePhaseStep
  | pairSnapshotRead (p : Path) (what : PathRead)
  -- sample-tick world
  | sampleTick
  | railFall (n : Chan)
  | rawPairHandoff (n : Chan) (v i : BitVec 20) (vOut iOut clamping upper : Bool)
  | autorangeDown (n : Chan)
  | packetAge (n : Chan)
  | stabilityAlarm (n : Chan) (crossings : List Nat)
  | trimStep (n : Chan)
  | ldidPerturbCount (n : Chan)
  | ldidFitDone (n : Chan)
  | rangeSwitchMade (n : Chan)
  | rangeSwitchBroken (n : Chan)
  | bridgeSettleEnd (n : Chan)
  | leaveInertTimeout (n : Chan)
  | relayMakeDone (n : Chan) (made : Bool)
  | relayBreakDone (n : Chan)
  | safeStateRampEnd (n : Chan)
  | fltAssert (n : Chan)
  | coreHandshakeLoss (b : Bank)
  | fltLatchClear (p : Path) (n : Chan) (fltHigh : Bool)
  | disable (p : Path) (n : Chan)
  | bankSupplyValid (b : Bank)
  | bankDieUp (b : Bank)
  | bankSupplyFail (b : Bank)
  | cpsFrame (b : Bank)
  | cpsResponse (b : Bank) (w : Word)
  | cpsLinkRestartRound (b : Bank)
  -- Krytger: control
  | nop (n : Chan) (k : Fields)
  | halt (n : Chan) (k : Fields)
  | jmp (n : Chan) (k : Fields)
  | jcc (n : Chan) (k : Fields)
  | call (n : Chan) (k : Fields)
  | ret (n : Chan) (k : Fields)
  | loop (n : Chan) (k : Fields)
  | endl (n : Chan) (k : Fields)
  | yield (n : Chan) (k : Fields)
  | fence (n : Chan) (k : Fields)
  | fenceComplete (n : Chan) (x : Ctx)
  | trap (n : Chan) (k : Fields)
  -- Krytger: integer and memory
  | mov (n : Chan) (k : Fields)
  | ldi (n : Chan) (k : Fields)
  | ldx (n : Chan) (k : Fields)
  | add (n : Chan) (k : Fields)
  | sub (n : Chan) (k : Fields)
  | mul (n : Chan) (k : Fields)
  | mac (n : Chan) (k : Fields)
  | and (n : Chan) (k : Fields)
  | or (n : Chan) (k : Fields)
  | xor (n : Chan) (k : Fields)
  | shl (n : Chan) (k : Fields)
  | shr (n : Chan) (k : Fields)
  | asr (n : Chan) (k : Fields)
  | cmp (n : Chan) (k : Fields)
  | sat (n : Chan) (k : Fields)
  | abs (n : Chan) (k : Fields)
  | ld (n : Chan) (k : Fields)
  | ldDataReturn (n : Chan) (ecc : EccResult)
  | st (n : Chan) (k : Fields)
  | programCacheFill (n : Chan) (victim : Nat) (ecc : EccResult)
  -- Krytger: output
  | mode (n : Chan) (k : Fields)
  | range (n : Chan) (k : Fields)
  | level (n : Chan) (k : Fields)
  | strobeSelect (n : Chan) (k : Fields)
  | strobeFire (n : Chan) (k : Fields)
  | clamp (n : Chan) (k : Fields)
  | slew (n : Chan) (k : Fields)
  | ramp (n : Chan) (k : Fields)
  | comps (n : Chan) (k : Fields)
  | connect (n : Chan) (k : Fields)
  | isolate (n : Chan) (k : Fields)
  -- Krytger: measurement
  | measSmode (n : Chan) (k : Fields)
  | measCount (n : Chan) (k : Fields)
  | aper (n : Chan) (k : Fields)
  | autor (n : Chan) (k : Fields)
  | tag (n : Chan) (k : Fields)
  | pktClose (n : Chan) (k : Fields)
  | pktAge (n : Chan) (k : Fields)
  -- Krytger: sequencing
  | play (n : Chan) (k : Fields) (ecc : EccResult)
  | playFillComplete (n : Chan) (ecc : EccResult)
  | armj (n : Chan) (k : Fields) (ecc : EccResult)
  | jumpHeadCopyDone (n : Chan) (x : Ctx) (ecc : EccResult)
  | jseg (n : Chan) (k : Fields) (ecc : EccResult)
  | sweep (n : Chan) (k : Fields) (ecc : EccResult)
  | sweepFillComplete (n : Chan) (ecc : EccResult)
  | sweepEntryStart (n : Chan) (clamping : Bool)
  | prefetchFill (n : Chan) (ecc : EccResult)
  | gen (n : Chan) (k : Fields)
  | gstop (n : Chan) (k : Fields)
  | rate (n : Chan) (k : Fields)
  -- Krytger: time and events
  | wait (n : Chan) (k : Fields)
  | waitComplete (n : Chan) (x : Ctx)
  | waitt (n : Chan) (k : Fields)
  | waittRelease (n : Chan) (x : Ctx)
  | waitev (n : Chan) (k : Fields)
  | waitevTimeout (n : Chan) (x : Ctx)
  | emit (n : Chan) (k : Fields)
  | arm (n : Chan) (k : Fields)
  | blankLength (n : Chan) (k : Fields)
  | blank (n : Chan) (k : Fields)
  | syncf (n : Chan) (k : Fields)
  | mark (n : Chan) (k : Fields)
  -- Krytger: special
  | ldid (n : Chan) (k : Fields)
  | cal (n : Chan) (k : Fields)
  | rds (n : Chan) (k : Fields)
  | rdt (n : Chan) (k : Fields)
  | illegalOpcode (n : Chan) (opcode : BitVec 6) (k : Fields)
  -- Graver commands
  | gvStart (p : Path) (n : Chan) (v : Word)
  | gvHalt (p : Path) (n : Chan) (v : Word)
  | go (p : Path) (n : Chan) (v : Word)
  | clearImm (p : Path) (n : Chan) (v : Word)
  | gvImmWrite (p : Path) (n : Chan) (v : Word)
  -- comparators and the Tracer
  | comparatorDecision (n : Chan) (c : Cmp) (tick : Nat) (dst : CmpState)
  | blankExpiry (n : Chan) (c : Cmp) (kind : BlankKind)
  | comparatorLatchClear (p : Path) (n : Chan) (v : Word)
  | slotBoundary
  | directForward (tc : Fin 128)
  | eviEdge (pin : Fin 8) (rising : Bool) (tick : Nat)
  | softwareInject (p : Path) (v : Word)
  | tcMergeWrite (p : Path) (v : Word)
  | imAck (p : Path) (v : Word)
  -- frames, Hatch and the collector
  | framesEnable (p : Path) (v : Word)
  | framesDisable (p : Path) (v : Word)
  | snap (p : Path) (v : Word)
  | frameBoundary
  | hatchStart (p : Path)
  | hatchStop (p : Path)
  | hatchUnitCfgWrite (p : Path) (base : Bool) (v : Word)
  | collStatClr (p : Path)
  | deviceUnitReady
  | collectorSlotStore (slot : Fin 76)
  | collectorTimeout
  | frameEmit
  -- Proofs
  | proofSeal
  | proofSignStart (fails : Nat)
  | proofSigned
  | proofWritten
  | pfCtrlWrite (p : Path) (v : Word)
  | proofRingEnable (p : Path) (v : Word)
  | proofRingRdCommit (p : Path) (hi : Word)
  | nonceExpiry (p : Path)
  -- queues and rings
  | queueEnable (p : Path) (v : Word)
  | queueDisable (p : Path) (v : Word)
  | queueFlush (p : Path) (v : Word)
  | queueDropRem (p : Path) (v : Word)
  | queueCfgWrite (p : Path) (v : Word)
  | queuePeakRead (p : Path)
  | chResultPop (p : Path) (n : Chan) (ecc : EccResult)
  | chLatestSeqRead (p : Path) (n : Chan)
  | drainTransferStart (d : Ring) (ecc : EccResult)
  | drainTransferEnd (d : Ring)
  | ringEnable (p : Path) (d : Ring) (v : Word)
  | ringDisable (p : Path) (d : Ring) (v : Word)
  | ringRdCommit (p : Path) (d : Ring) (hi : Word)
  -- memory
  | patrolScrub (p : ErrPlace) (queue : Option (Fin 256)) (cured : Bool) (found : EccResult)
  | sramRowRepair (macro_ : Fin 384)
  | pageRetire (pa : Nat)
  | demandFaultResolved
  | mmuFlogPop (p : Path)
  | invalidationComplete
  -- host commands
  | echo (h : Hdr) (bytes : List Byte)
  | regRead (h : Hdr) (addr count : Nat)
  | regWrite (h : Hdr) (addr : Nat) (words : List Word)
  | asidCreate (h : Hdr) (asid : Nat)
  | asidDestroy (h : Hdr) (asid : Nat)
  | map (h : Hdr) (asid : Nat) (flags : Word) (va pa len : Nat)
  | mapDz (h : Hdr) (asid : Nat) (flags : Word) (va len : Nat)
  | unmap (h : Hdr) (asid va len : Nat)
  | protect (h : Hdr) (asid : Nat) (flags : Word) (va len : Nat)
  | poolAdd (h : Hdr) (pa pages : Nat)
  | cacheInv (h : Hdr) (asid va len : Nat)
  | resume (h : Hdr) (n : Chan) (x : Ctx) (action : ResumeAction)
  | challenge (h : Hdr)
  | getIdentity (h : Hdr)
  | attest (h : Hdr) (nonce : Digest) (fails : Nat)
  | enroll (h : Hdr) (key : List Byte) (token : Token) (fails : Nat)
  | ownerTransfer (h : Hdr) (token : Token) (newKey : List Byte) (enrolToken : Token)
  | ownerRelease (h : Hdr) (token : Token) (arg : List Byte)
  | calWrite (h : Hdr) (token : Token) (arg : List Byte) (fails : List Nat)
  | plateLife (h : Hdr) (token : Token) (arg : List Byte)
  | powerBounds (h : Hdr) (token : Token) (arg : List Byte)
  | debugUnlock (h : Hdr) (token : Token) (arg : List Byte)
  | jtagPinDriveInstruction
  -- Plates
  | pldetFall
  | pldetRise
  | plateSettleEnd
  | plateBusRetry (acked : Bool)
  | tokenAnswerTimeout
  | plateRecordRead (r : PlateRead)
  | tokenAuthAnswer (signature : List Byte)
  | tokenOpenAnswer (ok : Bool) (tokenNonce : Digest)
  | tokenAdvanceAnswer (ok : Bool)
  | eepromCountWriteDone
  | plateContactCycle
  | cycle (p : Path)
  | reopen (p : Path)
  -- power
  | regulatorStatusPoll (failed fault : Bool)
  | pmalrtnAssert
  | paceStep (failed : Bool) (readVout : Nat)
  | powerBudgetPeriod
  | temperatureRead (temps : List (BitVec 16))
  | vigil (p : Path)
  | run (p : Path)
  | vigilWakeTimer
  | vigilDdrReady
  -- calibration and relief
  | runFull (p : Path) (n : Chan)
  | runQuick (p : Path) (n : Chan)
  | relieve (p : Path) (n : Chan)
  | returnDut (p : Path) (n : Chan)
  | calPrecheckEnd (n : Chan) (raws : List (Int × Int))
  | calRunEnd (n : Chan) (e : RunEvent)
  | reliefSwitchMade (b : Bank)
  | reliefRampEnd (b : Bank)
  | reliefSwitchBroken (b : Bank)
  -- lanes and links
  | laneCfgWrite (p : Path) (onLane : Option Lane) (k : Lane) (v : Word)
  | slip (p : Path) (k : Lane)
  | laneRestart (p : Path) (k : Lane)
  | signalDetectRise (k : Lane)
  | injGo (p : Path) (k : Lane)
  | prbsClr (p : Path) (k : Lane)
  | pcieReset
  | ethernetLockRetry (k : Lane) (locked negotiated : Bool)
  | ethernetFrame (k : Lane) (f : EtherFrame) (len tags : Nat)
  | sibiaTrain (k : Lane) (sysid : BitVec 5) (ack : Bool)
  | sibiaTrainTimeout (k : Lane)
  | sibiaLinkLoss (k : Lane)
  | sibiaCalAsk (k : Lane)
  | sibiaCalReqSend (k : Lane)
  | sibiaCalReq (k : Lane) (seq : BitVec 6) (t1 t2 t3 : BitVec 40)
  | sibiaCalRsp (k : Lane) (seq : BitVec 6) (t3 t4 : BitVec 40)
  | sibiaCalReport (k : Lane) (seq : BitVec 6) (t4 : BitVec 40)
  | sibiaCalExchangeTimeout (k : Lane)
  | sibiaToken (k : Lane) (mask : BitVec 16) (a : BitVec 32)
  | sibiaSyncv (k : Lane) (cap : BitVec 48)
  -- the command path
  | fwCmdWrWrite (p : Path) (v : Word)
  | fwRspRdWrite (p : Path) (v : Word)
  | spiReadTransaction (addr count : Nat)
  | spiWriteTransaction (addr : Nat) (words : List Word)
  | hhtOpen (k : Lane) (host : HostAddr)
  | hhtClose (k : Lane) (host : HostAddr) (session : Word)
  | hhtKeepalive (k : Lane) (host : HostAddr) (session : Word)
  | hhtCmd (k : Lane) (host : HostAddr) (session : Word) (offset : Nat) (bytes : List Byte)
  | hhtRspack (k : Lane) (host : HostAddr) (session : Word) (offset : Nat)
  | hhtDack (k : Lane) (host : HostAddr) (session : Word) (stream : Fin 9) (offset : Nat)
  | hhtDnak (k : Lane) (host : HostAddr) (session : Word) (stream : Fin 9) (offset : Nat)
  | hhtDataSend (stream : Fin 9) (ecc : EccResult)
  | hhtSessionTimeout
  | hhtRspResend
  | hhtDataResend (stream : Fin 9)
  | hhtEventRepeat
  | ptpEventMessage (k : Lane) (kind : PtpKind) (sent : Bool) (tick : Nat) (domain : Byte) (time : Nat)
  | ptpMappingUpdate (tracked16s agree1us lost1000s : Bool)
  -- firmware
  | updOpen (h : Hdr) (kind : UpdKind) (slot : Bool) (digest : Digest) (token : Option Token)
  | updData (h : Hdr) (offset : Nat) (bytes : List Byte)
  | updFinish (h : Hdr) (recoveryHigh : Bool)
  | updAbort (h : Hdr)
  | updSessionTimeout
  | fwActivate (h : Hdr)
  | handoverPreloadDone
  | handoverImageStart (adopted : Bool)
  | fwConfirm (h : Hdr)
  | trialAutoconfirm
  | fwRestart (h : Hdr)
  | libActivate (h : Hdr)
  | setSave (h : Hdr) (blob : List Byte)
  | setDefaults (h : Hdr)
  | logRead (h : Hdr) (first count : Nat)
  -- later rows
  | registerWrite (p : Path) (addr : Nat) (v : Word) (be : BitVec 4)
  | stVisible (n : Chan) (x : Ctx)
  | plsnsOpen
  | plateAttestationSigned (fails : Nat)
  | ethernetLinkLoss (k : Lane)
  | pcieLinkUp (speed width : Nat)
  | hdrlockGain (k : Lane)
  | hdrlockLoss (k : Lane)
  | sibiaBadBlock (k : Lane)
  | lanePowerStateExit (k : Lane)
  | recoveryLaneAlternate
  deriving DecidableEq, Repr

end Sys2Proof
end

