-- ==== Sys2Proof/Decode.lean ====
section
/-!
DEFINITION. The decoder of table words (the table gives no row any bits), and the encoding of Krytger instruction words (Tables 4.2,
5.1, 5.4): the base word and the extension word of each instruction command, and the command that a pair of words spells.
-/
namespace Sys2Proof

/-- The command a table word spells: the table of operations and events gives no row any bits, so there is none (assumption 1). -/
def decodeTableWord (_nbits _w : Nat) : Option Instr := none

/-- Bit i of imm14. -/
def immBit (k : Fields) (i : Nat) : Bool := k.imm.getLsbD i

/-- Bits hi:lo of imm14. -/
def immField (k : Fields) (hi lo : Nat) : Nat := k.imm.toNat / 2 ^ lo % 2 ^ (hi - lo + 1)

/-- The base word of an opcode and its fields (Table 4.2). -/
def baseWord (op : BitVec 6) (k : Fields) : Word := op ++ k.a ++ k.b ++ k.c ++ k.imm

/-- The opcode of a base word. -/
def wordOp (w : Word) : BitVec 6 := w.extractLsb' 26 6

/-- The fields of a base word with its extension word. -/
def wordFields (w ext : Word) : Fields :=
  { a := w.extractLsb' 22 4, b := w.extractLsb' 18 4, c := w.extractLsb' 14 4, imm := w.extractLsb' 0 14, ext := ext }

/-- The opcodes that always carry an extension word (Table 5.2). -/
def extAlways (op : BitVec 6) : Bool := op == 0x02 || op == 0x04 || op == 0x0E

/-- The opcodes that carry an extension word when bit 13 is 1 (Table 5.2). -/
def extOnX (op : BitVec 6) : Bool :=
  op == 0x06 || (0x0F ≤ op && op ≤ 0x15) || op == 0x17 || op == 0x1A || op == 0x1B || op == 0x22
    || (0x24 ≤ op && op ≤ 0x27) || op == 0x2A || op == 0x2B || op == 0x2E || op == 0x2F || op == 0x31 || op == 0x33
    || (0x38 ≤ op && op ≤ 0x39) || op == 0x3B

/-- Whether a base word is followed by an extension word (R131). -/
def hasExt (op : BitVec 6) (k : Fields) : Bool := extAlways op || (extOnX op && immBit k 13)

/-- The six unassigned opcodes (Table 5.1). -/
def unassigned (op : BitVec 6) : Bool := op == 0x0B || (0x1C ≤ op && op ≤ 0x1F) || op == 0x3F

/-- A word whose form selector is reserved, so that it is no form of any mnemonic: opcode 0x16 with TYPE 0b11 and MEAS with FORM
0b11 (Tables 5.5 and 5.7). -/
def reservedForm (op : BitVec 6) (k : Fields) : Bool :=
  (op == 0x16 && immField k 11 10 == 3) || (op == 0x29 && immField k 13 12 == 3)

/-- The opcode of an instruction command, its Graver and its fields. -/
def instrParts : Instr → Option (BitVec 6 × Chan × Fields)
  | .nop n k => some (0x00, n, k)
  | .halt n k => some (0x01, n, k)
  | .jmp n k => some (0x02, n, k)
  | .jcc n k => some (0x03, n, k)
  | .call n k => some (0x04, n, k)
  | .ret n k => some (0x05, n, k)
  | .loop n k => some (0x06, n, k)
  | .endl n k => some (0x07, n, k)
  | .yield n k => some (0x08, n, k)
  | .fence n k => some (0x09, n, k)
  | .trap n k => some (0x0A, n, k)
  | .mov n k => some (0x0C, n, k)
  | .ldi n k => some (0x0D, n, k)
  | .ldx n k => some (0x0E, n, k)
  | .add n k => some (0x0F, n, k)
  | .sub n k => some (0x10, n, k)
  | .mul n k => some (0x11, n, k)
  | .mac n k => some (0x12, n, k)
  | .and n k => some (0x13, n, k)
  | .or n k => some (0x14, n, k)
  | .xor n k => some (0x15, n, k)
  | .shl n k => some (0x16, n, k)
  | .shr n k => some (0x16, n, k)
  | .asr n k => some (0x16, n, k)
  | .cmp n k => some (0x17, n, k)
  | .sat n k => some (0x18, n, k)
  | .abs n k => some (0x19, n, k)
  | .ld n k => some (0x1A, n, k)
  | .st n k => some (0x1B, n, k)
  | .mode n k => some (0x20, n, k)
  | .range n k => some (0x21, n, k)
  | .level n k => some (0x22, n, k)
  | .strobeSelect n k => some (0x23, n, k)
  | .strobeFire n k => some (0x23, n, k)
  | .clamp n k => some (0x24, n, k)
  | .slew n k => some (0x25, n, k)
  | .ramp n k => some (0x26, n, k)
  | .comps n k => some (0x27, n, k)
  | .connect n k => some (0x28, n, k)
  | .isolate n k => some (0x28, n, k)
  | .measSmode n k => some (0x29, n, k)
  | .measCount n k => some (0x29, n, k)
  | .aper n k => some (0x2A, n, k)
  | .autor n k => some (0x2B, n, k)
  | .tag n k => some (0x2C, n, k)
  | .pktClose n k => some (0x2D, n, k)
  | .pktAge n k => some (0x2D, n, k)
  | .play n k _ => some (0x2E, n, k)
  | .armj n k _ => some (0x2F, n, k)
  | .jseg n k _ => some (0x30, n, k)
  | .sweep n k _ => some (0x31, n, k)
  | .gen n k => some (0x32, n, k)
  | .gstop n k => some (0x32, n, k)
  | .rate n k => some (0x33, n, k)
  | .wait n k => some (0x34, n, k)
  | .waitt n k => some (0x35, n, k)
  | .waitev n k => some (0x36, n, k)
  | .emit n k => some (0x37, n, k)
  | .arm n k => some (0x38, n, k)
  | .blankLength n k => some (0x39, n, k)
  | .blank n k => some (0x39, n, k)
  | .syncf n k => some (0x3A, n, k)
  | .mark n k => some (0x3B, n, k)
  | .ldid n k => some (0x3C, n, k)
  | .cal n k => some (0x3D, n, k)
  | .rds n k => some (0x3E, n, k)
  | .rdt n k => some (0x3E, n, k)
  | .illegalOpcode n op k => some (op, n, k)
  | _ => none

/-- What an instruction's own read of memory finds: an operand of the commands that read a descriptor or a list, beside their words. -/
def instrRead : Instr → EccResult
  | .play _ _ e => e
  | .armj _ _ e => e
  | .jseg _ _ e => e
  | .sweep _ _ e => e
  | _ => .clean

/-- The command that a base word and its extension word spell for the Graver of channel n (Table 5.1, R155), with what its read finds. -/
def decodeWord (n : Chan) (w ext : Word) (ecc : EccResult) : Instr :=
  let op := wordOp w
  let k := wordFields w (if hasExt (wordOp w) (wordFields w 0) then ext else 0)
  match op.toNat with
  | 0x00 => .nop n k
  | 0x01 => .halt n k
  | 0x02 => .jmp n k
  | 0x03 => .jcc n k
  | 0x04 => .call n k
  | 0x05 => .ret n k
  | 0x06 => .loop n k
  | 0x07 => .endl n k
  | 0x08 => .yield n k
  | 0x09 => .fence n k
  | 0x0A => .trap n k
  | 0x0C => .mov n k
  | 0x0D => .ldi n k
  | 0x0E => .ldx n k
  | 0x0F => .add n k
  | 0x10 => .sub n k
  | 0x11 => .mul n k
  | 0x12 => .mac n k
  | 0x13 => .and n k
  | 0x14 => .or n k
  | 0x15 => .xor n k
  | 0x16 =>
    if immField k 11 10 = 0 then .shl n k else if immField k 11 10 = 1 then .shr n k
    else if immField k 11 10 = 2 then .asr n k else .illegalOpcode n op k
  | 0x17 => .cmp n k
  | 0x18 => .sat n k
  | 0x19 => .abs n k
  | 0x1A => .ld n k
  | 0x1B => .st n k
  | 0x20 => .mode n k
  | 0x21 => .range n k
  | 0x22 => .level n k
  | 0x23 => if immBit k 12 then .strobeFire n k else .strobeSelect n k
  | 0x24 => .clamp n k
  | 0x25 => .slew n k
  | 0x26 => .ramp n k
  | 0x27 => .comps n k
  | 0x28 => if immBit k 0 then .connect n k else .isolate n k
  | 0x29 =>
    if immField k 13 12 = 0 then .measSmode n k else if immField k 13 12 = 3 then .illegalOpcode n op k
    else .measCount n k
  | 0x2A => .aper n k
  | 0x2B => .autor n k
  | 0x2C => .tag n k
  | 0x2D => if immBit k 12 then .pktAge n k else .pktClose n k
  | 0x2E => .play n k ecc
  | 0x2F => .armj n k ecc
  | 0x30 => .jseg n k ecc
  | 0x31 => .sweep n k ecc
  | 0x32 => if immBit k 13 then .gstop n k else .gen n k
  | 0x33 => .rate n k
  | 0x34 => .wait n k
  | 0x35 => .waitt n k
  | 0x36 => .waitev n k
  | 0x37 => .emit n k
  | 0x38 => .arm n k
  | 0x39 => if immBit k 13 then .blankLength n k else .blank n k
  | 0x3A => .syncf n k
  | 0x3B => .mark n k
  | 0x3C => .ldid n k
  | 0x3D => .cal n k
  | 0x3E => if immBit k 13 then .rdt n k else .rds n k
  | _ => .illegalOpcode n op k

/-- The base word and the extension word (0 where there is none) of an instruction command. -/
def encodeWord (i : Instr) : Option (Word × Word) :=
  match instrParts i with
  | some (op, _, k) => some (baseWord op k, if hasExt op k then k.ext else 0)
  | none => none

end Sys2Proof
end

