-- ==== Sys2Proof/Config.lean ====
section
/-!
DEFINITION. What the manual leaves open (free values: constants without a body, so that no proof can see a value) and what lies
outside it (the standard hash and signature schemes it names and does not explain again).
-/
namespace Sys2Proof.Config

/-- SHAKE256 of FIPS 202 with 256 bits of output (10_trust_proof), over a list of bytes: uninterpreted (assumption 3). -/
opaque shake256 : List Byte → Digest

/-- Verification of an RFC 8391 signature under a public key, over a message: uninterpreted (assumption 3). -/
opaque verifies : (publicKey message signature : List Byte) → Bool

/-- What stands behind the index field of the device key's signature with a one-time index over a message (R333): uninterpreted (assumption 3). -/
opaque deviceSign : (index : Nat) → (message : List Byte) → List Byte

/-- The entropy source (R348, R331, R364): the n-th draw of 32 bytes. A free value. -/
opaque entropy : Nat → Digest

/-- R98 step 1: what the corrections for offset, gain and linearity add to the extended value of a raw code, given the residual offset (2^-8
result LSB), the residual gain (ppb), the reference value (0.01 ppm) and the sixteen trim codes of the set in force. The manual names the
corrections and states no formula. A free value. -/
opaque calibrate : (raw offset gain refv : Int) → (trims : List Nat) → Int

/-- Table 13.1: what one step of a trim's code is worth, in ppb of a gain and in nV at the pins of an offset. The manual gives the codes no scale. A free
value. -/
opaque trimStep : (trim : Nat) → Nat

/-- R496: the SINC3 output for a history that is not constant, in units of `scale` units of the history (R104). The FIR coefficients are not
published. A free value. -/
opaque sinc3 : (n : Nat) → (history : List Int) → (scale : Nat) → Int

/-- R224: the interpolated value for eight taps and one of the 1,024 phases other than phase 0. The taps are not published. A free value. -/
opaque resample : (taps : List Int) → (phase : Nat) → Int

/-- R238: how far an entry of the quarter-wave sine table lies from the sine, in units of 2^-40; the entries are not printed. A free value. -/
opaque sineTable : (entry : Nat) → Int

/-- R68: the fit of a parallel resistance and capacitance to the 64 voltage and current pairs: C_M, C_E, R_M, R_E, residual in
parts per thousand, and whether the capacitance exceeds 100 uF. The manual states no algorithm. A free value. -/
opaque ldidFit : List (Int × Int) → (Nat × Nat × Nat × Nat × Nat × Bool)

/-- R20, R281: whether a metastable wait delays the measurement of a device unit past the unit's close. A free value. -/
opaque delayed : (unit start stop : Nat) → Bool

/-- R317: the entry that a full IOTLB gives up for a translation. A free value. -/
opaque iotlbVictim : (asid page : Nat) → Nat

/-- A value that the manual leaves open, fresh at each use: the counter of the state numbers the uses. -/
opaque freeWord : (use : Nat) → Word

/-- The entries of the event log, whose format the manual leaves to the firmware: an entry's 64 bytes from its kind (1: settings reset,
with the old SETFMT; 2: the board's BOARD_ID at boot) and value. A free value. -/
opaque logEntry : (kind value : Nat) → List Byte

/-- R327: the OID that RFC 8391's registry gives the parameter set of height h in d layers (d = 1: XMSS). Outside the manual: uninterpreted. -/
opaque oid : (h d : Nat) → Nat

/-- A public key as RFC 8391 encodes it (R327): the OID of its parameter set, the root of its tree, the public seed; each a byte string, highest byte
first. -/
def publicKey (h d : Nat) (root seed : Digest) : Vector Byte 68 :=
  let v := oid h d % 2 ^ 32 * 2 ^ 512 + root.toNat * 2 ^ 256 + seed.toNat
  Vector.ofFn fun i => BitVec.ofNat 8 (v / 256 ^ (67 - i.val))

/-- The device's identity, fused
and written at manufacture (Tables 10.2, 16.3): the serial number, the grade (true: FI; R9 has two), the tree root and the public seed of the device
key and of Nexarel's root key, the index and the root signature of the certificate. -/
opaque serial : BitVec 128
opaque gradeFi : Bool
opaque deviceRoot : Digest
opaque deviceSeed : Digest
opaque certIndex : BitVec 64
opaque certSignature : Vector Byte 14824
opaque rootRoot : Digest
opaque rootSeed : Digest

/-- The device public key and Nexarel's root public key, each of the parameter set that Table 10.1 gives it. -/
def devicePk : Vector Byte 68 := publicKey 40 4 deviceRoot deviceSeed
def rootKey : Vector Byte 68 := publicKey 60 6 rootRoot rootSeed

/-- R329: what the fuses hold of the root public key. -/
def rootDigest : Digest := shake256 ([0x70] ++ rootKey.toList)

/-- R333: whether a power failure interrupts a write of an index slot, at the n-th boot. A free value. -/
opaque tornSlot : (boot : Nat) → Bool

/-- R445, R451, R455, R462: whether the read-back of the n-th write of the directory, of a recovery image, of the security version counter or of the
settings passes. A free value. -/
opaque readback : (write : Nat) → Bool

/-- R297: the place, base and size in units, that the firmware gives a queue of its own. A free value. -/
opaque queuePlace : (queue : Nat) → Nat × Nat

/-- R418: the default entry of a board table that is absent or not readable. A free value. -/
opaque defaultEq : Word

/-- Table 14.11: SMAX, the most data bytes of a DATA datagram, which the manual gives no value. A free value. -/
opaque hhtSmax : Nat

/-- R440: the characterised latency of a lane in ticks, by its protocol, of what it sends and of what it receives. A free value. -/
opaque laneLatency : (proto : Nat) → (sent : Bool) → Nat

/-- LN_PCIE_STAT [31:28]: the code of an LTSSM state, 1 L0, 2 L1 and 3 L2, which the manual does not give; that of Detect, state 0, is the reset
value 0. A free value. -/
opaque ltssmCode : (state : Nat) → BitVec 4

end Sys2Proof.Config
end

