-- ==== Sys2Proof/Machine/State.lean ====
section
/-!
DEFINITION. The state of the HK6480: every register, memory, queue, counter, mode and pin that the manual gives it, as plain data,
and the queue of commands that wait.
-/
namespace Sys2Proof.Machine

/-- No command of this part ends the machine with a fault: the manual reports every error in registers, records and states.
The type is closed and empty, so `step` answers no fault (safe: nothing is assumed of a stop). -/
inductive Fault where
  deriving DecidableEq, Repr

/-- Why a command has no meaning. -/
inductive Refusal where
  /-- A command of the table that the model gives no meaning yet. Raised by `exec` only (safe: it claims nothing). -/
  | notModelled (mnemonic : String)
  deriving DecidableEq, Repr

/-- Addressed bytes in canonical form: addresses strictly rising, no entry equal to what an unlisted address reads as (0). -/
abbrev Mem := List Host.Cell

/-- Channel modes (Table 2.3). -/
inductive Mode where
  | inert | fv | fi | meas
  deriving DecidableEq, Repr

/-- Stream modes (Table 3.5). -/
inductive SMode where
  | off | latest | cont | trig
  deriving DecidableEq, Repr

/-- Aperture filters (Table 3.3). -/
inductive Filt where
  | raw | sinc3 | box | plc
  deriving DecidableEq, Repr

/-- A slew setting (R57). -/
structure Slew where
  e : Nat := 10
  m : Nat := 1
  period : Nat := 1
  deriving DecidableEq, Repr

/-- The compensation settings of CH_COMP (Table 2.27). -/
structure Comp where
  trimEn : Bool := true
  swAuto : Bool := false
  autoSteps : Nat := 0
  compMax : Nat := 15
  swThr : Nat := 3
  swWin : Nat := 4
  comp : Nat := 3
  deriving DecidableEq, Repr

/-- The ranges of a channel or intent (Table 2.10): VRANGE 0 to 2, IRANGE 0 to 8. -/
structure Ranges where
  v : Nat := 2
  i : Nat := 8
  deriving DecidableEq, Repr

/-- The two clamp codes of a pair (R61). -/
structure Clamps where
  hi : Int := 3277
  lo : Int := -3277
  deriving DecidableEq, Repr

/-- A segment descriptor as decoded from its four words (Table 6.4). -/
structure Desc where
  base : Nat
  ecode : Nat
  rate : Nat
  length : Nat
  loops : Nat
  next : Int
  fallback : Int
  ends : Bool
  fbEnds : Bool
  abortUndr : Bool
  deriving DecidableEq, Repr

/-- A hold of a playback or sweep (R222, R228, R230): the sample ticks held so far, and the sample or entry that was missing. -/
structure Hold where
  ticks : Nat
  missing : Nat := 0
  deriving DecidableEq, Repr

/-- What a read of a chain's descriptor gave: the descriptor, or a reserved value in it (R216). -/
inductive DescRead where
  | good (d : Desc)
  | bad
  deriving DecidableEq, Repr

/-- What follows the pass in play, once its last sample is committed (R225): the next pass, the successor, the armed target of a jump
request (its descriptor and address, LATE, the first sample tick after the request), the end of the chain, or a fallback (R232). -/
inductive Decision where
  | pass
  | next
  | jump (addr : Nat) (d : Desc) (late : Bool) (req : Nat)
  | finish
  | fallback
  deriving DecidableEq, Repr

/-- A segment playback (R212): the descriptor in play and its window address, the position p = index + frac/2^31, the passes left with
the present one (none: endless), the last sample committed in this pass, the descriptor that NEXT or FALLBACK names once it is read,
the decision of R225 once made, a hold, a refill under R222, and the jump that started the pass. -/
structure Playback where
  addr : Nat
  desc : Desc
  index : Nat := 0
  frac : Nat := 0
  passes : Option Nat
  committed : Option Nat := none
  successor : Option DescRead := none
  decided : Option Decision := none
  hold : Option Hold := none
  refill : Bool := false
  jumped : Option (Bool × Nat) := none
  deriving DecidableEq, Repr

/-- A sweep entry (Table 6.8). -/
structure Entry where
  mrk : BitVec 4
  evt : Bool
  cpstop : Bool
  ecode : Nat
  level : Int
  mcount : Nat
  dwell : Nat
  deriving DecidableEq, Repr

/-- A sweep (R234 to R237): list address, number of entries, the next entry's number, the entry in progress, whether its level has yet to become
the target (R60), the entry taken from the buffers for the next start tick with what the clamp detector reports at that tick, the sample ticks since its start, the results still to count, the
sample ticks to the next entry's start once a count has ended, and a hold. -/
structure Sweep where
  list : Nat
  count : Nat
  index : Nat := 0
  entry : Option Entry := none
  due : Bool := false
  staged : Option (Entry × Bool) := none
  elapsed : Nat := 0
  counting : Option (Nat × Bool) := none
  lag : Option Nat := none
  hold : Option Hold := none
  deriving DecidableEq, Repr

/-- A generator (R238). -/
structure Gen where
  shape : Nat
  offset : Int
  amp : Nat
  phase : Word
  inc : Word
  deriving DecidableEq, Repr

/-- The one target supplier of a context (R211). -/
inductive Supplier where
  | none
  | play (p : Playback)
  | sweep (w : Sweep)
  | gen (g : Gen)
  deriving DecidableEq, Repr

/-- An armed jump target (R194): the descriptor's address, the descriptor, whether the jump head store holds samples of its head, and whether it
holds them all. -/
structure Armed where
  addr : Nat
  desc : Desc
  headHeld : Bool := false
  headDone : Bool := false
  deriving DecidableEq, Repr

/-- A pending jump request (R225, R226): the first sample tick after it, whether it came at or after the commit instant of the pass then playing, and
whether tokens alone made it (R265). -/
structure JumpReq where
  tick : Nat
  late : Bool
  token : Bool
  deriving DecidableEq, Repr

/-- The output intent of a context (R141). `last` is the active mode that an INERT mode followed: the codes remain codes of its quantities. -/
structure Intent where
  mode : Mode := .inert
  last : Mode := .inert
  ranges : Ranges := {}
  level : Int := 0
  staged : Option Int := none
  clamps : Clamps := {}
  slew : Slew := {}
  comp : Comp := {}
  strobe : BitVec 4 := 0
  /-- The ranges that the level code and the clamp codes are codes of (R72, R76): a range change that is still to come re-scales them from here. -/
  levelIn : Ranges := {}
  clampsIn : Ranges := {}
  deriving DecidableEq, Repr

/-- What a WAITING context waits for (Table 4.4). A FENCE notes a safe state that the channel entered meanwhile (R168). -/
inductive Waiting where
  | wait (left : Nat)
  | waitt (t : Nat)
  | waitev (reg : BitVec 4) (mask : BitVec 4) (left : Option Nat)
  | fence (mem out safe : Bool)
  | meas (left : Nat) (armed : Bool) (due : Option Nat)
  | play
  | sweep
  | syncf
  | firmware
  deriving DecidableEq, Repr

/-- Suspension causes (Table 4.7). -/
inductive Cause where
  | illegal | xlateFetch | xlateData | priv | trap (code : Byte)
  deriving DecidableEq, Repr

/-- Context states (Table 4.4). READY and RUNNING differ by the Graver's decision alone. -/
inductive CtxState where
  | halted
  | ready
  | running
  | waiting (w : Waiting)
  | suspended (c : Cause) (resolving : Bool)
  deriving DecidableEq, Repr

/-- One loop counter of a context with its start and end address (R125). -/
structure LoopCounter where
  count : Word := 0
  start : Word := 0
  stop : Word := 0
  deriving DecidableEq, Repr

/-- A store that is not visible yet (R178): address space, device virtual address, physical address, data. -/
structure Store where
  asid : Nat
  va : Nat
  pa : Nat
  data : Word
  deriving DecidableEq, Repr

/-- Why the execution unit of a Graver is held by its running context (R140). -/
inductive Busy where
  | fetch
  | load (dest : BitVec 4) (va pa : Nat)
  | store (st : Store)
  | playFill (addr : Nat) (d : Desc) (wt : Bool)
  | sweepFill (list count : Nat) (wt : Bool)
  | ldid (dest : BitVec 4)
  deriving DecidableEq, Repr

/-- One of the four contexts of a Graver (R125, R135). `modeHeld` says that its MODE took effect while the identity of the slot was being read (R92). -/
structure Context where
  g : Vector Word 16 := Vector.replicate 16 0
  lc : Vector LoopCounter 4 := Vector.replicate 4 {}
  z : Bool := false
  n : Bool := false
  c : Bool := false
  v : Bool := false
  pc : Word := 0
  ur : Bool := false
  state : CtxState := .halted
  obs : Bool := false
  yields : Nat := 0
  haltReq : Bool := false
  stores : List Store := []
  intent : Intent := {}
  modeHeld : Bool := false
  supplier : Supplier := .none
  startNext : Option Supplier := none
  stopGen : Bool := false
  rate : Word := 0
  armed : Option Armed := none
  jumpReq : Option JumpReq := none
  lfsr : Word := 1
  faultAddr : Word := 0
  faultImm : Bool := false
  deriving DecidableEq, Repr

/-- A Graver (R125 to R154). `prefetchStalled` says that a prefetch waits for a page, `prefetchEcc` that it met an uncorrectable error and waits for
its playback to stop (R319, R320); `granted` names the context whose missed fetch has landed: the decision that gave it the unit still stands (R136,
R140). -/
structure Graver where
  ctx : Vector Context 4 := Vector.replicate 4 {}
  busy : Option (Ctx × Busy) := none
  busyExt : Bool := false
  granted : Option Ctx := none
  runctx : Ctx := 0
  imm : List Word := []
  immBusy : Bool := false
  immOvf : Bool := false
  immRej : Bool := false
  ctrlRej : Bool := false
  wbase : BitVec 16 := 0
  asid : BitVec 4 := 0
  obsNext : Bool := false
  ctxSel : BitVec 2 := 0
  buf : List (Nat × Word) := []
  bufOwner : Option Ctx := none
  sweptList : Option (Nat × BitVec 4 × Nat) := none
  head : List (Nat × Word) := []
  prefetchStalled : Bool := false
  prefetchEcc : Bool := false
  deriving DecidableEq, Repr

/-- Phases of leaving INERT (Table 2.4). -/
inductive Leave where
  | rails | switches | enabling | acknowledged
  deriving DecidableEq, Repr

/-- Phases of entering INERT (the four steps of R49). -/
inductive Enter where
  | ramp | relay | disabling | parking
  deriving DecidableEq, Repr

/-- The mode sequence in progress on a channel (R494). -/
inductive Seq where
  | idle
  | leaving (ph : Leave)
  | entering (ph : Enter)
  deriving DecidableEq, Repr

/-- Instants of a bridged range change (Table 2.11): between t0 and t2, t2 and t4, t4 and t5. -/
inductive BridgePhase where
  | closing | opening | settling
  deriving DecidableEq, Repr

/-- A bridged change of one element on the way to the ranges that `goal` asks for: `ready` says that the end of its phase has come and the next
sample tick carries it out, `ticks` counts the sample ticks since t4. -/
structure Bridge where
  phase : BridgePhase
  old : Ranges
  dst : Ranges
  goal : Ranges
  ready : Bool := false
  ticks : Nat := 0
  deriving DecidableEq, Repr

/-- The output relay (R78). -/
inductive Relay where
  | open_ | making | closed | breaking
  deriving DecidableEq, Repr

/-- The safe-state sequence of a channel (R83): the lowest cause, the DAC's destination, whether the relay has been told to open, whether a trigger asks
for the immediate move. -/
structure Safe where
  cause : Nat
  dest : Int
  opened : Bool
  imm : Bool := false
  deriving DecidableEq, Repr

/-- The safety record (Table 2.12); the defaults are the values as shipped. -/
structure Safety where
  park : Int := 0
  fault : Int := 0
  imm : Bool := true
  e : Nat := 0
  m : Nat := 1
  period : Nat := 1
  openDly : Nat := 100
  deriving DecidableEq, Repr

/-- Load identification in progress (R68): the phase, the target before it, and the sample pairs collected. -/
structure LdidRun where
  phase : Nat
  ticks : Nat
  pairs : List (Int × Int)
  compliance : Bool
  deriving DecidableEq, Repr

/-- The CPS unit of a slot as the device sees it (R44, Tables 2.18 and 2.19): `railok` is RAILOK of the last poll. -/
structure Slot where
  ident : List (BitVec 14) := []
  reading : Option Nat := none
  status : BitVec 14 := 0
  railok : Bool := false
  railBad : Nat := 0
  failed : Bool := false
  deriving DecidableEq, Repr

/-- The force path of a channel (02_channel_force). `waitingAuto` is an automatic range request that waits behind a bridged change (true: of the
current range), `judged` says that a sample tick has looked for an owner, `breakRuns` that a relay break time runs (R78), `fltAt` is the tick
of the latched trigger, `causes` lists the triggers met since its safe-state sequence began (R84), `parkCtx` is the context whose MODE INERT takes the
channel down (R179), `blankDue` says that a level which came in a relay break has yet to start its change blank (R252), `swTicks` counts the sample ticks of the stability watch (R69) and `trimTicks` those of the trim loop (R70), `perturb` is what
LDID adds to the DAC code (R68). `railWant` and `railHist` hold the rail codes that sample ticks required and the codes in force (R387, R388),
each from its tick on, oldest first. -/
structure Force where
  mode : Mode := .inert
  ranges : Ranges := {}
  clamps : Clamps := {}
  satHi : Bool := false
  satLo : Bool := false
  slew : Slew := {}
  strobe : BitVec 4 := 0
  comp : Comp := {}
  applied : Intent := {}
  owner : Ctx := 0
  target : Int := 0
  dac : Int := 0
  slewPhase : Nat := 0
  strobed : Bool := false
  seq : Seq := .idle
  inertReq : Bool := false
  parkCtx : Option Ctx := none
  blankDue : Bool := false
  deferred : Bool := false
  endedEarly : Bool := false
  bridge : Option Bridge := none
  waitingAuto : Option (Bool × Nat) := none
  switching : Bool := false
  noOwner : Bool := false
  judged : Bool := false
  relay : Relay := .open_
  breakRuns : Bool := false
  oen : Bool := false
  cpsen : Bool := false
  fltLatch : Bool := false
  fcause : Nat := 0
  fltAt : Nat := 0
  causes : List Nat := []
  safe : Option Safe := none
  fltLow : Bool := false
  osc : Bool := false
  inComp : Bool := false
  compHi : Bool := false
  loopTicks : Nat := 0
  relieved : Bool := false
  parkDefault : Bool := false
  lvlClip : Bool := false
  clampRej : Bool := false
  swTicks : Nat := 0
  trim : Int := 0
  trimTicks : Nat := 0
  ldid : Option LdidRun := none
  perturb : Int := 0
  safety : Safety := {}
  railP : Nat := 0
  railN : Nat := 0
  railWant : List (Nat × Nat × Nat) := []
  railHist : List (Nat × Nat × Nat) := []
  rlate : Bool := false
  slot : Slot := {}
  deriving DecidableEq, Repr

/-- The measurement settings of a channel (R108) and those that a later sample tick applies. -/
structure MeasCfg where
  smode : SMode := .off
  filt : Filt := .sinc3
  n : Nat := 2000
  line60 : Bool := false
  nplc : Nat := 1
  vsel : Bool := true
  isel : Bool := true
  auto : Bool := false
  lo : Nat := 0
  hi : Nat := 8
  d : Nat := 2000
  ageMs : Nat := 10
  deriving DecidableEq, Repr

/-- One conversion under way: its sample tick, the ranges in force, the qualifiers and settings of that instant (R97, R103, R108), a
restart of the filter (R100), and, when a filtered output ends with it, the window of contributing samples in thirds of a sample period
(R102) and whether the output is a result of the stream mode (Table 3.5, R110); whether it is a conversion of vigil (R392), the rail codes
in force (R390), whether each Hatch unit of the channel folds (R282, R283), the path resistance that compensates the pair (R374) and the
PATH word of that instant (R118). -/
structure Conv where
  tick : Nat
  ranges : Ranges
  ranging : Bool := false
  held : Bool := false
  forced : Mode := .inert
  ldid : Bool := false
  cfg : MeasCfg := {}
  restart : Bool := false
  win : Option (Nat × Nat) := none
  res : Bool := false
  vigil : Bool := false
  rails : Nat × Nat := (0, 0)
  foldV : Bool := false
  foldI : Bool := false
  rp : Option Nat := none
  path : Word := 0
  deriving DecidableEq, Repr

/-- One raw sample pair in the filter history, in units of FS / 2^23, with its qualifiers. -/
structure Raw where
  tick : Nat
  v : Int
  i : Int
  ranges : Ranges
  qual : Nat
  vOver : Bool
  iOver : Bool
  deriving DecidableEq, Repr

/-- A dated word held back until every word with an earlier instant is committed (R117): instant, order among equals, word. -/
structure Dated where
  tick : Nat
  order : Nat
  w : Word
  deriving DecidableEq, Repr

/-- The open packet of a channel (R114): words so far, the instant of its first dated word, bits 63:48 and 47:24 of the last timestamp
group, and the instant of its last result. -/
structure Packet where
  count : Nat
  first : Nat
  hi : Nat
  mid : Nat
  last : Option Nat
  deriving DecidableEq, Repr

/-- The APER and PATH words and the stream mode of a channel from a sample tick on (R112, R118). -/
structure Setting where
  since : Nat
  smode : SMode
  aper : Word
  path : Word
  deriving DecidableEq, Repr

/-- The latest-value registers and their snapshots (R122). -/
structure Latest where
  v : Word
  i : Word
  seq : Word
  deriving DecidableEq, Repr

/-- The measurement path of a channel (03_channel_measure). -/
structure Measure where
  cfg : MeasCfg := {}
  next : Option MeasCfg := none
  since : Nat := 0
  aperture : Option Nat := none
  trigPending : Bool := false
  trigNow : Bool := false
  convs : List Conv := []
  hist : List Raw := []
  latest : Latest
  snaps : Vector Latest 8
  lastResult : Option Nat := none
  extV : Int := 0
  extI : Int := 0
  extRanges : Ranges := {}
  downCount : Nat := 0
  dated : List Dated := []
  closes : List (Nat × Nat) := []
  packet : Option Packet := none
  seq : Nat := 0
  path : Word := 0
  settings : List Setting := []
  deriving DecidableEq, Repr

/-- What a comparator stood at before the last sample tick: its configuration, its state, whether it was blanked, whether the tick left its state
alone. -/
structure CmpWas where
  cfg : Word
  state : CmpState
  blanked : Bool
  kept : Bool
  deriving DecidableEq, Repr

/-- A window comparator (07_comparators_tracer). `was` is what a decision dated before the last sample tick is made from (R249). -/
structure Comparator where
  cfg : Word := 0
  next : Option Word := none
  state : CmpState := .unresolved
  fifo : List Nat := []
  ovf : Bool := false
  sat : Bool := false
  latAbove : Bool := false
  latBelow : Bool := false
  blankLen : Nat := 0
  changeBlank : Option Nat := none
  changeWait : Bool := false
  commandNext : Option Nat := none
  commandBlank : Option Nat := none
  modeBlank : Option Nat := none
  vigil : Bool := false
  was : Option CmpWas := none
  deriving DecidableEq, Repr

/-- A calibration set (Table 13.4). -/
structure CalSet where
  seq : Nat := 0
  calcnt : Nat := 0
  run : Bool := false
  refvSet : Bool := false
  tRun : Nat := 0
  epochRun : Nat := 0
  epochRef : Nat := 0
  cpsId : List (BitVec 14) := []
  safety : Safety := {}
  segmap : List (BitVec 16) := List.replicate 32 0xFFFF
  adcred : BitVec 12 := 0
  trims : List (BitVec 12) := List.replicate 16 0
  coef : List (Int × Int) := List.replicate 12 (0, 0)
  refv : List Int := List.replicate 12 0
  deriving DecidableEq, Repr

/-- Phases of CAL_CH_STAT (Table 13.9). -/
inductive CalPhase where
  | idle | takeover | run | store | handback | relieved
  deriving DecidableEq, Repr

/-- Phases of a run before its store (Table 13.3). -/
inductive RunStep where
  | precheck | adc | dac | clamps | loop | check
  deriving DecidableEq, Repr

/-- The calibration state of a channel (13_calibration). `step` is the phase of a run in progress, `storing` the set that is being written into the slot not
in force. -/
structure Calib where
  phase : CalPhase := .idle
  full : Bool := false
  handback : Bool := false
  epoch : Nat := 0
  slots : List (Option CalSet) := [some { seq := 1, calcnt := 1, run := true, refvSet := true }, none]
  slot : Nat := 0
  nocal : Bool := false
  cpschg : Bool := false
  last : Nat := 0
  failcnt : Nat := 0
  step : RunStep := .precheck
  storing : Option CalSet := none
  deriving DecidableEq, Repr

/-- Power registers of a channel (12_power_rails). -/
structure ChanPower where
  track : Bool := false
  tlead : Nat := 20
  thold : Nat := 10
  margin : Nat := 40
  budx : Bool := false
  act : Bool := false
  budget : Nat := 0
  power : Nat := 0
  samples : Nat := 0
  sum : Int := 0
  deriving DecidableEq, Repr

/-- An entry of a channel's chain (R336): the instant of a packet's first dated word (none for a GAP word), the head after it, its
words, the words a GAP counts, a packet's sequence number, the tick of its commit, whether a DISABLE committed the GAP, and, when no Proof interval ran at
its commit, the number of the Proof that covers it at the latest (R338). -/
structure ChainEntry where
  first : Option Nat
  commit : Nat
  head : Digest
  words : Nat
  gap : Nat
  seq : Option Nat
  byDisable : Bool := false
  owed : Option Nat := none
  deriving DecidableEq, Repr

/-- The hash chain of a channel (R336, R338): its head, the entries no Proof covers yet, commit tick and sequence number of the last packet
that a Proof covers, the head after the last covered entry, and the CFLAGS of Table 10.6. -/
structure ChanProof where
  head : Digest := 0
  entries : List ChainEntry := []
  covered : Digest := 0
  lastCovered : Option (Nat × Nat) := none
  cflags : Nat := 0
  deriving DecidableEq, Repr

/-- A channel. -/
structure Channel where
  force : Force := {}
  graver : Graver := {}
  meas : Measure
  cmpA : Comparator := {}
  cmpB : Comparator := {}
  cal : Calib := {}
  pwr : ChanPower := {}
  proof : ChanProof := {}
  marks : BitVec 4 := 0
  markNext : List (Nat × BitVec 4) := []
  held : Bool := false
  deriving DecidableEq, Repr

/-- A CPS command word as the device queues it (Table 2.17). -/
structure CpsCmd where
  slot : Nat
  op : Nat
  arg : Nat
  tries : Nat
  restart : Bool
  deriving DecidableEq, Repr

/-- A bank die, its CPS link and its relief bus. `arrived` holds the status words that wait to cross with the converter results (R90): slot,
whether they answer a POLL, status, and the sample tick in which they arrived. -/
structure BankState where
  supplies : Bool := false
  up : Bool := false
  linkErr : Bool := false
  downs : Nat := 0
  linkUp : Bool := false
  linkDown : Bool := false
  queue : List CpsCmd := []
  sent : List CpsCmd := []
  arrived : List (Nat × Bool × BitVec 14 × Nat) := []
  word : Word := 0
  pollSlot : Nat := 0
  sincePoll : Nat := 0
  failedPolls : Nat := 0
  restartSlot : Option Nat := none
  restartOk : Bool := true
  lines : List (BitVec 4 × Nat × List Word) := []
  hot : Bool := false
  budx : Bool := false
  act : Bool := false
  budget : Nat := 0
  power : Nat := 0
  supplyLost : Bool := false
  deriving DecidableEq, Repr

/-- The phase of a relief of a bank (Tables 13.5 and 13.6). -/
inductive ReliefPhase where
  | bringUp      -- t0 to t1 of a takeover
  | toFi         -- the sample tick after t1
  | switching    -- t1 to t2
  | ramp         -- t2 to t3
  | isolating    -- t3 to t4
  | parking      -- t4 to t5
  | carrying     -- the DUT is on the relief channel
  | backUp       -- t0 to t1 of a handback
  | connecting   -- t1 to t2
  | backRamp     -- t2 to t3
  | toMode       -- the sample tick after t3
  | releasing    -- t3 to t4
  deriving DecidableEq, Repr

/-- A relief in a bank (R410 to R413): the main slot, the phase, the captured intent, the ramp (ticks done, the level ramped). -/
structure Relief where
  slot : Nat
  phase : ReliefPhase
  captured : Intent
  rampTick : Nat
  rampLevel : Int
  forRun : Bool
  deriving DecidableEq, Repr

/-- The timebase (01_timing_domains). `fineTicks` counts the sample ticks since the fine phase last moved or took a target (R37),
`syncoPulses` are the counter values at which the pulses on SYNCO start (R34). -/
structure Timebase where
  now : Nat := 0
  lastSample : Option Nat := none
  lastSlot : Option Nat := none
  lock : Bool := false
  freerun : Bool := false
  reflost : Bool := false
  aligned : Bool := false
  holdover : Bool := false
  syncSeen : Bool := false
  syncMismatch : Bool := false
  loadRefused : Bool := false
  dupId : Bool := false
  syncCount : Nat := 0
  syncoEn : Bool := false
  syncMode : BitVec 2 := 0
  timingRef : Bool := false
  skewEn : Bool := false
  syncVal : Nat := 0
  syncCap : Nat := 0
  phaseTarget : Nat := 0
  fine : Nat := 0
  period : BitVec 16 := 0
  lane : BitVec 2 := 0
  asym : Int := 0
  ofsValid : Bool := false
  ofs : Int := 0
  edgePhase : Nat := 0
  measuring : Bool := false
  exchanges : Nat := 0
  dropped : Nat := 0
  sumOfs : Int := 0
  fineTicks : Nat := 0
  exchange : Option (Nat × Nat × Nat × Nat) := none
  syncoPulses : List Int := []
  deriving DecidableEq, Repr

/-- A marker pin's configuration and level (Table 6.10). -/
structure MarkPin where
  cfg : Word := 0
  level : Bool := false
  edges : List (Nat × Bool) := []
  deriving DecidableEq, Repr

/-- A Tracer channel (R256 to R262). -/
structure TracerChan where
  en : Bool := false
  direct : Bool := false
  rmode : BitVec 2 := 0
  rlane : BitVec 2 := 0
  src : Nat := 511
  flag : Bool := false
  trip : Bool := false
  count : Nat := 0
  merge : Nat := 0
  offered : Nat := 0
  queue : List Nat := []
  deriving DecidableEq, Repr

/-- A consumer input of Table 7.7. -/
structure Consumer where
  sel : Nat := 255
  acc : Bool := false
  pend : Nat := 0
  ovf : Bool := false
  deriving DecidableEq, Repr

/-- A token on its way to TIMED channels: the source, the slot from which it can be accepted, whether it comes after that slot, its tick. -/
structure Ingress where
  src : Nat
  slot : Nat
  late : Bool
  tick : Nat
  deriving DecidableEq, Repr

/-- An accepted token of a TIMED channel: its delivery slot and its tick. -/
structure Flight where
  tc : Nat
  slot : Nat
  tick : Nat
  deriving DecidableEq, Repr

/-- An interrupt mapper entry (Table 7.13). -/
structure ImEntry where
  en : Bool := false
  irqen : Bool := false
  irq : BitVec 2 := 0
  vector : BitVec 6 := 0
  pend : Bool := false
  deriving DecidableEq, Repr

/-- An entry of the MSI-X table (R423); masked until it is written (assumption 25). -/
structure MsixEntry where
  addr : Word := 0
  addrHi : Word := 0
  data : Word := 0
  control : Word := 1
  deriving DecidableEq, Repr

/-- The Tracer and the interrupt mapper. `grpWrite`, `grpTokens` and `timedTokens` (tokens of DIRECT channels for consumers in slots) hold
what waits for a slot boundary, each with the slot that takes it (R30, R259, R260). `sent` lists the MSI-X messages sent, `masked` the vectors whose message is held back by the
mask bit of their entry (R270) or because MSI-X is not enabled (R424), which `msixEn` says. -/
structure Tracer where
  en : Bool := false
  irqoe : Bool := false
  late : Bool := false
  lateCount : Nat := 0
  tc : Vector TracerChan 128 := Vector.replicate 128 {}
  cons : Vector Consumer 551 := Vector.replicate 551 {}
  grpEn : BitVec 16 := 0xFFFF
  grpWrite : List (BitVec 16 × Nat) := []
  grpTokens : List (Nat × Nat) := []
  evi : Word := 0
  evo : Word := 0
  evoLevel : BitVec 8 := 0
  evoPulse : BitVec 8 := 0
  lat : Nat := 64
  ingress : List Ingress := []
  flights : List Flight := []
  remote : List Flight := []
  im : Vector ImEntry 320 := Vector.replicate 320 {}
  msix : Vector MsixEntry 64 := Vector.replicate 64 {}
  unacked : List Nat := []
  sent : List Nat := []
  masked : List Nat := []
  msixEn : Bool := false
  timedTokens : List (Nat × Nat) := []
  groupStrobes : BitVec 8 := 0
  deriving DecidableEq, Repr

/-- The contents of a Hatch unit's buffer (Table 8.1). -/
structure HatchBuf where
  count : Nat := 0
  min : Int := 8388607
  minT : Nat := 2 ^ 64 - 1
  max : Int := -8388608
  maxT : Nat := 2 ^ 64 - 1
  sum : Int := 0
  sumsq : Nat := 0
  bins : List (Nat × Nat) := []
  under : Nat := 0
  overs : Nat := 0
  q : List Nat := [0, 0, 0, 0]
  enabled : Bool := false
  part : Bool := false
  bsat : Bool := false
  deriving DecidableEq, Repr

/-- The configuration of a Hatch unit (Table 8.8 and HT_UNIT_BASE). -/
structure UnitCfg where
  inp : Bool := false
  hist : Bool := true
  k : Nat := 0
  excl : BitVec 4 := 0
  urange : Nat := 0
  base : Int := -256
  deriving DecidableEq, Repr

/-- A Hatch unit (R279). `since` is the tick at which its open buffer was opened, `closedAt` the one at which the closed one closed. -/
structure HatchUnit where
  en : Bool := false
  gate : Bool := false
  enNext : Option (Bool × Bool) := none
  cfg : UnitCfg := {}
  staged : Option UnitCfg := none
  gateOpen : Bool := false
  buf : HatchBuf := {}
  since : Nat := 0
  closed : Option (HatchBuf × UnitCfg) := none
  closedAt : Nat := 0
  cfgRej : Bool := false
  binsat : Bool := false
  lost : Nat := 0
  deriving DecidableEq, Repr

/-- A slot of the collector for one frame (R287). -/
inductive SlotRec where
  | empty
  | stored (words : List Word) (bufs : List (HatchBuf × UnitCfg))
  | absent (reason : Nat)
  deriving DecidableEq, Repr

/-- A frame the collector holds (R288). `proofed` says that a Proof interval ran from its start to its end (R346). -/
structure HeldFrame where
  number : Nat
  start : Nat
  boundary : Nat
  trunc : Bool
  manual : Bool
  holdover : Bool
  deviceReady : Bool
  proofed : Bool
  slots : Vector SlotRec 76
  deriving DecidableEq, Repr

/-- Frames, the Hatch units and the collector (08_frames_hatch). -/
structure Frames where
  en : Bool := false
  token : Bool := false
  armed : Bool := false
  run : Bool := false
  frmRej : Bool := false
  snapRej : Bool := false
  len : Nat := 1600000
  start : Nat := 0
  num : Nat := 0
  next : Nat := 0
  endAt : Option Nat := none
  cut : Bool := false
  again : Bool := false
  ran : Nat := 0
  disarm : Bool := false
  snapReq : Bool := false
  gateReq : Bool × Bool := (false, false)
  lastClear : Nat := 0
  frameStart : Nat := 0
  holdover : Bool := false
  units : Vector HatchUnit 144
  held : List HeldFrame := []
  incomplete : Nat := 0
  late : Nat := 0
  latemeas : Nat := 0
  inFlight : List (Fin 8 × Nat × Nat) := []
  deriving DecidableEq, Repr

/-- Queue states (R298). -/
inductive QState where
  | disabled | enabled | closing
  deriving DecidableEq, Repr

/-- A queue of the burst store (R296 to R307). `ticks` holds the commit ticks of the packets and GAP words whose ends are still stored,
`ncommit` how many there have been, `midPaths` the paths that are reading the packet in front, `draining` the words of it that an engine
transfers. -/
structure Queue where
  size : Nat := 0
  base : Nat := 0
  hwm : Nat := 0
  lwm : Nat := 0
  state : QState := .disabled
  wmie : Bool := false
  drn : Bool := false
  eng : Nat := 0
  hwmHit : Bool := false
  lwmHit : Bool := false
  lwmArm : Bool := false
  drop : Bool := false
  eccErr : Bool := false
  cfgRej : Bool := false
  p : Nat := 0
  committed : List Word := []
  opened : List Word := []
  discarding : Bool := false
  midPaths : List Path := []
  headPartial : Bool := false
  ticks : List Nat := []
  ncommit : Nat := 0
  draining : Nat := 0
  peak : Nat := 0
  gapcnt : Nat := 0
  rwcnt : Nat := 0
  discnt : Nat := 0
  deriving DecidableEq, Repr

/-- A packet on its way to a ring: its queue, its words and the physical address of each, and the tick at which the transfer started. -/
structure Transfer where
  queue : Nat
  words : List Word
  pas : List Nat
  start : Nat
  deriving DecidableEq, Repr

/-- A result ring with its drain engine (R308 to R311), or the proof ring. For each trigger token that is pending, `tokens` holds how
many packets each assigned queue had committed when it was delivered; `credit` is that of the token consumed last. `owed` names for a queue that was
served those that were refused then and come before it (R21). -/
structure RingState where
  base : Nat := 0
  en : Bool := false
  trig : Bool := false
  asid : BitVec 4 := 0
  fault : Bool := false
  rdRej : Bool := false
  log2size : Nat := 20
  thr : Nat := 0
  wr : Nat := 0
  rd : Nat := 0
  rdLo : Word := 0
  stopping : Bool := false
  transfer : Option Transfer := none
  tokens : List (List (Nat × Nat)) := []
  credit : List (Nat × Nat) := []
  sentTo : Nat := 0
  maxSent : Nat := 0
  owed : List (Nat × List Nat) := []
  deriving DecidableEq, Repr

/-- A page mapping of an address space (R316): virtual page address and size, physical address or demand-zero, permissions. -/
structure Mapping where
  asid : Nat
  va : Nat
  len : Nat
  page : Nat
  pa : Option Nat
  r : Bool
  w : Bool
  x : Bool
  deriving DecidableEq, Repr

/-- Who waits on a demand fault that the MP resolves (R319). -/
inductive Waiter where
  | context (n : Chan) (x : Ctx)
  | prefetch (n : Chan)
  | engine (d : Ring)
  | proofRing
  deriving DecidableEq, Repr

/-- A demand fault that the MP resolves (R319): its requester, its address, its tick, and what its record says should the pool be empty. -/
structure Demand where
  who : Waiter
  asid : Nat
  va : Nat
  since : Nat
  wr : Bool
  split : Bool
  deriving DecidableEq, Repr

/-- An invalidation under way (R323): the command that waits for it, if any (path, tag, opcode, tick), and the range, or the physical page, whose
accesses must retire. -/
structure Inv where
  who : Option (Path × Word × Nat × Nat)
  asid : Nat
  va : Nat
  len : Nat
  page : Option Nat
  deriving DecidableEq, Repr

/-- A requester that waits on a forwarded fault (R319, R320): since when, the page's address, and the reason. -/
structure Wait where
  who : Waiter
  since : Nat
  asid : Nat
  va : Nat
  reason : Nat
  deriving DecidableEq, Repr

/-- External memory, address translation and the fault log (09_memory_queues). `pool` lists the free pages as ranges of pages, `tables` the
ranges that were ever mapped, `demand` the demand faults and `invPending` the invalidations under way, oldest first, `spares` the spare rows used of
each macro, `retired` each retired page with its spare, `errs` the corrected errors of the last 24 hours with their ticks, `house` the retirements
and repairs that wait for the MP, with the tick since when. -/
structure Memory where
  mem : Mem := []
  maGib : Nat := 0
  mbGib : Nat := 0
  asids : List Nat := []
  maps : List Mapping := []
  tables : List (Nat × Nat × Nat × Nat) := []
  pool : List (Nat × Nat) := []
  flog : List (List Word) := []
  flogOvf : Bool := false
  invPending : List Inv := []
  invSeq : Nat := 0
  dzcnt : Nat := 0
  hours : Nat := 24
  retired : List (Nat × Nat) := []
  demand : List Demand := []
  waits : List Wait := []
  spares : List (Nat × Nat) := []
  rowrep : Nat := 0
  spareOut : Bool := false
  eccUe : Bool := false
  eccCe : Bool := false
  errs : List (ErrPlace × Nat) := []
  house : List (ErrPlace × Nat) := []
  deriving DecidableEq, Repr

/-- The values of one unit folded in the frames of an interval that had the same settings (Table 10.7, R346). -/
structure UnitProof where
  cfg : UnitCfg := {}
  count : Nat := 0
  sum : Int := 0
  min : Int := 8388607
  sumsq : Nat := 0
  minT : Nat := 2 ^ 64 - 1
  maxT : Nat := 2 ^ 64 - 1
  max : Int := -8388608
  part : Bool := false
  frames : Nat := 0
  deriving DecidableEq, Repr

/-- The aggregates of one unit over an interval: one for each settings, the settings of the last frame, and whether the unit's slot was
absent in a frame. -/
structure UnitAgg where
  recs : List UnitProof := []
  last : Option UnitCfg := none
  absent : Bool := false
  deriving DecidableEq, Repr

/-- What a Proof records as it stood at T_END (Tables 10.5 to 10.7). -/
structure EndState where
  fwVersion : Word
  fwDigest : Digest
  plateGen : Nat
  plateState : Nat
  plateSerial : BitVec 128
  plateCycles : Nat
  plateRec : Digest
  calcnts : List Nat
  cflags : List Nat
  ens : List Bool
  tai : Nat × Nat × Nat × Nat
  calEpoch : Nat
  calDigest : Digest
  ownerDigest : Digest
  deriving DecidableEq, Repr

/-- A unit record as sealed: the aggregate, EN at T_END, PART, the frames excluded. -/
structure UnitRec where
  agg : UnitProof
  en : Bool
  part : Bool
  excluded : Nat
  deriving DecidableEq, Repr

/-- A Proof interval (R339): open while it runs, then ended and waiting for its last frame summary. What stands behind `handed` is taken
when that summary is handed over. -/
structure Interval where
  tStart : Nat := 0
  frameFirst : Nat := 0
  tEnd : Nat := 0
  frameLast : Nat := 0
  merged : Nat := 0
  trunc : Bool := false
  final : Bool := false
  holdover : Bool := false
  unaligned : Bool := false
  aligner : Bool := false
  timingRef : Bool := false
  noLink : Bool := false
  plchg : Bool := false
  calchg : Bool := false
  fwchg : Bool := false
  atEnd : Option EndState := none
  frozen : Bool := false
  handed : Bool := false
  summaryHead : Digest := 0
  summaries : Nat := 0
  incomplete : Bool := false
  units : List UnitRec := []
  deriving DecidableEq, Repr

/-- A channel record as sealed (Table 10.6), up to CALCNT and CFLAGS. -/
structure ChanRec where
  head : Digest
  entries : Nat
  words : Nat
  gapWords : Nat
  lastSeq : Option Nat
  deriving DecidableEq, Repr

/-- A sealed Proof (R340): the fields of Tables 10.5 to 10.7 frozen at t2, PREV_DIGEST and SIG_INDEX filled in at t3. -/
structure Proof where
  interval : Interval
  atEnd : EndState
  seq : Nat
  first : Bool
  debug : Bool
  keyend : Bool
  align : Nat
  sysid : Nat
  serial : BitVec 128
  bootCnt : Nat
  tai : Nat × Nat × Nat × Nat
  calEpoch : Nat
  calDigest : Digest
  ownerDigest : Digest
  channels : List ChanRec
  units : List UnitRec
  prevDigest : Digest
  sigIndex : Option Nat
  signed : Bool
  sealedAt : Nat
  deriving DecidableEq, Repr

/-- An index slot of the secure ReRAM (Table 10.3). -/
structure IndexSlot where
  seq : Nat
  bound : Nat
  boot : Nat
  check : Digest
  deriving DecidableEq, Repr

/-- The 64 index slots as key generation leaves them: the first one written, with nothing reserved; `none` is a slot that holds no whole write. -/
def firstSlots : Vector (Option IndexSlot) 64 :=
  (Vector.replicate 64 none).set 0 (some ⟨0, 0, 0, Config.shake256 (0x40 :: List.replicate 32 0)⟩)

/-- Keys, indices, chains, Proofs and ownership (10_trust_proof). `slots` are the index slots, `slotSeq`, `bound` and `bootCnt` those of the current one. `units` and `emitted` account for the frames of the interval whose
summaries are being handed over, `summaries` and `absent` for the summaries that no Proof covers yet. -/
structure Trust where
  en : Bool := false
  frames : Nat := 1
  ctrlRej : Bool := false
  ready : Bool := false
  keyend : Bool := false
  debug : Bool := false
  scopes : BitVec 3 := 0
  slots : Vector (Option IndexSlot) 64 := firstSlots
  slotSeq : Nat := 0
  bootCnt : Nat := 0
  bound : Nat := 0
  sigNext : Nat := 0
  seq : Nat := 0
  proofSeq : Nat := 0
  merged : Nat := 0
  lastDigest : Option Digest := none
  lastWritten : Digest := 0
  held : List Proof := []
  signing : Bool := false
  interval : Option Interval := none
  ended : List Interval := []
  units : Vector UnitAgg 144 := Vector.replicate 144 {}
  emitted : Nat := 0
  summaryHead : Digest := 0
  summaries : Nat := 0
  absent : Bool := false
  ring : RingState := {}
  owner : Option (List Byte) := none
  nonces : List (Path × Digest × Nat) := []
  draws : Nat := 0
  deriving DecidableEq, Repr

/-- Plate session states (Table 11.8). -/
inductive Sess where
  | absent | settling | reading | auth | opening | live | refused
  deriving DecidableEq, Repr

/-- The Plate session (11_plates). `body` and `signature` are the record read (empty: none), `busTry` the retries of the transfer in progress,
`busToken` whether it addresses a token, `writing` the count that a slot write in progress stores,
`slotOut` the place and the bytes of the last slot write, `frame` the last frame sent to a token, `secret` the secret x of R364 with
`advances` made of its chain, `unconfirmed` the cycles that a token has not confirmed, `memory` and `overrides` the tables in ReRAM, oldest
entry first; `vouched` says that the record read verified under the owner key (R359), `reads` are the READ frames that fetched a token's record,
`askedAt` is the tick at which a session's attestation was queued, `unsent` holds, by serial number, cycles of tokens that left before their ADVANCE
was sent (R375, assumption 125). -/
structure Plate where
  en : Bool := false
  deten : Bool := true
  fmp : Bool := false
  csrc : Bool := false
  reqv : Bool := false
  fhold : Bool := false
  compEn : Bool := true
  compa : Bool := false
  sess : Sess := .absent
  pstate : Nat := 0
  gen : Nat := 0
  pldet : Bool := false
  contact : Bool := false
  eolhold : Bool := false
  cntfix : Bool := false
  cmdRej : Bool := false
  ovr : Bool := false
  refuse : Nat := 0
  pend : Nat := 0
  sns : Word := 0x03E82080
  cyc : Nat := 0
  life : Nat := 0
  warn : Nat := 0
  lostcyc : Nat := 0
  body : List Byte := []
  signature : List Byte := []
  busTry : Nat := 0
  busToken : Bool := true
  slotSeq : Nat := 0
  writing : Option Nat := none
  slotOut : Nat × List Byte := (0, [])
  frame : List Byte := []
  writeNext : Bool := false
  authsLeft : Nat := 0
  tokenNonce : Digest := 0
  deviceNonce : Digest := 0
  attested : Bool := false
  secret : Option Digest := none
  advances : Nat := 0
  advancing : Bool := false
  advFails : Nat := 0
  unconfirmed : Nat := 0
  memory : List (BitVec 128 × Nat) := []
  overrides : List (Digest × Nat) := []
  vouched : Bool := false
  reads : List (List Byte) := []
  askedAt : Nat := 0
  unsent : List (BitVec 128 × Nat) := []
  deriving DecidableEq, Repr

/-- Power management (12_power_rails). -/
structure Power where
  paceMan : Bool := false
  vigil : Bool := false
  wake : Nat := 0
  vigRej : Bool := false
  regflt : Bool := false
  regns : Bool := false
  coreHot : Bool := false
  twarnHit : Bool := false
  coolMs : Nat := 0
  set : Nat := 850
  readVout : Nat := 0
  period : Nat := 0
  highest : Nat := 900
  lowest : Nat := 700
  wakeCmp : Bool := true
  wakePlate : Bool := true
  wakeTimer : Bool := true
  wakeT : Nat := 0
  wakeMask : List Word := [0, 0, 0]
  vdiv : Nat := 2000
  tshut : Nat := 115
  twarn : Nat := 100
  temps : List (Option (BitVec 16)) := List.replicate 44 none
  pmbusFails : Nat := 0
  paceBefore : Nat := 0
  ddrReady : Bool := true
  lastStall : Option Nat := none
  deriving DecidableEq, Repr

/-- Link states (Table 14.14). -/
inductive LState where
  | off | down | training | up
  deriving DecidableEq, Repr

/-- An IEEE 1588 event message that a lane has timestamped (R440): whether it was sent, its tick at the pins, its domain, and the partner's time of
it in ns of TAI. -/
structure PtpStamp where
  kind : PtpKind
  sent : Bool
  tick : Nat
  domain : Byte
  time : Nat
  deriving DecidableEq, Repr

/-- A serial lane (14_lanes_host). `out` are the Sibia blocks sent, of which the last `fresh` became ready at the tick `readyAt`, and `unfilled` those since
the last FILLER (R427); `sought` says that an attempt has sent its TRAIN SEEK (R430), `preset` is the phase 2 request of the PCIe equalisation (R418),
`ptpLog` are the IEEE 1588 messages timestamped, `answers` the frames that the firmware answered. -/
structure LaneState where
  en : Bool := false
  proto : Nat := 0
  rawrate : Nat := 0
  fec : Nat := 0
  lps : Nat := 0
  nelb : Bool := false
  hostp : Bool := false
  lstate : LState := .off
  pstate : Nat := 0
  sigdet : Bool := false
  hdrlock : Bool := false
  cfgRej : Bool := false
  lockloss : Bool := false
  eqdef : Bool := false
  downs : Nat := 0
  eq : Word := 0
  prbs : Word := 0x00013000
  prbsErr : Nat := 0
  prbsBits : Nat := 0
  slip : Nat := 0
  injected : Nat := 0
  attempt : Nat := 0
  sentAck : Bool := false
  gotAck : Bool := false
  syncdiff : Bool := false
  dupid : Bool := false
  badblk : Nat := 0
  calSeq : Option (Nat × Nat) := none
  calSent : Option Nat := none
  out : List (BitVec 64) := []
  readyAt : Option Nat := none
  fresh : Nat := 0
  unfilled : Nat := 0
  sought : Bool := false
  preset : Option Nat := none
  ptpLog : List PtpStamp := []
  answers : List EtherFrame := []
  deriving DecidableEq, Repr

/-- A response message (Table 14.6). -/
structure Rsp where
  opcode : Nat
  status : Nat
  tag : Word
  data : List Byte
  deriving DecidableEq, Repr

/-- Datagrams that the device sends (Table 14.11): OPENED with its status, the SESSION of its header and SMAX, an answer to KEEPALIVE, CMDACK with offset and window, response
bytes, stream data with stream, offset and length, EVENT with vector and tick. -/
inductive HhtOut where
  | opened (status : Nat) (session : Word) (smax : Nat)
  | alive
  | ack (offset window : Nat)
  | rsp (offset len : Nat)
  | data (stream offset len : Nat)
  | event (vector tick : Nat)
  deriving DecidableEq, Repr

/-- The Halku host transport (R435 to R439). `events` are the events not acknowledged, `out` the datagrams sent, `owed` names for a stream
that was served those that were ready then and come before it (R21). -/
structure Hht where
  en : Bool := true
  evtEn : Bool := false
  live : Bool := false
  lane : Nat := 0
  host : HostAddr := ⟨0, 0⟩
  session : Word := 0
  stream : BitVec 9 := 0
  win : Nat := 0x100000
  port : Nat := 18520
  retx : Nat := 0
  ign : Nat := 0
  drop : Nat := 0
  events : List (Nat × Nat) := []
  out : List HhtOut := []
  owed : List (Nat × List Nat) := []
  deriving DecidableEq, Repr

/-- Slot states of the boot directory (Table 15.3). -/
inductive SlotState where
  | empty | invalid | valid | trial | confirmed | failed
  deriving DecidableEq, Repr

/-- The directory (Table 15.3). -/
structure Directory where
  seq : Nat := 0
  stateA : SlotState := .empty
  stateB : SlotState := .empty
  triesA : Nat := 0
  triesB : Nat := 0
  journal : Bool := false
  jslotB : Bool := false
  digestA : Digest := 0
  digestB : Digest := 0
  libHalf : Nat := 0
  libDigest : Digest := 0
  libLen : Nat := 0
  deriving DecidableEq, Repr

/-- A copy of the directory in flash with its check value (R445). -/
structure DirCopy where
  dir : Directory
  check : Digest
  deriving DecidableEq, Repr

/-- A valid half of the settings store (R462): its sequence number, SETFMT, and the host settings. -/
structure Saved where
  seq : Nat
  fmt : Nat
  blob : List Byte
  deriving DecidableEq, Repr

/-- An update session (R453): its holder, what it writes, the tick of its last command, the byte ranges written, whether it has finished;
of a library the length and the half that it is written into. -/
structure Update where
  path : Path
  host : HostAddr
  kind : UpdKind
  slotB : Bool
  digest : Digest
  lastCmd : Nat
  ranges : List (Nat × Nat)
  finished : Bool
  libLen : Nat
  libHalf : Nat
  deriving DecidableEq, Repr

/-- Steps of a live handover (Table 15.7), with the slot of the new image (true: B). -/
inductive Handover where
  | none
  | preload (b : Bool)
  | pause (b : Bool)
  deriving DecidableEq, Repr

/-- The board configuration record (Table 15.12). `eq` holds the equalisation entries: LANE, RATE, EQ, PRESET. -/
structure Board where
  boardId : Word
  hostProto : List (BitVec 4)
  pcieGen : Nat
  pmbusAddr : BitVec 7
  deten : Bool
  ptpPeer : Bool
  ptpDomain : Byte
  macBase : BitVec 48
  hhtPort : Nat
  kp : List Nat
  kn : List Nat
  asym : List Int
  ddrMa : Byte
  ddrMb : Byte
  eq : List (Nat × Nat × Word × Byte)
  deriving DecidableEq, Repr

/-- Start-up, firmware and its flash (15_startup_update). `chosen` says that a slot has been chosen and verified and its firmware not yet
started, `dir` is the directory in force, `dirs` its copies in flash and `dirCopy` the one in force, `slotA` and `slotB` hold the flash slots, `boardFlash` the board record's region and `board` the record in force, `log` the event
log's entries by kind and value, `halves` the halves of the settings store (none: not valid), `settings` the host settings in force, `libs` the two library halves, `object` what an update session collects before it is checked.
`svnSlots` are the two slots of the security version counter, sequence number and value, and `svnSlot` the one in force (R455); `writes` is the model's own and numbers the
read-backs, which are free values (assumption 134). -/
structure Firmware where
  straps : Straps := ⟨false, false, 0⟩
  porn : Bool := false
  ready : Bool := false
  running : Bool := false
  recovery : Bool := false
  boarddef : Bool := false
  runB : Bool := false
  setrst : Bool := false
  wrcause : Nat := 0
  wrcnt : Nat := 0
  restarting : Bool := false
  version : Word := 0
  svnCnt : Nat := 0
  svnImg : Nat := 0
  autoconf : Bool := true
  trialStart : Option Nat := none
  digest : Digest := 0
  dir : Directory := {}
  dirsValid : Bool := false
  dirs : Vector (Option DirCopy) 2 := Vector.replicate 2 none
  dirCopy : Fin 2 := 0
  slotA : Mem := []
  slotB : Mem := []
  writes : Nat := 0
  svnSlots : Vector (Option (Nat × Nat)) 2 := Vector.replicate 2 none
  svnSlot : Fin 2 := 0
  chosen : Bool := false
  update : Option Update := none
  handover : Handover := .none
  board : Option Board := none
  boardFlash : Mem := []
  settings : List Byte := []
  halves : Vector (Option Saved) 2 := Vector.replicate 2 none
  log : List (Nat × Nat) := []
  libs : Vector Mem 2 := Vector.replicate 2 []
  object : Mem := []
  load1 : Nat := 0
  load100 : Nat := 0
  loads : List Nat := []
  timeouts : Nat := 0
  tai : Nat × Nat × Nat := (0, 0, 0)
  ptpState : Nat := 0
  pcieSpeed : Nat := 0
  pcieWidth : Nat := 0
  ltssm : Nat := 0
  bar2flt : Bool := false
  scratch : Word := 0
  calEpoch : Nat := 0
  deriving DecidableEq, Repr

/-- What the device keeps for each access path (R471). The counts of the command and response streams serve the mailbox of PCIe and of the
management SPI port and the byte streams of HHT (R433, R437). `rsps` lists the responses posted, `unposted` those that wait for room with
the tick at which their command was taken, `offers` what was offered: byte count and tick. `readLog` holds the words that the last read
on the path returned. -/
structure PathRegs where
  tcIdx : Nat := 0
  consIdx : Nat := 0
  imIdx : Nat := 0
  qIdx : Nat := 0
  unitIdx : Nat := 0
  recIdx : Nat := 0
  chIdx : Nat := 0
  calIdx : Nat := 0
  calStatus : Option Nat := none
  snaps : List (PairId × Nat) := []
  flog : List Word := []
  cmdWr : Word := 0
  cmdRd : Word := 0
  rspWr : Word := 0
  rspRd : Word := 0
  rspirq : Bool := false
  rej : Bool := false
  rsps : List Rsp := []
  unposted : List (Rsp × Nat) := []
  offers : List (Nat × Nat) := []
  cmdRing : Mem := []
  rspRing : Mem := []
  readLog : List Word := []
  deriving DecidableEq, Repr

/-- The reset value of a channel: CH_LATEST_V and CH_LATEST_I read NOTVALID with payload n (Table 3.16). -/
def Channel.reset (n : Nat) : Channel :=
  { meas := { latest := ⟨word n, word n, 0⟩, snaps := Vector.replicate 8 ⟨word n, word n, 0⟩ } }

/-- The reset value of queue q (Table 9.2). -/
def Queue.reset (q : Nat) : Queue :=
  if q < 68 then { base := 228 * q, size := 228 }
  else if q = 68 then { base := 15504, size := 256 }
  else {}

/-- The reset value of Hatch unit u (Table 8.8): URANGE 2 for units 2n, 8 for units 2n + 1, 0 for device units. -/
def HatchUnit.reset (u : Nat) : HatchUnit :=
  { cfg := { urange := if u ≥ 136 then 0 else if u % 2 = 0 then 2 else 8 } }

/-- A vector of the values of a function at 0 to n - 1. -/
def tabulate {α : Type} (n : Nat) (f : Nat → α) : Vector α n :=
  ⟨((List.range n).map f).toArray, by simp⟩

/-- The whole state. -/
structure State where
  pending : List Instr
  tb : Timebase
  chans : Vector Channel 68
  banks : Vector BankState 4
  reliefs : Vector (Option Relief) 4
  mrk : Vector MarkPin 16
  tr : Tracer
  ht : Frames
  queues : Vector Queue 256
  rings : Vector RingState 8
  mm : Memory
  pf : Trust
  pl : Plate
  pwr : Power
  lanes : Vector LaneState 8
  hht : Hht
  fw : Firmware
  paths : Vector PathRegs 4
  iotlb : List (Nat × Nat)
  free : Nat
  deriving DecidableEq, Repr

/-- The machine right after power-on reset (Table 15.1), with no command waiting. -/
def State.reset : State :=
  { pending := []
    tb := {}
    chans := tabulate 68 Channel.reset
    banks := Vector.replicate 4 {}
    reliefs := Vector.replicate 4 none
    mrk := Vector.replicate 16 {}
    tr := {}
    ht := { units := tabulate 144 HatchUnit.reset }
    queues := tabulate 256 Queue.reset
    rings := Vector.replicate 8 {}
    mm := {}
    pf := {}
    pl := {}
    pwr := {}
    lanes := Vector.replicate 8 {}
    hht := {}
    fw := {}
    paths := Vector.replicate 4 {}
    iotlb := []
    free := 0 }

end Sys2Proof.Machine
end

