-- ==== Sys2Proof/Machine/Ops.lean ====
section
/-!
DEFINITION. The named operations over the state: fields of words, rounding, channels and contexts, external memory, address
translation, event sources with the interrupt mapper, the device Hatch units, the fault log and context suspension.
-/
namespace Sys2Proof.Machine

/-! ### Fields, rounding -/

/-- Bits hi:lo of a word, unsigned. -/
def field (w : Word) (hi lo : Nat) : Nat := w.toNat / 2 ^ lo % 2 ^ (hi - lo + 1)

/-- One bit of a word. -/
def flag (w : Word) (i : Nat) : Bool := w.toNat / 2 ^ i % 2 == 1

/-- A number read as two's complement of w bits. -/
def signedOf (w v : Nat) : Int := if v % 2 ^ w < 2 ^ (w - 1) then (v % 2 ^ w : Nat) else ((v % 2 ^ w : Nat) : Int) - 2 ^ w

/-- Bits hi:lo of a word, two's complement. -/
def sfield (w : Word) (hi lo : Nat) : Int := signedOf (hi - lo + 1) (field w hi lo)

/-- An integer as w bits of two's complement. -/
def bitsOf (w : Nat) (v : Int) : Nat := (v % (2 ^ w : Nat)).toNat

/-- A word from fields, each a value and the place of its bit 0. -/
def pack (fs : List (Nat × Nat)) : Word := word (fs.foldl (fun a f => a + f.1 * 2 ^ f.2) 0)

/-- The nearest integer to a / b, halves away from zero (R47, R72, R224, R247 and R280 state this rounding; elsewhere assumption 4). -/
def roundDiv (a : Int) (b : Nat) : Int :=
  if b = 0 then 0
  else if a < 0 then -(((2 * a.natAbs + b) / (2 * b) : Nat) : Int) else ((2 * a.natAbs + b) / (2 * b) : Nat)

/-- A value limited to lo .. hi. -/
def clampInt (lo hi v : Int) : Int := if v < lo then lo else if hi < v then hi else v

/-- A counter that stops at its top value. -/
def satAdd (top a b : Nat) : Nat := if a + b > top then top else a + b

/-- The least multiple of `step` above `t`. -/
def nextMultiple (step t : Nat) : Nat := (t / step + 1) * step

/-! ### Parts of the state -/

/-- A channel. -/
def State.chan (s : State) (n : Chan) : Channel := s.chans[n]

/-- The bank of a channel: main channels 16b to 16b + 15 and relief channel 64 + b (R2, R89). -/
def bankOf (n : Chan) : Bank := if n.val < 64 then ⟨n.val / 16 % 4, by omega⟩ else ⟨n.val % 4, by omega⟩

/-- The slot of a channel in its bank; slot 16 is the relief channel (R3, R89). -/
def slotOf (n : Chan) : Nat := if n.val < 64 then n.val % 16 else 16

/-- The channel in a slot of a bank. -/
def chanAt (b : Bank) (slot : Nat) : Chan := if slot < 16 then ⟨16 * b.val + slot % 16, by omega⟩ else ⟨64 + b.val, by omega⟩

/-- Whether a channel is its bank's relief channel (R3). -/
def isRelief (n : Chan) : Bool := slotOf n == 16

/-- Replace a channel by its image. -/
def updChan (s : State) (n : Chan) (f : Channel → Channel) : State := { s with chans := s.chans.set n (f s.chans[n]) }

/-- Replace a channel's force path by its image. -/
def updForce (s : State) (n : Chan) (f : Force → Force) : State := updChan s n fun c => { c with force := f c.force }

/-- Replace a channel's measurement path by its image. -/
def updMeas (s : State) (n : Chan) (f : Measure → Measure) : State := updChan s n fun c => { c with meas := f c.meas }

/-- Replace a channel's Graver by its image. -/
def updGraver (s : State) (n : Chan) (f : Graver → Graver) : State := updChan s n fun c => { c with graver := f c.graver }

/-- Replace a context by its image. -/
def updCtx (s : State) (n : Chan) (x : Ctx) (f : Context → Context) : State :=
  updGraver s n fun g => { g with ctx := g.ctx.set x (f g.ctx[x]) }

/-- A channel's comparator. -/
def cmpOf (c : Channel) : Cmp → Comparator
  | .a => c.cmpA
  | .b => c.cmpB

/-- Replace a comparator by its image. -/
def updCmp (s : State) (n : Chan) (c : Cmp) (f : Comparator → Comparator) : State :=
  updChan s n fun ch =>
    match c with
    | .a => { ch with cmpA := f ch.cmpA }
    | .b => { ch with cmpB := f ch.cmpB }

/-- Change the timebase. -/
def updTb (s : State) (f : Timebase → Timebase) : State := { s with tb := f s.tb }

/-- Replace a bank by its image. -/
def updBank (s : State) (b : Bank) (f : BankState → BankState) : State := { s with banks := s.banks.set b (f s.banks[b]) }

/-- Replace a lane by its image. -/
def updLane (s : State) (k : Lane) (f : LaneState → LaneState) : State := { s with lanes := s.lanes.set k (f s.lanes[k]) }

/-- One bit of the CRC-8 with polynomial x^8 + x^2 + x + 1. -/
def crc8Bit (c : Nat) (b : Bool) : Nat :=
  let top := c / 128 % 2 == 1
  let n := c * 2 % 256
  if top != b then n ^^^ 7 else n

/-! ### Sibia blocks (R426, Table 14.3) -/

/-- The CRC-8 over bits [63:8] of a block whose TYPE and PAYLOAD stand in them. -/
def blockCrc (v : Nat) : Nat := (List.range 56).foldl (fun c i => crc8Bit c (v.testBit (63 - i))) 0

/-- A control block. -/
def sibiaBlock (type payload : Nat) : BitVec 64 :=
  let v := type * 2 ^ 56 + payload % 2 ^ 48 * 2 ^ 8
  BitVec.ofNat 64 (v + blockCrc v)

/-- The place of a block in the order of precedence of R427, by its TYPE. -/
def blockRank (b : BitVec 64) : Nat :=
  let type := b.toNat / 2 ^ 56
  if type = 0x4B then 0 else if type = 0x33 then 1 else if type = 0x55 then 2 else if type = 0x2D then 3 else 4

/-- A block goes before those that are ready with it and come after it in that order. -/
def insertBlock (b : BitVec 64) : List (BitVec 64) → List (BitVec 64)
  | [] => [b]
  | x :: rest => if blockRank b < blockRank x then b :: x :: rest else x :: insertBlock b rest

/-- FILLER (Table 14.4). -/
def fillerBlock : BitVec 64 := sibiaBlock 0x1E 0

/-- A lane sends a block (R427): it becomes ready at a tick, and those that are ready at one tick go in the order of precedence; after 2,047 blocks
one FILLER goes. -/
def txBlock (now : Nat) (b : BitVec 64) (l : LaneState) : LaneState :=
  let fresh := if l.readyAt = some now then l.fresh else 0
  let pre := if l.unfilled = 2047 then [fillerBlock] else []
  let kept := l.out.length - fresh
  { l with
    out := l.out.take kept ++ pre ++ insertBlock b (l.out.drop kept)
    fresh := fresh + 1
    readyAt := some now
    unfilled := if l.unfilled = 2047 then fresh + 1 else l.unfilled + 1 }

/-- Put a block on a lane. -/
def sendBlock (s : State) (k : Lane) (b : BitVec 64) : State := updLane s k (txBlock s.tb.now b)

/-- A TOKEN block (Table 14.4): the channels of MASK, the acceptance slot A. -/
def tokenBlock (mask a : Nat) : BitVec 64 := sibiaBlock 0x4B (mask * 2 ^ 32 + a % 2 ^ 32)

/-- One bit of the self-synchronous scrambler x^58 + x^39 + 1 of 10GBASE-R (R426): the bit sent, and the register that holds the last 58 of them. -/
def scrambleBit (reg : BitVec 58) (b : Bool) : Bool × BitVec 58 :=
  let out := (b != reg.getLsbD 38) != reg.getLsbD 57
  (out, reg <<< 1 ||| (if out then 1 else 0))

/-- The 66 bits that a control block takes on the line, first bit first: the sync header 0b10, then its 64 bits scrambled from bit 0 on (R426). -/
def lineBlock (reg : BitVec 58) (b : BitVec 64) : List Bool × BitVec 58 :=
  let r := (List.range 64).foldl (fun (a : List Bool × BitVec 58) i => let x := scrambleBit a.2 (b.getLsbD i); (a.1 ++ [x.1], x.2)) ([], reg)
  (true :: false :: r.1, r.2)

/-- Replace a ring by its image. -/
def updRing (s : State) (d : Ring) (f : RingState → RingState) : State := { s with rings := s.rings.set d (f s.rings[d]) }

/-- Replace a queue by its image. -/
def updQueue (s : State) (q : Fin 256) (f : Queue → Queue) : State := { s with queues := s.queues.set q (f s.queues[q]) }

/-- The number of an access path in the state's table. -/
def pathIdx : Path → Fin 4
  | .pcie => 0
  | .hht => 1
  | .spi => 2
  | .mp => 3

/-- What the device keeps for an access path. -/
def State.path (s : State) (p : Path) : PathRegs := s.paths[pathIdx p]

/-- Replace an access path's registers by their image. -/
def updPath (s : State) (p : Path) (f : PathRegs → PathRegs) : State :=
  { s with paths := s.paths.set (pathIdx p) (f s.paths[pathIdx p]) }

/-- A context of a Graver. -/
def State.context (s : State) (n : Chan) (x : Ctx) : Context := s.chans[n].graver.ctx[x]

/-- All channels, contexts, lanes, rings, banks in ascending order. -/
def allChans : List Chan := List.finRange 68
def allCtx : List Ctx := List.finRange 4
def allLanes : List Lane := List.finRange 8
def allRings : List Ring := List.finRange 8
def allBanks : List Bank := List.finRange 4

/-- The channels of a bank. -/
def bankChans (b : Bank) : List Chan := (List.range 17).map (chanAt b)

/-- A free value and the state in which its use is counted (assumption 5). -/
def drawFree (s : State) : Word × State := (Config.freeWord s.free, { s with free := s.free + 1 })

/-- Draw 32 bytes from the entropy source. -/
def drawEntropy (s : State) : Digest × State := (Config.entropy s.pf.draws, { s with pf := { s.pf with draws := s.pf.draws + 1 } })

/-- Set a bit of a channel's CFLAGS for what happened at a tick (Table 10.6): in the interval that has ended and lies after it, else in the
open one. -/
def noteCflag (s : State) (n : Chan) (i tick : Nat) : State :=
  match s.pf.ended.findIdx? fun v => tick < v.tEnd with
  | some j =>
    { s with pf := { s.pf with ended := s.pf.ended.modify j fun v =>
        { v with atEnd := v.atEnd.map fun e => { e with cflags := e.cflags.modify n.val (· ||| 2 ^ i) } } } }
  | none => updChan s n fun c => { c with proof := { c.proof with cflags := c.proof.cflags ||| 2 ^ i } }

/-! ### External memory (assumption 6: a byte that nothing has written reads 0) -/

/-- The byte at a physical address. -/
def memRead : Mem → Nat → Byte
  | [], _ => 0
  | (k, b) :: m, a => if k = a then b else memRead m a

/-- Write a byte; the value 0 removes the entry, so that the form stays canonical. -/
def memWrite : Mem → Nat → Byte → Mem
  | [], a, b => if b = 0 then [] else [(a, b)]
  | (k, v) :: m, a, b =>
    if a < k then (if b = 0 then (k, v) :: m else (a, b) :: (k, v) :: m)
    else if a = k then (if b = 0 then m else (a, b) :: m)
    else (k, v) :: memWrite m a b

/-- The canonical form: addresses strictly rising, no entry equal to 0. -/
def Memory.wf : Mem → Bool
  | [] => true
  | [(_, b)] => b != 0
  | (k, b) :: (k', b') :: m => b != 0 && k < k' && Memory.wf ((k', b') :: m)

/-- Write bytes at ascending addresses. -/
def memWriteBytes (m : Mem) (a : Nat) : List Byte → Mem
  | [] => m
  | b :: bs => memWriteBytes (memWrite m a b) (a + 1) bs

/-- Read n bytes at ascending addresses. -/
def memReadBytes (m : Mem) (a n : Nat) : List Byte := (List.range n).map fun i => memRead m (a + i)

/-- The bytes of a word, lowest first (assumption 7: words lie little-endian in memory). -/
def wordBytes (w : Word) : List Byte := (List.range 4).map fun i => BitVec.ofNat 8 (w.toNat / 256 ^ i)

/-- The bytes of a number in w bytes, lowest first. -/
def leBytes (w v : Nat) : List Byte := (List.range w).map fun i => BitVec.ofNat 8 (v / 256 ^ i)

/-- A number from its bytes, lowest first. -/
def ofBytes : List Byte → Nat
  | [] => 0
  | b :: bs => b.toNat + 256 * ofBytes bs

/-- Word k of some bytes, little-endian. -/
def wordAt (bs : List Byte) (k : Nat) : Word := word (ofBytes ((bs.drop (4 * k)).take 4))

/-- Read a word. -/
def memReadWord (m : Mem) (a : Nat) : Word := word (ofBytes (memReadBytes m a 4))

/-- Write a word. -/
def memWriteWord (m : Mem) (a : Nat) (w : Word) : Mem := memWriteBytes m a (wordBytes w)

/-- Fill n bytes with zero. -/
def memZero (m : Mem) (a n : Nat) : Mem := m.filter fun c => c.1 < a || a + n ≤ c.1

/-- Base and size of the program and segment store (Table 9.1). -/
def storeBase : Nat := 0x800000000000
def storeSize : Nat := 0x1000000

/-- Whether a physical address lies in external memory. -/
def paExternal (pa : Nat) : Bool := pa < storeBase

/-- Physical addresses that exist (Table 9.1, Table 9.8): the program and segment store and the populated part of MA and MB. -/
def paExists (m : Memory) (a : Nat) : Bool :=
  (storeBase ≤ a && a < storeBase + storeSize) || a < m.maGib * 2 ^ 30
    || (2 ^ 40 ≤ a && a < 2 ^ 40 + m.mbGib * 2 ^ 30)

/-- Physical addresses that a mapping may name: those that exist, without the range reserved for the firmware and spare pages. -/
def paMappable (m : Memory) (a : Nat) : Bool := paExists m a && !(a < 0x40000000)

/-! ### Address translation (R316, R319) -/

/-- Accesses by the permission they need (R316). -/
inductive Perm where
  | r | w | x
  deriving DecidableEq, Repr

/-- What a translation finds: a physical address, a demand-zero page, or a fault with its reason and the level of the walk. -/
inductive Xlate where
  | ok (pa : Nat)
  | demand
  | fault (reason level : Nat)
  deriving DecidableEq, Repr

/-- The mapping of an address space that holds a virtual address. -/
def findMapping (ms : List Mapping) (asid va : Nat) : Option Mapping :=
  ms.find? fun m => m.asid == asid && m.va ≤ va && va < m.va + m.len

/-- The level of the tables from a page size: 4 KiB 3, 2 MiB 2, 1 GiB 1. -/
def levelOf (page : Nat) : Nat := if page ≤ 0x1000 then 3 else if page ≤ 0x200000 then 2 else 1

/-- Whether a table of the given level for an address exists, by the ranges that were ever mapped in the address space. -/
def tableExists (ts : List (Nat × Nat × Nat × Nat)) (asid va level : Nat) : Bool :=
  ts.any fun t =>
    let span := 4096 * 512 ^ (4 - level)
    t.1 == asid && level ≤ levelOf t.2.2.2 && t.2.1 / span ≤ va / span && va / span ≤ (t.2.1 + t.2.2.1 - 1) / span

/-- The level at which a walk that finds nothing stops (Table 9.11). -/
def walkLevel (m : Memory) (asid va : Nat) : Nat :=
  if tableExists m.tables asid va 3 then 3 else if tableExists m.tables asid va 2 then 2
  else if tableExists m.tables asid va 1 then 1 else 0

/-- Follow a page through the retirements that came after it: a spare may be retired in its turn. -/
def followSpare : List (Nat × Nat) → Nat → Nat
  | [], page => page
  | r :: rest, page => followSpare rest (if r.1 = page then r.2 else page)

/-- The physical address after retirement (R315): a retired page's accesses go to its spare. -/
def retiredTo (m : Memory) (pa : Nat) : Nat := followSpare m.retired (pa / 4096 * 4096) + pa % 4096

/-- The physical address that a device virtual address has, whatever its permissions; the address itself where it has none. -/
def physOf (m : Memory) (asid va : Nat) : Nat :=
  if asid = 0 then va else ((findMapping m.maps asid va).bind fun e => e.pa.map fun p => retiredTo m (p + (va - e.va))).getD va

/-- A translation enters the IOTLB (R317): 4,096 entries, each for a page of an address space. What an entry holds is what the page tables hold,
because an invalidation removes the entry as the MP writes the tables (Table 9.12), so no access depends on it. -/
def cacheXlate (s : State) (asid va : Nat) : State :=
  let e := (asid, va / 4096)
  if s.iotlb.contains e then s
  else { s with iotlb := (if s.iotlb.length ≥ 4096 then s.iotlb.eraseIdx (Config.iotlbVictim asid (va / 4096) % 4096) else s.iotlb) ++ [e] }

/-- The translations of several addresses enter the IOTLB. -/
def cacheXlates (s : State) (asid : Nat) (vas : List Nat) : State := vas.foldl (fun s va => cacheXlate s asid va) s

/-- The entries whose page lies at a physical page leave the IOTLB. -/
def dropPage (s : State) (pa : Nat) : State :=
  { s with iotlb := s.iotlb.filter fun e => physOf s.mm e.1 (e.2 * 4096) / 4096 != pa / 4096 }

/-- The entries of a range of an address space leave the IOTLB. -/
def dropXlates (s : State) (asid va len : Nat) : State :=
  { s with iotlb := s.iotlb.filter fun e => !(e.1 == asid && va < (e.2 + 1) * 4096 && e.2 * 4096 < va + len) }

/-- Translate a device virtual address. Address space 0 belongs to the firmware (R316), which maps its own window one to one with
all permissions (assumption 8). -/
def translate (m : Memory) (asid va : Nat) (need : Perm) : Xlate :=
  if asid = 0 then .ok va
  else if !m.asids.contains asid then .fault 3 0
  else
    match findMapping m.maps asid va with
    | none => .fault 1 (walkLevel m asid va)
    | some e =>
      if !(match need with | .r => e.r | .w => e.w | .x => e.x) then .fault 2 (levelOf e.page)
      else
        match e.pa with
        | some p => let a := retiredTo m (p + (va - e.va)); if paExists m a then .ok a else .fault 1 3
        | none => if m.pool.isEmpty then .fault 5 3 else .demand

/-- The device virtual address of a window address of a context (R128). Context 3 uses the firmware's window (assumption 8). -/
def windowVa (g : Graver) (x : Ctx) (a : Word) : Nat := if x = 3 then a.toNat else g.wbase.toNat * 2 ^ 32 + a.toNat

/-- The address space of a context (R128). -/
def windowAsid (g : Graver) (x : Ctx) : Nat := if x = 3 then 0 else g.asid.toNat

/-! ### Reads on a path, and accesses in recovery mode (R450) -/

/-- The words that a read on a path returned. -/
def returned (s : State) (p : Path) (ws : List Word) : State := updPath s p fun k => { k with readLog := ws }

/-- What a write of a register outside block FW leads to, with a row of its own in the command table: in recovery mode it is ignored. -/
def accessed (s t : State) : State := if s.fw.recovery then s else t

/-- A read of such a register: in recovery mode it reads as zero and has no effect. -/
def accessedRead (s : State) (p : Path) (t : State) : State := if s.fw.recovery then returned s p [0] else t

/-! ### Event sources (R255), interrupt mapper (R269, R270), entry into the Tracer (R256 to R262) -/

/-- Whether a vector's entry of the MSI-X table is masked. -/
def vectorMasked (t : Tracer) (v : Nat) : Bool := match t.msix[v]? with | some e => flag e.control 0 | none => true

/-- Whether a vector's message is held back: its mask bit stands, or MSI-X is not enabled (R270, R424). -/
def vectorHeld (t : Tracer) (v : Nat) : Bool := vectorMasked t v || !t.msixEn

/-- Send vector v's message, unless an unacknowledged one is out (R270). Over HHT the message is an event (R439). -/
def sendVector (s : State) (v : Nat) : State :=
  if s.tr.unacked.contains v then s
  else
    { s with
      tr := { s.tr with
        unacked := s.tr.unacked ++ [v]
        sent := if vectorHeld s.tr v then s.tr.sent else s.tr.sent ++ [v]
        masked := if vectorHeld s.tr v && !s.tr.masked.contains v then s.tr.masked ++ [v] else s.tr.masked }
      hht := if s.hht.evtEn && s.hht.live then
          { s.hht with events := s.hht.events ++ [(v, s.tb.now)], out := s.hht.out ++ [.event v s.tb.now] } else s.hht }

/-- The next sample tick (R30): a counter that stands at one that has not been carried out names it. -/
def nextSample (s : State) : Nat :=
  if s.tb.now % 800 = 0 && s.tb.lastSample != some s.tb.now then s.tb.now else nextMultiple 800 s.tb.now

/-- The next slot boundary (R257), in the same way. -/
def nextSlot (s : State) : Nat :=
  if s.tb.now % 16 = 0 && s.tb.lastSlot != some s.tb.now then s.tb.now else nextMultiple 16 s.tb.now

/-- R30: a synchroniser samples the requests this many ticks before each of its target instants. -/
def captureLead : Nat := 4

/-- The slot at whose boundary a request that completes now takes effect (R30): the first boundary whose capture instant is not past. -/
def slotTarget (s : State) : Nat :=
  let b := nextSlot s
  (if s.tb.now + captureLead ≤ b then b else b + 16) / 16

/-- A source becomes pending in the interrupt mapper (R269). -/
def raiseIm (s : State) (src : Nat) : State :=
  if h : src < 320 then
    let e := s.tr.im[src]
    if e.en && !e.pend then
      sendVector { s with tr := { s.tr with im := s.tr.im.set src { e with pend := true } } } e.vector.toNat
    else s
  else s

/-- Whether a channel runs DIRECT: PATH is 1 and its RMODE is LOCAL (R268). -/
def TracerChan.isDirect (k : Nat) (t : TracerChan) : Bool := t.direct && (k < 112 || t.rmode == 0)

/-- The bit of a channel's group (R260). -/
def groupEnabled (tr : Tracer) (k : Nat) : Bool := tr.grpEn.getLsbD (k / 8)

/-- Offer a token to one DIRECT channel (R256, R259, R262): it queues the token with its tick, discards it, or trips. -/
def offerDirect (tr : Tracer) (k : Fin 128) (tick : Nat) : Tracer × Bool :=
  let t := tr.tc[k]
  if !(tr.en && groupEnabled tr k && t.en) then (tr, false)
  else if t.offered ≥ 16 then ({ tr with tc := tr.tc.set k { t with en := false, trip := true, offered := t.offered + 1 } }, true)
  else ({ tr with tc := tr.tc.set k { t with offered := t.offered + 1, queue := t.queue ++ [tick] } }, false)

/-- Offer a token to every DIRECT channel of a source, and count the trips. -/
def offerAll (tr : Tracer) (src tick : Nat) : Tracer × Nat :=
  if !tr.en then (tr, 0)
  else
    (List.finRange 128).foldl (fun (a : Tracer × Nat) (k : Fin 128) =>
      if a.1.tc[k].src == src && TracerChan.isDirect k a.1.tc[k] then
        let r := offerDirect a.1 k tick
        (r.1, a.2 + bit r.2)
      else a) (tr, 0)

/-- The raise of source 303 for trips; each trip may trip further channels that carry source 303, at most 128 in all. -/
def raiseTrips : Nat → Nat → State → State
  | 0, _, s => s
  | _, 0, s => s
  | fuel + 1, trips + 1, s =>
    let s := raiseIm s 303
    let s := { s with tr := { s.tr with ingress := s.tr.ingress ++ [Ingress.mk 303 (slotTarget s) false s.tb.now] } }
    let r := offerAll s.tr 303 s.tb.now
    raiseTrips fuel (trips + r.2) { s with tr := r.1 }

/-- Raise a source (R255): the interrupt mapper, the DIRECT channels that carry it, and the ingress of the TIMED ones. A dated
source carries its tick and is accepted two slots after its own, late when that boundary's capture instant has passed (R258); a handshake
source at the first boundary whose capture instant follows. -/
def raiseAt (s : State) (src : Nat) (dated : Option Nat) : State :=
  let s := raiseIm s src
  let tick := dated.getD s.tb.now
  let own := dated.isSome && !(src < 272 && src % 4 == 2)
  let late := own && tick / 16 + 2 < slotTarget s
  let slot := if own && !late then tick / 16 + 2 else slotTarget s
  let s := { s with tr := { s.tr with ingress := s.tr.ingress ++ [Ingress.mk src slot late tick] } }
  let r := offerAll s.tr src tick
  raiseTrips 256 r.2 { s with tr := r.1 }

/-- Raise a handshake source. -/
def raise (s : State) (src : Nat) : State := raiseAt s src none

/-! ### Hatch folding (R279 to R281) -/

/-- A bin count limited to 32 bits. -/
def binMax : Nat := 2 ^ 32 - 1

/-- Add one to a sparse histogram bin; the flag says that a bin was already full. -/
def addBin : List (Nat × Nat) → Nat → List (Nat × Nat) × Bool
  | [], i => ([(i, 1)], false)
  | (j, c) :: bs, i =>
    if i = j then (if c ≥ binMax then ((j, c) :: bs, true) else ((j, c + 1) :: bs, false))
    else let r := addBin bs i; ((j, c) :: r.1, r.2)

/-- Fold one value into a buffer (Table 8.1). -/
def foldValue (cfg : UnitCfg) (b : HatchBuf) (v : Int) (tick : Nat) : HatchBuf :=
  let b := { b with
    count := b.count + 1
    sum := b.sum + v
    sumsq := b.sumsq + v.natAbs * v.natAbs
    min := if v < b.min then v else b.min
    minT := if v < b.min then tick else b.minT
    max := if v > b.max then v else b.max
    maxT := if v > b.max then tick else b.maxT }
  if v < cfg.base then { b with under := satAdd binMax b.under 1, bsat := b.bsat || b.under ≥ binMax }
  else if v ≥ cfg.base + 512 * 2 ^ cfg.k then { b with overs := satAdd binMax b.overs 1, bsat := b.bsat || b.overs ≥ binMax }
  else
    let r := addBin b.bins ((v - cfg.base).toNat / 2 ^ cfg.k)
    { b with bins := r.1, bsat := b.bsat || r.2 }

/-- Whether a unit folds: enabled, and its gate open or GATE = 0 (Table 8.9). -/
def HatchUnit.folding (u : HatchUnit) : Bool := u.en && (!u.gate || u.gateOpen)

/-- Offer a value with its qualifier bits to a channel unit's buffer (R279, R280). -/
def offerBuf (cfg : UnitCfg) (b : HatchBuf) (v : Int) (qual : Nat) (tick : Nat) : HatchBuf :=
  let b := { b with q := b.q.zipIdx.map fun x => x.1 + qual / 2 ^ x.2 % 2 }
  if qual &&& cfg.excl.toNat != 0 then b else foldValue cfg b v tick

/-- A buffer after an offer, and whether this offer saturated a bin, UNDER or OVER (Table 8.9, BINSAT). -/
def offerMarked (b : HatchBuf) (offer : HatchBuf → HatchBuf) : HatchBuf × Bool :=
  let r := offer { b with bsat := false }
  ({ r with bsat := b.bsat || r.bsat }, r.bsat)

/-- A unit with an offer to its open buffer. -/
def HatchUnit.toOpen (u : HatchUnit) (offer : UnitCfg → HatchBuf → HatchBuf) : HatchUnit :=
  let r := offerMarked u.buf (offer u.cfg)
  { u with buf := r.1, binsat := u.binsat || r.2 }

/-- A unit with an offer to the buffer that an instant belongs to (R277): the closed one for an instant before the last boundary, as long as that
waits for it. -/
def HatchUnit.toInstant (u : HatchUnit) (tick : Nat) (offer : UnitCfg → HatchBuf → HatchBuf) : HatchUnit :=
  if tick < u.since then
    match u.closed with
    | some (b, cfg) =>
      if u.closedAt ≤ tick then u
      else let r := offerMarked b (offer cfg); { u with closed := some (r.1, cfg), binsat := u.binsat || r.2 }
    | none => u
  else u.toOpen offer

/-- The unit of a device measurement. -/
def deviceUnit (d : Fin 8) : Fin 144 := ⟨136 + d.val, by omega⟩

/-- Fold a measurement: the duration in units of 2^SCALE ticks, rounded down and saturated. -/
def foldDuration (start stop : Nat) (cfg : UnitCfg) (b : HatchBuf) : HatchBuf :=
  foldValue cfg b (min ((stop - start) / 2 ^ cfg.urange) 8388607 : Nat) stop

/-- Offer a measurement to a device unit (R281), at its end instant. One that a metastable wait delays past the unit's close stays on its way. -/
def offerDevice (s : State) (d : Fin 8) (start stop : Nat) : State :=
  let i := deviceUnit d
  if !s.ht.units[i].folding then s
  else if Config.delayed i start stop then { s with ht := { s.ht with inFlight := s.ht.inFlight ++ [(d, start, stop)] } }
  else { s with ht := { s.ht with units := s.ht.units.set i (s.ht.units[i].toInstant stop (foldDuration start stop)) } }

/-- A delayed measurement arrives after its unit's close: it is folded into the following frame and counted (R281). -/
def foldDelayed (h : Frames) (m : Fin 8 × Nat × Nat) : Frames :=
  let i := deviceUnit m.1
  { h with units := h.units.set i (h.units[i].toOpen (foldDuration m.2.1 m.2.2)), latemeas := min 255 (h.latemeas + 1) }

/-- The delayed measurements that ended before a boundary arrive. -/
def arriveDelayed (boundary : Nat) (h : Frames) : Frames :=
  (h.inFlight.filter fun m => m.2.2 < boundary).foldl foldDelayed
    { h with inFlight := h.inFlight.filter fun m => boundary ≤ m.2.2 }

/-- A work item that the MP starts as it becomes pending (R324): device unit 136 takes a wait of no ticks (Table 8.2; assumption 62). -/
def mpAtOnce (s : State) : State := offerDevice s 0 s.tb.now s.tb.now

/-! ### Faults and the fault log (R319 to R322) -/

/-- Enter a record in the fault log, or set FLOG_OVF when it holds 32. -/
def logFault (s : State) (w : List Word) : State :=
  { s with mm := if s.mm.flog.length ≥ 32 then { s.mm with flogOvf := true } else { s.mm with flog := s.mm.flog ++ [w] } }

/-- The words of a fault record (Tables 9.10 and 9.11). -/
def faultRecord (cls reason req asid ctx : Nat) (wr split : Bool) (level va tick : Nat) : List Word :=
  [pack [(cls, 28), (reason, 24), (req, 16), (asid, 12), (ctx, 10), (bit wr, 9), (bit split, 8), (level, 6)],
   word va, word (va / 2 ^ 32 % 2 ^ 16), word tick, word (tick / 2 ^ 32)]

/-- The wait that a fault record stands for. -/
def faultWait (who : Waiter) (now : Nat) (rec : List Word) : Wait :=
  let w := fun i => (rec[i]?).getD 0
  ⟨who, now, field (w 0) 15 12, (w 1).toNat + field (w 2) 15 0 * 2 ^ 32, field (w 0) 27 24⟩

/-- Forward a translation fault: log, source 298, and the requester waits (R319). -/
def forwardFault (s : State) (who : Waiter) (rec : List Word) : State :=
  let s := logFault s rec
  raise { s with mm := { s.mm with waits := s.mm.waits ++ [faultWait who s.tb.now rec] } } 298

/-- A demand-zero fault waits for the MP (R319). -/
def awaitDemand (s : State) (who : Waiter) (asid va : Nat) (wr split : Bool) : State :=
  { s with mm := { s.mm with demand := s.mm.demand ++ [⟨who, asid, va, s.tb.now, wr, split⟩] } }

/-- The requester of a forwarded fault resumes: device unit 138 takes the time since its recording (Table 8.2). -/
def endWaits (s : State) (who : Waiter) : State :=
  let s' := (s.mm.waits.filter fun w => w.who == who).foldl (fun t w => offerDevice t 2 w.since s.tb.now) s
  { s' with mm := { s'.mm with waits := s'.mm.waits.filter fun w => w.who != who } }

/-- The cause code of a suspension (Table 4.7). -/
def Cause.code : Cause → Nat
  | .illegal => 1
  | .xlateFetch => 2
  | .xlateData => 3
  | .priv => 4
  | .trap _ => 5

/-- Whether context 2 runs from the immediate buffer (R147). -/
def inImm (g : Graver) (x : Ctx) : Bool := g.immBusy && x == 2

/-- A context suspends on its present instruction (R148): nothing else of it changes; the execution unit is free again and the
device raises source 299. -/
def suspendOnly (s : State) (n : Chan) (x : Ctx) (c : Cause) (resolving : Bool) : State :=
  let g := s.chans[n].graver
  let s := updCtx s n x fun k =>
    { k with state := .suspended c resolving, faultAddr := k.pc, faultImm := inImm g x }
  let s := updGraver s n fun g => { g with busy := if g.busy.map (·.1) = some x then none else g.busy }
  raise s 299

/-- A suspension of cause ILLEGAL, PRIV or TRAP (R148, R149): it is forwarded with a record of class SUSPEND. A TRAP of context 3 is
handled by the firmware itself (R169). -/
def suspend (s : State) (n : Chan) (x : Ctx) (c : Cause) : State :=
  let g := s.chans[n].graver
  let k := g.ctx[x]
  let s := suspendOnly s n x c false
  let va := if inImm g x then k.pc.toNat / 4 else windowVa g x k.pc
  let trap := match c with | .trap t => t.toNat | _ => 0
  match c, decide (x = 3) with
  | .trap _, true => s
  | _, _ => logFault s
      [pack [(5, 28), (c.code, 24), (n.val, 16), (windowAsid g x, 12), (x.val, 10)], word va,
       pack [(trap, 24), (va / 2 ^ 32 % 2 ^ 16, 0)], word s.tb.now, word (s.tb.now / 2 ^ 32)]

/-- A suspension on a translation fault of a fetch (`fetch`) or of a data access (R319, R320). -/
def suspendXlate (s : State) (n : Chan) (x : Ctx) (fetch wr split : Bool) (va : Nat) (f : Xlate) : State :=
  let g := s.chans[n].graver
  let cause := if fetch then Cause.xlateFetch else Cause.xlateData
  match f with
  | .demand => awaitDemand (suspendOnly s n x cause true) (.context n x) (windowAsid g x) va wr split
  | .fault reason level =>
    forwardFault (suspendOnly s n x cause false) (.context n x)
      (faultRecord (if fetch then 1 else 2) reason n.val (windowAsid g x) x.val wr split level va s.tb.now)
  | .ok _ => s

/-- The fault of an uncorrectable memory error (R320). -/
def eccFault : Xlate := .fault 4 3

/-- A branch or an extension word outside the loaded words of the immediate buffer (R147, R157): XLATE_FETCH, recorded with class
Graver fetch and reason NOTMAPPED, with the buffer index as its address (assumption 9). -/
def suspendImm (s : State) (n : Chan) (x : Ctx) : State :=
  suspendXlate s n x true false false ((s.context n x).pc.toNat / 4) (.fault 1 0)

/-! ### Corrected and uncorrectable memory errors (R294) -/

/-- 24 hours in ticks. -/
def dayTicks : Nat := 24 * 3600 * 1600000000

/-- The corrected errors within 24 hours after which the MP acts: on a page it retires (R315), on a row it repairs (R295). -/
def errLimit : ErrPlace → Nat
  | .page _ => 2
  | .row _ _ => 4

/-- Account for an error; `lost` says that this one alone calls for the MP. A place that waits for the MP already is not entered again. -/
def noteError (p : ErrPlace) (lost : Bool) (now : Nat) (m : Memory) : Memory :=
  let errs := (p, now) :: m.errs.filter fun e => now < e.2 + dayTicks
  if (lost || errLimit p ≤ errs.countP (·.1 == p)) && !m.house.any (·.1 == p) then
    { m with errs := errs.filter (·.1 != p), house := m.house ++ [(p, now)] }
  else { m with errs := errs }

/-- The place of an error at a physical address. Where a row of SRAM lies the manual does not say: a free value. -/
def errPlace (s : State) (pa : Nat) : ErrPlace × State :=
  if paExternal pa then (.page (pa / 4096 * 4096), s)
  else let r := drawFree s; (.row (r.1.toNat % 384) (r.1.toNat / 384), r.2)

/-- A corrected error raises source 300. -/
def eccCorrected (s : State) (p : ErrPlace) : State :=
  raise { s with mm := noteError p false s.tb.now { s.mm with eccCe := true } } 300

/-- An uncorrectable error raises source 301. It is none of the corrected errors that a row may show: one that a rewrite cures calls for nothing
(R295). -/
def eccUncorrectable (s : State) (p : ErrPlace) (lost : Bool) : State :=
  let m := { s.mm with eccUe := true }
  raise { s with mm := if lost then noteError p true s.tb.now m else m } 301

/-- What a read of a physical address finds in its check bits (R294, R314). A page is retired after one uncorrectable error; whether a rewrite cures a
row, the patrol scrubber finds. -/
def eccMet (s : State) (pa : Nat) (ecc : EccResult) : State :=
  match ecc with
  | .clean => s
  | .corrected => let e := errPlace s pa; eccCorrected e.2 e.1
  | .uncorrectable => let e := errPlace s pa; eccUncorrectable e.2 e.1 (paExternal pa)

/-- The same for a read through a context's window. -/
def eccMetAt (s : State) (n : Chan) (x : Ctx) (va : Nat) (ecc : EccResult) : State :=
  eccMet s (physOf s.mm (windowAsid s.chans[n].graver x) va) ecc

end Sys2Proof.Machine
end

