-- ==== Sys2Proof/Machine/Flags.lean ====
section
/-!
DEFINITION. The flags of the integer instructions (R170 to R177) and the conditions of JCC (Table 4.3).
-/
namespace Sys2Proof.Machine

/-- Z and N of a 32-bit result (R170). -/
def setZN (k : Context) (r : Word) : Context := { k with z := r == 0, n := r.msb }

/-- The flags of a sum (R172): C is the carry out of bit 31, V signed overflow. -/
def flagsAdd (k : Context) (a b : Word) : Context :=
  { setZN k (a + b) with
    c := a.toNat + b.toNat ≥ 2 ^ 32
    v := a.toInt + b.toInt != (a + b).toInt }

/-- The flags of a difference (R172): C is 1 when there is no borrow, V signed overflow. -/
def flagsSub (k : Context) (a b : Word) : Context :=
  { setZN k (a - b) with
    c := b.toNat ≤ a.toNat
    v := a.toInt - b.toInt != (a - b).toInt }

/-- Whether an exact value fits in 32 signed bits. -/
def fits32 (v : Int) : Bool := -(2 ^ 31) ≤ v && v < 2 ^ 31

/-- The flags of a product (R173): V when the exact product does not fit; C is unchanged. -/
def flagsMul (k : Context) (a b : Word) : Context := { setZN k (wordI (a.toInt * b.toInt)) with v := !fits32 (a.toInt * b.toInt) }

/-- The flags of a multiply-accumulate (R173): V when the exact product or the exact sum does not fit; C is unchanged. -/
def flagsMac (k : Context) (acc a b : Word) : Context :=
  { setZN k (wordI (acc.toInt + a.toInt * b.toInt)) with
    v := !fits32 (a.toInt * b.toInt) || !fits32 (acc.toInt + a.toInt * b.toInt) }

/-- The flags of a shift (R175): C takes the last bit shifted out and is unchanged for an amount of 0; V is unchanged. -/
def flagsShift (k : Context) (r : Word) (s : Nat) (last : Bool) : Context :=
  { setZN k r with c := if s = 0 then k.c else last }

/-- EV: a WAITEV input of the Graver holds a token (Table 4.1). -/
def flagEV (s : State) (n : Chan) : Bool :=
  (List.range 4).any fun i => match s.tr.cons[4 * n.val + i]? with | some c => c.pend != 0 | none => false

/-- The conditions of Table 4.3; none for the reserved values of R133. CP is the channel's compliance and UR the context's. -/
def condition (s : State) (n : Chan) (k : Context) (cond a : BitVec 4) : Option Bool :=
  match cond.toNat with
  | 0x0 => some k.z
  | 0x1 => some (!k.z)
  | 0x2 => some k.c
  | 0x3 => some (!k.c)
  | 0x4 => some k.n
  | 0x5 => some (!k.n)
  | 0x6 => some k.v
  | 0x7 => some (!k.v)
  | 0x8 => some (k.c && !k.z)
  | 0x9 => some (!k.c || k.z)
  | 0xA => some (k.n == k.v)
  | 0xB => some (k.n != k.v)
  | 0xC => some (!k.z && k.n == k.v)
  | 0xD => some (k.z || k.n != k.v)
  | 0xE => some true
  | _ =>
    if a.getLsbD 2 || a.toNat % 4 = 3 then none
    else
      let f := if a.toNat % 4 = 0 then flagEV s n else if a.toNat % 4 = 1 then s.chans[n].force.inComp else k.ur
      some (f != a.getLsbD 3)

end Sys2Proof.Machine
end

