-- ==== Sys2Proof/Machine/Operands.lean ====
section
/-!
DEFINITION. The operands of Krytger instructions: registers, the second operand of the integer class, immediates, checked fields, and
how a Graver chooses, fetches, completes and suspends (R130, R136, R147, R148).
-/
namespace Sys2Proof.Machine

/-- A general register. -/
def gr (k : Context) (r : BitVec 4) : Word := k.g[r.toFin]

/-- Write a general register. -/
def setGr (k : Context) (r : BitVec 4) (v : Word) : Context := { k with g := k.g.set r.toFin v }

/-- imm14 sign-extended (R132). -/
def imm14 (k : Fields) : Word := k.imm.signExtend 32

/-- The second operand of Table 5.4 (R170); none for a reserved combination. -/
def op2 (k : Context) (f : Fields) : Option Word :=
  let i := immBit f 12
  let x := immBit f 13
  let imm12 := immField f 11 0
  if !i then (if x || imm12 != 0 then none else some (gr k f.c))
  else if !x then (if f.c != 0 then none else some (wordI (signedOf 12 imm12)))
  else if f.c != 0 || imm12 != 0 then none
  else some f.ext

/-- The fields B, C and all of imm14 are 0 except as said: each flag names a field that may be non-zero. -/
def zeroFields (f : Fields) (a b c imm : Bool) : Bool :=
  (a || f.a == 0) && (b || f.b == 0) && (c || f.c == 0) && (imm || f.imm == 0)

/-- Bits hi:lo of imm14 are 0. -/
def immZero (f : Fields) (hi lo : Nat) : Bool := immField f hi lo == 0

/-- The operand of an instruction whose value stands in the extension word when X = 1 and in register A when X = 0, where A is 0 in the
first case and imm14[12:lo] is 0 in both. -/
def regOrExt (k : Context) (f : Fields) : Word := if immBit f 13 then f.ext else gr k f.a

/-- Whether register A is 0 where the extension word takes its place. -/
def regOrExtOk (f : Fields) : Bool := !immBit f 13 || f.a == 0

/-! ### Choosing a context (R136, R167) -/

/-- A context that could execute: READY or RUNNING. -/
def isReady (k : Context) : Bool := k.state == .ready || k.state == .running

/-- An active context (R137). -/
def isActive (k : Context) : Bool := k.state != .halted

/-- The contexts from the highest priority down. -/
def byPriority : List Ctx := [3, 2, 1, 0]

/-- The context that a decision gives the execution unit to: the highest-priority READY one that does not stand aside, else the highest
that does (R167). -/
def bestCtx (g : Graver) : Option Ctx :=
  match byPriority.find? fun x => isReady g.ctx[x] && g.ctx[x].yields == 0 with
  | some x => some x
  | none => byPriority.find? fun x => isReady g.ctx[x]

/-- The context that executes next: one whose missed fetch has landed still holds the unit that a decision gave it (R136, R140), else a new decision
chooses. -/
def chooseCtx (g : Graver) : Option Ctx :=
  match g.granted with
  | some x => if isReady g.ctx[x] then some x else bestCtx g
  | none => bestCtx g

/-- The Graver after a decision: the chosen context runs, any other RUNNING one is READY, and the decision counts for those that stand
aside. A context that the decision before a missed fetch chose runs by that one. -/
def afterDecision (g : Graver) (x : Ctx) : Graver :=
  if g.granted = some x then { g with granted := none } else
  { g with
    runctx := x
    granted := none
    ctx := g.ctx.mapFinIdx fun i k _ =>
      { k with
        yields := k.yields - 1
        state := if i = x.val then .running else if k.state == .running then .ready else k.state } }

/-! ### Fetching (R128, R130, R147) -/

/-- What a fetch finds. -/
inductive Fetched where
  | words (w ext : Word)
  | miss (va : Nat) (split : Bool)
  | noExt
  | nothing
  deriving DecidableEq, Repr

/-- A word of the program cache of a bank, by address space and device virtual address. -/
def cacheWord (b : BankState) (asid : BitVec 4) (va : Nat) : Option Word :=
  match b.lines.find? fun l => l.1 == asid && l.2.1 == va / 64 with
  | some l => l.2.2[va % 64 / 4]?
  | none => none

/-- Fetch the base word at the context's program counter and the extension word it calls for. -/
def fetch (s : State) (n : Chan) (x : Ctx) : Fetched :=
  let g := s.chans[n].graver
  let k := g.ctx[x]
  if inImm g x then
    match g.imm[k.pc.toNat / 4]? with
    | none => .nothing
    | some w =>
      if hasExt (wordOp w) (wordFields w 0) then
        match g.imm[k.pc.toNat / 4 + 1]? with
        | some e => .words w e
        | none => .noExt
      else .words w 0
  else
    let b := s.banks[bankOf n]
    let asid := BitVec.ofNat 4 (windowAsid g x)
    let va := windowVa g x k.pc
    match cacheWord b asid va with
    | none => .miss va false
    | some w =>
      if hasExt (wordOp w) (wordFields w 0) then
        let ve := windowVa g x (k.pc + 4)
        match cacheWord b asid ve with
        | some e => .words w e
        | none => .miss ve true
      else .words w 0

/-! ### Halting and completing -/

/-- A context after HALT: its playback and generator are stopped and its playback state is cleared (R161, R212). -/
def haltedCtx (k : Context) : Context :=
  { k with
    state := .halted, supplier := .none, startNext := none, stopGen := false, rate := 0, armed := none, jumpReq := none,
    haltReq := false, yields := 0 }

/-- Take a context to HALTED (R146, R161); context 2 also leaves the immediate buffer, and a suspension is discarded. -/
def haltCtx (s : State) (n : Chan) (x : Ctx) : State :=
  let s := { s with mm := { s.mm with
    demand := s.mm.demand.filter fun d => d.who != .context n x, waits := s.mm.waits.filter fun w => w.who != .context n x } }
  updGraver (updCtx s n x haltedCtx) n fun g =>
    { g with
      immBusy := if x = 2 then false else g.immBusy
      granted := if g.granted = some x then none else g.granted
      prefetchStalled := g.prefetchStalled && g.bufOwner != some x
      prefetchEcc := g.prefetchEcc && g.bufOwner != some x && g.ctx[x].armed.isNone
      busy := if g.busy.map (·.1) = some x then none else g.busy }

/-- A context at an instruction boundary: a HALT that waited for it takes it, and past the last loaded word of the immediate buffer it
halts (R146, R147). -/
def settle (s : State) (n : Chan) (x : Ctx) : State :=
  let g := s.chans[n].graver
  let k := g.ctx[x]
  if k.haltReq then haltCtx s n x
  else if inImm g x && isReady k && k.pc.toNat / 4 ≥ g.imm.length then haltCtx s n x
  else s

/-- A suspension with which a HALT or DISABLE is concurrent leaves the context HALTED (R150, R151). -/
def haltIfAsked (s : State) (n : Chan) (x : Ctx) : State := if (s.context n x).haltReq then haltCtx s n x else s

/-- A waiting or held context goes on after its instruction. -/
def wake (s : State) (n : Chan) (x : Ctx) : State := settle (updCtx s n x fun k => { k with state := .ready }) n x

/-- How an instruction ends. -/
inductive Done where
  | next (s : State)                                    -- the program counter moves past the instruction
  | jump (target : Word) (s : State)                    -- a branch
  | hold (s : State)                                    -- the execution unit is held; the program counter stays
  | fault (c : Cause)                                   -- suspension without any other effect
  | xlate (wr : Bool) (va : Nat) (f : Xlate)            -- XLATE_DATA
  | ecc (va : Nat)                                      -- XLATE_DATA after an uncorrectable memory error (R320)
  | leaveImm                                            -- a branch that leaves the loaded words of the immediate buffer

/-- The address after an instruction and its extension word. -/
def nextPc (pc : Word) (ext : Bool) : Word := if ext then pc + 8 else pc + 4

/-- Carry out the end of an instruction. -/
def complete (s : State) (n : Chan) (x : Ctx) (ext : Bool) : Done → State
  | .next t => settle (updCtx t n x fun k => { k with pc := nextPc k.pc ext }) n x
  | .jump a t => settle (updCtx t n x fun k => { k with pc := a }) n x
  | .hold t => updGraver t n fun g => { g with busyExt := ext }
  | .fault c => suspend s n x c
  | .xlate wr va f => suspendXlate s n x false wr false va f
  | .ecc va => suspendXlate (eccMetAt s n x va .uncorrectable) n x false false false va eccFault
  | .leaveImm => suspendImm s n x

/-- The instruction that held the execution unit completes: the program counter moves past it. -/
def finishBusy (s : State) (n : Chan) (x : Ctx) : State :=
  let ext := s.chans[n].graver.busyExt
  settle (updGraver (updCtx s n x fun k => { k with pc := nextPc k.pc ext }) n fun g => { g with busy := none }) n x

/-- Execute the instruction with opcode `op` and fields `f` on a Graver: the context that the decision of R136 chooses fetches the words
at its program counter, and if they are this instruction it executes. A fetch that misses the program cache holds the execution unit
(R130). While the unit is held, or when the words are another instruction's, the command finds nothing to do (assumption 10). -/
def issue (op : BitVec 6) (n : Chan) (f : Fields) (s : State) (body : Ctx → State → Done) : State :=
  let g := s.chans[n].graver
  if g.busy.isSome then s
  else
    match chooseCtx g with
    | none => s
    | some x =>
      match fetch s n x with
      | .nothing => s
      | .miss _ _ => updGraver s n fun g => { afterDecision g x with busy := some (x, .fetch) }
      | .noExt => suspendImm (updGraver s n fun g => afterDecision g x) n x
      | .words w e =>
        if w == baseWord op f && (f.ext == if hasExt op f then e else 0) then
          let s := updGraver s n fun g => afterDecision g x
          complete s n x (hasExt op f) (body x s)
        else s

/-- An instruction whose fields must satisfy a check, else ILLEGAL (R133). This check comes before those of the privilege code (DESIGN CHOICE,
assumption 116). -/
def checked (ok : Bool) (d : Done) : Done := if ok then d else .fault .illegal

/-! ### Ownership (R137, R144, R145) -/

/-- Whether a channel that is not INERT is on its way there: MODE INERT waits for its sample tick or is being carried out (R49), or the safe state is
entered (R83). -/
def parking (f : Force) : Bool := f.inertReq || f.safe.isSome || (match f.seq with | .entering _ => true | _ => false)

/-- Whether an active context qualifies as owner: not observe-only, and its intent is not INERT unless the channel is (R137). The owner that takes its
channel to INERT keeps it until it is there, as does the context whose MODE INERT took it there before a tick had made it the owner (R168, R179;
DEDUCED, assumption 94). -/
def qualifies (c : Channel) (x : Ctx) : Bool :=
  let k := c.graver.ctx[x]
  isActive k && !k.obs
    && (k.intent.mode != .inert || c.force.mode == .inert
      || (parking c.force && ((c.force.owner == x && !c.force.noOwner) || c.force.parkCtx == some x)))

/-- The owner of the output (R137). -/
def ownerOf (c : Channel) : Option Ctx := byPriority.find? (qualifies c)

/-- The checks of a "No OBS" instruction (R144, R145 through R158): PRIV for an observe-only context and, on a relieved relief channel,
for contexts 0 to 2. -/
def noObs (s : State) (n : Chan) (x : Ctx) (d : Done) : Done :=
  let c := s.chans[n]
  if c.graver.ctx[x].obs || (c.force.relieved && isRelief n && x != 3) then .fault .priv else d

/-- The checks of an "Owner" instruction. -/
def ownerOnly (s : State) (n : Chan) (x : Ctx) (d : Done) : Done :=
  noObs s n x (if ownerOf s.chans[n] = some x then d else .fault .priv)

end Sys2Proof.Machine
end

