-- ==== Sys2Proof/Machine/ForceOps.lean ====
section
/-!
DEFINITION. The shared operations of the channel force path (02_channel_force): full scales and re-scaling, EVENT and JUMPED words,
commands to the CPS, the safe state, the mode and range sequences, the slew limiter, and what a sample tick does to the force path.
-/
namespace Sys2Proof.Machine

/-! ### Full scales (Table 2.10) -/

/-- The code of a mode (Table 2.3). -/
def Mode.code : Mode → Nat
  | .inert => 0
  | .fv => 1
  | .fi => 2
  | .meas => 3

/-- Full scale of a voltage range in units of 0.1 V, with the reference CPS; the identity words of another CPS have no field for its full scales
(R99, DESIGN CHOICE, assumption 88). -/
def fsV (r : Nat) : Nat := if r = 0 then 25 else if r = 1 then 100 else 400

/-- Full scale of a current range in units of 10 nA, in the same way. -/
def fsI (r : Nat) : Nat := 10 ^ r

/-- Whether a mode forces voltage (Table 2.3). -/
def forcesV (m : Mode) : Bool := m == .fv

/-- Full scale of the forced quantity of a mode. -/
def forcedFs (m : Mode) (r : Ranges) : Nat := if forcesV m then fsV r.v else fsI r.i

/-- Full scale of the clamped quantity of a mode. -/
def clampedFs (m : Mode) (r : Ranges) : Nat := if forcesV m then fsI r.i else fsV r.v

/-- The level code range (R46) and the clamp code range (R61). -/
def satLevel (v : Int) : Int := clampInt (-524288) 524287 v
def satClamp (v : Int) : Int := clampInt (-32768) 32767 v

/-- A code re-expressed from one full scale in another (R72). -/
def reExpress (code : Int) (old new : Nat) : Int := roundDiv (code * old) new

/-- The codes of ENABLE, CLOSE_I and so on (Table 2.17). -/
def opEnable : Nat := 1
def opCloseI : Nat := 2
def opOpenI : Nat := 3
def opCloseV : Nat := 4
def opOpenV : Nat := 5
def opRelief : Nat := 6
def opReadId : Nat := 7
def opClear : Nat := 8
def opSafe : Nat := 15

/-- Queue a command for a slot of a bank (R88, R90); nothing is queued for a bank whose die is down. -/
def cpsSend (s : State) (b : Bank) (slot op arg : Nat) : State :=
  updBank s b fun k => { k with queue := k.queue ++ [{ slot := slot, op := op, arg := arg, tries := 0, restart := false }] }

/-- Queue a command for a channel's slot. -/
def cpsFor (s : State) (n : Chan) (op arg : Nat) : State := cpsSend s (bankOf n) (slotOf n) op arg

/-- Whether a command of the given operations for a channel's slot is still queued or unanswered. -/
def cpsPending (s : State) (n : Chan) (ops : List Nat) : Bool :=
  let b := s.banks[bankOf n]
  let hit := fun c : CpsCmd => c.slot == slotOf n && ops.contains c.op
  b.queue.any hit || b.sent.any hit

/-! ### Result words that record a change (R112, R229) -/

/-- Whether the stream takes EVENT, MARK and JUMPED words (Table 3.5). -/
def streaming (m : SMode) : Bool := m == .cont || m == .trig

/-- Whether the converters of a channel belong to a calibration run (R400). -/
def calOwns (c : Channel) : Bool := c.cal.phase == .run || c.cal.phase == .store

/-- Hold a dated word back for the stream under a stream mode, in CONT and TRIG only (Table 3.5); `order` ranks words of one instant (R117). -/
def holdWord (mode : SMode) (s : State) (n : Chan) (tick order : Nat) (w : Word) : State :=
  if streaming mode then updMeas s n fun m => { m with dated := m.dated ++ [⟨tick, order, w⟩] } else s

/-- The stream mode that an instant falls under (R112): before the last sample tick, the one noted for it. -/
def smodeAt (s : State) (n : Chan) (tick : Nat) : SMode :=
  let m := s.chans[n].meas
  if s.tb.lastSample.any (tick < ·) then (((m.settings.filter fun e => e.since ≤ tick).getLast?.or m.settings.head?).map (·.smode)).getD m.cfg.smode
  else m.cfg.smode

/-- Hold a dated word back under the stream mode of its instant, neither in vigil (R392) nor during a calibration run (R400). -/
def dateWord (s : State) (n : Chan) (tick order : Nat) (w : Word) : State :=
  if s.pwr.vigil || calOwns s.chans[n] then s else holdWord (smodeAt s n tick) s n tick order w

/-- A result word (Table 3.6). -/
def resultWord (tag qual payload : Nat) : Word := pack [(tag % 16, 28), (qual % 16, 24), (payload % 2 ^ 24, 0)]

/-- The rank of an EVENT word among the words of its instant (R117): by SOURCE and then by kind. -/
def eventOrder (kind source : Nat) : Nat := 16 + source * 16 + kind

/-- An EVENT word (Tables 3.8 and 3.9). -/
def eventOf (kind source detail : Nat) : Word := resultWord 5 kind (detail % 16 * 512 + source)

/-- Hold an EVENT word back. -/
def eventWord (s : State) (n : Chan) (tick kind source detail : Nat) : State :=
  dateWord s n tick (eventOrder kind source) (eventOf kind source detail)

/-- A JUMPED word (Table 6.6). Of two of one instant the one with the lower kind comes first (DESIGN CHOICE, assumption 114). -/
def jumpedWord (s : State) (n : Chan) (tick kind payload : Nat) : State :=
  dateWord s n tick (8192 + kind) (resultWord 9 kind payload)


/-! ### The intent in force (R141) -/

/-- Change a context's intent; for the context whose intent is in force the intent in force changes with it. -/
def updIntent (s : State) (n : Chan) (x : Ctx) (f : Intent → Intent) : State :=
  let c := s.chans[n]
  let s := updCtx s n x fun k => { k with intent := f k.intent }
  if ownerOf c = some x && c.force.owner == x && !c.force.noOwner then
    updForce s n fun p => { p with applied := f p.applied }
  else s

/-- A change that the device makes to the intent in force (R72, R107, R69): the intent of the context that owns it changes too. -/
def updApplied (s : State) (n : Chan) (f : Intent → Intent) : State :=
  let c := s.chans[n]
  let s := updForce s n fun p => { p with applied := f p.applied }
  if ownerOf c = some c.force.owner && !c.force.noOwner then
    updCtx s n c.force.owner fun k => { k with intent := f k.intent }
  else s

/-! ### The CPS identity (Table 2.19, R92) -/

/-- A word of a slot's identity; 0 where it has not been read. -/
def identWord (f : Force) (i : Nat) : Nat := (f.slot.ident[i]?.map BitVec.toNat).getD 0

/-- Whether word 0 says that no CPS is fitted. -/
def noCps (f : Force) : Bool := identWord f 0 == 0 || identWord f 0 == 0x3FFF

/-- Whether the identity in force declares the ranges (word 11). -/
def declares (f : Force) (r : Ranges) : Bool := (identWord f 11).testBit r.i && (identWord f 11).testBit (9 + r.v)

/-- Whether a slot is held INERT while its identity is read (R92). -/
def slotHeld (f : Force) : Bool := f.slot.reading.isSome || f.slot.ident.isEmpty

/-- Status bits (Table 2.18). -/
def stRailok (w : BitVec 14) : Bool := w.getLsbD 13
def stEn (w : BitVec 14) : Bool := w.getLsbD 12
def stRelief (w : BitVec 14) : Bool := w.getLsbD 9
def stNew (w : BitVec 14) : Bool := w.getLsbD 0

/-! ### Calibration runs that end early (R405) -/

/-- Whether a calibration run is under way; `forRun` says that a takeover in progress is for a run. -/
def runActive (c : Calib) (forRun : Bool) : Bool := c.phase == .run || c.phase == .store || (c.phase == .takeover && forRun)

/-- End a run with a code of Table 13.2; FAILCNT counts codes of 0x10 or above. A takeover in progress goes on as a relief (assumption 128); a write that
has not ended leaves its slot invalid (R408). -/
def endRun (relieved : Bool) (code : Nat) (c : Calib) : Calib :=
  { c with
    phase := if relieved then .relieved else if c.phase == .takeover then .takeover else .idle
    slots := if c.storing.isSome then c.slots.set (1 - c.slot) none else c.slots
    storing := none
    last := code
    handback := false
    failcnt := if code ≥ 0x10 then satAdd 65535 c.failcnt 1 else c.failcnt }

/-- Whether a relief that is in progress in a channel's bank serves a run of this channel. -/
def reliefForRun (s : State) (n : Chan) : Bool :=
  match s.reliefs[bankOf n] with
  | some r => r.forRun && chanAt (bankOf n) r.slot == n
  | none => false

/-- End a channel's run with ABORTED or RESTART, if one is under way; a relief that is in progress for it serves it no longer (R405). -/
def abortRun (s : State) (n : Chan) (code : Nat) : State :=
  let forRun := reliefForRun s n
  let s := updChan s n fun c => if runActive c.cal forRun then { c with cal := endRun c.force.relieved code c.cal } else c
  if forRun then { s with reliefs := s.reliefs.set (bankOf n) (s.reliefs[bankOf n].map fun r => { r with forRun := false }) } else s

/-! ### Relay and safe state (R78, R83, R94) -/

/-- Drive OEN_n low: CONN becomes 0 at once and the break time of a relay that is closed or closing starts. -/
def oenLow (f : Force) : Force :=
  let on := f.relay == .closed || f.relay == .making
  { f with oen := false, relay := if on then .breaking else f.relay, breakRuns := f.breakRuns || on }

/-- An intent with another mode: it remembers the active mode that an INERT one follows (R72, R73). -/
def Intent.withMode (i : Intent) (m : Mode) : Intent :=
  { i with mode := m, last := if m != .inert then m else if i.mode != .inert then i.mode else i.last }

/-- The mode whose quantities the codes of an intent stand for; INERT where it has never had an active one. -/
def codeMode (i : Intent) : Mode := if i.mode != .inert then i.mode else i.last

/-- Whether a cause opens the relay by hardware at the trigger (Table 2.14). -/
def opensAtOnce (cause : Nat) : Bool := cause == 1 || cause == 2 || cause == 4 || cause == 6

/-- Send ENABLE with ARG[0] = 0; a bridged change ends with it (R495). -/
def sendDisable (s : State) (n : Chan) : State :=
  updForce (cpsFor s n opEnable 0) n fun f =>
    { f with
      cpsen := false, bridge := none, waitingAuto := none, switching := false
      endedEarly := f.endedEarly || f.bridge.isSome }

/-- Open the relief switches of a relief that is in force in a bank (R94). -/
def dropRelief (s : State) (b : Bank) : State :=
  match s.reliefs[b] with
  | none => s
  | some r =>
    let m := chanAt b r.slot
    let s := cpsSend (cpsSend s b r.slot opRelief 0) b 16 opRelief 0
    let s := updForce s m fun f => { f with relieved := false }
    let s := updForce s (chanAt b 16) fun f => { f with relieved := false }
    let s := updChan s m fun c =>
      { c with cal :=
        if c.cal.phase == .takeover && r.forRun then { endRun false 0x15 c.cal with phase := .idle }
        else if c.cal.phase == .takeover || c.cal.phase == .handback || c.cal.phase == .relieved then { c.cal with phase := .idle }
        else c.cal }
    let s := haltCtx (haltCtx s m 3) (chanAt b 16) 3
    { s with reliefs := s.reliefs.set b none }

/-- Every intent of a channel becomes INERT, that in force with them (R83, R373). -/
def inertIntents (s : State) (n : Chan) : State :=
  let s := updGraver s n fun g => { g with ctx := g.ctx.map fun k => { k with intent := k.intent.withMode .inert, modeHeld := false } }
  updForce s n fun f => { f with applied := f.applied.withMode .inert, deferred := false }

/-- The code that a cause moves the DAC to (Table 2.14). -/
def safeCode (cause : Nat) (r : Safety) : Int := if cause = 7 then r.park else r.fault

/-- The relay opens and the CPS is disabled where the cause does so by hardware at the trigger. -/
def openNow (s : State) (n : Chan) (cause : Nat) : State :=
  if opensAtOnce cause then sendDisable (updForce s n oenLow) n else s

/-- The EVENT FAULT word of a trigger of this tick with another cause in its place. -/
def recause (now old new : Nat) (d : Dated) : Dated :=
  if d.tick = now && d.w == resultWord 5 6 (old % 16 * 512 + 282) then { d with w := resultWord 5 6 (new % 16 * 512 + 282) } else d

/-- A further trigger on a latched channel: it is noted while the safe-state sequence runs (R84), and it acts only where it is concurrent, which the model
takes to be of the same tick: FCAUSE is then the lowest code, and what any of them does by hardware is done (R83, assumption 41). -/
def concurrentTrigger (s : State) (n : Chan) (cause : Nat) : State :=
  let f := s.chans[n].force
  match f.safe with
  | some q =>
    let s := updForce s n fun f => { f with causes := f.causes ++ [cause] }
    if f.fltAt != s.tb.now then s
    else
      let low := min f.fcause cause
      let s := updForce s n fun f =>
        { f with fcause := low, safe := some ⟨low, safeCode low f.safety, q.opened || opensAtOnce cause, q.imm || cause = 6⟩ }
      let s := updMeas s n fun m => { m with dated := m.dated.map (recause s.tb.now f.fcause low) }
      if q.opened then s else openNow s n cause
  | none => s

/-- A context that waits for an output settles for the end of the safe-state sequence (R168). -/
def fenceSafe (k : Context) : Context :=
  match k.state with
  | .waiting (.fence mem true _) => { k with state := .waiting (.fence mem true true) }
  | _ => k

/-- A safe-state trigger (R83): from the next sample tick on the DAC moves to FAULT or PARK at the fault slew (R59); relay open, CPS disabled,
every intent INERT, FLT_LATCH and FCAUSE set, source 282 raised and an EVENT FAULT word. -/
def safeTrigger (s : State) (n : Chan) (cause : Nat) : State :=
  if s.chans[n].force.fltLatch then concurrentTrigger s n cause
  else
    let s := updForce s n fun f =>
      { f with
        fltLatch := true, fcause := cause, fltAt := s.tb.now, causes := [cause], bridge := none, waitingAuto := none, switching := false
        inertReq := false, parkCtx := none, endedEarly := f.endedEarly || f.bridge.isSome
        seq := .idle, safe := some ⟨cause, safeCode cause f.safety, opensAtOnce cause, decide (cause = 6)⟩ }
    let s := updGraver s n fun g => { g with ctx := g.ctx.map fenceSafe }
    let s := openNow (inertIntents s n) n cause
    let s := noteCflag (abortRun s n 0x15) n 1 s.tb.now
    let s := if isRelief n then dropRelief s (bankOf n) else s
    raise (eventWord s n s.tb.now 6 282 cause) 282

/-- Whether the safe-state sequence of a channel has ended: DAC at its code, relay told to open. -/
def safeEnded (f : Force) : Bool :=
  match f.safe with
  | some q => q.opened && f.dac == q.dest
  | none => true

/-! ### Slew limiter (R57, R58) -/

/-- The step of a slew setting. -/
def slewStep (w : Slew) : Nat := min (w.m * 2 ^ w.e) 524288

/-- The representable step at or below a request (R57): a request of 0 becomes 1, one above 524,288 becomes 524,288. -/
def slewOf (req : Nat) : Nat × Nat :=
  let r := if req = 0 then 1 else min req 524288
  match (List.range 11).find? fun e => r / 2 ^ e ≤ 1023 with
  | some e => (e, r / 2 ^ e)
  | none => (10, 512)

/-- The smallest representable step at or above a request (R185). -/
def slewAbove (req : Nat) : Nat × Nat :=
  let r := if req = 0 then 1 else min req 524288
  match (List.range 11).find? fun e => (r + 2 ^ e - 1) / 2 ^ e ≤ 1023 with
  | some e => (e, (r + 2 ^ e - 1) / 2 ^ e)
  | none => (10, 512)

/-- Move a code towards a target by at most a step, never past it. -/
def moveToward (code target : Int) (step : Nat) : Int :=
  if code < target then min (code + step) target else max (code - step) target

/-- One sample tick of a slew limiter: the code and the phase after it. `fresh` says that the code stood at the previous target. -/
def slewTick (w : Slew) (fresh : Bool) (phase : Nat) (code target : Int) : Int × Nat :=
  if code = target then (code, 0)
  else if fresh || phase + 1 ≥ w.period then (moveToward code target (slewStep w), 0)
  else (code, phase + 1)

/-! ### Range changes (R72, R73, R75, R247) -/

/-- The minimum gap of a hysteresis (R246). -/
def minGap (hyst : Nat) : Int := if hyst = 0 then 1 else if hyst = 1 then 9 else if hyst = 2 then 41 else 164

/-- The thresholds after a range change, and whether one saturated or the pair was widened (R247). -/
def rescaleThresholds (hi lo : Int) (hyst old new : Nat) : Int × Int × Bool :=
  let h := reExpress hi old new
  let l := reExpress lo old new
  let h' := clampInt (-2048) 2047 h
  let l' := clampInt (-2048) 2047 l
  let gap := minGap hyst
  let d := gap - (h' - l')
  if d ≤ 0 then (h', l', h != h' || l != l')
  else
    let up := (d + 1) / 2
    let h2 := h' + up
    let l2 := l' - (d - up)
    let (h3, l3) := if h2 > 2047 then (2047, l2 - (h2 - 2047)) else (h2, l2)
    let (h4, l4) := if l3 < -2048 then (h3 + (-2048 - l3), -2048) else (h3, l3)
    (h4, l4, true)

/-- A comparator after a range change of the quantity it watches. -/
def rescaleCmp (old new : Ranges) (c : Comparator) : Comparator :=
  let q := flag c.cfg 3
  let fo := if q then fsI old.i else fsV old.v
  let fn := if q then fsI new.i else fsV new.v
  if fo = fn then c
  else
    let r := rescaleThresholds (sfield c.cfg 31 20) (sfield c.cfg 19 8) (field c.cfg 5 4) fo fn
    { c with
      cfg := pack [(bitsOf 12 r.1, 20), (bitsOf 12 r.2.1, 8), (field c.cfg 7 0, 0)]
      sat := c.sat || r.2.2 }

/-- A generator after a range change of the forced quantity (R213): the offset is a level code and saturates as one (R72), the amplitude at its own top,
without LVL_CLIP (DESIGN CHOICE, assumption 118). -/
def rescaleGen (old new : Nat) (g : Gen) : Gen :=
  { g with offset := satLevel (reExpress g.offset old new), amp := min (reExpress g.amp old new).toNat 524287 }

/-- The level and the clamps of an intent re-expressed in new ranges, before they saturate (R72). -/
def levelFor (m : Mode) (new : Ranges) (i : Intent) : Int := reExpress i.level (forcedFs m i.levelIn) (forcedFs m new)
def clampsFor (m : Mode) (new : Ranges) (i : Intent) : Clamps :=
  let co := clampedFs m i.clampsIn
  let cn := clampedFs m new
  ⟨reExpress i.clamps.hi co cn, reExpress i.clamps.lo co cn⟩

/-- Both clamps within the code range. -/
def satClamps (c : Clamps) : Clamps := ⟨satClamp c.hi, satClamp c.lo⟩

/-- The codes of an intent taken to new ranges for a mode (R72). Those of an intent that has never had an active mode stand for no quantity and
are kept (assumption 12). -/
def recode (m : Mode) (new : Ranges) (i : Intent) : Intent :=
  if m == .inert then { i with levelIn := new, clampsIn := new }
  else { i with level := satLevel (levelFor m new i), clamps := satClamps (clampsFor m new i), levelIn := new, clampsIn := new }

/-- The flags of codes that saturate where an intent is taken to new ranges (R72). -/
def recodeFlags (m : Mode) (new : Ranges) (i : Intent) (f : Force) : Force :=
  if m == .inert then f
  else
    let l := levelFor m new i
    let c := clampsFor m new i
    { f with
      lvlClip := f.lvlClip || satLevel l != l
      satHi := f.satHi || satClamp c.hi != c.hi
      satLo := f.satLo || satClamp c.lo != c.lo }

/-- Whether the codes that the owner writes are codes of the ranges in its intent: in INERT, where ranges change directly (R73, Table 5.12), and while
the ranges move to those of a new owner. Otherwise they are codes of the ranges in force until t2 (R76). -/
def ownRanges (f : Force) : Bool := f.mode == .inert || f.switching || f.seq == .entering .parking

/-- The ranges that the codes the owner writes are codes of. -/
def codeRanges (f : Force) (i : Intent) : Ranges := if ownRanges f then i.ranges else f.ranges

/-- The mode whose quantities a range change re-scales: the one in force, or in INERT that of the intent's codes. -/
def scaleMode (f : Force) : Mode := if f.mode != .inert then f.mode else codeMode f.applied

/-- The value from which a range change restarts the digital trim (R70): the loop offset of the set in force, the thirteenth trim in the order of
Table 13.1 (assumption 89). -/
def loopTrim (c : Calib) : Int :=
  match c.slots[c.slot]? with
  | some (some t) => signedOf 12 ((t.trims[12]?.map BitVec.toNat).getD 0)
  | _ => 0

/-- The intent in force taken to new ranges, with its flags (R72). -/
def recodeApplied (s : State) (n : Chan) (new : Ranges) : State :=
  let f := s.chans[n].force
  let m := scaleMode f
  updApplied (updForce s n (recodeFlags m new f.applied)) n (recode m new)

/-- Re-scale everything that the ranges measure and take the new ranges (R72, R247, R213). With `loop`, at t2 of a bridged change, the
target, the DAC code, the clamps in force and the generator move too. While the ranges move to those of a new owner, that owner's own codes
already stand in its own ranges and are left alone (R142, R143). -/
def takeRanges (s : State) (n : Chan) (new : Ranges) (loop : Bool) : State :=
  let f := s.chans[n].force
  let old := f.ranges
  let m := scaleMode f
  let fo := forcedFs m old
  let fn := forcedFs m new
  let co := clampedFs m old
  let cn := clampedFs m new
  let live := loop && m != .inert
  let hi := reExpress f.clamps.hi co cn
  let lo := reExpress f.clamps.lo co cn
  let s := if f.switching then s else recodeApplied s n new
  let s := updForce s n fun f =>
    { f with
      ranges := new, trim := loopTrim s.chans[n].cal, trimTicks := 0
      target := if live then satLevel (reExpress f.target fo fn) else f.target
      dac := if live then satLevel (reExpress f.dac fo fn) else f.dac
      clamps := if live then ⟨satClamp hi, satClamp lo⟩ else f.applied.clamps
      satHi := f.satHi || (live && satClamp hi != hi)
      satLo := f.satLo || (live && satClamp lo != lo) }
  let s := updChan s n fun c => { c with cmpA := rescaleCmp old new c.cmpA, cmpB := rescaleCmp old new c.cmpB }
  if live && fo != fn && !f.switching then
    match (s.context n f.owner).supplier with
    | .gen g =>
      let s := updCtx s n f.owner fun k => { k with supplier := .gen (rescaleGen fo fn g) }
      updForce s n fun f => { f with lvlClip := f.lvlClip || satLevel (reExpress g.offset fo fn) != reExpress g.offset fo fn }
    | _ => s
  else s

/-- The next range of a chain towards a goal (R75): the current range first, by one step among those the identity declares, then the
voltage range. -/
def chainStep (f : Force) (goal : Ranges) : Ranges :=
  let r := f.ranges
  let ok := fun i => (identWord f 11).testBit i || i = goal.i
  if r.i < goal.i then { r with i := ((List.range 9).find? fun i => r.i < i && ok i).getD goal.i }
  else if goal.i < r.i then { r with i := ((List.range 9).reverse.find? fun i => i < r.i && ok i).getD goal.i }
  else { r with v := goal.v }

/-- Start a bridged change towards a goal at a sample tick (t0 of Table 2.11): CLOSE for the new element is queued. -/
def startBridge (s : State) (n : Chan) (goal : Ranges) : State :=
  let f := s.chans[n].force
  let dst := chainStep f goal
  let s := if dst.i != f.ranges.i then cpsFor s n opCloseI dst.i else cpsFor s n opCloseV dst.v
  updForce s n fun f => { f with bridge := some { phase := .closing, old := f.ranges, dst := dst, goal := goal } }

/-- A direct change of ranges in INERT (R73): the elements switch and the codes are re-scaled, with no bridge. -/
def directRange (s : State) (n : Chan) (new : Ranges) : State :=
  let old := s.chans[n].force.ranges
  let s := if new.i != old.i then cpsFor (cpsFor s n opCloseI new.i) n opOpenI old.i else s
  let s := if new.v != old.v then cpsFor (cpsFor s n opCloseV new.v) n opOpenV old.v else s
  takeRanges s n new false

/-! ### Modes (R47 to R49, R494) -/

/-- The preload code of a mode from the latest calibrated raw sample of its forced quantity (R47). Before the first raw pair it is that of an
extended value of 0 (DESIGN CHOICE, assumption 90). -/
def preloadCode (m : Measure) (mode : Mode) (r : Ranges) : Int :=
  if forcesV mode then satLevel (roundDiv (m.extV * fsV m.extRanges.v) (fsV r.v * 16))
  else satLevel (roundDiv (m.extI * fsI m.extRanges.i) (fsI r.i * 16))

/-- The loop's target for an intent level: zero current in MEAS (R46). -/
def loopTarget (m : Mode) (level : Int) : Int := if m == .meas then 0 else level

/-- Whether the code has reached the level of the intent in force; in INERT, its target. -/
def levelReached (f : Force) : Bool := f.dac == f.target && (f.mode == .inert || f.target == loopTarget f.mode f.applied.level)

/-- CH_STATUS.SLEWING (Table 2.28). -/
def slewing (f : Force) : Bool := f.dac != f.target

/-- The clamps in force after a tick: a clamp that moves away from the other applies at once, one that moves towards it once the level
has reached its target (R79). -/
def clampTick (cur want : Clamps) (atTarget : Bool) : Clamps :=
  { hi := if want.hi ≥ cur.hi || atTarget then want.hi else cur.hi
    lo := if want.lo ≤ cur.lo || atTarget then want.lo else cur.lo }

/-- The clamps at a mode tick: they switch to those of a new clamped quantity (R48); between FI and MEAS, which clamp the same one, those that narrow
wait for the level (R79). -/
def modeClamps (f : Force) (mode : Mode) : Clamps :=
  let want := satClamps (clampsFor mode f.ranges f.applied)
  if f.mode == .inert || forcesV f.mode != forcesV mode then want else clampTick f.clamps want false

/-- Take a mode at a sample tick with the preload of R47 and R48: target and DAC code are preloaded together. -/
def takeMode (s : State) (n : Chan) (mode : Mode) : State :=
  let c := s.chans[n]
  let code := preloadCode c.meas mode c.force.ranges
  updForce s n fun f => { f with mode := mode, dac := code, target := code, slewPhase := 0, clamps := modeClamps f mode }

/-- Begin to park (R49 step 3): ENABLE with ARG[0] = 0. -/
def beginParking (s : State) (n : Chan) : State := updForce (sendDisable s n) n fun f => { f with seq := .entering .parking }

/-- Steps 2 and 3 of R49: a relay that is closed or closing opens first. -/
def openAndPark (s : State) (n : Chan) : State :=
  let f := s.chans[n].force
  if f.relay == .closed || f.relay == .making then updForce s n fun f => { oenLow f with seq := .entering .relay } else beginParking s n

/-- A channel that stays INERT opens a relay that CONNECT closed on the way to a mode which never applied (R78, R494). -/
def stayInert (s : State) (n : Chan) : State := updForce s n fun f => if f.oen then oenLow f else f

/-- The plate hold (R373). -/
def plateHold (p : Plate) : Bool := p.deten && (p.sess != .live || p.eolhold || !p.en)

/-- Whether MODE to an active mode is without effect: FLT_LATCH (R84), NOCAL (R409), or the plate hold (R373). -/
def modeBlocked (s : State) (n : Chan) : Bool :=
  let c := s.chans[n]
  c.force.fltLatch || c.cal.nocal || plateHold s.pl

/-- Take a channel out of its active mode in the order of R49 at the next sample tick, by a MODE INERT of the given context or of the device. -/
def requestInert (s : State) (n : Chan) (who : Option Ctx) : State :=
  updForce s n fun f =>
    let due := (f.mode != .inert || f.seq != .idle) && f.safe.isNone
    { f with inertReq := due, parkCtx := if due then who else none }

/-- Every intent of a channel becomes INERT, and a channel not in INERT is taken there in the order of R49 (R373). -/
def holdChannel (s : State) (n : Chan) : State := requestInert (inertIntents s n) n none

/-! ### The force DAC (R50 to R52, R68) -/

/-- The level code at the force DAC: LDID adds its perturbation after the slew limiter (R59, R68); a sum outside the code range is limited to it
(assumption 93). -/
def dacCode (f : Force) : Int := satLevel (f.dac + f.perturb)

/-- The offset-binary code of a level code (R50), and the coarse segment and fine tap it selects. -/
def dacBinary (code : Int) : Nat := (code + 524288).toNat
def segmentOf (u : Nat) : Nat := u / 1024
def tapOf (u : Nat) : Nat := u % 1024

/-- The physical coarse segment that serves a logical one (R52): spare j, numbered 1,024 + j here, serves the segment in entry j of the map. -/
def physicalSegment (map : List (BitVec 16)) (k : Nat) : Nat :=
  match map.findIdx? fun e => e.toNat == k with
  | some j => 1024 + j
  | none => k

/-- The segment map in force (R52, R408). -/
def segmentMap (c : Calib) : List (BitVec 16) :=
  match c.slots[c.slot]? with
  | some (some t) => t.segmap
  | _ => []

/-- What a channel's force DAC selects: the physical coarse segment and the fine tap. -/
def dacSelects (c : Channel) : Nat × Nat :=
  let u := dacBinary (dacCode c.force)
  (physicalSegment (segmentMap c.cal) (segmentOf u), tapOf u)

/-! ### The FENCE condition OUT (R168) -/

/-- Whether every output request of the owner has taken full effect. -/
def outSettled (c : Channel) (x : Ctx) : Bool :=
  let f := c.force
  let k := c.graver.ctx[x]
  let supplied := k.supplier != .none || k.startNext.isSome
  (f.seq == .idle && !f.deferred && !f.inertReq && k.intent.mode == f.mode && f.bridge.isNone && f.waitingAuto.isNone && !f.switching
    && k.intent.ranges == f.ranges && (supplied || levelReached { f with applied := k.intent })
    && f.relay != .making && !f.breakRuns
    && k.intent.comp == f.comp && (k.intent.staged.isNone || k.intent.strobe != 0))

/-- Whether the conditions a FENCE selects hold (R168); `safe` says that the channel entered its safe state meanwhile, whose end completes OUT. -/
def fenceHolds (s : State) (n : Chan) (x : Ctx) (mem out safe : Bool) : Bool :=
  let c := s.chans[n]
  (!mem || c.graver.ctx[x].stores.isEmpty) && (!out || ownerOf c != some x || outSettled c x || (safe && c.force.safe.isNone))

/-! ### The sample tick of the force path -/

/-- Whether a strobe of an intent's source occurs at this sample tick (Table 2.5): SAMPLE always, a group when it fired, SELF and the
reserved values when the channel was fired. STROBE SELF while another source is selected strobes nothing of the owner (DESIGN CHOICE,
assumption 91). -/
def strobeNow (i : Intent) (self : Bool) (groups : BitVec 8) : Bool :=
  if i.strobe == 0 then true else if i.strobe.toNat ≥ 8 then groups.getLsbD (i.strobe.toNat - 8) else self

/-- Transfer a staged code to the applied level of an intent; it is a code of the given ranges. -/
def strobeIn (r : Ranges) (i : Intent) : Intent :=
  match i.staged with
  | some v => { i with level := v, staged := none, levelIn := r }
  | none => i

/-- The same for a context that does not own the output, whose codes are codes of its own ranges (Table 4.6). -/
def strobeIntent (i : Intent) : Intent := strobeIn i.ranges i

/-- One tick of the fault slew (R59, R80). -/
def faultSlewTick (f : Force) (q : Safe) : Force :=
  if f.safety.imm || q.imm then { f with dac := q.dest, target := q.dest, slewPhase := 0 }
  else
    let r := slewTick ⟨f.safety.e, f.safety.m, f.safety.period⟩ (f.dac == f.target && f.target != q.dest) f.slewPhase f.dac q.dest
    { f with dac := r.1, slewPhase := r.2, target := q.dest }

/-- Row 1 of Table 2.6: the safe state. When its sequence has ended the channel is INERT; the ranges in force then follow the intent. -/
def safeTick (s : State) (n : Chan) (q : Safe) : State :=
  let s := updForce s n fun f => { faultSlewTick f q with strobed := false }
  let f := s.chans[n].force
  if safeEnded f then updForce s n fun f => { f with safe := none, causes := [], mode := .inert } else s

/-- Whether a bridged change is still to take its ranges (before t2). -/
def rangeMoves (f : Force) : Bool := f.bridge.any fun b => b.phase == .closing

/-- The owner's intent comes into force (R138, R143), a new owner's with its codes in its own ranges. Its level and clamps follow once those
ranges are in force, also where a change that a former owner began comes between. -/
def takeOwner (s : State) (n : Chan) : State × Bool :=
  let c := s.chans[n]
  match ownerOf c with
  | none => (updForce s n fun f => { f with noOwner := true, judged := true }, false)
  | some y =>
    let i := c.graver.ctx[y].intent
    let new := y != c.force.owner || c.force.noOwner
    let m := codeMode i
    let s := if new then updForce (updCtx s n y fun k => { k with intent := recode m i.ranges k.intent }) n (recodeFlags m i.ranges i) else s
    (updForce s n fun f =>
      { f with
        owner := y, noOwner := false, judged := true, applied := if new then recode m i.ranges i else i
        switching := f.switching || (new && f.mode != .inert && (i.ranges != f.ranges || rangeMoves f)) }, new)

/-- The mode part of a sample tick (R47 to R49, R494): whether a preload took place. A slot whose identity is being read is held INERT, and the
mode is deferred (R92). In INERT the output carries the PARK code (R49, R406). -/
def modeTick (s : State) (n : Chan) : State × Bool :=
  let f := s.chans[n].force
  let want := f.applied.mode
  match f.seq with
  | .idle =>
    if f.mode == .inert then
      let park := if f.fltLatch || !s.banks[bankOf n].up then s else updForce s n fun f => { f with target := f.safety.park }
      if want == .inert || f.fltLatch then (stayInert park n, false)
      else if slotHeld f then (updForce (stayInert park n) n fun f => { f with deferred := true }, false)
      else if noCps f || !declares f f.applied.ranges then
        (safeTrigger (updApplied s n fun i => i.withMode .inert) n 2, false)
      else (updForce park n fun f => { f with seq := .leaving .rails, deferred := false }, false)
    else if want == .inert || f.inertReq || slotHeld f then
      (updForce s n fun f => { f with seq := .entering .ramp, inertReq := false, target := f.safety.park }, false)
    else if want != f.mode then (takeMode s n want, true)
    else (s, false)
  | .leaving ph =>
    if want == .inert || f.inertReq || slotHeld f then (openAndPark (updForce s n fun f => { f with inertReq := false }) n, false)
    else if ph == .acknowledged then (takeMode (updForce s n fun f => { f with seq := .idle, cpsen := true }) n want, true)
    else (s, false)
  | .entering .parking =>
    (updForce s n fun f =>
      { f with
        seq := .idle, inertReq := false, parkCtx := none, mode := .inert, cpsen := false, dac := f.safety.park, target := f.safety.park }, false)
  | .entering _ => (s, false)

/-- The range part of a sample tick (R73, R75): direct in INERT, bridged while the CPS is enabled; nothing where the ranges stand, but codes
that the owner wrote for ranges it has since given up are re-scaled (R72). After a bridged change that ended early, the ranges wait for
a passing poll of the INERT channel (R495). On the way to INERT a change is bridged until the CPS is disabled (R73, R105). -/
def rangeTick (s : State) (n : Chan) : State :=
  let f := s.chans[n].force
  let goal := f.applied.ranges
  if f.bridge.isSome then s
  else if goal == f.ranges then
    if f.switching || (f.applied.levelIn == goal && f.applied.clampsIn == goal) then s else recodeApplied s n goal
  else
    match f.seq with
    | .idle => if f.mode == .inert then (if f.endedEarly then s else directRange s n goal) else startBridge s n goal
    | .leaving ph =>
      if f.endedEarly then s
      else
        let s := directRange s n goal
        if ph == .rails then s else updForce s n fun f => { f with seq := .leaving .switches }
    | .entering ph => if ph == .ramp || ph == .relay then startBridge s n goal else s

/-- What a supplier gives at a sample tick: nothing, a level, or the level last supplied again (a hold, or the dwell of a sweep entry). -/
inductive Given where
  | nothing
  | same
  | level (v : Int)
  deriving DecidableEq, Repr

/-- The level of a sweep entry has become the target (R60): within the dwell it is not supplied again. -/
def levelTaken (s : State) (n : Chan) : State :=
  updCtx s n s.chans[n].force.owner fun k =>
    { k with supplier := match k.supplier with | .sweep w => .sweep { w with due := false } | p => p }

/-- Row 5 of Table 2.6 in the intent: what is supplied becomes the applied level; with no supplier a strobe transfers the staged code. -/
def supplyLevel (s : State) (n : Chan) (groups : BitVec 8) (g : Given) : State × Bool :=
  let f := s.chans[n].force
  let into := codeRanges f f.applied
  match g with
  | .level v => (levelTaken (updApplied s n fun i => { i with level := v, levelIn := into }) n, false)
  | .same => (s, false)
  | .nothing =>
    if f.applied.staged.isSome && strobeNow f.applied f.strobed groups then (updApplied s n (strobeIn into), true) else (s, false)

/-- The slew, strobe and compensation settings in force follow the intent at a sample tick (R57, R67); a SELF firing is used. -/
def followSettings (f : Force) : Force :=
  { f with slew := f.applied.slew, strobe := f.applied.strobe, comp := f.applied.comp, strobed := false }

/-- The clamps of a tick (R79): those of the intent, re-expressed in the ranges in force; while the channel moves to the ranges of a new owner only
those that widen. -/
def clampsTick (f : Force) : Clamps :=
  if f.mode == .inert then f.applied.clamps
  else
    clampTick f.clamps (satClamps (clampsFor f.mode f.ranges f.applied))
      (!f.switching && levelReached f)

/-- The target of a tick whose mode is not preloaded: the level of the intent; on the way to INERT it stands at the PARK code of the range then in
force (R49), and while the channel moves to the ranges of a new owner it stands. -/
def wantedTarget (f : Force) : Int :=
  match f.seq with
  | .idle => if f.mode == .inert || f.switching then f.target else loopTarget f.mode f.applied.level
  | _ => f.target

/-- The slew step of a tick (R58): `old` is the target before the tick, `stood` says that the code had reached it. -/
def slewStepTick (stood : Bool) (old : Int) (f : Force) : Force :=
  let target := wantedTarget f
  let r := slewTick f.applied.slew (stood && target != old) f.slewPhase f.dac target
  { f with target := target, dac := r.1, slewPhase := r.2 }

/-- The target part of a sample tick (rows 4 and 5 of Table 2.6) and the slew step; the result says whether the target took a value that starts a
change blank (R252). A target that stands at zero current takes none from a strobe, a sweep entry or a context switch (R46, R56). A level that came
in a relay break starts its blank at the tick after it. -/
def targetTick (s : State) (n : Chan) (groups : BitVec 8) (stood : Bool) (old : Int) (preloaded newOwner : Bool) (g : Given)
    (entryStart : Bool) : State × Bool :=
  let r := if preloaded || newOwner then (s, false) else supplyLevel s n groups g
  let s := updForce r.1 n fun f =>
    let f := followSettings (if preloaded then f else slewStepTick stood old f)
    { f with clamps := if preloaded then f.clamps else clampsTick f }
  let f := s.chans[n].force
  let moved := f.mode != .inert && f.mode != .meas && f.seq == .idle && !f.switching
  let taken := newOwner || r.2 || f.blankDue || (entryStart && !preloaded)
  (updForce s n fun f => { f with blankDue := false }, preloaded || (moved && taken))

/-- Steps of entering INERT that a sample tick takes once the code has reached PARK (R49 steps 1 and 2). -/
def enterTick (s : State) (n : Chan) : State :=
  let f := s.chans[n].force
  if f.seq == .entering .ramp && f.dac == f.target then openAndPark s n else s

/-- Once the new owner's ranges are in force, its level becomes the target (R143). -/
def endSwitching (s : State) (n : Chan) : State × Bool :=
  let f := s.chans[n].force
  if f.switching && f.applied.ranges == f.ranges && !rangeMoves f then
    (updForce (recodeApplied s n f.ranges) n fun f => { f with switching := false }, true)
  else (s, false)

/-- Non-owner contexts apply their own staged codes by their own strobe sources (R143). -/
def strobeOthers (s : State) (n : Chan) (groups : BitVec 8) : State :=
  let own := ownerOf s.chans[n]
  updGraver s n fun g =>
    { g with
      ctx := g.ctx.mapFinIdx fun i k _ =>
        if own.map (·.val) = some i || !isActive k then k
        else if strobeNow k.intent false groups then { k with intent := strobeIntent k.intent } else k }

/-- Whether the device applies no output change because the relay breaks after ISOLATE (R78). -/
def relayBreaks (f : Force) : Bool :=
  f.breakRuns && (match f.seq with | .idle => f.mode != .inert | .leaving _ => true | .entering p => p == .ramp)

/-- A sample tick while the relay breaks (R78): no output change applies. What is strobed or supplied becomes the applied level of the intent, and
the target follows after the break (DESIGN CHOICE, assumption 92) with its change blank; a new owner follows as well. -/
def breakTick (s : State) (n : Chan) (groups : BitVec 8) (newOwner : Bool) (g : Given) (entryStart : Bool) : State :=
  if newOwner then updForce s n fun f => { f with switching := f.switching || f.mode != .inert, strobed := false }
  else
    let r := supplyLevel s n groups g
    updForce r.1 n fun f => { f with strobed := false, blankDue := f.blankDue || r.2 || entryStart }

/-- t2 of a bridged change (Table 2.11), row 2 of Table 2.6: re-scaling, the new range, and OPEN for the old element. A new owner's level becomes the
target at a later tick. -/
def bridgeMade (s : State) (n : Chan) (b : Bridge) (newOwner : Bool) : State :=
  let s := takeRanges s n b.dst true
  let s := if b.dst.i != b.old.i then cpsFor s n opOpenI b.old.i else cpsFor s n opOpenV b.old.v
  updForce s n fun f =>
    { followSettings f with
      bridge := some { b with phase := .opening, ready := false }
      slewPhase := if f.dac == f.target then 0 else f.slewPhase + 1
      switching := f.switching || newOwner }

/-- The instants after t2 at a sample tick: t4 once the old element is open, and the ticks counted from there (Table 2.11). -/
def bridgeTick (f : Force) : Force :=
  { f with bridge := f.bridge.map fun b =>
      match b.phase with
      | .closing => b
      | .opening => if b.ready then { b with phase := .settling, ready := false, ticks := 0 } else b
      | .settling => { b with ticks := b.ticks + 1 } }

/-- Whether t2 of a bridged change falls on the present sample tick. -/
def bridgeDue (f : Force) : Option Bridge :=
  match f.bridge with
  | some b => if b.phase == .closing && b.ready then some b else none
  | none => none

/-- What a sample tick does to the force path of a channel, and whether a change blank starts: the first row of Table 2.6 that applies. -/
def forceTick (s : State) (n : Chan) (groups : BitVec 8) (g : Given) (entryStart : Bool) : State × Bool :=
  let old := s.chans[n].force.target
  let stood := s.chans[n].force.dac == old
  let own := takeOwner (updForce (strobeOthers s n groups) n bridgeTick) n
  let s := own.1
  let f := s.chans[n].force
  match f.safe with
  | some q => (safeTick s n q, false)
  | none =>
    if relayBreaks f then (breakTick s n groups own.2 g entryStart, false)
    else
      match bridgeDue f with
      | some b => (bridgeMade s n b own.2, false)
      | none =>
        let m := modeTick s n
        let e := endSwitching (rangeTick m.1 n) n
        let t := targetTick e.1 n groups stood old m.2 (own.2 || e.2) g entryStart
        (enterTick t.1 n, t.2)

end Sys2Proof.Machine
end

