-- ==== Sys2Proof/Machine/StreamOps.lean ====
section
/-!
DEFINITION. The shared operations of the queues (R296 to R306), the hash chains (R336) and the result stream of a channel (R111 to R119):
pushing words, packets, timestamp groups, and the commitment of the words held back.
-/
namespace Sys2Proof.Machine

/-! ### Occupancy and marks (R299, R305, R306) -/

/-- The words a queue can hold (R296). -/
def Queue.capacity (q : Queue) : Nat := q.size * 1024

/-- The words a queue stores (R299). -/
def Queue.occ (q : Queue) : Nat := q.committed.length + q.opened.length

/-- The marks and the peak after a change of occupancy from `before`, and whether a mark was hit (R305). -/
def Queue.marks (q : Queue) (before : Nat) : Queue × Bool :=
  let occ := q.occ
  let up := q.hwm != 0 && before < q.hwm * 256 && q.hwm * 256 ≤ occ
  let down := q.hwm != 0 && q.lwm * 256 < before && occ ≤ q.lwm * 256 && q.lwmArm
  ({ q with
      peak := max q.peak occ
      hwmHit := q.hwmHit || up
      lwmHit := q.lwmHit || down
      lwmArm := if down then false else q.lwmArm || up }, (up || down) && q.wmie)

/-- Change a queue and account for its occupancy; a mark raises source 296. -/
def changeQueue (s : State) (q : Fin 256) (f : Queue → Queue) : State :=
  let before := s.queues[q].occ
  let r := (f s.queues[q]).marks before
  let s := { s with queues := s.queues.set q r.1 }
  if r.2 then raise s 296 else s

/-- 2^32 - 1, where the 32-bit counters of a queue saturate. -/
def max32 : Nat := 2 ^ 32 - 1

/-! ### Hash chains (R336) -/

/-- The bytes that a list of words adds to a chain: le32 of the count, then each word. -/
def chainBytes (ws : List Word) : List Byte := leBytes 4 ws.length ++ ws.flatMap wordBytes

/-- The bytes of a digest, in the order in which they are produced. -/
def digestBytes (d : Digest) : List Byte := (List.range 32).map fun i => BitVec.ofNat 8 (d.toNat / 256 ^ (31 - i))

/-- The head after an entry (R336). -/
def advanceHead (h : Digest) (ws : List Word) : Digest :=
  Config.shake256 ([0x11] ++ digestBytes h ++ chainBytes ws)

/-- The number of the first Proof after Proofs start, while no interval runs (R338): behind those that are still to be sealed. -/
def owedProof (p : Trust) : Option Nat := if p.interval.isNone then some (p.proofSeq + p.ended.length) else none

/-- An entry of channel n's chain is committed: a packet with the instant of its first dated word, or a GAP word. -/
def chainEntry (s : State) (n : Chan) (first : Option Nat) (ws : List Word) (gap : Nat) (seq : Option Nat) (disable : Bool := false) : State :=
  updChan s n fun c =>
    let h := advanceHead c.proof.head ws
    { c with proof := { c.proof with head := h, entries := c.proof.entries ++ [⟨first, s.tb.now, h, ws.length, gap, seq, disable, owedProof s.pf⟩] } }

/-- The channel of a result queue. -/
def queueChan (q : Fin 256) : Option Chan := if h : q.val < 68 then some ⟨q.val, h⟩ else none

/-! ### Producing (R299 to R301) -/

/-- The GAP word of a count. -/
def gapWord (p : Nat) : Word := resultWord 0xD 0 (min p 0xFFFFFF)

/-- Commit the pending GAP of a queue (R301): it enters the chain and raises source 297. -/
def commitGap (s : State) (q : Fin 256) (disable : Bool := false) : State :=
  let p := s.queues[q].p
  let w := gapWord p
  let s := changeQueue s q fun k =>
    { k with committed := k.committed ++ [w], ticks := k.ticks ++ [s.tb.now], ncommit := k.ncommit + 1, p := 0, drop := false }
  let s := match queueChan q with | some n => chainEntry s n none [w] (min p 0xFFFFFF) none disable | none => s
  raise s 297

/-- Rewind the open packet of a queue (R300). -/
def rewind (k : Queue) : Queue :=
  { k with opened := [], rwcnt := if k.opened.isEmpty then k.rwcnt else satAdd max32 k.rwcnt 1 }

/-- The producer gives up its open packet for an uncorrectable error in a word of it (R300): a channel opens another one for its next word. -/
def rewindOpen (s : State) (q : Fin 256) : State :=
  let s := changeQueue s q rewind
  match queueChan q with
  | some n => updMeas s n fun m => { m with packet := none }
  | none => s

/-- Push a word that is no PKTEND and no GAP (R299, R301). `hdr` marks a PKTHDR. -/
def pushWord (s : State) (q : Fin 256) (w : Word) (hdr : Bool) : State :=
  let k := s.queues[q]
  if k.state != .enabled || (k.discarding && !hdr) then
    updQueue s q fun k => { k with discnt := satAdd max32 k.discnt 1, discarding := true }
  else
    let s := updQueue s q fun k => { k with discarding := false }
    let free := k.capacity - k.occ
    let s := if k.drop && hdr && free ≥ 3 then commitGap s q else s
    let k := s.queues[q]
    if k.drop then
      updQueue s q fun k => { k with p := k.p + 1, gapcnt := satAdd max32 k.gapcnt 1 }
    else if k.capacity - k.occ ≥ 2 then changeQueue s q fun k => { k with opened := k.opened ++ [w] }
    else
      changeQueue s q fun k =>
        let lost := k.opened.length + 1
        { rewind k with drop := true, p := k.p + lost, gapcnt := satAdd max32 k.gapcnt lost }

/-- Push a PKTEND: the whole packet becomes visible at once (R299). The words of the committed packet are returned. -/
def pushEnd (s : State) (q : Fin 256) (w : Word) : State × Option (List Word) :=
  let s := pushWord s q w false
  let k := s.queues[q]
  if k.state != .enabled || k.discarding || k.drop || k.opened.isEmpty then
    (updQueue s q fun k => { k with discarding := false }, none)
  else
    (updQueue s q fun k =>
      { k with committed := k.committed ++ k.opened, opened := [], ticks := k.ticks ++ [s.tb.now], ncommit := k.ncommit + 1 }, some k.opened)

/-! ### The channel's packets (R114 to R119) -/

/-- The result queue of a channel. -/
def resultQueue (n : Chan) : Fin 256 := ⟨n.val, by omega⟩

/-- The AUX APER word (Table 3.11). -/
def aperWord (m : MeasCfg) : Word :=
  let filt := match m.filt with | .raw => 0 | .sinc3 => 1 | .box => 2 | .plc => 3
  let low := match m.filt with
    | .raw => 0
    | .plc => bit m.line60 * 32 + m.nplc
    | _ => m.n - 1
  resultWord 3 4 (filt * 2 ^ 22 + bit m.vsel * 2 ^ 21 + bit m.isel * 2 ^ 20 + low)

/-- A timestamp group of an instant (R116): TSHI and TSMID only where they differ from the last group's, unless `full`. -/
def tsGroup (full : Bool) (hi mid inst : Nat) : List Word :=
  let h := inst / 2 ^ 48 % 2 ^ 16
  let m := inst / 2 ^ 24 % 2 ^ 24
  (if full || h != hi then [resultWord 8 0 h] else []) ++ (if full || m != mid then [resultWord 7 0 m] else [])
    ++ [resultWord 6 0 (inst % 2 ^ 24)]

/-- Push several words. -/
def pushWords (s : State) (q : Fin 256) : List Word → State
  | [] => s
  | w :: ws => pushWords (pushWord s q w false) q ws

/-- Close the open packet with a status of Table 3.13; a committed packet takes its sequence number and enters the chain. -/
def closePacket (s : State) (n : Chan) (status : Nat) : State :=
  match s.chans[n].meas.packet with
  | none => s
  | some p =>
    let r := pushEnd s (resultQueue n) (resultWord 0xE status (p.count + 1))
    let s := updMeas r.1 n fun m => { m with packet := none }
    match r.2 with
    | some ws =>
      let seq := s.chans[n].meas.seq
      let s := chainEntry s n (some p.first) ws 0 (some (seq % 2 ^ 17))
      updMeas s n fun m => { m with seq := m.seq + 1 }
    | none => s

/-- The words of one instant, a result's VSAMP and ISAMP or one EVENT, JUMPED or MARK word, with the APER and PATH words of that instant; `every`
is the distance of two results whose instants need no group, 0 where there is none (R116). -/
structure Batch where
  inst : Nat
  aper : Word
  path : Word
  result : Bool
  every : Nat
  ws : List Word

/-- Open a packet for a dated word (R114): PKTHDR, AUX APER, AUX PATH and a full timestamp group. -/
def openPacket (s : State) (n : Chan) (b : Batch) : State :=
  let q := resultQueue n
  let seq := s.chans[n].meas.seq
  let s := pushWord s q (resultWord 0xF 1 (n.val * 2 ^ 17 + seq % 2 ^ 17)) true
  let s := pushWords s q ([b.aper, b.path] ++ tsGroup true 0 0 b.inst)
  updMeas s n fun m =>
    { m with
      path := b.path
      packet := some { count := 6, first := b.inst, hi := b.inst / 2 ^ 48 % 2 ^ 16, mid := b.inst / 2 ^ 24 % 2 ^ 24, last := none } }

/-- The AUX PATH that precedes a result in the open packet where a field of it has changed (R118). -/
def leadPath (m : Measure) (b : Batch) : List Word := if b.result && m.path != b.path then [b.path] else []

/-- The timestamp group that precedes the words of an instant in the open packet, where one is needed (R116). -/
def leadGroup (p : Packet) (b : Batch) : List Word :=
  if b.every != 0 && b.every ≤ b.inst && p.last == some (b.inst - b.every) then [] else tsGroup false p.hi p.mid b.inst

/-- Whether words with what precedes them and a PKTEND would take the open packet past 4,096 words (Table 3.13, FULL). -/
def overfills (m : Measure) (b : Batch) : Bool :=
  match m.packet with
  | some p => p.count + (leadPath m b).length + (leadGroup p b).length + b.ws.length + 1 > 4096
  | none => false

/-- Commit the words of one instant; a packet that they would overfill closes first. -/
def commitWords (s : State) (n : Chan) (b : Batch) : State :=
  let s := if overfills s.chans[n].meas b then closePacket s n 1 else s
  let m := s.chans[n].meas
  match m.packet with
  | none =>
    let s := pushWords (openPacket s n b) (resultQueue n) b.ws
    updMeas s n fun m =>
      { m with packet := m.packet.map fun p => { p with count := p.count + b.ws.length, last := if b.result then some b.inst else none } }
  | some p =>
    let group := leadGroup p b
    let lead := leadPath m b ++ group
    let s := pushWords s (resultQueue n) (lead ++ b.ws)
    updMeas s n fun m =>
      { m with
        path := if b.result then b.path else m.path
        packet := some { p with
          count := p.count + lead.length + b.ws.length
          hi := if group.isEmpty then p.hi else b.inst / 2 ^ 48 % 2 ^ 16
          mid := if group.isEmpty then p.mid else b.inst / 2 ^ 24 % 2 ^ 24
          last := if b.result then some b.inst else p.last } }

/-- The APER and PATH words that an instant falls under (R118). -/
def settingAt (m : Measure) (inst : Nat) : Setting :=
  ((m.settings.filter fun e => e.since ≤ inst).getLast?.or m.settings.head?).getD ⟨0, m.cfg.smode, aperWord m.cfg, m.path⟩

/-- Note the stream mode and the APER and PATH words in force from a sample tick on, and forget those that no word still held back, or still to be dated
before the tick, falls under. -/
def noteSetting (tick : Nat) (path : Word) (m : Measure) : Measure :=
  let new : Setting := ⟨tick, m.cfg.smode, aperWord m.cfg, path⟩
  let old := m.settings.getLast?
  let all := if old.any fun e => e.smode == new.smode && e.aper == new.aper && e.path == new.path then m.settings else m.settings ++ [new]
  let oldest := (m.convs.map (·.tick) ++ m.dated.map (·.tick)).foldl min (tick - captureLead)
  let past := all.filter fun e => e.since ≤ oldest
  { m with settings := all.drop (past.length - 1) }

/-- A held word with the settings of its instant. -/
def Dated.batch (m : Measure) (d : Dated) : Batch :=
  let e := settingAt m d.tick
  { inst := d.tick, aper := e.aper, path := e.path, result := false, every := 0, ws := [d.w] }

/-! ### Words held back (R117) -/

/-- The rank of a closing status among those of one instant (Table 3.13, from the top). -/
def closeRank (status : Nat) : Nat :=
  if status = 5 then 0 else if status = 3 then 1 else if status = 4 then 2 else if status = 6 then 3
  else if status = 0 then 4 else if status = 1 then 5 else 6

/-- Insert a dated word by its instant and its rank, after those that are equal. -/
def insertDated (d : Dated) : List Dated → List Dated
  | [] => [d]
  | e :: es => if d.tick < e.tick || (d.tick = e.tick && d.order < e.order) then d :: e :: es else e :: insertDated d es

/-- The next close at or before a tick: the earliest, and of one instant the one highest in Table 3.13. -/
def firstClose (cs : List (Nat × Nat)) : Option (Nat × Nat) :=
  cs.foldl (fun a c =>
    match a with
    | none => some c
    | some b => if c.1 < b.1 || (c.1 = b.1 && closeRank c.2 < closeRank b.2) then some c else some b) none

/-- Whether the first close comes before the first held word. -/
def closeBefore (c : Option (Nat × Nat)) (d : Option Dated) : Bool :=
  match c, d with
  | some c, some d => c.1 ≤ d.tick
  | some _, none => true
  | none, _ => false

/-- Carry out a close: an age close only of a packet that is as old as the limit, and not where the next words have the same instant and close it
as FULL (Table 3.13). -/
def closeFor (s : State) (n : Chan) (c : Nat × Nat) (next : Option Batch) : State :=
  let m := s.chans[n].meas
  match m.packet with
  | some p =>
    let full := next.any fun b => b.inst == c.1 && overfills m b
    if c.2 = 2 && (c.1 < p.first + m.cfg.ageMs * 1600000 || full) then s else closePacket s n c.2
  | none => s

/-- Commit the held words whose instants are before `words` and carry out the closes whose instants are before `closes`, in the order of
R117 and R119; each word falls under the settings of its own instant, and `coming` is the result that follows. `fuel` bounds their number. -/
def flushUntil : Nat → State → Chan → Option Batch → Nat → Nat → State
  | 0, s, _, _, _, _ => s
  | fuel + 1, s, n, coming, words, closes =>
    let m := s.chans[n].meas
    let ds := m.dated.foldl (fun a d => insertDated d a) []
    let c := firstClose m.closes
    if closeBefore c ds.head? then
      match c with
      | some c =>
        if c.1 < closes then
          let next := coming.or (ds.head?.map fun d => d.batch m)
          flushUntil fuel (closeFor (updMeas s n fun m => { m with closes := m.closes.erase c }) n c next) n coming words closes
        else s
      | none => s
    else
      match ds with
      | [] => s
      | d :: rest =>
        if d.tick < words then
          let s := updMeas s n fun m => { m with dated := rest }
          flushUntil fuel (commitWords s n (d.batch m)) n coming words closes
        else s

/-- Commit what can be committed before an instant. -/
def flushStream (s : State) (n : Chan) (coming : Option Batch) (words closes : Nat) : State :=
  flushUntil (s.chans[n].meas.dated.length + s.chans[n].meas.closes.length + 1) s n coming words closes

/-- The same for a channel without a conversion on its way. -/
def flushIdle (s : State) (n : Chan) (words closes : Nat) : State :=
  if s.chans[n].meas.convs.isEmpty then flushStream s n none words closes else s

/-- Ask for the open packet to close at an instant (R119). -/
def askClose (s : State) (n : Chan) (tick status : Nat) : State :=
  updMeas s n fun m => { m with closes := m.closes ++ [(tick, status)] }

end Sys2Proof.Machine
end

