-- ==== Sys2Proof/Machine/MeasureOps.lean ====
section
/-!
DEFINITION. The shared operations of the channel measurement path (03_channel_measure): the schedule of conversions and outputs at a
sample tick, calibration, Plate compensation, the aperture filters, result words, compliance and automatic ranging.
-/
namespace Sys2Proof.Machine

/-! ### Settings (R100, R108) -/

/-- Whether two settings have the same aperture, filter and selection (R100). -/
def sameAper (a b : MeasCfg) : Bool :=
  a.filt == b.filt && a.vsel == b.vsel && a.isel == b.isel
    && (if a.filt == .plc then a.nplc == b.nplc && a.line60 == b.line60 else a.n == b.n)

/-- Write measurement settings: they apply at the next sample tick (R108). -/
def setMeas (s : State) (n : Chan) (f : MeasCfg → MeasCfg) : State :=
  updMeas s n fun m => { m with next := some (f (m.next.getD m.cfg)) }

/-- The settings that a later instruction works under. -/
def effectiveCfg (m : Measure) : MeasCfg := m.next.getD m.cfg

/-- The aperture length of PLC in thirds of a sample period (R102). -/
def plcThirds (c : MeasCfg) : Nat := if c.line60 then 100000 * c.nplc else 120000 * c.nplc

/-- Whether outputs of the mode are results without a trigger. -/
def freeRunning (m : SMode) : Bool := m == .cont || m == .latest

/-- The aperture and output schedule of one sample tick (R100 to R102, R110): the measurement state after it, and the window, in thirds of
a sample period, and result flag of an output that ends with this conversion. -/
def scheduleTick (m : Measure) (idx : Nat) : Measure × Option (Nat × Nat) × Bool :=
  let c := m.cfg
  let trig := m.trigNow
  let trigMode := c.smode == .trig
  let m := { m with since := m.since + 1, trigNow := false }
  match c.filt with
  | .raw => ({ m with trigPending := false }, some (3 * idx, 3 * idx + 3), freeRunning c.smode || (trigMode && (trig || m.trigPending)))
  | .sinc3 =>
    let pend := m.trigPending || trig
    if idx % c.n = 0 && m.since ≥ 25 * c.n - 2 then
      ({ m with trigPending := false }, some (3 * idx + 3 - 3 * (25 * c.n - 2), 3 * idx + 3), freeRunning c.smode || (trigMode && pend))
    else ({ m with trigPending := trigMode && pend }, none, false)
  | .box =>
    if trigMode then
      let a := match m.aperture with | some a => some a | none => if trig then some idx else none
      match a with
      | some a =>
        if idx + 1 = a + c.n then ({ m with aperture := none }, some (3 * a, 3 * a + 3 * c.n), true)
        else ({ m with aperture := some a }, none, false)
      | none => (m, none, false)
    else if idx % c.n = 0 && m.since ≥ c.n then (m, some (3 * idx + 3 - 3 * c.n, 3 * idx + 3), freeRunning c.smode)
    else (m, none, false)
  | .plc =>
    let len := plcThirds c
    if trigMode then
      let a := match m.aperture with | some a => some a | none => if trig then some idx else none
      match a with
      | some a =>
        if 3 * a + len ≤ 3 * idx + 3 then ({ m with aperture := none }, some (3 * a, 3 * a + len), true)
        else ({ m with aperture := some a }, none, false)
      | none => (m, none, false)
    else
      let e := (3 * idx + 3) / len * len
      if 3 * idx < e && len ≤ e && m.since ≥ idx + 1 - (e - len) / 3 then (m, some (e - len, e), freeRunning c.smode)
      else (m, none, false)

/-- New settings come into force at a sample tick (R100, R108, R118, R119): whether the filter restarts. The latest-value register of a quantity
that is no longer selected reads NOTVALID from then on (R109; assumption 99, DEDUCED). -/
def applyMeasCfg (s : State) (n : Chan) (tick : Nat) : State × Bool :=
  let m := s.chans[n].meas
  match m.next with
  | none => (s, false)
  | some c =>
    let restart := !sameAper c m.cfg
    let stopped := streaming m.cfg.smode && !streaming c.smode
    let s := if restart then askClose s n tick 4 else s
    let s := if stopped then askClose s n tick 6 else s
    (updMeas s n fun m =>
      { m with
        cfg := c, next := none
        latest := { m.latest with v := if c.vsel then m.latest.v else word n.val, i := if c.isel then m.latest.i else word n.val }
        since := if restart then 0 else m.since
        aperture := if restart || c.smode != m.cfg.smode then none else m.aperture
        trigPending := if restart || c.smode != m.cfg.smode then false else m.trigPending }, restart)

/-! ### Calibration and Plate compensation (R98, R374) -/

/-- The trims of the set in force for a range of a quantity: offset, gain and reference value (Table 13.4); nominal without a set. -/
def calTerms (c : Calib) (k : Nat) : Int × Int × Int :=
  match c.slots[c.slot]? with
  | some (some t) => (((t.coef[k]?).getD (0, 0)).1, ((t.coef[k]?).getD (0, 0)).2, (t.refv[k]?).getD 0)
  | _ => (0, 0, 0)

/-- The sixteen trims of the set in force. -/
def calTrims (c : Calib) : List Nat :=
  match c.slots[c.slot]? with
  | some (some t) => t.trims.map BitVec.toNat
  | _ => List.replicate 16 0

/-- The calibrated extended value of a 20-bit converter code in its range: `k` is the range's number, voltage ranges first. The converter's span is
1.2 times full scale (Table 3.1), so its LSB is 19.2 result LSB; the corrections come on top. -/
def calibrated (c : Calib) (k : Nat) (raw : BitVec 20) : Int :=
  let t := calTerms c k
  roundDiv (96 * raw.toInt) 5 + Config.calibrate raw.toInt t.1 t.2.1 t.2.2 (calTrims c)

/-- A path resistance of the Plate record in µΩ; none for 0xFFFF_FFFF (Table 11.1). -/
def plateRp (p : Plate) (k : Nat) : Option Nat :=
  let v := ofBytes ((p.body.drop (0x48 + 4 * k)).take 4)
  if p.body.length < 0x48 + 4 * k + 4 || v = 0xFFFFFFFF then none else some v

/-- Whether the Plate session offers compensation at all (R374). -/
def compOffered (p : Plate) : Bool :=
  p.sess == .live && p.compEn && ((p.body[7]?.map fun b => b.getLsbD 0).getD false) && (p.pstate == 2 || (p.pstate == 1 && p.compa))

/-- The path resistance that compensates a channel's voltage (R374). -/
def channelRp (s : State) (n : Chan) : Option Nat :=
  if !compOffered s.pl then none
  else if isRelief n then
    if !s.chans[n].force.relieved then none
    else
      match s.reliefs[bankOf n] with
      | some r =>
        match plateRp s.pl (16 * (bankOf n).val + r.slot), plateRp s.pl n.val with
        | some a, some b => some (a + b)
        | _, _ => none
      | none => none
  else if s.chans[n].force.relieved then none
  else plateRp s.pl n.val

/-- The compensated voltage: I × Rp is subtracted (R98 step 2), rounded to the extended LSB (assumption 14). -/
def compensate (v i : Int) (r : Ranges) (rp : Nat) : Int := v - roundDiv (i * fsI r.i * rp) (fsV r.v * 10 ^ 13)

/-- The AUX PATH word of a channel (Table 3.12). -/
def pathWord (s : State) (n : Chan) (r : Ranges) : Word :=
  let rlf := s.chans[n].force.relieved
  let slot := match s.reliefs[bankOf n] with | some q => q.slot | none => 0
  resultWord 3 5 (bit (channelRp s n).isSome * 2 ^ 23 + bit rlf * 2 ^ 22 + (if rlf then slot else 0) * 2 ^ 18 + r.v * 16 + r.i)

/-! ### Filters (R99 to R104, R496) -/

/-- The top and bottom of a result code (R99). -/
def satCode (v : Int) : Int := clampInt (-8388608) 8388607 v

/-- The weight, in thirds, of the raw sample of an index in a window. -/
def thirdsIn (w : Nat × Nat) (idx : Nat) : Nat := min w.2 (3 * idx + 3) - max w.1 (3 * idx)

/-- The raw samples of the history that a window weights, with their weights. -/
def contributing (hist : List Raw) (w : Nat × Nat) : List (Raw × Nat) :=
  (hist.map fun r => (r, thirdsIn w (r.tick / 800))).filter fun x => x.2 != 0

/-- A weighted mean of one quantity over contributing samples, re-expressed in the range of the result at full precision (R102, R104). -/
def weighted (xs : List (Raw × Nat)) (val : Raw → Int) (fs : Raw → Nat) (fsNow total : Nat) : Int :=
  roundDiv (xs.foldl (fun a x => a + val x.1 * fs x.1 * x.2) 0) (total * fsNow)

/-- The filtered value of one quantity before saturation. SINC3 of a constant is that constant (R496); of a changing input it is a free
value, because the coefficients are not published. The history is re-scaled at full precision (R104): no sample is rounded before the filter. -/
def filtered (c : MeasCfg) (xs : List (Raw × Nat)) (val : Raw → Int) (fs : Raw → Nat) (fsNow : Nat) (w : Nat × Nat) : Int :=
  match c.filt with
  | .sinc3 =>
    let vs := xs.map fun x => val x.1 * fs x.1
    match vs with
    | [] => 0
    | v :: _ => if vs.all (· == v) then roundDiv v fsNow else Config.sinc3 c.n vs fsNow
  | _ => weighted xs val fs fsNow (w.2 - w.1)

/-- The qualifier bits RANGING, COMPLIANCE and HELD that any contributing sample carried (R103). -/
def qualOf (xs : List (Raw × Nat)) : Nat := xs.foldl (fun a x => a ||| x.1.qual) 0

/-- The samples a filter can still need. -/
def histNeed (c : MeasCfg) : Nat :=
  match c.filt with
  | .raw => 1
  | .sinc3 => 25 * c.n
  | .box => c.n
  | .plc => plcThirds c / 3 + 2

/-! ### Hatch units of a channel (R279, R280) -/

/-- Offer a value to a unit: re-expressed in the unit's own range; a saturated value carries OVERRANGE. -/
def offerChannelUnit (s : State) (u : Fin 144) (code : Int) (fsNow : Nat) (fsOf : Nat → Nat) (qual tick : Nat) : State :=
  let offer := fun (cfg : UnitCfg) (b : HatchBuf) =>
    let v := reExpress code fsNow (fsOf cfg.urange)
    offerBuf cfg b (satCode v) (if satCode v != v then qual ||| 2 else qual) tick
  { s with ht := { s.ht with units := s.ht.units.set u (s.ht.units[u].toInstant tick offer) } }

/-- The Hatch units of a channel: 2n for the voltage, 2n + 1 for the current. -/
def unitV (n : Chan) : Fin 144 := ⟨2 * n.val, by omega⟩
def unitI (n : Chan) : Fin 144 := ⟨2 * n.val + 1, by omega⟩

/-- The settings of a unit that a value of an instant belongs to. -/
def unitCfgAt (k : HatchUnit) (tick : Nat) : UnitCfg :=
  if tick < k.since then (k.closed.map (·.2)).getD k.cfg else k.cfg

/-- Offer a conversion's pair to those of the channel's units that fold and take this kind of input. -/
def offerPair (s : State) (n : Chan) (k : Conv) (inp : Bool) (v i : Int) (r : Ranges) (qv qi : Nat) : State :=
  let s := if k.foldV && (unitCfgAt s.ht.units[unitV n] k.tick).inp == inp then
      offerChannelUnit s (unitV n) v (fsV r.v) fsV qv k.tick else s
  if k.foldI && (unitCfgAt s.ht.units[unitI n] k.tick).inp == inp then
    offerChannelUnit s (unitI n) i (fsI r.i) fsI qi k.tick else s

/-! ### Compliance (R63, R64) -/

/-- The clamp detector's report of one sample tick: entry raises source 4n + 2 and commits CMPL_IN; after two sample ticks of force
control the next one ends the compliance and commits CMPL_OUT. `mode` is the stream mode at that tick. -/
def complianceTick (mode : SMode) (s : State) (n : Chan) (tick : Nat) (clamping upper : Bool) : State :=
  let source := 4 * n.val + 2
  let report := fun (s : State) kind detail => holdWord mode s n tick (eventOrder kind source) (eventOf kind source detail)
  let f := s.chans[n].force
  if clamping then
    if f.inComp then updForce s n fun f => { f with loopTicks := 0, compHi := upper }
    else
      let s := updForce s n fun f => { f with inComp := true, compHi := upper, loopTicks := 0 }
      raiseAt (report s 1 (bit upper)) source (some tick)
  else if f.inComp then
    if f.loopTicks ≥ 2 then
      report (updForce s n fun f => { f with inComp := false, loopTicks := 0 }) 2 (bit f.compHi)
    else updForce s n fun f => { f with loopTicks := f.loopTicks + 1 }
  else s

/-! ### Automatic ranging (R105 to R107, R77) -/

/-- The next range of a kind in a direction (R105, R106): the nearest one that the identity declares; upwards it must be at most HI, downwards at
least LO. -/
def nextRange (ok : Nat → Bool) (lo hi cur count : Nat) (up : Bool) : Option Nat :=
  if up then ((List.range count).find? fun r => cur < r && ok r).filter (· ≤ hi)
  else ((List.range count).reverse.find? fun r => r < cur && ok r).filter (lo ≤ ·)

/-- The range of the measured quantity that automatic ranging asks for: of the current in FV (true), else of the voltage, where LO and HI above 2 act
as 2 (R190). -/
def autoTarget (c : Channel) (up : Bool) : Option (Bool × Nat) :=
  let f := c.force
  let cfg := c.meas.cfg
  if forcesV f.mode then (nextRange (identWord f 11).testBit cfg.lo cfg.hi f.ranges.i 9 up).map fun i => (true, i)
  else (nextRange (fun v => (identWord f 11).testBit (9 + v)) (min cfg.lo 2) (min cfg.hi 2) f.ranges.v 3 up).map fun v => (false, v)

/-- Ranges with the one that a request names in place. -/
def withRange (r : Ranges) (w : Bool × Nat) : Ranges := if w.1 then { r with i := w.2 } else { r with v := w.2 }

/-- Whether a clamp would saturate in the new ranges (R77, R106): the change is then withheld. -/
def clampsFit (f : Force) (r : Ranges) : Bool :=
  let co := clampedFs f.mode f.ranges
  let cn := clampedFs f.mode r
  satClamp (reExpress f.clamps.hi co cn) == reExpress f.clamps.hi co cn
    && satClamp (reExpress f.clamps.lo co cn) == reExpress f.clamps.lo co cn

/-- An automatic range request (R107, R76): into the intent in force, or behind a bridged change, where it replaces a request that waits already, a
programmed one too. It is discarded beside a programmed request that no bridged change delays, and made in no case while LDID runs (R190), in
INERT, or once the CPS is being disabled. -/
def autoRequest (s : State) (n : Chan) (up : Bool) : State :=
  let c := s.chans[n]
  let f := c.force
  if !c.meas.cfg.auto || f.mode == .inert || f.ldid.isSome || f.seq == .entering .parking || f.safe.isSome then s
  else
    match autoTarget c up with
    | none => s
    | some w =>
      if !clampsFit f (withRange f.ranges w) then s
      else
        match f.bridge with
        | some b => updApplied (updForce s n fun f => { f with waitingAuto := some w }) n fun i => { i with ranges := b.goal }
        | none => if f.applied.ranges != f.ranges then s else updApplied s n fun i => { i with ranges := withRange f.ranges w }

/-- Count a raw sample for automatic ranging (R105): above 1.05 FS or outside the span it asks upwards at once; below 0.09 FS it counts
towards AUTORANGE_DOWN. -/
def autorangeSample (s : State) (n : Chan) (ranging : Bool) (v i : Int) (vOut iOut : Bool) : State :=
  let c := s.chans[n]
  if !c.meas.cfg.auto || c.force.mode == .inert || ranging then
    updMeas s n fun m => { m with downCount := 0 }
  else
    let x := (if forcesV c.force.mode then i else v).natAbs
    let out := if forcesV c.force.mode then iOut else vOut
    if out || x * 100 > 105 * 2 ^ 23 then autoRequest (updMeas s n fun m => { m with downCount := 0 }) n true
    else if x * 100 < 9 * 2 ^ 23 then updMeas s n fun m => { m with downCount := m.downCount + 1 }
    else updMeas s n fun m => { m with downCount := 0 }

/-! ### Results (R99, R116, R122, R123) -/

/-- The SEQ of the latest-value registers after a result (R123). -/
def nextSeq (w : Word) : Word := if w == 0xFFFFFFFF then 1 else w + 1

/-- A context that counts results completes when its last one has updated the latest-value registers (R188). -/
def completeCounts (s : State) (n : Chan) (tick : Nat) : State :=
  allCtx.foldl (fun s x =>
    match (s.context n x).state with
    | .waiting (.meas 0 _ (some t)) => if t ≤ tick then wake s n x else s
    | _ => s) s

/-- A filter output: the two values before saturation, and the qualifiers of each quantity (R98 to R104). -/
structure Output where
  v : Int
  i : Int
  qv : Nat
  qi : Nat

/-- The filter output of a conversion whose window ends with it. -/
def outputOf (m : Measure) (k : Conv) (w : Nat × Nat) : Output :=
  let xs := contributing m.hist w
  let v := filtered k.cfg xs (·.v) (fun r => fsV r.ranges.v) (fsV k.ranges.v) w
  let i := filtered k.cfg xs (·.i) (fun r => fsI r.ranges.i) (fsI k.ranges.i) w
  let q := qualOf xs
  let qv := q ||| 2 * bit (xs.any (fun x => x.1.vOver) || satCode v != v)
  let qi := q ||| 2 * bit (xs.any (fun x => x.1.iOver) || satCode i != i)
  ⟨v, i, qv, qi⟩

/-- The VSAMP and ISAMP words of an output (R99, R111). -/
def Output.vsamp (o : Output) : Word := resultWord 1 o.qv (bitsOf 24 (satCode o.v))
def Output.isamp (o : Output) : Word := resultWord 2 o.qi (bitsOf 24 (satCode o.i))

/-- The words that a result adds to the stream, with the settings of its conversion (R108, R109, R116); none where it adds none. -/
def resultBatch (m : Measure) (k : Conv) : Option Batch :=
  match k.win with
  | none => none
  | some w =>
    let o := outputOf m k w
    let ws := (if k.cfg.vsel then [o.vsamp] else []) ++ (if k.cfg.isel then [o.isamp] else [])
    if !k.res || !streaming k.cfg.smode || ws.isEmpty then none
    else some { inst := k.tick, aper := aperWord k.cfg, path := k.path, result := true
                every := if k.cfg.filt == .plc then 0 else 800 * k.cfg.n, ws := ws }

/-- The output of a conversion: filter, saturate, offer to the FILT units, and when it is a result update the latest-value registers and
commit its words (R98 to R123). -/
def emitOutput (s : State) (n : Chan) (k : Conv) (w : Nat × Nat) : State :=
  let o := outputOf s.chans[n].meas k w
  let b := resultBatch s.chans[n].meas k
  let s := if k.vigil then s else offerPair s n k true (satCode o.v) (satCode o.i) k.ranges o.qv o.qi
  if !k.res then s
  else
    let s := updMeas s n fun m =>
      { m with
        latest := ⟨if k.cfg.vsel then o.vsamp else word n.val, if k.cfg.isel then o.isamp else word n.val, nextSeq m.latest.seq⟩
        lastResult := some k.tick }
    completeCounts (match b with | some b => commitWords s n b | none => s) n k.tick

end Sys2Proof.Machine
end

