-- ==== Sys2Proof/Machine/PlayOps.lean ====
section
/-!
DEFINITION. The shared operations of segments, sweep lists and generators (06_segments_generators): descriptors and entries as read
from memory, the segment buffers with their prefetch, and what a playback, a sweep or a generator does at a sample tick.
-/
namespace Sys2Proof.Machine

/-! ### Reading memory through the window (R128, R319) -/

/-- A read through a context's window: the physical address, or the device virtual address and its fault. -/
def windowRead (s : State) (n : Chan) (x : Ctx) (a : Word) : Nat × Xlate :=
  let g := s.chans[n].graver
  (windowVa g x a, translate s.mm (windowAsid g x) (windowVa g x a) .r)

/-- Decode a descriptor's four words (Tables 6.3 and 6.4, R215, R216). -/
def decodeDesc (w0 w1 w2 w3 : Word) : DescRead :=
  if field w0 5 4 != 0 || w1 == 0 || w1.toNat > 2 ^ 31 || field w2 31 12 == 0 || field w3 5 4 != 0 || flag w3 0 then .bad
  else .good
    { base := field w0 31 6 * 64, ecode := field w0 3 0, rate := w1.toNat, length := field w2 31 12, loops := field w2 11 0
      next := sfield w3 31 19, fallback := sfield w3 18 6, ends := flag w3 3, fbEnds := flag w3 2, abortUndr := flag w3 1 }

/-- The descriptor at a window address, at a 16-byte boundary (R215): what it holds, or the address and fault of its read. -/
def readDesc (s : State) (n : Chan) (x : Ctx) (a : Word) : DescRead × Option (Nat × Xlate) :=
  let a := a &&& ~~~15
  match windowRead s n x a with
  | (_, .ok pa) =>
    let m := s.mm.mem
    (decodeDesc (memReadWord m pa) (memReadWord m (pa + 4)) (memReadWord m (pa + 8)) (memReadWord m (pa + 12)), none)
  | r => (.bad, some r)

/-- Decode a sweep entry (Tables 6.7 and 6.8); none for a reserved value. -/
def decodeEntry (w0 w1 : Word) : Option Entry :=
  if flag w0 27 || flag w0 24 || field w1 23 22 == 3 then none
  else
    let v := field w1 21 0
    let u := field w1 23 22
    some
      { mrk := BitVec.ofNat 4 (field w0 31 28), evt := flag w0 26, cpstop := flag w0 25, ecode := field w0 23 20
        level := sfield w0 19 0, mcount := field w1 31 24
        dwell := if u = 0 then (v + 799) / 800 else if u = 1 then v else 1000 * v }

/-! ### Playback states -/

/-- The playback of a descriptor at sample 0 (R217, R223). -/
def startPlayback (addr : Nat) (d : Desc) : Playback :=
  { addr := addr, desc := d, passes := if d.loops = 0 then none else some d.loops }

/-- The window address of a descriptor a signed number of descriptors away (R215). -/
def descAt (addr : Nat) (off : Int) : Nat := (((addr : Int) + 16 * off) % 2 ^ 32).toNat

/-- Whether a segment stays resident after its first pass (R219). -/
def Desc.resident (d : Desc) : Bool := d.length ≤ 4096 && (d.loops != 1 || (d.next == 0 && !d.ends))

/-- The window address of a sample. -/
def sampleAddr (d : Desc) (i : Nat) : Nat := (d.base + 4 * i) % 2 ^ 32

/-- The words a Graver's two segment buffers hold in all (R218). -/
def bufWords : Nat := 8192

/-- Put words into the buffers; beyond their size the oldest words give way. -/
def bufInsert (b : List (Nat × Word)) (ws : List (Nat × Word)) : List (Nat × Word) :=
  let r := b ++ ws
  r.drop (r.length - bufWords)

/-- A word in the segment buffers, while they serve this context. -/
def bufWord (g : Graver) (x : Ctx) (a : Nat) : Option Word :=
  if g.bufOwner = some x then (g.buf.find? fun e => e.1 == a).map (·.2) else none

/-- A sample in a buffer, or in the jump head store of the armed target in play (R218, R194). -/
def sampleWord (g : Graver) (x : Ctx) (p : Playback) (i : Nat) : Option Word :=
  match bufWord g x (sampleAddr p.desc i) with
  | some w => some w
  | none =>
    match g.ctx[x].armed with
    | some a => if a.addr = p.addr && a.headHeld then (g.head.find? fun e => e.1 == sampleAddr p.desc i).map (·.2) else none
    | none => none

/-- The increment of the position (R223): the override of RATE, else the descriptor's rate. -/
def increment (k : Context) (p : Playback) : Nat := if k.rate == 0 then p.desc.rate else min k.rate.toNat (2 ^ 31)

/-- The samples that a tick needs (R224): one at the native rate, the eight taps at any other, limited to the pass. -/
def neededSamples (r : Nat) (p : Playback) : List Nat :=
  if r = 2 ^ 31 then [p.index]
  else (List.range 8).map fun j => min (p.index + j - 3) (p.desc.length - 1)

/-- The first sample that a tick needs and the buffers lack. -/
def missingSample (g : Graver) (x : Ctx) (r : Nat) (p : Playback) : Option Nat :=
  (neededSamples r p).find? fun i => (sampleWord g x p i).isNone

/-- Whether the missing sample of a hold and the 63 that follow it in the pass are present (R231), and what else the tick needs. -/
def slipReady (g : Graver) (x : Ctx) (r : Nat) (p : Playback) (h : Hold) : Bool :=
  (missingSample g x r p).isNone
    && (List.range 64).all fun j => h.missing + j ≥ p.desc.length || (sampleWord g x p (h.missing + j)).isSome

/-- The value supplied at a position (R224). -/
def playValue (g : Graver) (x : Ctx) (r : Nat) (p : Playback) : Int :=
  let lvl := fun i => sfield ((sampleWord g x p i).getD 0) 19 0
  let phase := p.frac / 2 ^ 21
  if r = 2 ^ 31 || phase = 0 then lvl p.index
  else satLevel (Config.resample ((neededSamples r p).map lvl) phase)

/-! ### Suppliers and the context that waits for them -/

/-- A context's supplier ends; a context that waits for it continues (R193, R196). -/
def endSupplier (s : State) (n : Chan) (x : Ctx) : State :=
  let s := updCtx s n x fun k => { k with supplier := .none, jumpReq := none }
  let s := updGraver s n fun g => { g with prefetchStalled := false, prefetchEcc := false }
  match (s.context n x).state with
  | .waiting .play => wake s n x
  | .waiting .sweep => wake s n x
  | _ => s

/-- Replace a context's supplier. -/
def setSupplier (s : State) (n : Chan) (x : Ctx) (p : Supplier) : State := updCtx s n x fun k => { k with supplier := p }

/-- Drive marker lines during the present tick. -/
def driveMarks (s : State) (n : Chan) (b : BitVec 4) : State := updChan s n fun c => { c with marks := c.marks ||| b }

/-- EVT of a sample or an entry (R214, R234): source 4n + 3 dated with the tick, and an EVENT word of kind EMIT. -/
def actEvt (s : State) (n : Chan) (tick ecode : Nat) : State :=
  raiseAt (eventWord s n tick 5 (4 * n.val + 3) ecode) (4 * n.val + 3) (some tick)

/-! ### Jump requests (R195, R225 to R227) -/

/-- Whether a jump request finds a playback or sweep running, or one that starts at the next sample tick. -/
def supplierRuns (k : Context) : Bool :=
  match k.startNext with
  | some (.play _) => true
  | some (.sweep _) => true
  | some _ => false
  | none =>
    match k.supplier with
    | .play _ => true
    | .sweep _ => true
    | _ => false

/-- Whether a request comes at or after the commit instant of the last sample of the pass in play (Table 6.6); in the hold of an ABORT no last sample was
committed. -/
def requestLate (k : Context) : Bool :=
  match k.startNext, k.supplier with
  | none, .play p => p.decided.isSome && p.decided != some .fallback
  | _, _ => false

/-- Start an armed target at the next sample tick, from the jump head store (R195, R227). The buffers turn to the owner at once, so that no refill
under R222 delays it. -/
def startArmed (s : State) (n : Chan) (x : Ctx) (addr : Nat) (d : Desc) : State :=
  let own := ownerOf s.chans[n] = some x
  let s := updCtx s n x fun k => { k with startNext := some (.play (startPlayback addr d)), jumpReq := none }
  updGraver s n fun g =>
    if own || g.bufOwner = some x then
      { g with buf := [], bufOwner := some x, sweptList := none, prefetchStalled := false, prefetchEcc := false }
    else g

/-- A request beside one that may be pending: several before one boundary act as one, and it is that of the first (R226). -/
def joinRequest (s : State) (token : Bool) (k : Context) : Context :=
  { k with
    jumpReq := some (match k.jumpReq with
      | some q => { q with token := q.token && token }
      | none => ⟨nextSample s, requestLate k, token⟩) }

/-- Record a jump request of a context, by JSEG or by a token (R226). Where nothing runs, the armed target starts at the next sample tick
(R227); with no target armed a request has no effect (R195). -/
def recordJump (s : State) (n : Chan) (x : Ctx) (token : Bool) : State :=
  match (s.context n x).armed with
  | none => s
  | some a => if supplierRuns (s.context n x) then updCtx s n x (joinRequest s token) else startArmed s n x a.addr a.desc

/-! ### A segment playback at a sample tick (R217 to R233) -/

/-- The successor at the commit of the last sample of a pass (R225): the END record and the decision. -/
def decidePass (s : State) (n : Chan) (x : Ctx) (tick : Nat) (p : Playback) : State × Playback :=
  let k := s.context n x
  let fin := fun (reason : Nat) (s : State) => (jumpedWord s n tick 5 reason, { p with decided := some .finish })
  let plain := fun (s : State) =>
    match p.passes with
    | none => (s, { p with decided := some .pass })
    | some k =>
      if k > 1 then (s, { p with decided := some .pass })
      else if p.desc.ends then fin 0 s
      else if p.desc.next = 0 then (s, { p with decided := some .next, successor := some (.good p.desc) })
      else if p.successor = some .bad then fin 3 s
      else (s, { p with decided := some .next })
  match k.jumpReq, k.armed with
  | some q, some a =>
    (updCtx s n x fun k => { k with jumpReq := none }, { p with decided := some (.jump a.addr a.desc q.late q.tick) })
  | some _, none => plain (updCtx s n x fun k => { k with jumpReq := none })
  | none, _ => plain s

/-- The commit of the sample at the position (R214): marker lines, trigger, EVT, a JUMP record, and at the last sample the decision. -/
def commitSample (s : State) (n : Chan) (x : Ctx) (tick : Nat) (p : Playback) : State × Playback :=
  if p.committed = some p.index then (s, p)
  else
    let w := (sampleWord s.chans[n].graver x p p.index).getD 0
    let s := driveMarks s n (BitVec.ofNat 4 (field w 31 28))
    let s := if flag w 27 then updMeas s n fun m => { m with trigNow := true } else s
    let s := if flag w 26 then actEvt s n tick p.desc.ecode else s
    let s := match p.jumped with
      | some (late, req) => jumpedWord s n tick 1 (bit late * 2 ^ 23 + min ((tick - req) / 800) 0xFFFFF)
      | none => s
    let s :=
      if p.desc.resident || p.index < 4 then s
      else updGraver s n fun g => { g with buf := g.buf.eraseP fun e => e.1 == sampleAddr p.desc (p.index - 4) }
    let p := { p with committed := some p.index, jumped := none }
    if p.index + 1 = p.desc.length then decidePass s n x tick p else (s, p)

/-- The stall of a hold that ends at a tick, in device unit 143 (R18, Table 8.2). -/
def measureHold (s : State) (tick : Nat) (h : Option Hold) : State :=
  match h with
  | some h => offerDevice { s with pwr := { s.pwr with lastStall := some tick } } 7 (tick - 800 * h.ticks - 4) tick
  | none => s

/-- The chain ends on a reserved value that was read late (R216). -/
def endBad (s : State) (n : Chan) (tick : Nat) (h : Option Hold) : State := jumpedWord (measureHold s tick h) n tick 5 3

/-- Take up what the decision of R225 or R232 chose, once the pass has ended; none when the chain has ended. A segment's words that do not
stay resident leave the buffers. A hold goes on until sample 0 of what follows is there. -/
def turnPass (s : State) (n : Chan) (tick : Nat) (p : Playback) : State × Option Playback :=
  let past := p.index - p.desc.length
  let swap := fun (addr : Nat) (d : Desc) =>
    updGraver s n fun g =>
      if addr = p.addr && d.resident then g
      else { g with buf := g.buf.filter fun e => !(p.desc.base ≤ e.1 && e.1 < p.desc.base + 4 * p.desc.length)
          || (d.base ≤ e.1 && e.1 < d.base + 4 * d.length) }
  let q := fun (addr : Nat) (d : Desc) => { startPlayback addr d with hold := p.hold.map ({ · with missing := 0 }), refill := p.refill }
  match p.decided with
  | some .fallback =>
    match p.successor with
    | some (.good d) => (swap (descAt p.addr p.desc.fallback) d, some (q (descAt p.addr p.desc.fallback) d))
    | some .bad => (endBad s n tick p.hold, none)
    | none => (s, some p)
  | dec =>
    if p.index < p.desc.length then (s, some p)
    else
      match dec with
      | some .pass =>
        (s, some { p with
          index := past, passes := p.passes.map (· - 1), committed := none, decided := none })
      | some .next =>
        match p.successor with
        | some (.good d) =>
          let addr := descAt p.addr p.desc.next
          (swap addr d, some { q addr d with index := past, frac := p.frac })
        | some .bad => (endBad s n tick p.hold, none)
        | none => (s, some p)
      | some (.jump addr d late req) =>
        (swap addr d, some { q addr d with index := past, frac := p.frac, jumped := some (late, req) })
      | some .finish => (s, none)
      | _ => (s, none)

/-- The sample whose absence holds the playback: sample 0 while a successor's descriptor has not been read (R228). -/
def playMissing (s : State) (n : Chan) (x : Ctx) (r : Nat) (p : Playback) : Option Nat :=
  if p.index ≥ p.desc.length || p.decided = some .fallback then some 0 else missingSample s.chans[n].graver x r p

/-- What a supplier does at a sample tick: the state, what it gives, whether the tick is held, whether an entry starts. -/
structure Supply where
  s : State
  value : Given := .nothing
  held : Bool := false
  start : Bool := false

/-- Supply the value at the position, commit, and advance (R223). -/
def playSupply (s : State) (n : Chan) (x : Ctx) (tick r : Nat) (p : Playback) : Supply :=
  let v := playValue s.chans[n].graver x r p
  let c := commitSample s n x tick p
  let q := c.2
  let pos := q.index * 2 ^ 31 + q.frac + r
  { s := setSupplier c.1 n x (.play { q with index := pos / 2 ^ 31, frac := pos % 2 ^ 31 }), value := .level v }

/-- The first held tick of an underrun (R230, R232). An ABORT answers a prefetch that an uncorrectable error stalled, so that the fallback can be read
(R320). Where it ends the chain, a jump request that is pending is discarded (DESIGN CHOICE, assumption 121). -/
def playUnderrun (s : State) (n : Chan) (x : Ctx) (tick i : Nat) (p : Playback) : Supply :=
  let s := updCtx s n x fun k => { k with ur := true }
  if p.desc.abortUndr && !p.refill then
    let s := updGraver (jumpedWord s n tick 4 i) n fun g => { g with prefetchStalled := false, prefetchEcc := false }
    if p.desc.fbEnds then { s := endSupplier (jumpedWord s n tick 5 1) n x, held := true }
    else
      { s := setSupplier s n x (.play { p with decided := some .fallback, successor := none, hold := some { ticks := 1 } })
        held := true }
  else { s := setSupplier (jumpedWord s n tick 2 i) n x (.play { p with hold := some { ticks := 1, missing := i } }), held := true }

/-- A playback whose position stands within a pass, at a sample tick. -/
def playStep (s : State) (n : Chan) (x : Ctx) (tick : Nat) (p : Playback) : Supply :=
  let r := increment (s.context n x) p
  let missing := playMissing s n x r p
  match p.hold with
  | none =>
    match missing with
    | none => playSupply s n x tick r { p with refill := false }
    | some i => playUnderrun s n x tick i p
  | some h =>
    if missing.isNone && slipReady s.chans[n].graver x r p h then
      playSupply (jumpedWord (measureHold s tick p.hold) n tick 3 (min h.ticks 0xFFFFFF)) n x tick r { p with hold := none, refill := false }
    else { s := setSupplier s n x (.play { p with hold := some { h with ticks := h.ticks + 1 } }), held := true }

/-- A playback at a sample tick of control. A request that came after the decision to end the chain starts the armed target (R227). A PLAY that waits
for the end completes at the sample tick after the chain's last one (DESIGN CHOICE, assumption 123). -/
def playTick (s : State) (n : Chan) (x : Ctx) (tick : Nat) (p : Playback) : Supply :=
  let t := turnPass s n tick p
  match t.2 with
  | some q => playStep t.1 n x tick q
  | none =>
    let s := endSupplier t.1 n x
    match (t.1.context n x).jumpReq, (t.1.context n x).armed with
    | some _, some a => playStep s n x tick (startPlayback a.addr a.desc)
    | _, _ => { s := s }

/-! ### A sweep at a sample tick (R235 to R237) -/

/-- Window address of a word of an entry. -/
def entryAddr (w : Sweep) (i word : Nat) : Nat := (w.list + 8 * i + 4 * word) % 2 ^ 32

/-- Whether an entry stands in the buffers. -/
def entryPresent (g : Graver) (x : Ctx) (w : Sweep) (i : Nat) : Bool :=
  (bufWord g x (entryAddr w i 0)).isSome && (bufWord g x (entryAddr w i 1)).isSome

/-- The entry in the buffers, none for a reserved value. -/
def entryWords (g : Graver) (x : Ctx) (w : Sweep) (i : Nat) : Option Entry :=
  decodeEntry ((bufWord g x (entryAddr w i 0)).getD 0) ((bufWord g x (entryAddr w i 1)).getD 0)

/-- A sweep's counters after one more sample tick of control: the dwell, the lag after a count, and the start and end of a count. -/
def sweepAdvance (off : Bool) (w : Sweep) : Sweep :=
  match w.entry with
  | none => w
  | some e =>
    let w := { w with elapsed := w.elapsed + 1, lag := w.lag.map (· - 1) }
    if off then { w with counting := none }
    else if e.mcount != 0 && w.counting.isNone && w.lag.isNone && w.elapsed ≥ e.dwell then
      { w with counting := some (e.mcount, true) }
    else w

/-- Whether the next entry's start tick has come (R235). -/
def sweepDue (off : Bool) (w : Sweep) : Bool :=
  match w.entry with
  | none => true
  | some e =>
    match w.lag with
    | some l => l == 0
    | none => w.counting.isNone && (e.mcount == 0 || off) && w.elapsed ≥ max e.dwell 1

/-- Why a sweep ends at its next entry's start tick: after its last entry, or by CPSTOP in compliance, which is that of the present reports and of the
detector's report at the start tick itself (R236). Where both hold, it ends as after its last entry (DESIGN CHOICE, assumption 122). -/
def sweepStop (c : Channel) (w : Sweep) : Option Nat :=
  if w.index ≥ w.count then some 0
  else
    match w.entry with
    | some e => if e.cpstop && (c.force.inComp || w.staged.any (·.2)) then some 2 else none
    | none => none

/-- The entries that must be present: one, or after a hold the missing one and the 63 that follow it (R231, R237). -/
def sweepReady (g : Graver) (x : Ctx) (w : Sweep) : Bool :=
  entryPresent g x w w.index
    && (w.hold.isNone || (List.range 64).all fun j => w.index + j ≥ w.count || entryPresent g x w (w.index + j))

/-- A hold of a sweep ends (R237): a SLIP record, and the stall is measured. -/
def endSweepHold (s : State) (n : Chan) (tick : Nat) (w : Sweep) : State :=
  match w.hold with
  | some h => measureHold (jumpedWord s n tick 3 (min h.ticks 0xFFFFFF)) tick w.hold
  | none => s

/-- Start an entry: marker lines, EVT, its level (R235). -/
def startEntry (s : State) (n : Chan) (x : Ctx) (tick : Nat) (w : Sweep) (e : Entry) (off : Bool) : Supply :=
  let s := driveMarks (endSweepHold s n tick w) n e.mrk
  let s := if e.evt then actEvt s n tick e.ecode else s
  let w := { w with
    index := w.index + 1, entry := some e, due := true, staged := none, elapsed := 0, lag := none, hold := none
    counting := if e.mcount != 0 && e.dwell = 0 && !off then some (e.mcount, true) else none }
  { s := setSupplier s n x (.sweep w), value := .level e.level, start := true }

/-- The entry that starts at a sample tick: the staged one, else the one in the buffers; none for a reserved value. -/
def dueEntry (g : Graver) (x : Ctx) (w : Sweep) : Option Entry := match w.staged with | some e => some e.1 | none => entryWords g x w w.index

/-- The level that an entry in progress still has to make the target: rows 2 to 4 of Table 2.6 took the ticks since its start, and it is supplied at the
first tick that row 5 decides (R60; DESIGN CHOICE, assumption 115). -/
def Sweep.given (w : Sweep) : Given :=
  match w.entry with
  | some e => if w.due then .level e.level else .same
  | none => .nothing

/-- An entry that is absent at its start tick holds the level of the one before (R237). -/
def sweepHold (s : State) (n : Chan) (x : Ctx) (tick : Nat) (w : Sweep) : Supply :=
  match w.hold with
  | none =>
    let s := updCtx (jumpedWord s n tick 2 (w.index % 2 ^ 20)) n x fun k => { k with ur := true }
    { s := setSupplier s n x (.sweep { w with hold := some { ticks := 1, missing := w.index } }), value := w.given, held := true, start := w.due }
  | some h =>
    { s := setSupplier s n x (.sweep { w with hold := some { h with ticks := h.ticks + 1 } }), value := w.given, held := true, start := w.due }

/-- Whether the entry that is due can start: it is staged, or stands in the buffers. -/
def entryReady (g : Graver) (x : Ctx) (w : Sweep) : Bool := w.staged.isSome || w.index ≥ w.count || sweepReady g x w

/-- A sweep at the start tick of its next entry (R235 to R237), which a hold delays: a jump request that was recorded before its capture instant takes it,
then the sweep's end or CPSTOP in the compliance that the tick finds (assumption 96), then the entry. A SWEEP that waits for its end completes where a
jump takes its place (DESIGN CHOICE, assumption 120). -/
def sweepBoundary (s : State) (n : Chan) (x : Ctx) (tick : Nat) (off : Bool) (w : Sweep) : Supply :=
  let k := s.context n x
  if w.hold.isSome && !entryReady s.chans[n].graver x w then sweepHold s n x tick w
  else
    let s := updCtx s n x fun k => { k with jumpReq := none }
    match k.jumpReq, k.armed with
    | some q, some a =>
      let s := endSweepHold s n tick w
      let s := match (s.context n x).state with | .waiting .sweep => wake s n x | _ => s
      playStep s n x tick { startPlayback a.addr a.desc with jumped := some (q.late, q.tick) }
    | _, _ =>
      match sweepStop s.chans[n] w with
      | some reason => { s := endSupplier (jumpedWord (endSweepHold s n tick w) n tick 5 reason) n x }
      | none =>
        let g := s.chans[n].graver
        if !entryReady g x w then sweepHold s n x tick w
        else
          match dueEntry g x w with
          | some e => startEntry s n x tick w e off
          | none => { s := endSupplier (endBad s n tick w.hold) n x }

/-- A sweep at a sample tick of control: within a dwell or a count the level last supplied stands, re-scaled with it (R72, R213), once it has become the
target. -/
def sweepTick (s : State) (n : Chan) (x : Ctx) (tick : Nat) (w : Sweep) : Supply :=
  let off := s.chans[n].meas.cfg.smode == .off
  let w := sweepAdvance off w
  if sweepDue off w then sweepBoundary s n x tick off w else { s := setSupplier s n x (.sweep w), value := w.given, start := w.due }

/-! ### Generators (R238 to R240) -/

/-- One step of the LFSR of R239 (assumption 16). -/
def lfsrStep (w : Word) : Word := if w.msb then (w <<< 1) ^^^ 0x00400007 else w <<< 1

/-- A noise draw: the register advances 32 steps and is read. -/
def lfsrDraw (w : Word) : Word := (List.range 32).foldl (fun a _ => lfsrStep a) w

/-- π in units of 2^-64. -/
def piFixed : Nat := 57952155664616982739

/-- sin(π e / 8192) in units of 2^-64: the first fourteen terms of its series. -/
def sineFixed (e : Nat) : Int :=
  let x := piFixed * e / 8192
  ((List.range 14).foldl (fun (a : Int × Int) (k : Nat) =>
    (a.1 + a.2, -(a.2 * (x * x) / 2 ^ 128 / ((2 * k + 2) * (2 * k + 3))))) (0, (x : Int))).1

/-- An entry of the quarter-wave table in units of 2^-40 (Table 6.9): the sine, to within half a unit of 2^-30. The spec bounds the table's error and
does not print its entries, so what is left is a free value (assumption 97). The ends are exact. -/
def quarterSine (e : Nat) : Int :=
  if e = 0 then 0 else if e ≥ 4096 then 2 ^ 40
  else clampInt 0 (2 ^ 40) (roundDiv (sineFixed e) (2 ^ 24) + clampInt (-512) 512 (Config.sineTable e))

/-- The quarter wave at a position of 30 bits, by linear interpolation in a table of 4,096 entries, in units of 2^-58. -/
def quarterAt (p : Nat) : Int :=
  let e := p / 2 ^ 18
  let f := p % 2 ^ 18
  quarterSine e * (2 ^ 18 - f : Nat) + quarterSine (e + 1) * f

/-- The waveform value of a periodic shape as a fraction (Table 6.9). -/
def shapeValue (shape : Nat) (phase : Word) : Int × Nat :=
  let p := phase.toNat
  if shape = 0 then
    let q := p / 2 ^ 30
    let x := p % 2 ^ 30
    let a := quarterAt (if q % 2 = 0 then x else 2 ^ 30 - x)
    (if q ≥ 2 then -a else a, 2 ^ 58)
  else if shape = 1 then
    (if p < 2 ^ 30 then (p : Int) else if p < 3 * 2 ^ 30 then 2 ^ 31 - p else (p : Int) - 2 ^ 32, 2 ^ 30)
  else ((p : Int) - 2 ^ 31, 2 ^ 31)

/-- A generator at a sample tick of control: the value, the generator and the LFSR after it. -/
def genStep (g : Gen) (l : Word) : Int × Gen × Word :=
  let out := fun (w : Int) (den : Nat) => satLevel (roundDiv (g.offset * den + g.amp * w) den)
  if g.shape ≤ 2 then
    let w := shapeValue g.shape g.phase
    (out w.1 w.2, { g with phase := g.phase + g.inc }, l)
  else if g.shape = 3 then
    let u := lfsrDraw l
    (out u.toInt (2 ^ 31), g, u)
  else
    let a := lfsrDraw l
    let b := lfsrDraw a
    let c := lfsrDraw b
    let d := lfsrDraw c
    (out (a.toInt + b.toInt + c.toInt + d.toInt) (2 ^ 33), g, d)

/-- A generator at a sample tick of control. -/
def genTick (s : State) (n : Chan) (x : Ctx) (g : Gen) : Supply :=
  let r := genStep g (s.context n x).lfsr
  { s := updCtx s n x fun k => { k with supplier := .gen r.2.1, lfsr := r.2.2 }, value := .level r.1 }

/-! ### Suppliers at a sample tick -/

/-- Whether a context is in control (the rule before R139): it owns the output, or was started as observe-only. -/
def inControl (c : Channel) (x : Ctx) : Bool := ownerOf c = some x || (isActive c.graver.ctx[x] && c.graver.ctx[x].obs)

/-- PLAY, SWEEP, GEN and GSTOP take effect at the sample tick (R193, R197, R211). -/
def startSuppliers (s : State) (n : Chan) : State :=
  updGraver s n fun g =>
    { g with ctx := g.ctx.map fun k =>
      { k with
        supplier :=
          match k.startNext with
          | some p => p
          | none => match k.supplier, k.stopGen with | .gen _, true => .none | p, _ => p
        startNext := none, stopGen := false } }

/-- The buffers turn to the context in control (R218, R222): where another context has used them, or a stalled prefetch was abandoned, its
playback or sweep refills them. -/
def takeBuffers (s : State) (n : Chan) (x : Ctx) : State :=
  let g := s.chans[n].graver
  if g.bufOwner = some x then s
  else
    let s := updGraver s n fun g => { g with buf := [], bufOwner := some x, sweptList := none, prefetchStalled := false, prefetchEcc := false }
    updCtx s n x fun k =>
      match k.supplier with
      | .play p => { k with supplier := .play { p with refill := true } }
      | _ => k

/-- A prefetch that stalls while its context is not in control is abandoned (R319). -/
def abandonPrefetch (s : State) (n : Chan) : State :=
  let c := s.chans[n]
  match c.graver.bufOwner with
  | some x =>
    if c.graver.prefetchStalled && !inControl c x then
      updGraver s n fun g => { g with prefetchStalled := false, prefetchEcc := false, bufOwner := none, buf := [] }
    else s
  | none => s

/-- The supplier of the context in control at a sample tick. -/
def supplyTick (s : State) (n : Chan) (tick : Nat) : Supply :=
  let s := startSuppliers s n
  let s := abandonPrefetch s n
  match ownerOf s.chans[n] with
  | none => { s := s }
  | some x =>
    match (s.context n x).supplier with
    | .none => { s := s }
    | .gen g => genTick s n x g
    | _ =>
      let s := takeBuffers s n x
      match (s.context n x).supplier with
      | .play p => playTick s n x tick p
      | .sweep w => sweepTick s n x tick w
      | _ => { s := s }

/-! ### Fills (R218 to R222, R234, R319) -/

/-- A block of words read through a context's window for its buffers, each with its window address; or the first fault. -/
def readBlock (s : State) (n : Chan) (x : Ctx) : List Nat → List (Nat × Word) × Option (Nat × Xlate)
  | [] => ([], none)
  | a :: as =>
    match windowRead s n x (word a) with
    | (_, .ok pa) => let r := readBlock s n x as; ((a, memReadWord s.mm.mem pa) :: r.1, r.2)
    | r => ([], some r)

/-- A prefetch stalls at a page (R319): a demand-zero page waits for the MP, any other fault is forwarded; no context suspends. -/
def stallPrefetch (s : State) (n : Chan) (x : Ctx) (va : Nat) (f : Xlate) : State :=
  let g := s.chans[n].graver
  if g.prefetchStalled then s
  else
    let s := updGraver s n fun g => { g with prefetchStalled := true }
    match f with
    | .demand => awaitDemand s (.prefetch n) (windowAsid g x) va false false
    | .fault reason level =>
      forwardFault s (.prefetch n) (faultRecord 3 reason n.val (windowAsid g x) 0 false false level va s.tb.now)
    | .ok _ => s

/-- The translations of window addresses enter the IOTLB (R317). -/
def cacheWindow (s : State) (n : Chan) (x : Ctx) (as : List Nat) : State :=
  let g := s.chans[n].graver
  cacheXlates s (windowAsid g x) (as.map fun a => windowVa g x (word a))

/-- What a memory error does to a fill of window addresses (R294, R320): after an uncorrectable one the prefetch stalls until its playback stops. -/
def fillEcc (s : State) (n : Chan) (x : Ctx) (as : List Nat) (ecc : EccResult) (f : State → State) : State :=
  let va := windowVa s.chans[n].graver x (word (as.headD 0))
  let s := eccMetAt (cacheWindow s n x as) n x va ecc
  if ecc == .uncorrectable then updGraver (stallPrefetch s n x va eccFault) n fun g => { g with prefetchEcc := true } else f s

/-- Load a block of window addresses into the buffers; a block that meets a fault at its first word stalls the prefetch until its page is mapped
(R319). -/
def loadBlock (s : State) (n : Chan) (x : Ctx) (as : List Nat) : State :=
  let r := readBlock s n x as
  let s := updGraver s n fun g =>
    { g with buf := bufInsert (g.buf.filter fun e => !(r.1.any fun b => b.1 == e.1)) r.1 }
  match r.1, r.2 with
  | [], some (va, f) => stallPrefetch s n x va f
  | _, _ => s

/-- The window addresses of up to 64 samples of a segment from an index on. -/
def segmentBlock (d : Desc) (i : Nat) : List Nat := (List.range (min 64 (d.length - i))).map fun j => sampleAddr d (i + j)

/-- The first sample of a segment, from an index on and within a limit, that the buffers lack. -/
def firstMissing (g : Graver) (x : Ctx) (p : Playback) (from_ limit : Nat) : Option Nat :=
  ((List.range (min limit (p.desc.length - from_))).find? fun j => (sampleWord g x p (from_ + j)).isNone).map (from_ + ·)

/-- What a playback's prefetch fetches next (R218, R219): the missing samples of the pass, the successor's descriptor, then the samples of
the next pass or the successor. -/
inductive Fetch where
  | block (d : Desc) (i : Nat)
  | descriptor (addr : Nat)
  | idle
  deriving DecidableEq, Repr

/-- The words ahead that the buffers can take. -/
def aheadLimit : Nat := 8128

/-- The fetch of what follows the last pass by NEXT (R218): its descriptor, then its head within a limit. -/
def followFetch (g : Graver) (x : Ctx) (p : Playback) (limit : Nat) : Fetch :=
  if p.desc.ends || p.desc.next = 0 then .idle
  else
    match p.successor with
    | none => .descriptor (descAt p.addr p.desc.next)
    | some (.good d) =>
      match firstMissing g x (startPlayback (descAt p.addr p.desc.next) d) 0 limit with
      | some i => .block d i
      | none => .idle
    | some .bad => .idle

/-- Whether another pass of the same segment follows the one in play. -/
def repeats (p : Playback) : Bool := match p.passes with | none => true | some k => k > 1 || (p.desc.next = 0 && !p.desc.ends)

/-- The next fetch of a playback, in playing order (R218, R219): the rest of the pass, then the next pass, or what NEXT names. While a resident
segment repeats, the other buffer takes the head of what follows; any other repeating segment has the descriptor read ahead. -/
def nextFetch (g : Graver) (x : Ctx) (p : Playback) : Fetch :=
  if p.decided = some .fallback then .descriptor (descAt p.addr p.desc.fallback)
  else
    match (if p.index < p.desc.length then firstMissing g x p p.index aheadLimit else none) with
    | some i => .block p.desc i
    | none =>
      let room := aheadLimit - (p.desc.length - p.index)
      if repeats p then
        match firstMissing g x p 0 (min room p.index) with
        | some i => .block p.desc i
        | none => if p.passes.isNone then .idle else followFetch g x p (if p.desc.resident then 4096 else 0)
      else followFetch g x p (min room 4096)

/-- A prefetch block of a playback lands (R218). -/
def fillPlayback (s : State) (n : Chan) (x : Ctx) (p : Playback) (ecc : EccResult) : State :=
  let g := s.chans[n].graver
  match (if g.prefetchEcc || g.prefetchStalled then .idle else nextFetch g x p) with
  | .idle => s
  | .block d i =>
    fillEcc s n x (segmentBlock d i) ecc fun s =>
      updGraver (loadBlock s n x (segmentBlock d i)) n fun g => { g with sweptList := none }
  | .descriptor a =>
    fillEcc s n x [a] ecc fun s =>
      match readDesc s n x (word a) with
      | (_, some (va, f)) => stallPrefetch s n x va f
      | (r, none) =>
        setSupplier s n x (.play { p with successor := some r })

/-- The window addresses of the words of up to 32 entries from an index on. -/
def entryBlock (w : Sweep) (i : Nat) : List Nat :=
  (List.range (2 * min 32 (w.count - i))).map fun j => (w.list + 8 * i + 4 * j) % 2 ^ 32

/-- A prefetch block of a sweep lands (R234). -/
def fillSweep (s : State) (n : Chan) (x : Ctx) (w : Sweep) (ecc : EccResult) : State :=
  let g := s.chans[n].graver
  match (List.range (if g.prefetchEcc || g.prefetchStalled then 0 else min 4064 (w.count - w.index))).find? fun j => !entryPresent g x w (w.index + j) with
  | none => s
  | some j =>
    let as := entryBlock w (w.index + j)
    fillEcc s n x as ecc fun s => loadBlock s n x as

end Sys2Proof.Machine
end

