-- ==== Sys2Proof/Machine/RailOps.lean ====
section
/-!
DEFINITION. The output-stage rails (R384 to R389): the envelope of a channel, its look-ahead set, the codes a sample tick requires, and
their rise and fall. Voltages are in units of 1 / (20 * 2^19) V.
-/
namespace Sys2Proof.Machine

/-- The scale factors of a bank in units of 0.01 V/V: those of the board record, else those of the reference CPS (assumption 19). -/
def railScale (s : State) (b : Bank) : Nat × Nat :=
  match s.fw.board with
  | some r => ((r.kp[b.val]?).getD 2000, (r.kn[b.val]?).getD 2000)
  | none => (2000, 2000)

/-- The code for a requirement: rounded up, at most 4,095 (R385). -/
def railCode (v : Int) (k : Nat) : Nat :=
  if v ≤ 0 then 0 else if k = 0 then 4095 else min ((v.toNat + 64 * k - 1) / (64 * k)) 4095

/-- The largest magnitude of a list of codes. -/
def maxAbs (ls : List Int) : Nat := ls.foldl (fun a l => max a l.natAbs) 0

/-- What the present level contributes in ranges `r`: codes re-expressed from those in force. -/
def inRanges (f : Force) (m : Mode) (r : Ranges) (ls : List Int) : List Int :=
  let o := forcedFs m f.ranges
  let k := forcedFs m r
  if o = k then ls else ls.map fun l => satLevel (reExpress l o k)

/-- The codes required by an envelope (R385). -/
def envelopeCodes (margin : Nat) (scale : Nat × Nat) (vlo vhi : Int) (d : Int) : Nat × Nat :=
  let m : Int := margin * 2 ^ 19
  (railCode (max vhi 0 + d + m) scale.1, railCode (-(min vlo 0) + d + m) scale.2)

/-- The FULL envelope of a voltage range. -/
def fullCodes (margin : Nat) (scale : Nat × Nat) (r : Ranges) : Nat × Nat :=
  let v : Int := fsV r.v * 2 ^ 20
  envelopeCodes margin scale (-v) v (20 * 2 ^ 19)

/-- The codes of a mode in ranges `r`, for levels in those ranges (R385). -/
def modeCodes (f : Force) (margin : Nat) (scale : Nat × Nat) (m : Mode) (r : Ranges) (levels : List Int) : Nat × Nat :=
  let co := clampedFs m f.ranges
  let cn := clampedFs m r
  let hi := if co = cn then f.clamps.hi else satClamp (reExpress f.clamps.hi co cn)
  let lo := if co = cn then f.clamps.lo else satClamp (reExpress f.clamps.lo co cn)
  match m with
  | .inert => (0, 0)
  | .fv =>
    let v := fun l : Int => l * fsV r.v * 2
    envelopeCodes margin scale (levels.foldl (fun a l => min a (v l)) 0) (levels.foldl (fun a l => max a (v l)) 0)
      (320 * max hi.natAbs lo.natAbs : Nat)
  | .fi => envelopeCodes margin scale (lo * fsV r.v * 32) (hi * fsV r.v * 32) (20 * maxAbs levels : Nat)
  | .meas => envelopeCodes margin scale (lo * fsV r.v * 32) (hi * fsV r.v * 32) 0

/-! ### The look-ahead set (R386) -/

/-- The samples from an index to the end of the last block of 256 that begins within a distance in samples. Of the block in play those still to come
count. -/
def blockRange (len from_ dist : Nat) : List Nat :=
  let hi := min len ((from_ + dist) / 256 * 256 + 256)
  (List.range (hi - from_)).map (from_ + ·)

/-- The levels of some samples of a playback; none when one of them is in no buffer. -/
def sampleLevels (g : Graver) (x : Ctx) (p : Playback) (is : List Nat) : Option (List Int) :=
  is.foldr (fun i a =>
    match a, sampleWord g x p i with
    | some ls, some w => some (sfield w 19 0 :: ls)
    | _, _ => none) (some [])

/-- Append two parts of a look-ahead set. -/
def bothLevels (a b : Option (List Int)) : Option (List Int) :=
  match a, b with
  | some a, some b => some (a ++ b)
  | _, _ => none

/-- What follows the pass in play in playing order: the segment and the passes of it, none at the end of the chain, or not yet known. -/
def following (p : Playback) : Option (Option Playback) :=
  match p.decided with
  | some (.jump a d _ _) => some (some (startPlayback a d))
  | some .finish => some none
  | _ =>
    if p.desc.ends then some none
    else if p.desc.next = 0 then some (some (startPlayback p.addr p.desc))
    else
      match p.successor with
      | some (.good d) => some (some (startPlayback (descAt p.addr p.desc.next) d))
      | some .bad => some none
      | none => none

/-- The levels of a playback within a distance in samples, from its position on, across passes and the successor. -/
def playAhead (g : Graver) (x : Ctx) (p : Playback) (dist : Nat) : Option (List Int) :=
  let len := p.desc.length
  let now := sampleLevels g x p (blockRange len p.index dist)
  let rest := len - p.index
  if dist < rest then now
  else
    let jumped := match p.decided with | some (.jump ..) => true | _ => false
    let more := !jumped && (match p.passes with | none => true | some k => k > 1)
    let a := if more then bothLevels now (sampleLevels g x p (blockRange len 0 (dist - rest))) else now
    let before := rest + (match p.passes with | some k => if jumped then 0 else (k - 1) * len | none => dist + 1)
    if dist < before then a
    else
      match following p with
      | none => none
      | some none => a
      | some (some q) =>
        let b := bothLevels a (sampleLevels g x q (blockRange q.desc.length 0 (dist - before)))
        let whole := match q.passes with | none => dist + 1 | some k => k * q.desc.length
        if dist < before + whole || q.desc.ends || q.addr = p.addr then b else none

/-- The levels of a sweep: the present entry and the 256 after it. -/
def sweepAhead (g : Graver) (x : Ctx) (w : Sweep) : Option (List Int) :=
  (List.range (min 256 (w.count - w.index))).foldl (fun a j =>
    match a with
    | none => none
    | some ls =>
      if !entryPresent g x w (w.index + j) then none
      else some (((entryWords g x w (w.index + j)).map (·.level)).toList ++ ls)) (some (w.entry.map (·.level)).toList)

/-- The parts of the look-ahead set that lie in memory or in a generator: none when one of them is in no buffer. -/
def supplierAhead (c : Channel) (x : Ctx) (dist : Nat → Nat) : Option (List Int) :=
  let g := c.graver
  let k := g.ctx[x]
  let head :=
    match k.armed with
    | some a => sampleLevels g x (startPlayback a.addr a.desc) (blockRange a.desc.length 0 0)
    | none => some []
  let play :=
    match k.supplier with
    | .play p => playAhead g x p (dist (increment k p))
    | .sweep w => sweepAhead g x w
    | _ => some []
  bothLevels head play

/-- The staged codes of every active context of a channel that are levels of a mode's quantity, in ranges `r`: each is a code of the ranges that its
context's codes stand in (Table 4.6). -/
def stagedLevels (c : Channel) (m : Mode) (r : Ranges) : List Int :=
  (allCtx.filter fun x => isActive c.graver.ctx[x]).filterMap fun x =>
    let i := c.graver.ctx[x].intent
    let o := forcedFs m (if x = c.force.owner then codeRanges c.force i else i.ranges)
    if codeMode i == m || codeMode i == .inert then i.staged.map fun v => if o = forcedFs m r then v else satLevel (reExpress v o (forcedFs m r))
    else none

/-- The offset and amplitude of the running generator. -/
def genLevels (k : Context) : List Int :=
  match k.supplier with
  | .gen g => [g.offset + g.amp, g.offset - g.amp]
  | _ => []

/-! ### The codes of a sample tick -/

/-- The mode whose envelope applies (R385, R389). -/
def railMode (f : Force) : Mode :=
  if f.mode != .inert then f.mode else match f.seq with | .leaving _ => f.applied.mode | _ => .inert

/-- The larger of two pairs of codes, each by itself. -/
def maxCodes (a b : Nat × Nat) : Nat × Nat := (max a.1 b.1, max a.2 b.2)

/-- The codes required in ranges `r`. -/
def codesIn (s : State) (n : Chan) (m : Mode) (r : Ranges) : Nat × Nat :=
  let c := s.chans[n]
  let f := c.force
  let scale := railScale s (bankOf n)
  if m == .inert then (0, 0)
  else if !c.pwr.track then fullCodes c.pwr.margin scale r
  else
    let x := f.owner
    let k := c.graver.ctx[x]
    let dist := fun inc => (max c.pwr.tlead 1 * 20 + 256) * inc / 2 ^ 31
    match supplierAhead c x dist with
    | none => fullCodes c.pwr.margin scale r
    | some ls => modeCodes f c.pwr.margin scale m r (inRanges f m r ([f.dac, f.target, loopTarget m f.applied.level] ++ genLevels k) ++ stagedLevels c m r ++ ls)

/-- The codes required at a sample tick; a bridged change takes the higher of its two ranges (R389). A safe state holds its codes until
INERT is reached; where an INERT channel only moves to PARK after its latch was cleared, nothing holds them. -/
def requiredCodes (s : State) (n : Chan) : Nat × Nat :=
  let f := s.chans[n].force
  if f.safe.isSome && (f.mode != .inert || f.fltLatch) then (f.railP, f.railN)
  else
    let m := railMode f
    let r := if f.mode == .inert && m != .inert then f.applied.ranges else f.ranges
    let a := codesIn s n m r
    match f.bridge with
    | some b => maxCodes a (maxCodes (codesIn s n m b.old) (codesIn s n m b.dst))
    | none => a

/-- The latest entry of a history at or before a tick. -/
def histAt (h : List (Nat × Nat × Nat)) (tick : Nat) : Nat × Nat :=
  match (h.filter fun e => e.1 ≤ tick).getLast? with
  | some e => e.2
  | none => (0, 0)

/-- Add an entry to a history where it differs from the last, and drop what lies before a tick. -/
def histAdd (h : List (Nat × Nat × Nat)) (tick old : Nat) (v : Nat × Nat) : List (Nat × Nat × Nat) :=
  let h := if h.getLast?.map (·.2) = some v then h else h ++ [(tick, v)]
  let at_ := histAt h old
  (old, at_) :: h.filter fun e => old < e.1

/-- The rails at a sample tick (R387, R388): rises apply at once; `step` says that the target or the mode changed at this tick. -/
def railTick (s : State) (n : Chan) (tick : Nat) (step : Bool) : State :=
  let c := s.chans[n]
  let f := c.force
  let want := requiredCodes s n
  let new := maxCodes (f.railP, f.railN) want
  let need := modeCodes f c.pwr.margin (railScale s (bankOf n)) (railMode f) f.ranges [f.dac, f.target]
  let was := histAt f.railHist (tick - max c.pwr.tlead 1 * 16000)
  let late := step && c.pwr.track && f.safe.isNone && (need.1 > was.1 || need.2 > was.2)
  updForce s n fun f =>
    { f with
      railP := new.1, railN := new.2, rlate := f.rlate || late
      railWant := histAdd f.railWant tick (tick - 50 * 800 * 1100) want
      railHist := histAdd f.railHist tick (tick - 5200 * 800) new }

/-- The highest codes that the sample ticks of the last THOLD required, up to a tick. -/
def heldCodes (c : Channel) (tick : Nat) : Nat × Nat :=
  let start := tick - (max c.pwr.thold 1 * 200 * 800 - 800)
  (c.force.railWant.filter fun e => start < e.1).foldl (fun a e => maxCodes a e.2) (histAt c.force.railWant start)

end Sys2Proof.Machine
end

