-- ==== Sys2Proof/Machine/HatchOps.lean ====
section
/-!
DEFINITION. The shared operations of the Hatch units (R282 to R286): enabling, gates, configuration, and the turn of the buffers at a
boundary.
-/
namespace Sys2Proof.Machine

/-- The channel that a Hatch unit watches. -/
def unitChan (u : Fin 144) : Option Chan := if h : u.val / 2 < 68 then some ⟨u.val / 2, h⟩ else none

/-- Whether a unit folds nothing for a reason of its channel or of vigil (R392, R400). -/
def unitIdle (s : State) (u : Fin 144) (k : HatchUnit) : Bool :=
  match unitChan u with
  | some n => (s.pwr.vigil && k.cfg.inp) || calOwns s.chans[n]
  | none => false

/-- The empty buffer that a unit opens. -/
def openBuf (s : State) (u : Fin 144) (k : HatchUnit) : HatchBuf :=
  { enabled := k.en, part := k.en && (!k.folding || unitIdle s u k) }

/-- A unit after a start and a stop that take effect at one tick (R283): the stop prevails, and a unit with GATE = 0 ignores both. -/
def gateUnit (req : Bool × Bool) (k : HatchUnit) : HatchUnit :=
  if !k.gate then k else { k with gateOpen := if req.2 then false else k.gateOpen || req.1 }

/-- A unit after the writes of EN and GATE and the start and stop that take effect at a sample tick (R282, R283). -/
def enableUnit (req : Bool × Bool) (k : HatchUnit) : HatchUnit :=
  gateUnit req (match k.enNext with | some (en, gate) => { k with en := en, gate := gate, enNext := none } | none => k)

/-- A unit at a sample tick: its buffer keeps account of whether it was enabled and whether it folded for the whole time (R282). -/
def tickUnit (s : State) (tick : Nat) (u : Fin 144) (k : HatchUnit) : HatchUnit :=
  let k' := enableUnit s.ht.gateReq k
  if k'.since = tick then { k' with buf := { k'.buf with enabled := k'.en, part := (openBuf s u k').part } }
  else
    { k' with buf := { k'.buf with
        enabled := k.buf.enabled || k'.en
        part := k.buf.part || k.en != k'.en || (k'.en && (!k.folding || !k'.folding)) } }

/-- A staged configuration that a sample tick applies while frames are disabled; it clears the unit (R284). -/
def tickCfg (s : State) (tick : Nat) (u : Fin 144) (k : HatchUnit) : HatchUnit :=
  match k.staged with
  | some c => let k := { k with cfg := c, staged := none, since := tick }; { k with buf := openBuf s u k }
  | none => k

/-- A unit at a boundary (R277, R282 to R285): the open buffer closes as a record, or is cleared without one, and an empty one opens
under the staged settings. A record that has not been stored by then is discarded and counted. -/
def turnUnit (s : State) (tick : Nat) (record : Bool) (u : Fin 144) (k : HatchUnit) : HatchUnit :=
  let lost := record && k.closed.isSome
  let k := { k with
    closed := if record then some (k.buf, k.cfg) else k.closed
    closedAt := if record then tick else k.closedAt
    lost := if lost then satAdd 65535 k.lost 1 else k.lost }
  let k := enableUnit s.ht.gateReq k
  let k := { k with cfg := k.staged.getD k.cfg, staged := none, since := tick }
  { k with buf := openBuf s u k }

/-- Replace every Hatch unit by its image. -/
def mapUnits (s : State) (f : Fin 144 → HatchUnit → HatchUnit) : State :=
  { s with ht := { s.ht with units := s.ht.units.mapFinIdx fun i k h => f ⟨i, h⟩ k } }

/-- Replace one Hatch unit by its image. -/
def updUnit (s : State) (u : Fin 144) (f : HatchUnit → HatchUnit) : State :=
  { s with ht := { s.ht with units := s.ht.units.set u (f s.ht.units[u]) } }

/-- The units of a channel carry PART for the buffer that is open (R400, R392). -/
def markPart (s : State) (u : Fin 144) : State :=
  updUnit s u fun k => if k.en then { k with buf := { k.buf with part := true } } else k

/-- All units turn at a boundary or a snapshot. -/
def turnUnits (s : State) (tick : Nat) (record : Bool) : State :=
  let s := mapUnits s (turnUnit s tick record)
  { s with ht := { s.ht with gateReq := (false, false), lastClear := tick, holdover := s.tb.holdover } }

/-- Whether a boundary falls on a sample tick and has not been carried out. -/
def boundaryDue (s : State) (tick : Nat) : Bool :=
  (s.ht.run || (s.ht.armed && !s.ht.disarm)) && s.ht.next = tick && !(s.ht.armed && s.ht.token && s.ht.next = 0)

/-- Whether a unit folds a sample converted at the present sample tick. -/
def foldsNow (s : State) (u : Fin 144) : Bool := (enableUnit s.ht.gateReq s.ht.units[u]).folding && !unitIdle s u s.ht.units[u]

/-- The writes, gate requests and configurations of the Hatch units that a sample tick applies; a boundary at that tick applies them
itself. -/
def tickUnits (s : State) (tick : Nat) : State :=
  if boundaryDue s tick then s
  else
    let s := mapUnits s (tickUnit s tick)
    let s := { s with ht := { s.ht with gateReq := (false, false) } }
    if s.ht.en then s else mapUnits s (tickCfg s tick)

/-- The frames that the collector has room for (R288). -/
def collectorRoom : Nat := 4

/-- A manual snapshot at a sample tick (R286). Where the collector holds four frames it is refused with SNAP_REJ (R288; DESIGN CHOICE, assumption 124). -/
def takeSnapshot (s : State) (tick : Nat) : State :=
  if s.ht.held.length ≥ collectorRoom then { s with ht := { s.ht with snapReq := false, snapRej := true } } else
  let f : HeldFrame :=
    { number := 2 ^ 64 - 1, start := s.ht.lastClear, boundary := tick, trunc := false, manual := true, holdover := s.ht.holdover
      deviceReady := false, proofed := false, slots := Vector.replicate 76 .empty }
  let s := turnUnits s tick true
  { s with ht := { s.ht with snapReq := false, held := s.ht.held ++ [f] } }

end Sys2Proof.Machine
end

