-- ==== Sys2Proof/Machine/ReliefOps.lean ====
section
/-!
DEFINITION. The shared operations of calibration runs and reliefs (13_calibration): how a run starts, the takeover of Table 13.5 and
the handback of Table 13.6, as far as sample ticks carry them.
-/
namespace Sys2Proof.Machine

/-- The codes of Table 13.2 that the sequences use. -/
def codeFault : Nat := 0x04
def codeAborted : Nat := 0x15

/-- Replace a bank's relief. -/
def setRelief (s : State) (b : Bank) (r : Option Relief) : State := { s with reliefs := s.reliefs.set b r }

/-- Change the calibration state of a channel. -/
def updCal (s : State) (n : Chan) (f : Calib → Calib) : State := updChan s n fun c => { c with cal := f c.cal }

/-- Context 3 of a channel with an intent of the firmware (R410); where it is not active already, it waits for the firmware. -/
def firmwareIntent (s : State) (n : Chan) (i : Intent) : State :=
  updCtx s n 3 fun k =>
    if isActive k then { k with intent := i } else { haltedCtx k with state := .waiting .firmware, obs := false, intent := i }

/-- Change the intent of context 3. -/
def updFirmware (s : State) (n : Chan) (f : Intent → Intent) : State := updIntent s n 3 f

/-- The slew of 65,536 codes per sample tick (R410). -/
def reliefSlew : Slew := ⟨7, 512, 1⟩

/-- A run begins (R400): the open packet closes with STOPPED, the converters belong to the run, and units enabled carry PART. -/
def beginRun (s : State) (n : Chan) : State :=
  let s := askClose s n (nextSample s) 6
  let s := markPart (markPart s (unitV n)) (unitI n)
  let s := updMeas s n fun m => { m with since := 0, aperture := none, trigPending := false }
  updCal s n fun c => { c with phase := .run, step := .precheck, epoch := s.fw.calEpoch }

/-- Begin a takeover (t0 of Table 13.5): context 3 of both channels, the captured intent, and the channel's measurement settings. -/
def beginTakeover (s : State) (n : Chan) (forRun : Bool) : State :=
  let b := bankOf n
  let r := chanAt b 16
  let i := { s.chans[n].force.applied with staged := none }
  let s := firmwareIntent s n i
  let s := firmwareIntent s r { i with level := if i.mode == .fi then 0 else i.level, slew := reliefSlew }
  let cfg := effectiveCfg s.chans[n].meas
  let s := setMeas s r fun _ => cfg
  let s := setRelief s b (some { slot := slotOf n, phase := .bringUp, captured := i, rampTick := 0, rampLevel := 0, forRun := forRun })
  updCal s n fun c => { c with phase := .takeover }

/-- The mode of the main channel in a handback (R412): FI for a DUT in FV. -/
def handbackMode (r : Relief) : Mode := if r.captured.mode == .fv then .fi else r.captured.mode

/-- The relief channel carries the DUT alone again: it takes the captured level, at the captured slew (R410, R413). -/
def restoreRelief (s : State) (b : Bank) (r : Relief) : State :=
  updFirmware s (chanAt b 16) fun i => { i with level := r.captured.level, levelIn := r.captured.levelIn, slew := r.captured.slew }

/-- The handback cannot go on: it ends with FAULT and the relief stays in force (R412). -/
def failHandback (s : State) (b : Bank) (r : Relief) : State :=
  let n := chanAt b r.slot
  let s := restoreRelief (setRelief s b (some { r with phase := .carrying })) b r
  updCal s n fun c => { c with phase := .relieved, last := codeFault }

/-- Begin a handback (t0 of Table 13.6). -/
def beginHandback (s : State) (b : Bank) (r : Relief) : State :=
  let n := chanAt b r.slot
  if modeBlocked s n then failHandback s b r
  else
    let s := firmwareIntent s n { r.captured.withMode (handbackMode r) with level := 0 }
    let s := setRelief s b (some { r with phase := .backUp })
    updCal s n fun c => { c with phase := .handback }

/-- The codes a ramp moves per sample tick (R411). -/
def rampStep (l : Int) : Nat := (l.natAbs + 399) / 400

/-- What is left of a level after some ticks of a ramp to zero. -/
def rampLeft (l : Int) (ticks : Nat) : Int := moveToward l 0 (rampStep l * ticks)

/-- The level that a relief's ramp supplies to a channel at a sample tick (R411, R412). -/
def rampSupply (s : State) (n : Chan) : Option Int :=
  match s.reliefs[bankOf n] with
  | none => none
  | some r =>
    if r.rampTick ≥ 400 then none
    else
      let left := rampLeft r.rampLevel (r.rampTick + 1)
      let done := r.rampLevel - left
      let main := chanAt (bankOf n) r.slot == n
      let fi := r.captured.mode == .fi
      match r.phase with
      | .ramp => if main then some left else if isRelief n && fi then some done else none
      | .backRamp => if main then some done else if isRelief n && fi then some left else none
      | _ => none

/-- The slew of context 3 while a ramp runs: each step of the ramp is reached at its own tick. -/
def rampSlew (l : Int) : Slew := let w := slewAbove (rampStep l); ⟨w.1, w.2, 1⟩

/-- The takeover of a main channel that took its safe state, or is held, is given up before the relief switches close: the relief channel goes
INERT, and context 3 halts on both channels. -/
def cancelTakeover (s : State) (b : Bank) : State :=
  let r := chanAt b 16
  let s := holdChannel s r
  let s := match s.reliefs[b] with
    | some q => haltCtx (updCal s (chanAt b q.slot) fun c => if c.phase == .takeover then { c with phase := .idle } else c) (chanAt b q.slot) 3
    | none => s
  haltCtx (setRelief s b none) r 3

/-- The main channel of a takeover took its safe state once the relief switches had closed: the relief channel carries the DUT until it hands it back
(R85, R94). A takeover for a run has ended with the run. -/
def carryOn (s : State) (b : Bank) (r : Relief) : State :=
  updCal (restoreRelief (setRelief s b (some { r with phase := .carrying })) b r) (chanAt b r.slot) fun c =>
    if c.phase == .takeover then { c with phase := .relieved } else c

/-- The part of a relief that precedes the force paths at a sample tick: the change of mode at t1 and after t3 with its switch requests,
and the slew of a ramp. Where MODE is without effect on the main channel (R84, R373), it changes nothing, and the takeover or handback ends. -/
def reliefBefore (s : State) (b : Bank) : State :=
  match s.reliefs[b] with
  | none => s
  | some r =>
    let n := chanAt b r.slot
    let c := s.chans[n]
    match r.phase with
    | .toFi =>
      if modeBlocked s n then cancelTakeover s b else
      let s := if r.captured.mode == .fv then
          updFirmware s n fun i => { i.withMode .fi with level := preloadCode c.meas .fi c.force.ranges } else s
      let s := cpsSend (cpsSend s b 16 opRelief 1) b r.slot opRelief 1
      setRelief s b (some { r with phase := .switching })
    | .toMode =>
      if modeBlocked s n then failHandback s b r else
      let s := if r.captured.mode == .fv then updFirmware s n fun i => { i.withMode .fv with level := r.captured.level, slew := r.captured.slew } else s
      let s := cpsSend (cpsSend s b r.slot opRelief 0) b 16 opRelief 0
      setRelief s b (some { r with phase := .releasing })
    | .ramp | .backRamp =>
      let set := fun i : Intent => { i with slew := rampSlew r.rampLevel }
      let s := updFirmware s n set
      if r.captured.mode == .fi then updFirmware s (chanAt b 16) set else s
    | _ => s

/-- The part of a relief that follows the force paths at a sample tick. -/
def reliefAfter (s : State) (b : Bank) : State :=
  match s.reliefs[b] with
  | none => s
  | some r =>
    let n := chanAt b r.slot
    let m := s.chans[n].force
    let q := s.chans[chanAt b 16].force
    match r.phase with
    | .bringUp =>
      if m.fltLatch || m.mode == .inert then cancelTakeover s b
      else if q.seq == .idle && q.mode == r.captured.mode && levelReached q && q.bridge.isNone then
        setRelief s b (some { r with phase := .toFi })
      else s
    | .toFi => if modeBlocked s n then cancelTakeover s b else s
    | .switching => s
    | .ramp =>
      if m.fltLatch then carryOn s b r
      else setRelief s b (some { r with rampTick := min 400 (r.rampTick + 1) })
    | .isolating => if m.fltLatch then carryOn s b r else s
    | .parking =>
      if m.mode == .inert && m.seq == .idle && m.safe.isNone then
        if m.fltLatch then carryOn s b r
        else
          let s := setRelief s b (some { r with phase := .carrying })
          if r.forRun then beginRun s n else updCal s n fun c => { c with phase := .relieved }
      else s
    | .carrying => s
    | .backUp =>
      if modeBlocked s n then failHandback s b r
      else if m.seq == .idle && m.mode == handbackMode r then
        let s := updForce s n fun f => { f with oen := true, relay := .making }
        setRelief s b (some { r with phase := .connecting })
      else s
    | .connecting => if modeBlocked s n then failHandback s b r else s
    | .backRamp =>
      if modeBlocked s n then failHandback s b r else setRelief s b (some { r with rampTick := min 400 (r.rampTick + 1) })
    | .toMode => if modeBlocked s n then failHandback s b r else s
    | .releasing => s

end Sys2Proof.Machine
end

