-- ==== Sys2Proof/Machine/CpsOps.lean ====
section
/-!
DEFINITION. The CPS link (R87 to R92): command words, the order in which they are sent, and what a response does.
-/
namespace Sys2Proof.Machine

/-- The CRC of bits 31:8 of a word, most significant bit first, from 0 (R89). -/
def crc8 (w : Word) : Nat := (List.range 24).foldl (fun c i => crc8Bit c (w.getLsbD (31 - i))) 0

/-- A command word (Table 2.15). -/
def cpsWord (c : CpsCmd) : Word :=
  let w := pack [(c.slot % 32, 27), (c.op % 16, 23), (c.arg % 2 ^ 15, 8)]
  w ||| word (crc8 w)

/-- POLL (Table 2.17). -/
def opPoll : Nat := 0

/-- SAFE and ENABLE with ARG[0] = 0, which come before all others (R90). -/
def cpsUrgent (c : CpsCmd) : Bool := c.op == opSafe || (c.op == opEnable && c.arg % 2 == 0)

/-- The first command of the lowest slot among those that satisfy a condition. -/
def lowestSlot (q : List CpsCmd) (p : CpsCmd → Bool) : Option CpsCmd :=
  (q.filter p).foldl (fun a c => match a with | none => some c | some b => if c.slot < b.slot then some c else some b) none

/-- The poll of a frame: a repeat of a failed poll first, else the next slot in turn. -/
def pollFrame (b : BankState) : CpsCmd × BankState :=
  match lowestSlot b.queue fun c => c.op == opPoll with
  | some c => (c, { b with queue := b.queue.erase c, sincePoll := 0 })
  | none => (⟨b.pollSlot, opPoll, 0, 0, false⟩, { b with pollSlot := (b.pollSlot + 1) % 17, sincePoll := 0 })

/-- The next command of a bank (R90, R91). -/
def nextCommand (b : BankState) : CpsCmd × BankState :=
  if b.linkDown then
    match b.restartSlot with
    | some k => (⟨k, opPoll, 0, 0, true⟩, { b with restartSlot := if k ≥ 16 then none else some (k + 1) })
    | none => (⟨31, opSafe, 0, 0, false⟩, b)
  else
    match lowestSlot b.queue cpsUrgent with
    | some c => (c, { b with queue := b.queue.erase c, sincePoll := b.sincePoll + 1 })
    | none =>
      if b.sincePoll ≥ 3 then pollFrame b
      else
        match lowestSlot b.queue fun c => c.op != opPoll with
        | some c => (c, { b with queue := b.queue.erase c, sincePoll := b.sincePoll + 1 })
        | none => pollFrame b

/-- Send the next command of a bank. A command to SLOT 31 has no answer (R89). -/
def sendFrame (b : BankState) : BankState :=
  let r := nextCommand b
  let k := r.2
  { k with word := cpsWord r.1, sent := if r.1.slot = 31 then k.sent else k.sent ++ [r.1] }

/-- Change what the device knows of a slot. -/
def updSlot (s : State) (n : Chan) (f : Slot → Slot) : State := updForce s n fun p => { p with slot := f p.slot }

/-- Start to read the identity of a slot (R92): word 0 first. -/
def startIdentity (s : State) (n : Chan) : State :=
  cpsFor (updSlot s n fun p => { p with ident := [], reading := some 0 }) n opReadId 0

/-- The next word of the identity sequence, or its CLEAR after word 11 (R92). -/
def nextIdentity (s : State) (n : Chan) (k : Nat) (w : BitVec 14) : State :=
  let s := updSlot s n fun p => { p with ident := p.ident ++ [w], reading := some (k + 1) }
  if k + 1 < 12 then cpsFor s n opReadId (k + 1) else cpsFor s n opClear 0

/-- The identity words 0 to 4 of a slot against those of the calibration set in force (R409). -/
def cpsChanged (c : Channel) : Bool :=
  match c.cal.slots[c.cal.slot]? with
  | some (some t) => t.cpsId != c.force.slot.ident.take 5
  | _ => false

/-- Whether a context's MODE took effect while the identity was being read, and the identity forbids it (R92). -/
def modeForbidden (f : Force) (k : Context) : Bool :=
  k.modeHeld && isActive k && k.intent.mode != .inert && (noCps f || !declares f k.intent.ranges)

/-- The identity sequence is complete (R92, R409): a deferred MODE that it forbids is a trigger, as if it had arrived then. -/
def endIdentity (s : State) (n : Chan) : State :=
  let s := updSlot s n fun p => { p with reading := none }
  let s := updCal s n fun c => { c with cpschg := c.cpschg || cpsChanged s.chans[n] }
  let bad := s.chans[n].graver.ctx.any (modeForbidden s.chans[n].force)
  let s := updGraver s n fun g => { g with ctx := g.ctx.map fun k => { k with modeHeld := false } }
  if bad then safeTrigger s n 2 else s

/-- Whether RAILOK = 0 is a fault (R83, R384): out of INERT and past t1. -/
def railWatched (f : Force) : Bool :=
  f.mode != .inert || (match f.seq with | .leaving .rails => false | .leaving _ => true | _ => false)

/-- The elements other than the intent's that a status reports closed, after a bridged change that ended early (R495). IR is the lowest
closed current range; IR2 says that there is another above it. -/
def closedOthers (r : Ranges) (w : BitVec 14) : List (Nat × Nat) :=
  let ir := w.toNat / 16 % 16
  let ir2 := w.getLsbD 3
  let vr := w.toNat / 2 % 4
  (if ir ≤ 8 && ir != r.i then [(opOpenI, ir)] else [])
    ++ (if ir2 then ((List.range 9).filter fun i => ir < i && i != r.i).map fun i => (opOpenI, i) else [])
    ++ (if vr ≤ 2 && vr != r.v then [(opOpenV, vr)] else [])

/-- After a passing poll of an INERT channel whose bridged change ended early, open every other element (R495). -/
def openOthers (s : State) (n : Chan) (w : BitVec 14) : State :=
  let f := s.chans[n].force
  if f.endedEarly && f.mode == .inert && (f.seq == .idle || f.seq == .leaving .rails) then
    let s := (closedOthers f.applied.ranges w).foldl (fun s o => cpsFor s n o.1 o.2) s
    updForce s n fun f => { f with endedEarly := false }
  else s

/-- A status word waits to cross to the handshake side with the converter results of its sample tick (R90); `poll` says that it answers a POLL. -/
def statusArrives (s : State) (b : Bank) (slot : Nat) (poll : Bool) (w : BitVec 14) : State :=
  updBank s b fun k => { k with arrived := k.arrived ++ [(slot, poll, w, s.tb.lastSample.getD 0)] }

/-- A poll that passes ends a slot's link failure, and starts an identity sequence that was abandoned (R91, R92). -/
def pollPassed (s : State) (b : Bank) (n : Chan) (w : BitVec 14) : State :=
  let s := updBank s b fun k => { k with failedPolls := 0 }
  let s := updSlot s n fun p => { p with failed := false }
  let p := s.chans[n].force.slot
  let s := if p.reading.isNone && p.ident.isEmpty then startIdentity s n else s
  statusArrives s b (slotOf n) true w

/-- What the status of a poll says once it has crossed (R83, R92, R495, Table 2.4): NEW, elements to open, RAILOK. -/
def pollCrosses (s : State) (b : Bank) (n : Chan) (w : BitVec 14) : State :=
  let s := updSlot s n fun p => { p with railok := stRailok w, railBad := if stRailok w then 0 else p.railBad + 1 }
  let f := s.chans[n].force
  let s := if f.slot.reading.isNone && stNew w && !s.banks[b].linkDown then startIdentity s n else s
  let held := slotHeld s.chans[n].force
  let s := openOthers s n w
  match f.seq with
  | .leaving .rails =>
    if stRailok w && !held then
      let s := cpsFor (cpsFor s n opCloseI f.applied.ranges.i) n opCloseV f.applied.ranges.v
      updForce s n fun f => { f with seq := .leaving .switches }
    else s
  | _ => if railWatched f && f.slot.railBad ≥ 2 then safeTrigger s n 3 else s

/-- The status words of a bank that arrived up to a sample tick cross to the handshake side with its converter results (R90). -/
def crossStatus (s : State) (b : Bank) (tick : Nat) : State :=
  let arrived := s.banks[b].arrived.filter fun a => a.2.2.2 ≤ tick
  arrived.foldl (fun s a =>
    let n := chanAt b a.1
    let s := updSlot s n fun p => { p with status := a.2.2.1 }
    if a.2.1 then pollCrosses s b n a.2.2.1 else s) (updBank s b fun k => { k with arrived := k.arrived.filter fun a => tick < a.2.2.2 })

/-- A command that was executed. -/
def commandPassed (s : State) (b : Bank) (c : CpsCmd) (n : Chan) (w : BitVec 14) : State :=
  if c.op = opPoll then pollPassed s b n w
  else if c.op = opReadId then
    match s.chans[n].force.slot.reading with
    | some k => if k = c.arg then nextIdentity s n k w else s
    | none => s
  else
    let s := statusArrives s b (slotOf n) false w
    if c.op = opClear then (if s.chans[n].force.slot.reading = some 12 then endIdentity s n else s)
    else if c.op = opEnable && c.arg % 2 = 1 && s.chans[n].force.seq == .leaving .enabling then
      updForce s n fun f => { f with seq := .leaving .acknowledged, cpsen := true }
    else s

/-- The bank link is declared down (R91): CPSLINK clears and every channel of the bank takes FCAUSE 2. -/
def bankLinkDown (s : State) (b : Bank) : State :=
  let s := updBank s b fun k =>
    { k with linkUp := false, linkDown := true, queue := [], sent := [], restartSlot := none, restartOk := true }
  (bankChans b).foldl (fun s n => safeTrigger s n 2) s

/-- The bank link is up again after a round that passed (R91, R92): the identity of every slot is read. -/
def bankLinkUp (s : State) (b : Bank) : State :=
  let s := updBank s b fun k => { k with linkUp := true, linkDown := false, failedPolls := 0, sincePoll := 0 }
  (bankChans b).foldl (fun s n => startIdentity (updSlot s n fun p => { p with failed := false }) n) s

/-- A slot's link failure (R91): the identity sequence is abandoned and starts again at the first passing poll. -/
def slotFailed (s : State) (n : Chan) : State :=
  safeTrigger (updSlot s n fun p =>
    { p with failed := true, ident := if p.reading.isSome then [] else p.ident, reading := none }) n 2

/-- A failed attempt (R91): the command is repeated twice; eight consecutive first polls that fail declare the link down. -/
def commandFailed (s : State) (b : Bank) (c : CpsCmd) (n : Chan) : State :=
  let first := c.op == opPoll && c.tries = 0
  let s := if first then updBank s b fun k => { k with failedPolls := k.failedPolls + 1 } else s
  if s.banks[b].failedPolls ≥ 8 then bankLinkDown s b
  else if c.tries ≥ 2 then slotFailed s n
  else updBank s b fun k => { k with queue := { c with tries := c.tries + 1 } :: k.queue }

/-- A restart poll's answer (R91): after the seventeenth the round has passed or failed. -/
def restartAnswer (s : State) (b : Bank) (c : CpsCmd) (ok : Bool) (n : Chan) (w : BitVec 14) : State :=
  let s := updBank s b fun k => { k with restartOk := k.restartOk && ok }
  let s := if ok then statusArrives s b (slotOf n) true w else s
  if c.slot = 16 && s.banks[b].restartOk then bankLinkUp s b else s

/-- Whether a response answers a command (R89, R91): CRC, echo of SLOT and OP, ACK. -/
def answers (c : CpsCmd) (w : Word) : Bool :=
  field w 7 0 == crc8 w && field w 31 27 == c.slot && field w 26 23 == c.op && flag w 22

/-- A response word of a bank, for the oldest command that has no answer yet. -/
def receiveResponse (s : State) (b : Bank) (w : Word) : State :=
  match s.banks[b].sent with
  | [] => s
  | c :: rest =>
    let s := updBank s b fun k => { k with sent := rest }
    let n := chanAt b c.slot
    let d := BitVec.ofNat 14 (field w 21 8)
    if c.restart then restartAnswer s b c (answers c w) n d
    else if s.banks[b].linkDown then s
    else if answers c w then commandPassed s b c n d
    else commandFailed s b c n

/-! ### Bank dies (R81, R83, R473, R482) -/

/-- The handshake link to a bank die goes down: UP clears, LINKERR is set, DOWNS counts; the conversions under way never arrive. -/
def bankLost (s : State) (b : Bank) : State :=
  let s := updBank s b fun k => { k with up := false, linkErr := true, downs := satAdd 63 k.downs 1, arrived := [] }
  (bankChans b).foldl (fun s n => updMeas s n fun m => { m with convs := [], hist := [], since := 0, aperture := none }) s

/-- A slot from which nothing is known. -/
def freshSlots (s : State) (b : Bank) : State := (bankChans b).foldl (fun s n => updSlot s n fun _ => {}) s

/-- PARK codes are loaded into the DACs of a bank (R81). -/
def loadPark (s : State) (b : Bank) : State :=
  (bankChans b).foldl (fun s n =>
    updForce s n fun f => { f with dac := f.safety.park, target := f.safety.park, slewPhase := 0, oen := false, relay := .open_, safe := none
                                   mode := .inert, seq := .idle, cpsen := false }) s

/-! ### Clearing a latched fault, disabling (R84 to R86, R151) -/

/-- Whether a sensor of a bank lies at or above TSHUT (R391), in units of 0.125 °C. -/
def bankSensorHot (s : State) (b : Bank) : Bool :=
  (List.range 8).any fun j =>
    match s.pwr.temps[8 * b.val + j]? with
    | some (some t) => t.toInt ≥ 8 * s.pwr.tshut
    | _ => false

/-- Whether a trigger of Table 2.14 is present on a channel (R84). -/
def triggerPresent (s : State) (n : Chan) : Bool :=
  let f := s.chans[n].force
  let b := s.banks[bankOf n]
  f.fltLow
    || f.slot.failed || b.linkDown || (f.slot.reading.isNone && !f.slot.ident.isEmpty && noCps f) || (!b.up && b.supplyLost)
    || ((f.causes.contains 3 || f.causes.contains 7) && f.safe.isSome)
    || (!s.pl.pldet && s.pl.deten)
    || bankSensorHot s (bankOf n)
    || !b.up

/-- Clear FLT_LATCH where no trigger is present: from the next sample tick on the DAC moves to PARK at the fault slew (R84). -/
def clearFltLatch (s : State) (n : Chan) : State :=
  let f := s.chans[n].force
  if !f.fltLatch || triggerPresent s n then s
  else
    updForce s n fun f =>
      { f with
        fltLatch := false, fcause := 0, causes := []
        safe := some { cause := 7, dest := f.safety.park, opened := match f.safe with | some q => q.opened | none => true } }

/-- Take a context to HALTED at its next instruction boundary (R146, R151): at once, unless it holds the execution unit. -/
def haltRequest (s : State) (n : Chan) (x : Ctx) : State :=
  match s.chans[n].graver.busy with
  | some (y, k) => if y = x && k != .fetch then updCtx s n x fun c => { c with haltReq := true } else haltCtx s n x
  | none => haltCtx s n x

/-- Disable a channel (R86): the trigger of FCAUSE 7, every context HALTED, the open packet closed with ABORT, SMODE OFF. A relief goes
on. -/
def disableChannel (s : State) (n : Chan) : State :=
  let s := safeTrigger s n 7
  let s := allCtx.foldl (fun s x => haltRequest s n x) s
  let s := askClose s n (nextSample s) 5
  setMeas s n fun c => { c with smode := .off }

end Sys2Proof.Machine
end

