-- ==== Sys2Proof/Machine/CalOps.lean ====
section
/-!
DEFINITION. Requests for calibration runs and reliefs (R397 to R399, R411, R412): the order of the refusals and what an accepted request
starts.
-/
namespace Sys2Proof.Machine

/-- Refusal codes of Table 13.2. -/
def codeBusy : Nat := 0x01
def codeReliefBusy : Nat := 0x02
def codeActive : Nat := 0x03
def codeMoving : Nat := 0x05
def codeState : Nat := 0x06

/-- What a request asks for. -/
inductive CalAsk where
  | full | quick | relieve | ret
  deriving DecidableEq, Repr

/-- Whether a request asks for a run. -/
def CalAsk.isRun (a : CalAsk) : Bool := a == .full || a == .quick

/-- Whether a relief of a bank is under way or carries a DUT, for a channel that is part of it. -/
def reliefOf (s : State) (n : Chan) : Option Relief :=
  match s.reliefs[bankOf n] with
  | some r => if isRelief n || chanAt (bankOf n) r.slot == n then some r else none
  | none => none

/-- Whether a run, relief or handback is in progress on a channel (BUSY). -/
def calBusy (s : State) (n : Chan) : Bool :=
  let p := s.chans[n].cal.phase
  (p != .idle && p != .relieved) || (match reliefOf s n with | some r => r.phase != .carrying | none => false)

/-- Whether a channel is INERT with no sequence in progress. -/
def atRest (f : Force) : Bool := f.mode == .inert && f.seq == .idle

/-- Whether a request needs the relief channel (R398, R399). -/
def needsRelief (s : State) (n : Chan) (a : CalAsk) : Bool :=
  let f := s.chans[n].force
  match a with
  | .relieve => true
  | .ret => false
  | _ => !isRelief n && !f.relieved && !atRest f && f.relay == .closed

/-- The conditions of STATE (R398). -/
def badState (s : State) (n : Chan) (a : CalAsk) : Bool :=
  let f := s.chans[n].force
  match a with
  | .relieve => isRelief n || f.mode == .inert || f.relay != .closed || f.relieved
  | .ret => isRelief n || !f.relieved
  | _ => false

/-- The conditions of ACTIVE (R398). -/
def badActive (s : State) (n : Chan) (a : CalAsk) : Bool :=
  let f := s.chans[n].force
  a.isRun && (if isRelief n then f.relieved || !atRest f else !f.relieved && !atRest f && f.relay != .closed)

/-- Whether the owner of a channel's output has a supplier at work. -/
def ownerSupplied (c : Channel) : Bool :=
  match ownerOf c with
  | some x => c.graver.ctx[x].supplier != .none || c.graver.ctx[x].startNext.isSome
  | none => false

/-- The conditions of MOVING (R398). -/
def badMoving (s : State) (n : Chan) : Bool :=
  let c := s.chans[n]
  ownerSupplied c || slewing c.force || c.force.bridge.isSome || c.force.ldid.isSome

/-- The conditions of RELIEF_BUSY (R398). -/
def badRelief (s : State) (n : Chan) : Bool :=
  let f := s.chans[chanAt (bankOf n) 16].force
  s.reliefs[bankOf n].isSome || !atRest f || slotHeld f || noCps f || !declares f s.chans[n].force.applied.ranges || plateHold s.pl

/-- The code with which a request is refused, 0 where it is accepted (R398). -/
def calRefusal (s : State) (n : Chan) (a : CalAsk) : Nat :=
  let need := needsRelief s n a
  if calBusy s n then codeBusy
  else if s.chans[n].force.fltLatch || (need && s.chans[chanAt (bankOf n) 16].force.fltLatch) then codeFault
  else if badState s n a then codeState
  else if badActive s n a then codeActive
  else if need && badMoving s n then codeMoving
  else if need && badRelief s n then codeReliefBusy
  else 0

/-- Start what an accepted request asks for (R399, R411, R412). -/
def calAccept (s : State) (n : Chan) (a : CalAsk) : State :=
  let need := needsRelief s n a
  match a with
  | .relieve => beginTakeover s n false
  | .ret =>
    match s.reliefs[bankOf n] with
    | some r => beginHandback s (bankOf n) r
    | none => s
  | _ =>
    let s := updCal s n fun c => { c with full := a == .full, handback := need }
    if need then beginTakeover s n true else beginRun s n

/-- A request: the code of Table 13.2 and the state after it. A refused one changes nothing. -/
def calRequest (s : State) (n : Chan) (a : CalAsk) : Nat × State :=
  let c := calRefusal s n a
  (c, if c = 0 then calAccept s n a else s)

end Sys2Proof.Machine
end

