-- ==== Sys2Proof/Machine/SampleOps.lean ====
section
/-!
DEFINITION. What one sample tick does, part by part (R26): comparators and their blanks, triggers, suppliers, force paths, conversions,
counts of waiting contexts, rails, and the marker pins.
-/
namespace Sys2Proof.Machine

/-! ### Comparators (R244 to R252) -/

/-- The event source of a comparator: 4n (WA), 4n + 1 (WB). -/
def cmpSource (n : Chan) : Cmp → Nat
  | .a => 4 * n.val
  | .b => 4 * n.val + 1

/-- Whether a configuration that applies starts the comparator in UNRESOLVED (R245): it sets EN, or changes QSEL, TH_HI, TH_LO or HYST. -/
def cmpRestarts (old new : Word) : Bool :=
  flag new 2 && (!flag old 2 || field old 31 8 != field new 31 8 || field old 5 3 != field new 5 3)

/-- A comparator after its configuration applies (R245, R248). -/
def cmpConfigure (vigil : Bool) (new : Word) (c : Comparator) : Comparator :=
  { c with
    cfg := new, next := none
    state := if !flag new 2 || cmpRestarts c.cfg new then .unresolved else c.state
    modeBlank := if field c.cfg 7 6 != field new 7 6 then some 20 else c.modeBlank
    vigil := vigil && flag new 2 }

/-- Whether a comparator is blanked (R252). -/
def cmpBlanked (c : Comparator) : Bool :=
  c.changeWait || c.changeBlank.isSome || c.commandBlank.isSome || c.modeBlank.isSome

/-- One sample tick less of a timer; it stands at 0 until its expiry is reported. -/
def countDown (t : Option Nat) : Option Nat := t.map (· - 1)

/-- The command blank at a sample tick (R252, R204): a start replaces a running one, and a length of 0 ends it. -/
def commandBlankTick (c : Comparator) : Comparator :=
  match c.commandNext with
  | some l => { c with commandNext := none, commandBlank := if l = 0 then none else some l }
  | none => { c with commandBlank := countDown c.commandBlank }

/-- What a comparator stands at as a sample tick comes, and whether the tick leaves its state alone. -/
def noteWas (k : Comparator) : Comparator :=
  { k with was := some ⟨k.cfg, k.state, cmpBlanked k, k.next.all fun w => flag w 2 && !cmpRestarts k.cfg w⟩ }

/-- A comparator at a sample tick, after the force path: an ARM that applies at the tick of a range change is taken as written (R247). -/
def cmpTick (s : State) (n : Chan) (c : Cmp) (tick : Nat) : State :=
  let k := cmpOf s.chans[n] c
  let s := updCmp s n c fun k => commandBlankTick { (noteWas k) with modeBlank := countDown k.modeBlank }
  match k.next with
  | none => s
  | some w =>
    let s' := updCmp s n c (cmpConfigure s.pwr.vigil w)
    if cmpRestarts k.cfg w && flag w 0 then eventWord s' n tick 4 (cmpSource n c) 0 else s'

/-- The change blank at a sample tick (R252): after its start it waits until the code equals the target and then runs for L sample ticks; a bridged
change blanks from t0 until L sample ticks after t5, whatever the code does. -/
def changeBlankTick (started bridged settled : Bool) (c : Comparator) : Comparator :=
  if c.blankLen = 0 then { c with changeWait := false, changeBlank := none }
  else
    let waiting := c.changeWait || started
    { c with
      changeWait := waiting && !settled
      changeBlank := if bridged then some (c.blankLen + 1) else if waiting && settled then some c.blankLen else countDown c.changeBlank }

/-- The change blanks of a channel after its force path. -/
def blankTick (s : State) (n : Chan) (started : Bool) : State :=
  let f := s.chans[n].force
  let b := f.bridge.isSome
  let settled := f.dac == f.target
  updCmp (updCmp s n .a (changeBlankTick started b settled)) n .b (changeBlankTick started b settled)

/-! ### Counts of waiting contexts (R139, R188, R199, R201, R235) -/

/-- Whether a context waits to issue a trigger at a sample tick: a MEAS or a sweep entry that counts in TRIG (R188). -/
def wantsTrigger (k : Context) : Bool :=
  (match k.state with | .waiting (.meas left true _) => left != 0 | _ => false)
    || (match k.supplier with | .sweep w => (match w.counting with | some (_, true) => true | _ => false) | _ => false)

/-- A context once its trigger has been issued. -/
def triggered (k : Context) : Context :=
  { k with
    state := match k.state with | .waiting (.meas left true d) => .waiting (.meas left false d) | st => st
    supplier := match k.supplier with
      | .sweep w => (match w.counting with | some (l, true) => .sweep { w with counting := some (l, false) } | _ => .sweep w)
      | p => p }

/-- Issue the triggers of the contexts in control in TRIG (R188, R110). -/
def issueTriggers (s : State) (n : Chan) : State :=
  if s.chans[n].meas.cfg.smode != .trig || s.pwr.vigil then s
  else
    allCtx.foldl (fun s x =>
      if inControl s.chans[n] x && wantsTrigger (s.context n x) then
        updMeas (updCtx s n x triggered) n fun m => { m with trigNow := true }
      else s) s

/-- One result more of a MEAS with a count (R188): the last one completes it once the latest-value registers are updated. A result at a tick without
control counts for nothing (R139); one that MEAS had triggered is triggered anew (assumption 48). -/
def countMeas (trig control : Bool) (tick : Nat) (w : Waiting) : Waiting :=
  match w with
  | .meas left armed none =>
    if left = 0 || (trig && armed) then w
    else if !control then .meas left true none
    else if left = 1 then .meas 0 false (some tick)
    else .meas (left - 1) true none
  | w => w

/-- One result more of a sweep entry (R235, R139): after the last one the next entry starts four sample ticks later. -/
def countSweep (trig control : Bool) (w : Sweep) : Sweep :=
  match w.counting with
  | some (left, armed) =>
    if trig && armed then w
    else if !control then { w with counting := some (left, true) }
    else if left ≤ 1 then { w with counting := none, lag := some 4 }
    else { w with counting := some (left - 1, true) }
  | none => w

/-- A context after a result whose instant is the present sample tick. -/
def countResult (trig control : Bool) (tick : Nat) (k : Context) : Context :=
  { k with
    state := match k.state with | .waiting w => .waiting (countMeas trig control tick w) | st => st
    supplier := match k.supplier with | .sweep w => .sweep (countSweep trig control w) | p => p }

/-- The sample ticks that WAIT and the timeout of WAITEV count (R199, R201). -/
def countWait (control : Bool) (k : Context) : Context :=
  match k.state with
  | .waiting (.wait left) => if control then { k with state := .waiting (.wait (left - 1)) } else k
  | .waiting (.waitev r m (some left)) => { k with state := .waiting (.waitev r m (some (left - 1))) }
  | _ => k

/-- The counts of the contexts of a channel at a sample tick; `res` says that an output of this tick is a result. -/
def countTick (s : State) (n : Chan) (tick : Nat) (res : Bool) : State :=
  let trig := s.chans[n].meas.cfg.smode == .trig
  let result := res && !(trig && s.pwr.vigil)
  allCtx.foldl (fun s x =>
    let control := inControl s.chans[n] x
    updCtx s n x fun k => countWait control (if result then countResult trig control tick k else k)) s

/-- Contexts that wait for results complete when the stream mode becomes OFF (R188). -/
def offTick (s : State) (n : Chan) : State :=
  if s.chans[n].meas.cfg.smode != .off then s
  else
    allCtx.foldl (fun s x => match (s.context n x).state with | .waiting (.meas ..) => wake s n x | _ => s) s

/-! ### Conversions (R96, R97, R392, R400) -/

/-- Whether a bank's converters run and their results cross to the core die. -/
def converting (s : State) (n : Chan) : Bool :=
  let b := s.banks[bankOf n]
  b.up && b.supplies && !calOwns s.chans[n]

/-- The conversion of a channel at a sample tick. -/
def convOf (s : State) (n : Chan) (tick : Nat) (held restart : Bool) (cfg : MeasCfg) (win : Option (Nat × Nat)) (res : Bool) : Conv :=
  let f := s.chans[n].force
  { tick := tick, ranges := f.ranges, ranging := f.bridge.isSome, held := held, forced := f.mode
    ldid := match f.ldid with | some l => l.phase == 1 || l.phase == 2 | none => false
    cfg := cfg, restart := restart, win := win, res := res, vigil := s.pwr.vigil, rails := (f.railP, f.railN)
    foldV := foldsNow s (unitV n), foldI := foldsNow s (unitI n)
    rp := channelRp s n, path := pathWord s n f.ranges }

/-- Start the conversion of a sample tick; the result says whether an output of this tick is a result. In vigil only every VDIV-th
sample tick converts, and each sample updates the latest-value registers, whatever SMODE is (R392). -/
def convertTick (s : State) (n : Chan) (tick : Nat) (held restart : Bool) : State × Bool :=
  let idx := tick / 800
  if !converting s n then (s, false)
  else if s.pwr.vigil then
    if idx % max s.pwr.vdiv 1 != 0 then (s, false)
    else
      let cfg := { s.chans[n].meas.cfg with filt := .raw, n := 1, smode := .latest }
      let k := convOf s n tick held true cfg (some (3 * idx, 3 * idx + 3)) true
      (updMeas s n fun m => { m with convs := m.convs ++ [k] }, true)
  else
    let r := scheduleTick s.chans[n].meas idx
    let k := convOf s n tick held (restart || s.chans[n].meas.since = 0) s.chans[n].meas.cfg r.2.1 (r.2.1.isSome && r.2.2)
    (updMeas s n fun _ => { r.1 with convs := r.1.convs ++ [k] }, k.res)

/-! ### Load identification (R68) -/

/-- One sample tick more of an identification: the perturbation starts at the first one, and each phase lasts 32. -/
def ldidStep (comp : Bool) (l : LdidRun) : LdidRun :=
  let l := { l with compliance := l.compliance || comp }
  if l.phase = 0 then { l with phase := 1, ticks := 1 }
  else if l.phase = 3 then l
  else { l with ticks := min 32 (l.ticks + 1) }

/-- What an identification adds to the DAC code after the limiter: 0.1 % of 2^19, up and then down. -/
def ldidAdds (l : Option LdidRun) : Int :=
  match l with
  | some l => if l.phase = 1 then 524 else if l.phase = 2 then -524 else 0
  | none => 0

/-- A sample tick of LDID. -/
def ldidTick (f : Force) : Force :=
  let l := f.ldid.map (ldidStep f.inComp)
  { f with ldid := l, perturb := ldidAdds l }

/-! ### The stability watch and the digital trim (R69, R70) -/

/-- Whether the digital trim loop runs (R70). -/
def trimRuns (c : Channel) : Bool :=
  let f := c.force
  let isOver := match c.meas.hist.getLast? with | some r => if forcesV f.mode then r.vOver else r.iOver | none => false
  f.comp.trimEn && (f.mode == .fv || f.mode == .fi) && f.seq == .idle && f.safe.isNone && f.dac == f.target && f.bridge.isNone
    && f.ldid.isNone && !f.inComp && !isOver

/-- The sample ticks of the stability watch, while it looks at an active mode, and of the trim loop, while it runs. -/
def watchTick (c : Channel) : Channel :=
  { c with force := { c.force with
    swTicks := if c.force.mode == .inert || c.force.comp.swWin = 0 then 0 else c.force.swTicks + 1
    trimTicks := if trimRuns c then c.force.trimTicks + 1 else c.force.trimTicks } }

/-! ### Marker lines and pins (R206, R214, R241) -/

/-- The marker lines that MARK drives at a sample tick; during an underrun hold they are not driven. -/
def markTick (s : State) (n : Chan) (tick : Nat) (held : Bool) : State :=
  updChan s n fun c =>
    let now := c.markNext.filter fun m => m.1 ≤ tick
    { c with
      marks := if held then c.marks else now.foldl (fun a m => a ||| m.2) c.marks
      markNext := c.markNext.filter fun m => tick < m.1 }

/-- The level of a marker pin after the edges that are due. -/
def pinAt (now : Nat) (p : MarkPin) : MarkPin :=
  let due := p.edges.filter fun e => e.1 ≤ now
  { p with
    level := (due.getLast?.map (·.2)).getD p.level
    edges := p.edges.filter fun e => now < e.1 }

/-- The level a pin's channel marker line has (Table 6.10). -/
def pinLine (s : State) (p : MarkPin) : Bool :=
  let sel := field p.cfg 25 18
  if h : sel < 68 then s.chans[sel].marks.getLsbD (field p.cfg 17 16) else false

/-- A marker pin at a sample tick: a change of its line shows DELAY ticks later. -/
def pinTick (s : State) (tick : Nat) (p : MarkPin) : MarkPin :=
  let p := if field p.cfg 29 28 = 0 then
      let last := (p.edges.getLast?.map (·.2)).getD p.level
      if pinLine s p == last then p else { p with edges := p.edges ++ [(tick + field p.cfg 15 0, pinLine s p)] }
    else p
  pinAt tick p

/-- The level that a marker pin drives (R241); none while it is high-impedance. -/
def pinOutput (p : MarkPin) : Option Bool :=
  if !flag p.cfg 31 then none
  else some ((if field p.cfg 29 28 ≥ 2 then flag p.cfg 27 else p.level) != flag p.cfg 30)

/-! ### One channel at a sample tick -/

/-- What is supplied at a sample tick: by a relief's ramp, by the supplier, or while it holds the value last supplied. -/
def supplied (s : State) (n : Chan) (p : Supply) : Given :=
  match rampSupply s n with
  | some v => .level v
  | none => match p.value, p.held with | .nothing, true => .same | v, _ => v

/-- A channel at a sample tick; `strobes` are the groups that strobe at it. A channel without a conversion commits what lies before the tick's capture
instant: events of the last ticks before it may still be dated (R30, R112, R119). -/
def channelTick (s : State) (n : Chan) (tick : Nat) (strobes : BitVec 8) : State :=
  let s := updChan s n fun c => { c with marks := 0 }
  let before := s.chans[n].force
  let m := applyMeasCfg s n tick
  let s := offTick m.1 n
  let p := supplyTick s n tick
  let value := supplied s n p
  let s := markTick p.s n tick p.held
  let s := issueTriggers s n
  let t := forceTick s n strobes value p.start
  let s := updChan t.1 n fun c => { c with held := p.held }
  let s := cmpTick (cmpTick s n .a tick) n .b tick
  let s := updChan (updForce (blankTick s n t.2) n ldidTick) n watchTick
  let after := s.chans[n].force
  let s := railTick s n tick (after.target != before.target || after.mode != before.mode)
  let s := updMeas s n (noteSetting tick (pathWord s n s.chans[n].force.ranges))
  let r := convertTick s n tick p.held m.2
  let s := countTick r.1 n tick r.2
  if boundaryDue s tick then s else flushIdle s n (tick + 1 - captureLead) (tick + 1 - captureLead)

/-! ### The fine phase (R37) -/

/-- Whether a channel is out of INERT. -/
def outOfInert (c : Channel) : Bool := c.force.mode != .inert || c.force.seq != .idle

/-- The fine phase at a sample tick (R37): it changes at once while every channel is INERT, else the tick counts towards its next step. -/
def fineTick (s : State) : State :=
  if s.chans.any outOfInert then updTb s fun b => { b with fineTicks := min 1024 (b.fineTicks + 1) }
  else updTb s fun b => { b with fine := b.phaseTarget, fineTicks := 0 }

/-- A new sample tick of the Tracer's DIRECT channels: the tokens offered are counted afresh, those that the tick itself raises among the
new ones (R262), and the groups' strobes are used. -/
def tracerTick (s : State) : State :=
  { s with tr := { s.tr with tc := s.tr.tc.map fun t => { t with offered := 0 }, groupStrobes := 0 } }

/-- The contexts in SYNCF complete (R205): at a boundary, and when frames become disabled without one. -/
def wakeSyncf (s : State) : State :=
  allChans.foldl (fun s n =>
    allCtx.foldl (fun s x => if (s.context n x).state == .waiting .syncf then wake s n x else s) s) s

/-- The status words of a bank whose converters all belong to calibration runs cross at the sample tick, since no result crosses (R90, R400). -/
def crossIdle (s : State) (b : Bank) : State :=
  if s.banks[b].up && (bankChans b).all fun n => calOwns s.chans[n] then crossStatus s b (s.tb.lastSample.getD 0) else s

/-- The whole device at a sample tick. -/
def deviceTick (s : State) (tick : Nat) : State :=
  let s := { s with tb := { s.tb with now := tick, lastSample := some tick } }
  let strobes := s.tr.groupStrobes
  let s := allBanks.foldl reliefBefore (allBanks.foldl crossIdle (tracerTick s))
  let s := allChans.foldl (fun s n => channelTick s n tick strobes) s
  let s := fineTick (allBanks.foldl reliefAfter s)
  let s := if s.ht.snapReq then takeSnapshot s tick else tickUnits s tick
  let s := if s.ht.disarm then wakeSyncf { s with ht := { s.ht with disarm := false, armed := false, next := 0, num := s.ht.ran } } else s
  { s with mrk := s.mrk.map (pinTick s tick) }

end Sys2Proof.Machine
end

