-- ==== Sys2Proof/Machine/ChanRegs.lean ====
section
/-!
DEFINITION. The registers of a channel as they read (Tables 2.21 to 2.28, 4.10 to 4.13, 7.4 and 7.5).
-/
namespace Sys2Proof.Machine

/-- CH_MODE (Table 2.21). CONN is 1 while the relay is closed (R78). -/
def rdMode (c : Channel) : Word :=
  pack [(c.force.owner.val, 14), (bit (c.force.relay == .closed), 12), (bit c.force.cpsen, 11), (c.force.mode.code, 0)]

/-- CH_RANGE (Table 2.22). -/
def rdRange (c : Channel) : Word :=
  pack [(bit c.force.bridge.isSome, 16), (c.force.ranges.i, 8), (c.force.ranges.v, 4), (bit c.meas.cfg.auto, 0)]

/-- CH_LEVEL (Table 2.23). -/
def rdLevel (c : Channel) : Word := pack [(bit c.force.applied.staged.isSome, 31), (bitsOf 20 c.force.applied.level, 0)]

/-- CH_CLAMP_HI and CH_CLAMP_LO (Table 2.24). -/
def rdClampHi (c : Channel) : Word := pack [(bit c.force.satHi, 16), (bitsOf 16 c.force.clamps.hi, 0)]
def rdClampLo (c : Channel) : Word := pack [(bit c.force.satLo, 16), (bitsOf 16 c.force.clamps.lo, 0)]

/-- CH_SLEW (Table 2.25). -/
def rdSlew (c : Channel) : Word := pack [(c.force.slew.e, 26), (c.force.slew.m, 16), (c.force.slew.period, 0)]

/-- CH_STROBE_SEL (Table 2.26). -/
def rdStrobe (c : Channel) : Word := word c.force.strobe.toNat

/-- CH_COMP (Table 2.27). -/
def rdComp (c : Channel) : Word :=
  let k := c.force.comp
  pack [(bit k.trimEn, 31), (bit k.swAuto, 30), (k.autoSteps, 16), (k.compMax, 12), (k.swThr, 8), (k.swWin, 4), (k.comp, 0)]

/-- CH_STATUS (Table 2.28). -/
def rdStatus (s : State) (n : Chan) : Word :=
  let f := s.chans[n].force
  pack [(bit f.fltLatch, 31), (f.fcause, 28), (bit f.osc, 27), (bit f.inComp, 26), (bit (f.inComp && f.compHi), 25),
    (bit (slewing f), 24), (bit f.bridge.isSome, 23), (bit f.slot.railok, 22), (bit s.banks[bankOf n].linkUp, 21),
    (bit f.relieved, 20), (bit f.parkDefault, 19), (bit f.lvlClip, 18), (bit f.clampRej, 17), (bit f.ldid.isSome, 16)]

/-- The code of a comparator state (R244). -/
def cmpCode : CmpState → Nat
  | .unresolved => 0
  | .below => 1
  | .inside => 2
  | .above => 3

/-- CMP_STATUS (Table 7.5): the bits of one comparator from bit `b` on, its state at `st`. -/
def cmpBits (c : Comparator) (b st : Nat) : List (Nat × Nat) :=
  [(bit c.vigil, b + 9), (bit (cmpBlanked c), b + 8), (bit c.sat, b + 7), (bit c.ovf, b + 6), (c.fifo.length, b + 3),
    (bit c.latBelow, b + 2), (bit c.latAbove, b + 1), (cmpCode c.state, st)]

def rdCmpStatus (c : Channel) : Word := pack (cmpBits c.cmpB 16 14 ++ cmpBits c.cmpA 0 12)

/-- The code of a context state (Table 4.4). -/
def CtxState.code : CtxState → Nat
  | .halted => 0
  | .ready => 1
  | .running => 2
  | .waiting _ => 3
  | .suspended _ _ => 4

/-- GV_CTRL (Table 4.10); CMD reads 0. -/
def rdGvCtrl (c : Channel) : Word :=
  let g := c.graver
  pack [(g.wbase.toNat, 16), (g.asid.toNat, 12), (bit g.obsNext, 11), (g.ctxSel.toNat, 8)]

/-- GV_STATUS (Table 4.11). NOOWNER is 1 while no context qualifies (R137), once a sample tick has looked for an owner; its reset value is 0. -/
def rdGvStatus (c : Channel) : Word :=
  let g := c.graver
  pack ([(g.imm.length, 23), (bit g.immBusy, 22), (bit g.immOvf, 21), (bit g.immRej, 20), (bit g.ctrlRej, 19),
    (bit (c.force.judged && (ownerOf c).isNone), 18), (c.force.owner.val, 16), (g.runctx.val, 14)]
    ++ allCtx.flatMap fun x => [(bit g.ctx[x].obs, 28 + x.val), (g.ctx[x].state.code, 3 * x.val)])

/-- The suspended contexts of a Graver, the highest priority first. -/
def suspendedCtx (g : Graver) : List (Ctx × Cause) :=
  byPriority.filterMap fun x => match g.ctx[x].state with | .suspended c _ => some (x, c) | _ => none

/-- GV_FAULT (Table 4.13). -/
def rdGvFault (c : Channel) : Word :=
  match suspendedCtx c.graver with
  | [] => 0
  | (x, cause) :: rest =>
    let k := c.graver.ctx[x]
    let addr := if k.faultImm then k.faultAddr.toNat / 4 % 16 else k.faultAddr.toNat / 4 % 2 ^ 24
    pack [(cause.code, 28), (x.val, 26), (bit (!rest.isEmpty), 25), (bit k.faultImm, 24), (addr, 0)]

/-- Read CH_LATEST_SEQ on a path: the snapshot of R122. -/
def snapLatest (s : State) (n : Chan) (i : Fin 8) : State := updMeas s n fun m => { m with snaps := m.snaps.set i m.latest }

end Sys2Proof.Machine
end

