-- ==== Sys2Proof/Machine/KrytgerMeasure.lean ====
section
/-!
DEFINITION. Krytger: the measurement instructions (R188 to R192). The settings belong to the channel and apply at the next sample tick
(R108).
-/
namespace Sys2Proof.Machine

open Host

/-- The stream mode a code names (Table 3.5). -/
def smodeOf (c : Nat) : SMode := if c = 0 then .off else if c = 1 then .latest else if c = 2 then .cont else .trig

/-- MEAS, SMODE form (R188). -/
def execMeasSmode (n : Chan) (k : Fields) (s : State) : Outcome State Fault Refusal :=
  .next (if immField k 13 12 != 0 then s else issue 0x29 n k s fun _ s =>
    checked (zeroFields k false false false true && immZero k 11 2)
      (.next (setMeas s n fun c => { c with smode := smodeOf (immField k 1 0) })))

/-- MEAS, count forms (R188): completes at once for a count of 0 and while the stream mode is OFF, else waits for the results. -/
def execMeasCount (n : Chan) (k : Fields) (s : State) : Outcome State Fault Refusal :=
  .next (if immField k 13 12 != 1 && immField k 13 12 != 2 then s else issue 0x29 n k s fun x s =>
    let reg := immField k 13 12 == 2
    let count := if reg then (gr (s.context n x) k.a).toNat else immField k 11 0
    checked (zeroFields k reg false false true && (!reg || immZero k 11 0))
      (if count = 0 || (effectiveCfg s.chans[n].meas).smode == .off then .next s
      else .next (updCtx s n x fun c => { c with state := .waiting (.meas count true none) })))

/-- The ratio that SINC3 uses for a requested one (R100). -/
def sinc3Ratio (n : Nat) : Nat := let m := min (max n 4) 65536; m + m % 2

/-- Whether an APER setting is reserved (R189): RAW with N - 1, PLC with NPLC 0 or above 25 or with bits 19:6. -/
def aperReserved (w : Word) : Bool :=
  let filt := field w 23 22
  (filt == 0 && field w 19 0 != 0)
    || (filt == 3 && (field w 4 0 == 0 || field w 4 0 > 25 || field w 19 6 != 0))

/-- The settings of an APER word (Table 3.11). -/
def aperCfg (w : Word) (c : MeasCfg) : MeasCfg :=
  let filt := field w 23 22
  let c := { c with vsel := flag w 21, isel := flag w 20 }
  if filt = 0 then { c with filt := .raw, n := 1 }
  else if filt = 1 then { c with filt := .sinc3, n := sinc3Ratio (field w 19 0 + 1) }
  else if filt = 2 then { c with filt := .box, n := field w 19 0 + 1 }
  else { c with filt := .plc, line60 := flag w 5, nplc := field w 4 0 }

/-- APER (R189). Bits 31:24 of a register carry no setting (assumption 15). -/
def execAper (n : Chan) (k : Fields) (s : State) : Outcome State Fault Refusal :=
  .next (issue 0x2A n k s fun x s =>
    let w := regOrExt (s.context n x) k
    checked (zeroFields k true false false true && regOrExtOk k && immField k 12 0 == 0
        && (!immBit k 13 || field w 31 24 == 0) && !aperReserved w)
      (.next (setMeas s n (aperCfg w))))

/-- AUTOR (R190). The form without an extension word takes D as it stands, also 0 (DESIGN CHOICE, assumption 117). -/
def execAutor (n : Chan) (k : Fields) (s : State) : Outcome State Fault Refusal :=
  .next (issue 0x2B n k s fun _ s =>
    let ext := immBit k 13
    let w := k.ext
    let hi := field w 23 20
    let lo := field w 19 16
    let d := field w 15 0
    let en := if ext then flag w 31 else immBit k 0
    let ok := zeroFields k false false false true && immField k 12 1 == 0
      && (if ext then !immBit k 0 && field w 30 24 == 0 && hi ≤ 8 && lo ≤ hi && !(d == 0 && en) else true)
    checked ok (.next (setMeas s n fun c =>
      if ext then { c with auto := en, hi := hi, lo := lo, d := d } else { c with auto := en })))

/-- Commit a MARK word whose instant is the next sample tick (R117), in CONT and TRIG as they are in force there (R108). -/
def commitMark (s : State) (n : Chan) (qual payload : Nat) : State :=
  if streaming (effectiveCfg s.chans[n].meas).smode && !s.pwr.vigil && !calOwns s.chans[n] then
    updMeas s n fun m => { m with dated := m.dated ++ [⟨nextSample s, 8300, resultWord 4 qual payload⟩] }
  else s

/-- TAG (R191). -/
def execTag (n : Chan) (k : Fields) (s : State) : Outcome State Fault Refusal :=
  .next (issue 0x2C n k s fun x s =>
    checked (zeroFields k true false false true && immZero k 13 3)
      (.next (commitMark s n (immField k 2 0) (field (gr (s.context n x) k.a) 23 0))))

/-- PKT, close form (R192): the open packet closes with CLOSED at the next sample tick. -/
def execPktClose (n : Chan) (k : Fields) (s : State) : Outcome State Fault Refusal :=
  .next (if immBit k 12 then s else issue 0x2D n k s fun _ s =>
    checked (zeroFields k false false false true && k.imm == 0) (.next (askClose s n (nextSample s) 0)))

/-- PKT, age form (R192). -/
def execPktAge (n : Chan) (k : Fields) (s : State) : Outcome State Fault Refusal :=
  .next (if !immBit k 12 then s else issue 0x2D n k s fun _ s =>
    let age := immField k 9 0
    checked (zeroFields k false false false true && !immBit k 13 && immZero k 11 10 && age != 0 && age ≤ 1000)
      (.next (setMeas s n fun c => { c with ageMs := age })))

end Sys2Proof.Machine
end

