-- ==== Sys2Proof/Machine/KrytgerTime.lean ====
section
/-!
DEFINITION. Krytger: the time and event instructions (R199 to R206), their completions and timeouts.
-/
namespace Sys2Proof.Machine

open Host

/-- The counter reaches a tick that lies no later than the capture instant of the next sample tick; none when that sample tick comes
first: SAMPLE_TICK takes what stands at its capture instant, so that what follows an event in the last four ticks before it belongs to
the next one (R30, assumption 17). -/
def reach (s : State) (t : Nat) : Option State :=
  if t ≤ s.tb.now then some s
  else if t + captureLead ≤ nextSample s then some { s with tb := { s.tb with now := t } }
  else none

/-- WAIT (R199). -/
def execWait (n : Chan) (k : Fields) (s : State) : Outcome State Fault Refusal :=
  .next (issue 0x34 n k s fun x s =>
    let reg := immBit k 13
    let c := s.context n x
    let count := if reg then (gr c k.a).toNat else immField k 12 0
    checked (zeroFields k reg false false true && (!reg || immField k 12 0 == 0))
      (.next (if count = 0 then s else updCtx s n x fun c => { c with state := .waiting (.wait count) })))

/-- The n-th sample tick of control has passed and WAIT completes (R199). -/
def execWaitComplete (n : Chan) (x : Ctx) (s : State) : Outcome State Fault Refusal :=
  .next (match (s.context n x).state with
    | .waiting (.wait 0) => wake s n x
    | _ => s)

/-- WAITT (R200). -/
def execWaitt (n : Chan) (k : Fields) (s : State) : Outcome State Fault Refusal :=
  .next (issue 0x35 n k s fun x s =>
    let c := s.context n x
    let t := (gr c k.b).toNat * 2 ^ 32 + (gr c k.a).toNat
    checked (zeroFields k true true false false)
      (.next (if t ≤ s.tb.now then s else updCtx s n x fun c => { c with state := .waiting (.waitt t) })))

/-- The counter reaches T and WAITT completes (R200). -/
def execWaittRelease (n : Chan) (x : Ctx) (s : State) : Outcome State Fault Refusal :=
  .next (match (s.context n x).state with
    | .waiting (.waitt t) => match reach s t with | some s => wake s n x | none => s
    | _ => s)

/-- A WAITEV input of a Graver (Table 7.7). -/
def waitInput (n : Chan) (i : Fin 4) : Fin 551 := ⟨4 * n.val + i.val, by omega⟩

/-- The lowest WAITEV input in a mask that holds a token (R201, R126). -/
def pendingInput (s : State) (n : Chan) (mask : BitVec 4) : Option (Fin 4) :=
  (List.finRange 4).find? fun i => mask.getLsbD i.val && s.tr.cons[waitInput n i].pend != 0

/-- Change an input of Table 7.7. -/
def updCons (s : State) (i : Fin 551) (f : Consumer → Consumer) : State :=
  { s with tr := { s.tr with cons := s.tr.cons.set i (f s.tr.cons[i]) } }

/-- Consume a token: clear the flag under MERGE, subtract one under COUNT (R201, R265). -/
def consumeInput (s : State) (n : Chan) (i : Fin 4) : State :=
  updCons s (waitInput n i) fun c => { c with pend := if c.acc then c.pend - 1 else 0 }

/-- Serve the contexts of a Graver that wait for a token, the highest priority first (R126). -/
def serveWaitev (s : State) (n : Chan) : State :=
  byPriority.foldl (fun s x =>
    match (s.context n x).state with
    | .waiting (.waitev reg mask _) =>
      match pendingInput s n mask with
      | some i => wake (updCtx (consumeInput s n i) n x fun c => setGr c reg (word i.val)) n x
      | none => s
    | _ => s) s

/-- WAITEV (R201): takes a token that is pending, polls with a timeout of 0, else waits. -/
def execWaitev (n : Chan) (k : Fields) (s : State) : Outcome State Fault Refusal :=
  .next (issue 0x36 n k s fun x s =>
    let c := s.context n x
    let timed := immBit k 13
    let mask := BitVec.ofNat 4 (immField k 3 0)
    let left := if timed then some (gr c k.b).toNat else none
    checked (zeroFields k true timed false true && immZero k 12 4 && mask != 0)
      (match pendingInput s n mask with
      | some i => .next (updCtx (consumeInput s n i) n x fun c => setGr c k.a (word i.val))
      | none =>
        if left = some 0 then .next (updCtx s n x fun c => setGr c k.a 0xFFFFFFFF)
        else .next (updCtx s n x fun c => { c with state := .waiting (.waitev k.a mask left) })))

/-- The sample ticks of the timeout have passed without a token (R201). -/
def execWaitevTimeout (n : Chan) (x : Ctx) (s : State) : Outcome State Fault Refusal :=
  .next (match (s.context n x).state with
    | .waiting (.waitev reg _ (some 0)) => wake (updCtx s n x fun c => setGr c reg 0xFFFFFFFF) n x
    | _ => s)

/-- EMIT (R202): source 4n + 3 as a handshake source, and an EVENT word at the present tick. -/
def execEmit (n : Chan) (k : Fields) (s : State) : Outcome State Fault Refusal :=
  .next (issue 0x37 n k s fun _ s =>
    checked (zeroFields k false false false true && immZero k 13 4)
      (.next (raise (eventWord s n s.tb.now 5 (4 * n.val + 3) (immField k 3 0)) (4 * n.val + 3))))

/-- Whether a comparator configuration is valid (R246). -/
def cmpValid (w : Word) : Bool := sfield w 31 20 - sfield w 19 8 ≥ minGap (field w 5 4)

/-- ARM (R203): the configuration applies from the next sample tick. -/
def execArm (n : Chan) (k : Fields) (s : State) : Outcome State Fault Refusal :=
  .next (issue 0x38 n k s fun x s =>
    let w := regOrExt (s.context n x) k
    checked (zeroFields k true false false true && regOrExtOk k && immField k 12 1 == 0 && cmpValid w)
      (.next (updCmp s n (if immBit k 0 then .b else .a) fun c => { c with next := some w })))

/-- Change the comparators that SEL of BLANK names. -/
def selectCmps (s : State) (n : Chan) (sel : Nat) (f : Comparator → Comparator) : State :=
  let s := if sel % 2 = 1 then updCmp s n .a f else s
  if sel / 2 % 2 = 1 then updCmp s n .b f else s

/-- BLANK with X = 1 (R204): the change-blank length. -/
def execBlankLength (n : Chan) (k : Fields) (s : State) : Outcome State Fault Refusal :=
  .next (if !immBit k 13 then s else issue 0x39 n k s fun _ s =>
    checked (zeroFields k false false false true && immZero k 12 2 && immField k 1 0 != 0 && field k.ext 31 16 == 0)
      (.next (selectCmps s n (immField k 1 0) fun c => { c with blankLen := field k.ext 15 0 })))

/-- BLANK with X = 0 (R204): a command blank from the next sample tick. -/
def execBlank (n : Chan) (k : Fields) (s : State) : Outcome State Fault Refusal :=
  .next (if immBit k 13 then s else issue 0x39 n k s fun x s =>
    let len := min (gr (s.context n x) k.a).toNat 65535
    checked (zeroFields k true false false true && immZero k 12 2 && immField k 1 0 != 0)
      (.next (selectCmps s n (immField k 1 0) fun c => { c with commandNext := some len })))

/-- SYNCF (R205): waits for a frame boundary; completes at once while frames are disabled. -/
def execSyncf (n : Chan) (k : Fields) (s : State) : Outcome State Fault Refusal :=
  .next (issue 0x3A n k s fun x s =>
    checked (zeroFields k false false false false)
      (.next (if s.ht.en then updCtx s n x fun c => { c with state := .waiting .syncf } else s)))

/-- MARK (R206): a MARK word, and the marker lines at its instant. -/
def execMark (n : Chan) (k : Fields) (s : State) : Outcome State Fault Refusal :=
  .next (issue 0x3B n k s fun _ s =>
    let ext := immBit k 13
    let mbits := BitVec.ofNat 4 (immField k 7 4)
    checked (zeroFields k false false false true && immZero k 12 8 && !immBit k 3 && (!ext || field k.ext 31 24 == 0))
      (.next (updChan (commitMark s n (8 + immField k 2 0) (if ext then field k.ext 23 0 else 0)) n fun c =>
        { c with markNext := c.markNext ++ [(nextSample s, mbits)] })))

end Sys2Proof.Machine
end

