-- ==== Sys2Proof/Machine/VigilOps.lean ====
section
/-!
DEFINITION. Leaving vigil (R393), which instructions and events of other chapters cause.
-/
namespace Sys2Proof.Machine

/-- Wake causes (Table 12.6). -/
def wakeCmp : Nat := 1
def wakePlate : Nat := 2
def wakeHost : Nat := 3
def wakeTimer : Nat := 4
def wakeDemand : Nat := 5

/-- A comparator after vigil: it returns to its MODE with the mode blank of R248, unless its MODE is M3. -/
def leaveM3 (c : Comparator) : Comparator :=
  if !c.vigil then c
  else { c with vigil := false, modeBlank := if c.cfg.toNat / 64 % 4 = 3 then c.modeBlank else some 20 }

/-- The pace after a command of a new value: no VOUT_COMMAND goes to a regulator that is not supported or has a fault (R381, R383). -/
def paceTo (p : Power) (mv : Nat) : Power := if p.regns || p.regflt then p else { p with set := mv }

/-- A pace within bounds that lies on a step of 10 mV (R381); where the bounds hold no such step, the bound. DESIGN CHOICE (assumption 127): a value between two
steps takes the lower one. -/
def paceGrid (lo hi mv : Nat) : Nat :=
  let v := max lo (min hi mv)
  let q := v / 10 * 10
  if lo ≤ q then q else if q + 10 ≤ hi then q + 10 else v

/-- Leave vigil for a cause (t0 and t1 of Table 12.3): the pace returns, filter histories are cleared, comparators return to their MODE;
DDR5 and the lanes follow by commands of their own. -/
def wakeVigil (s : State) (cause : Nat) : State :=
  if !s.pwr.vigil then s
  else
    { s with
      pwr := { paceTo s.pwr s.pwr.paceBefore with vigil := false, wake := cause, ddrReady := false }
      chans := s.chans.map fun c =>
        { c with cmpA := leaveM3 c.cmpA, cmpB := leaveM3 c.cmpB
                 meas := { c.meas with since := 0, aperture := none, trigPending := false } } }

/-- Whether external memory sleeps: in vigil, and until t2 of Table 12.3. -/
def ddrAsleep (s : State) : Bool := s.pwr.vigil || !s.pwr.ddrReady

/-- Whether the MP stands still: in a warm restart (R459) or in the pause of a live handover (R456). -/
def mpStopped (s : State) : Bool := s.fw.restarting || (match s.fw.handover with | .pause _ => true | _ => false)

/-- A requester of external memory wakes the device and waits (R393). -/
def demandMemory (s : State) (pa : Nat) (f : State → State) : State :=
  if paExternal pa && ddrAsleep s then wakeVigil s wakeDemand else f s

/-- An instruction that causes DEMAND wakes the device and waits until t2 of Table 12.3 (R393). -/
def demandDone (s : State) (d : Done) : Done := if ddrAsleep s then .hold (wakeVigil s wakeDemand) else d

end Sys2Proof.Machine
end

