-- ==== Sys2Proof/Machine/TracerOps.lean ====
section
/-!
DEFINITION. The shared operations of the Tracer (R256 to R268): delivery to the consumer inputs, slot boundaries, remote tokens, comparator
decisions, and the indirect tables.
-/
namespace Sys2Proof.Machine

/-- Replace a Tracer channel by its image. -/
def updTc (s : State) (k : Fin 128) (f : TracerChan → TracerChan) : State :=
  { s with tr := { s.tr with tc := s.tr.tc.set k (f s.tr.tc[k]) } }

/-! ### Consumer inputs (R264, R265) -/

/-- A token at an input that holds tokens (R265). -/
def recordToken (c : Consumer) : Consumer :=
  if c.acc then (if c.pend ≥ 255 then { c with ovf := true } else { c with pend := c.pend + 1 }) else { c with pend := 1 }

/-- A jump request of a Graver (R226): it is recorded for the context whose playback drives the output. -/
def requestJump (s : State) (n : Chan) : State :=
  match ownerOf s.chans[n] with
  | some x => recordJump s n x true
  | none => s

/-- A token on a comparator's blank input: a command blank of length L from the next sample tick (R252). -/
def requestBlank (s : State) (n : Chan) (c : Cmp) : State := updCmp s n c fun k => { k with commandNext := some k.blankLen }

/-- A frame start token (R273): the first boundary is the next sample tick, and the frame that begins there is frame 0. -/
def startFrames (s : State) : State :=
  if s.ht.armed && s.ht.token && s.ht.next = 0 then
    { s with ht := { s.ht with start := nextSample s, next := nextSample s, num := 0 } }
  else s

/-- The packets that each queue of an engine has committed. -/
def commitSnapshot (s : State) (d : Ring) : List (Nat × Nat) :=
  (List.finRange 256).filterMap fun q =>
    let k := s.queues[q]
    if k.drn && k.eng == d.val then some (q.val, k.ncommit) else none

/-- A trigger token of a drain engine: the packets committed before it are those that it lets the engine drain (R311). Under MERGE tokens
are one, and under COUNT at most 255 are pending. -/
def recordTrigger (s : State) (i : Fin 551) (d : Ring) : State :=
  let c := s.tr.cons[i]
  let snap := commitSnapshot s d
  let s := updRing s d fun r =>
    { r with tokens := if !c.acc then [snap] else if c.pend ≥ 255 then r.tokens else r.tokens ++ [snap] }
  updCons s i recordToken

/-- The effect of a token at a consumer input that acts in the handshake world or at a sample tick (Table 7.7). WAITEV inputs are recorded
here and served afterwards; EVO pins, marker pins and group controls act at a slot boundary, group controls at that of `slot`. -/
def deliverInput (slot : Nat) (s : State) (i : Fin 551) : State :=
  let k := i.val
  if k < 272 then updCons s i recordToken
  else if h : k < 340 then requestJump s ⟨k - 272, by omega⟩
  else if h : k < 476 then requestBlank s ⟨(k - 340) / 2, by omega⟩ (if (k - 340) % 2 = 0 then .a else .b)
  else if k < 484 then { s with tr := { s.tr with groupStrobes := s.tr.groupStrobes ||| BitVec.ofNat 8 (2 ^ (k - 476)) } }
  else if h : k < 492 then recordTrigger s i ⟨(k - 484) % 8, by omega⟩
  else if k < 540 then { s with tr := { s.tr with grpTokens := s.tr.grpTokens ++ [(k - 492, slot)] } }
  else if k = 548 then startFrames s
  else if k = 549 then { s with ht := { s.ht with gateReq := (true, s.ht.gateReq.2) } }
  else if k = 550 then { s with ht := { s.ht with gateReq := (s.ht.gateReq.1, true) } }
  else s

/-- Whether a consumer input takes the tokens of a Tracer channel (R264). -/
def selects (s : State) (tcs : List Nat) (i : Fin 551) : Bool := tcs.contains s.tr.cons[i].sel

/-- Whether any input takes the tokens of a channel. -/
def anyInput (s : State) (tc : Nat) : Bool :=
  (List.finRange 551).any (fun i => s.tr.cons[i].sel == tc)
    || s.mrk.any fun p => flag p.cfg 31 && field p.cfg 29 28 == 1 && field p.cfg 25 18 == tc

/-- Deliver tokens of channels to their consumer inputs: all are recorded, then the waiting contexts are served (R265). Group controls take
theirs at the boundary of `slot`. -/
def deliverInputs (s : State) (slot : Nat) (tcs : List Nat) : State :=
  let s := (List.finRange 551).foldl (fun s i => if selects s tcs i then deliverInput slot s i else s) s
  allChans.foldl serveWaitev s

/-- The account of a delivered token: FLAG, COUNT (R261), and device unit 140 when an input takes it (Table 8.2). -/
def countDelivery (s : State) (tc : Fin 128) (raised delivered : Nat) : State :=
  let s := updTc s tc fun t => { t with flag := true, count := (t.count + 1) % 65536 }
  if anyInput s tc.val then offerDevice s 4 raised delivered else s

/-! ### EVO pins and marker pins (R267, R241) -/

/-- The level and the pulses of the EVO pins after a slot boundary: each token inverts a TOGGLE pin, and a PULSE pin is high for the slot. -/
def evoTick (s : State) (tcs : List Nat) : State :=
  let hits := fun p : Nat => match s.tr.cons[540 + p]? with | some c => if flag s.tr.evo (4 * p + 3) then tcs.count c.sel else 0 | none => 0
  let toggle := fun p : Nat => field s.tr.evo (4 * p + 1) (4 * p) == 1
  let mask := fun f : Nat → Bool => BitVec.ofNat 8 ((List.range 8).foldl (fun a p => a + bit (f p) * 2 ^ p) 0)
  { s with tr := { s.tr with
      evoPulse := mask fun p => hits p != 0 && !toggle p
      evoLevel := s.tr.evoLevel ^^^ mask fun p => hits p % 2 == 1 && toggle p } }

/-- The level that an EVO pin drives (R267); none while it is high-impedance. -/
def evoOutput (s : State) (p : Fin 8) : Option Bool :=
  if !flag s.tr.evo (4 * p.val + 3) then none
  else some ((if field s.tr.evo (4 * p.val + 1) (4 * p.val) = 1 then s.tr.evoLevel.getLsbD p.val else s.tr.evoPulse.getLsbD p.val)
    != flag s.tr.evo (4 * p.val + 2))

/-- Whether an IRQ pin is asserted (R269): a pending source is routed to it. -/
def irqAsserted (s : State) (p : Fin 4) : Bool := s.tr.im.any fun e => e.pend && e.irqen && e.irq == BitVec.ofFin p

/-- The level to which an IRQ pin is pulled (R269): low while it is asserted and IRQOE is 1; none while it is released. -/
def irqOutput (s : State) (p : Fin 4) : Option Bool := if s.tr.irqoe && irqAsserted s p then some false else none

/-- A marker pin at a slot boundary (R241): with a Tracer source it is high for one slot, DELAY ticks after the token's slot. -/
def markSlot (tcs : List Nat) (tick : Nat) (p : MarkPin) : MarkPin :=
  let d := field p.cfg 15 0
  pinAt tick (if flag p.cfg 31 && field p.cfg 29 28 = 1 && tcs.contains (field p.cfg 25 18) then
      { p with edges := p.edges ++ [(tick + d, true), (tick + d + 16, false)] }
    else p)

/-! ### Group controls (R260) -/

/-- A group's bit after the control tokens delivered to it. -/
def groupAfter (tokens : List Nat) (g : Nat) (b : Bool) : Bool :=
  if tokens.contains (3 * g + 1) then false
  else if tokens.contains (3 * g) then true
  else b != (tokens.countP (· == 3 * g + 2) % 2 == 1)

/-- The group enables at a slot boundary: the last write that is due first, then the control tokens, each once its boundary has come. -/
def groupTick (s : State) (slot : Nat) : State :=
  let w := (s.tr.grpWrite.filter fun w => w.2 ≤ slot).getLast?
  let tokens := (s.tr.grpTokens.filter fun t => t.2 ≤ slot).map (·.1)
  let en := (w.map (·.1)).getD s.tr.grpEn
  let en := BitVec.ofNat 16 ((List.range 16).foldl (fun a g => a + bit (groupAfter tokens g (en.getLsbD g)) * 2 ^ g) 0)
  { s with tr := { s.tr with
      grpEn := en, grpWrite := s.tr.grpWrite.filter fun w => slot < w.2, grpTokens := s.tr.grpTokens.filter fun t => slot < t.2 } }

/-! ### Acceptance and delivery of TIMED channels (R256 to R258, R268) -/

/-- The Sibia lanes that are up. -/
def sibiaUp (s : State) : List Lane := allLanes.filter fun k => s.lanes[k].proto = 6 && s.lanes[k].lstate == .up

/-- Whether a TIMED channel takes its tokens from a local source. -/
def takesLocal (k : Fin 128) (t : TracerChan) : Bool := !TracerChan.isDirect k.val t && (k.val < 112 || t.rmode.toNat < 2)

/-- Whether a channel passes tokens (R256). -/
def passes (tr : Tracer) (k : Fin 128) : Bool := tr.en && groupEnabled tr k.val && tr.tc[k].en

/-- The tokens accepted by one channel at a slot boundary merge (R257). -/
def acceptChannel (slot : Nat) (due : List Ingress) (s : State) (k : Fin 128) : State :=
  let t := s.tr.tc[k]
  let mine := due.filter fun i => i.src == t.src
  if mine.isEmpty || !takesLocal k t || !passes s.tr k then s
  else
    let s := updTc s k fun t => { t with merge := min 65535 (t.merge + (mine.length - 1)) }
    let late := mine.countP (·.late)
    let first := mine.foldl (fun a i => min a i.tick) (mine.head?.map (·.tick) |>.getD 0)
    { s with tr := { s.tr with
        flights := s.tr.flights ++ [⟨k.val, slot + 2, first⟩]
        late := s.tr.late || late != 0
        lateCount := min 65535 (s.tr.lateCount + late) } }

/-- The tokens that SEND channels put on the Sibia links at a slot boundary: one TOKEN block per link, with the acceptance slot (R268). -/
def sendTokens (s : State) (slot : Nat) (from_ : List Flight) : State :=
  let mask := (from_.filter fun f => f.tc ≥ 112 && (s.tr.tc[f.tc]?.map (·.rmode.toNat)).getD 0 = 1).foldl (fun a f => a ||| 2 ^ (f.tc - 112)) 0
  if mask = 0 then s
  else (sibiaUp s).foldl (fun s k => sendBlock s k (tokenBlock mask slot)) s

/-- The acceptance part of a slot boundary. -/
def acceptTokens (s : State) (slot : Nat) : State :=
  let due := s.tr.ingress.filter fun i => i.slot ≤ slot
  let s := { s with tr := { s.tr with ingress := s.tr.ingress.filter fun i => slot < i.slot } }
  let before := s.tr.flights.length
  let s := (List.finRange 128).foldl (acceptChannel slot due) s
  sendTokens s slot (s.tr.flights.drop before)

/-- The delivery part of a slot boundary: at most one token per channel (R257). -/
def deliverTimed (s : State) (slot : Nat) : State × List Nat :=
  let due := (s.tr.flights ++ s.tr.remote).filter fun f => f.slot ≤ slot
  let s := { s with tr := { s.tr with
    flights := s.tr.flights.filter fun f => slot < f.slot, remote := s.tr.remote.filter fun f => slot < f.slot } }
  let one := (List.finRange 128).filterMap fun k => (due.find? fun f => f.tc == k.val).map fun f => (k, f.tick)
  let s := one.foldl (fun s d => countDelivery s d.1 d.2 (16 * slot)) s
  let tcs := one.map (·.1.val)
  (deliverInputs s slot tcs, tcs)

/-- A slot boundary (R257 to R260, R267): delivery, pins, group controls, acceptance. -/
def slotTick (s : State) (tick : Nat) : State :=
  let slot := tick / 16
  let s := { s with tb := { s.tb with now := tick, lastSlot := some tick } }
  let d := deliverTimed s slot
  let pins := d.2 ++ (d.1.tr.timedTokens.filter fun t => t.2 ≤ slot).map (·.1)
  let s := evoTick d.1 pins
  let s := { s with mrk := s.mrk.map (markSlot pins tick), tr := { s.tr with timedTokens := s.tr.timedTokens.filter fun t => slot < t.2 } }
  acceptTokens (groupTick s slot) slot

/-- A DIRECT channel forwards its oldest token (R259): consumers in slots take it at the first boundary whose capture instant follows. -/
def forwardDirect (s : State) (k : Fin 128) : State :=
  match s.tr.tc[k].queue with
  | [] => s
  | raised :: rest =>
    let s := updTc s k fun t => { t with queue := rest }
    let s := countDelivery s k raised s.tb.now
    let s := deliverInputs s (slotTarget s) [k.val]
    { s with tr := { s.tr with timedTokens := s.tr.timedTokens ++ [(k.val, slotTarget s)] } }

/-- Tokens received on a Sibia lane, accepted by their sender in slot A (R268): RECEIVE and RELAY channels of that lane take them for slot
A + LAT, late ones, which come after that slot has begun, for the next slot boundary; RELAY sends them on. -/
def receiveTokens (s : State) (lane : Lane) (mask a : Nat) : State :=
  let mine := (List.finRange 128).filter fun k =>
    let t := s.tr.tc[k]
    k.val ≥ 112 && mask.testBit (k.val - 112) && t.rmode.toNat ≥ 2 && t.rlane.toNat + 4 == lane.val && passes s.tr k
  let at_ := a + max 8 s.tr.lat
  let late := at_ < nextSlot s / 16
  let slot := max at_ (nextSlot s / 16)
  let relay := (mine.filter fun k => s.tr.tc[k].rmode == 3).foldl (fun m k => m ||| 2 ^ (k.val - 112)) 0
  let t := { s with tr := { s.tr with
      remote := s.tr.remote ++ mine.map fun k => ⟨k.val, slot, s.tb.now⟩
      late := s.tr.late || (late && !mine.isEmpty)
      lateCount := if late then min 65535 (s.tr.lateCount + mine.length) else s.tr.lateCount } }
  if relay = 0 then t else ((sibiaUp s).filter (· != lane)).foldl (fun t k => sendBlock t k (tokenBlock relay a)) t

/-! ### Comparator decisions (R244 to R252) -/

/-- The changes of state that Table 7.1 has. -/
def cmpChange (from_ dst : CmpState) : Bool :=
  match from_, dst with
  | .inside, .above => true
  | .inside, .below => true
  | .above, .inside => true
  | .below, .inside => true
  | .unresolved, .above => true
  | .unresolved, .below => true
  | .unresolved, .inside => true
  | _, _ => false

/-- The excursion part of a decision (R249, R250): capture, latch, the dated source, and the vigil wake logic. -/
def excursion (s : State) (n : Chan) (c : Cmp) (tick : Nat) (dst : CmpState) : State :=
  let s := updCmp s n c fun k =>
    { k with
      fifo := if k.fifo.length ≥ 4 then k.fifo else k.fifo ++ [tick]
      ovf := k.ovf || k.fifo.length ≥ 4
      latAbove := k.latAbove || dst == .above
      latBelow := k.latBelow || dst == .below }
  let s := raiseAt s (cmpSource n c) (some tick)
  let armed := match s.pwr.wakeMask[n.val / 32]? with | some w => w.getLsbD (n.val % 32) | none => false
  if s.pwr.vigil && s.pwr.wakeCmp && armed then wakeVigil s wakeCmp else s

/-- What a comparator stands at: before the last sample tick, what it stood at then (R249). -/
def cmpBefore (s : State) (k : Comparator) (tick : Nat) : CmpWas :=
  match k.was with
  | some w => if s.tb.lastSample.any (tick < ·) then w else ⟨k.cfg, k.state, cmpBlanked k, true⟩
  | none => ⟨k.cfg, k.state, cmpBlanked k, true⟩

/-- A comparator after a decision; one dated before the last sample tick leaves a state that the tick itself set (R245). -/
def cmpMove (w : CmpWas) (dst : CmpState) (k : Comparator) : Comparator :=
  { k with state := if w.kept then dst else k.state, was := k.was.map fun e => { e with state := dst } }

/-- A decision of a comparator (R249). A blanked or disabled one decides nothing (R252, R245). -/
def cmpDecide (s : State) (n : Chan) (c : Cmp) (tick : Nat) (dst : CmpState) : State :=
  let w := cmpBefore s (cmpOf s.chans[n] c) tick
  if w.blanked || !flag w.cfg 2 || !cmpChange w.state dst then s
  else
    let s := updCmp s n c (cmpMove w dst)
    let s := if flag w.cfg 0 then eventWord s n tick 4 (cmpSource n c) (cmpCode dst) else s
    if dst == .above || dst == .below then excursion s n c tick dst else s

/-- A clear of latches (R251): each then holds whether the comparator is in its state. -/
def clearLatches (above below : Bool) (c : Comparator) : Comparator :=
  { c with
    latAbove := if above then c.state == .above else c.latAbove
    latBelow := if below then c.state == .below else c.latBelow }

/-- A write of CMP_STATUS to one comparator, whose bits begin at `b` (Table 7.5). -/
def cmpStatusClear (v : Word) (b : Nat) (c : Comparator) : Comparator :=
  let c := clearLatches (flag v (b + 1)) (flag v (b + 2)) c
  { c with sat := c.sat && !flag v (b + 7), ovf := c.ovf && !flag v (b + 6) }

/-- A write of CMP_STATUS. -/
def cmpStatusWrite (s : State) (n : Chan) (v : Word) : State :=
  updCmp (updCmp s n .a (cmpStatusClear v 0)) n .b (cmpStatusClear v 16)

/-! ### Writes of the Tracer's registers (R261, R264 to R266, R269, R270) -/

/-- A write of TR_IM_ACK (R270, R439): the vector's event is not repeated any more, and the vector sends again while one of its sources is
pending. -/
def ackVector (s : State) (v : Nat) : State :=
  let s := { s with
    tr := { s.tr with unacked := s.tr.unacked.filter (· != v) }
    hht := { s.hht with events := s.hht.events.filter fun e => e.1 != v } }
  if s.tr.im.any fun e => e.pend && e.vector.toNat == v then sendVector s v else s

/-- A write of TR_SWINJ (R266). -/
def injectSources (s : State) (v : Word) : State :=
  (List.range 16).foldl (fun s k => if flag v k then raise s (304 + k) else s) s

/-- Whether an edge is one that a pin's EDGE field selects (Table 7.12). -/
def eviSelected (cfg : Word) (pin : Nat) (rising : Bool) : Bool :=
  flag cfg (4 * pin + 3) && (if rising then flag cfg (4 * pin) else flag cfg (4 * pin + 1))

/-- A consumer's configuration is written (Table 7.11, R265). -/
def writeConsumer (s : State) (i : Nat) (v : Word) : State :=
  if h : i < 551 then
    updCons s ⟨i, h⟩ fun c =>
      let ovf := c.ovf && !flag v 23
      if c.sel = field v 7 0 && c.acc = flag v 8 then { c with ovf := ovf }
      else { c with sel := field v 7 0, acc := flag v 8, pend := 0, ovf := ovf }
  else s

/-- A jump request that tokens alone made is forgotten (R265); one that JSEG joined stays. -/
def dropTokenJumps (s : State) (n : Chan) : State :=
  allCtx.foldl (fun s x => updCtx s n x fun k => { k with jumpReq := k.jumpReq.filter fun q => !q.token }) s

/-- The same, with the pending state that stands elsewhere (R265): the trigger tokens of a drain engine, and the jump request of a Graver whose
input takes another channel. -/
def writeConsCfg (s : State) (i : Nat) (v : Word) : State :=
  let old := s.tr.cons[i]?.map (·.sel)
  let s := writeConsumer s i v
  if h : 484 ≤ i ∧ i < 492 then
    let d : Ring := ⟨i - 484, by omega⟩
    if (s.tr.cons[i]?.map (·.pend)).getD 0 = 0 then updRing s d fun r => { r with tokens := [] } else s
  else if h : 272 ≤ i ∧ i < 340 then
    if old != s.tr.cons[i]?.map (·.sel) then dropTokenJumps s ⟨i - 272, by omega⟩ else s
  else s

/-- The index of the Tracer channel that a path addresses. -/
def pathTc (s : State) (p : Path) : Fin 128 := ⟨(s.path p).tcIdx % 128, by omega⟩

/-- A write of TR_TC_MERGE (R261). -/
def writeMerge (s : State) (p : Path) (v : Word) : State :=
  if field v 15 0 = 0 then updTc s (pathTc s p) fun t => { t with merge := 0 } else s

end Sys2Proof.Machine
end

