-- ==== Sys2Proof/Machine/QueueOps.lean ====
section
/-!
DEFINITION. The consumer side of the queues, their commands and configuration (R297 to R306), and the drain engines with their rings
(R308 to R311).
-/
namespace Sys2Proof.Machine

/-! ### Packets in a queue -/

/-- The tag of a result word (Table 3.7). -/
def tagOf (w : Word) : Nat := field w 31 28

/-- Whether a word ends what a consumer takes as a whole: PKTEND or GAP. -/
def endsUnit (w : Word) : Bool := tagOf w == 0xE || tagOf w == 0xD

/-- The words up to and including the first that ends a packet, and the rest. -/
def splitUnit : List Word → List Word × List Word
  | [] => ([], [])
  | w :: ws => if endsUnit w then ([w], ws) else let r := splitUnit ws; (w :: r.1, r.2)

/-- Remove the first packet, or what is left of it, from the committed words. -/
def dropUnit (q : Queue) : Queue :=
  { q with committed := (splitUnit q.committed).2, ticks := q.ticks.drop 1, midPaths := [], headPartial := false }

/-- A queue that is CLOSING becomes DISABLED when it is empty (R298). -/
def closeIfEmpty (s : State) (q : Fin 256) : State :=
  updQueue s q fun k =>
    if k.state == .closing && k.committed.isEmpty then { k with state := .disabled, midPaths := [], headPartial := false } else k

/-- Replace the packet in front by a GAP word that counts its words (R303). -/
def replaceByGap (s : State) (q : Fin 256) : State :=
  let n := (splitUnit s.queues[q].committed).1.length
  changeQueue s q fun k =>
    { k with committed := gapWord n :: (splitUnit k.committed).2, eccErr := true, gapcnt := satAdd max32 k.gapcnt n }

/-- The check of the packet in front as its PKTHDR is taken (R294, R303): a corrected error raises source 300, an uncorrectable one 301, and the packet
gives way to a GAP word. -/
def checkPacket (s : State) (q : Fin 256) (ecc : EccResult) : State :=
  if (s.queues[q].committed.head?.map tagOf) != some 0xF then s
  else
    let s := eccMet s storeBase ecc
    if ecc == .uncorrectable then replaceByGap s q else s

/-- A pop's NOTVALID word (R121). -/
def notValid (qual : Nat) (q : Fin 256) : Word := resultWord 0 qual q.val

/-- Device unit 137: the residency of a packet whose PKTEND leaves a queue (Table 8.2). -/
def countResidency (s : State) (q : Fin 256) (w : Word) : State :=
  if tagOf w = 0xE then
    match s.queues[q].ticks.head? with
    | some t => offerDevice s 1 t s.tb.now
    | none => s
  else s

/-- Pop a word for a path (R121, R302, R303). `ecc` says what the check of the packet finds when its PKTHDR is taken. -/
def popQueue (s : State) (p : Path) (q : Fin 256) (ecc : EccResult) : Word × State :=
  let k := s.queues[q]
  if k.state == .disabled then (notValid 2 q, s)
  else if (k.drn || k.draining != 0) && !k.headPartial then (notValid 1 q, s)
  else
    let s := checkPacket s q ecc
    match s.queues[q].committed with
    | [] => (notValid 0 q, s)
    | w :: _ =>
      let s := countResidency s q w
      let s := changeQueue s q fun k =>
        if endsUnit w then { k with committed := k.committed.drop 1, ticks := k.ticks.drop 1, midPaths := [], headPartial := false }
        else
          { k with
            committed := k.committed.drop 1, headPartial := true
            midPaths := if k.midPaths.contains p then k.midPaths else k.midPaths ++ [p] }
      (w, closeIfEmpty s q)

/-- What a check finds, by two bits of a free value. -/
def eccOf (w : Word) : EccResult := if field w 1 0 = 0 then .clean else if field w 1 0 = 1 then .corrected else .uncorrectable

/-- A pop by a register read that carries no outcome of the check: where it takes a PKTHDR, the outcome is a free value. -/
def popFree (s : State) (p : Path) (q : Fin 256) : Word × State :=
  if (s.queues[q].committed.head?.map tagOf) = some 0xF then let w := drawFree s; popQueue w.2 p q (eccOf w.1)
  else popQueue s p q .clean

/-! ### Commands (R298, R302) -/

/-- ENABLE: an empty queue with its counters kept; the rest of a packet already begun stays outside. -/
def enableQueue (s : State) (q : Fin 256) : State :=
  updQueue s q fun k =>
    if k.state == .disabled then { k with state := .enabled, discarding := true, drop := false, p := 0, opened := [] } else k

/-- DISABLE: rewind, commit a pending GAP, then CLOSING. -/
def disableQueue (s : State) (q : Fin 256) : State :=
  if s.queues[q].state != .enabled then s
  else
    let s := changeQueue s q rewind
    let s := if s.queues[q].p != 0 then commitGap s q true else s
    closeIfEmpty (updQueue s q fun k => { k with state := .closing, discarding := true }) q

/-- The committed words that FLUSH keeps: a packet that an engine transfers, and in ENABLED one that a path has partly popped. -/
def flushKeeps (k : Queue) : Nat :=
  if k.draining != 0 then k.draining
  else if k.state == .enabled && k.headPartial then (splitUnit k.committed).1.length
  else 0

/-- FLUSH. -/
def flushQueue (s : State) (q : Fin 256) : State :=
  let k := s.queues[q]
  if k.state == .disabled then s
  else
    let keep := flushKeeps k
    let s := changeQueue s q fun k =>
      { k with
        committed := k.committed.take keep
        ticks := if keep = 0 then [] else k.ticks.take 1
        midPaths := if keep = 0 then [] else k.midPaths
        headPartial := keep != 0 && k.headPartial
        discnt := satAdd max32 k.discnt (k.committed.length - keep) }
    closeIfEmpty s q

/-- DROP_REM: the rest of the packet that this path is reading. -/
def dropRem (s : State) (p : Path) (q : Fin 256) : State :=
  if !s.queues[q].midPaths.contains p then s
  else
    closeIfEmpty (changeQueue s q fun k =>
      { dropUnit k with discnt := satAdd max32 k.discnt (splitUnit k.committed).1.length }) q

/-- Whether a path may write the registers of a queue: those of firmware queues ignore PCIe and HHT (R307). -/
def queueWritable (p : Path) (q : Fin 256) : Bool := q.val < 69 || !(p == .pcie || p == .hht)

/-- A write of Q_CTRL (Table 9.4). -/
def qCtrlWrite (s : State) (p : Path) (q : Fin 256) (v : Word) : State :=
  if !queueWritable p q then s
  else
    let s := updQueue s q fun k => { k with wmie := flag v 12, drn := flag v 11, eng := field v 10 8 }
    match field v 3 0 with
    | 1 => enableQueue s q
    | 2 => disableQueue s q
    | 3 => flushQueue s q
    | 4 => dropRem s p q
    | _ => s

/-- Whether a region of the burst store overlaps another queue's (R297). -/
def overlapsQueue (s : State) (q : Fin 256) (base size : Nat) : Bool :=
  (List.finRange 256).any fun r => r != q && s.queues[r].base < base + size && base < s.queues[r].base + s.queues[r].size

/-- A write of Q_CFG (R297). -/
def qCfgWrite (s : State) (p : Path) (q : Fin 256) (v : Word) : State :=
  let size := field v 30 16
  let base := field v 13 0
  if !queueWritable p q then s
  else if s.queues[q].state != .disabled || overlapsQueue s q base size || base + size > 16384 || size = 0
      || (q.val < 69 && size < 5) then
    updQueue s q fun k => { k with cfgRej := true }
  else updQueue s q fun k => { k with base := base, size := size }

/-- The queue that a path addresses. -/
def pathQueue (s : State) (p : Path) : Fin 256 := ⟨(s.path p).qIdx % 256, by omega⟩

/-- A read of Q_PEAK (R306): the peak restarts from the present occupancy. -/
def readPeak (s : State) (q : Fin 256) : State := updQueue s q fun k => { k with peak := k.occ }

/-! ### Writing to a ring through the MMU (R308, R319) -/

/-- The size of a ring in bytes. -/
def RingState.bytes (r : RingState) : Nat := 2 ^ r.log2size

/-- The virtual address of a byte count of a ring (R310). -/
def RingState.va (r : RingState) (x : Nat) : Nat := r.base + x % r.bytes

/-- What the translation of a run of words finds: the physical addresses, or the first address that faults. -/
def ringPas (m : Memory) (r : RingState) : Nat → Nat → List Nat → List Nat ⊕ (Nat × Xlate)
  | 0, _, acc => .inl acc.reverse
  | k + 1, x, acc =>
    match translate m r.asid.toNat (r.va x) .w with
    | .ok pa => ringPas m r k (x + 4) (pa :: acc)
    | f => .inr (r.va x, f)

/-- Write words at their physical addresses. -/
def storeWords (m : Mem) : List (Nat × Word) → Mem
  | [] => m
  | (a, w) :: rest => storeWords (memWriteWord m a w) rest

/-- The ring whose bytes an offset of the ring window BAR2 reads (R312). -/
def barRing (s : State) (offset : Nat) : RingState := s.rings[(⟨offset / 2 ^ 33 % 8, Nat.mod_lt _ (by decide)⟩ : Ring)]

/-- The physical address that an offset of the ring window BAR2 reads (R312): offset d × 8 GiB + y reads byte y mod 2^LOG2SIZE of ring d; none at a
translation fault. A ring that has never been given an address space translates nothing: ASID 0 is the firmware's (R316). -/
def barPa (s : State) (offset : Nat) : Option Nat :=
  let r := barRing s offset
  if r.asid == 0 then none
  else match translate s.mm r.asid.toNat (r.va (offset % 2 ^ 33)) .r with | .ok a => some a | _ => none

/-- A word of the ring window. -/
def barWord (s : State) (offset : Nat) : Option Word := (barPa s offset).map (memReadWord s.mm.mem)

/-- What a read of the ring window finds in the check bits of its first word (R294, R314). -/
def barEcc (s : State) (offset : Nat) (ecc : EccResult) : State :=
  match barPa s offset with
  | some pa => eccMet (cacheXlate s (barRing s offset).asid.toNat ((barRing s offset).va (offset % 2 ^ 33))) pa ecc
  | none => s

/-- A read of the ring window: at a translation fault, and at an uncorrectable memory error (R320), it returns all ones and sets BAR2FLT (R423). In vigil
it needs external memory and wakes the device (R393). -/
def barRead (s : State) (offset words : Nat) (ecc : EccResult) : List Word × State :=
  let s := if ddrAsleep s then wakeVigil s wakeDemand else s
  let ws := (List.range words).map fun i => barWord s (offset + 4 * i)
  let s := barEcc s offset ecc
  if ws.all Option.isSome && ecc != .uncorrectable then (ws.filterMap id, s)
  else (List.replicate words (BitVec.allOnes 32), { s with fw := { s.fw with bar2flt := true } })

/-- Ring requesters in the fault log: class 4 with the engine's number; the proof ring is the MP's (assumption 21). -/
def ringFault (s : State) (who : Waiter) (req asid va : Nat) (f : Xlate) : State :=
  match f with
  | .demand => awaitDemand s who asid va true false
  | .fault reason level => forwardFault s who (faultRecord 4 reason req asid 0 true false level va s.tb.now)
  | .ok _ => s

/-! ### Drain engines (R308 to R311) -/

/-- The words that an engine writes for a packet or a GAP word (R309). -/
def ringWords (q : Nat) (ws : List Word) : List Word :=
  match ws with
  | [w] => if tagOf w = 0xD then [resultWord 0xF 6 (q * 2 ^ 16), w, resultWord 0xE 0 3] else ws
  | _ => ws

/-- Whether a queue has a packet for an engine: assigned, not being read by a path. -/
def queueReady (s : State) (d : Ring) (q : Fin 256) : Bool :=
  let k := s.queues[q]
  k.drn && k.eng == d.val && k.state != .disabled && !k.committed.isEmpty && !k.headPartial && k.draining == 0

/-- Whether the packet in front of a queue was committed before a trigger token (R311). -/
def creditFor (s : State) (credit : List (Nat × Nat)) (q : Fin 256) : Bool :=
  let k := s.queues[q]
  match credit.find? fun c => c.1 == q.val with
  | some c => k.ncommit - k.ticks.length < c.2
  | none => false

/-- The queues that an engine may take from, under a trigger's credit if it has TRIG = 1. -/
def readyQueues (s : State) (d : Ring) : List (Fin 256) :=
  let r := s.rings[d]
  (List.finRange 256).filter fun q => queueReady s d q && (!r.trig || creditFor s r.credit q)

/-- Whether a queue gives way to one that waited when it was served last and still waits (R21). -/
def givesWay (owed : List (Nat × List Nat)) (ready : List (Fin 256)) (q : Fin 256) : Bool :=
  owed.any fun o => o.1 == q.val && ready.any fun r => o.2.contains r.val

/-- The queue that an engine takes from next: the lowest of those that wait and need not give way (R21). -/
def nextQueue (s : State) (d : Ring) : Option (Fin 256) :=
  let ready := readyQueues s d
  ready.find? fun q => !givesWay s.rings[d].owed ready q

/-- What an engine keeps of its decision: whom the served queue gives way to from now on. -/
def servedQueue (ready : List (Fin 256)) (q : Fin 256) (owed : List (Nat × List Nat)) : List (Nat × List Nat) :=
  ((owed.filter fun o => o.1 != q.val).map fun o => (o.1, o.2.filter (· != q.val)))
    ++ [(q.val, (ready.filter (· != q)).map (·.val))]

/-- The consumer input of an engine's trigger (Table 7.7). -/
def triggerInput (d : Ring) : Fin 551 := ⟨484 + d.val, by omega⟩

/-- An engine in TRIG mode with nothing left under its last token consumes the next one (R311, R265); `fuel` bounds the tokens. -/
def takeTriggers : Nat → State → Ring → State
  | 0, s, _ => s
  | fuel + 1, s, d =>
    let r := s.rings[d]
    let i := triggerInput d
    if !r.trig || (nextQueue s d).isSome || s.tr.cons[i].pend = 0 then s
    else
      let s := updCons s i fun c => { c with pend := if c.acc then c.pend - 1 else 0 }
      takeTriggers fuel (updRing s d fun r => { r with credit := r.tokens.head?.getD [], tokens := r.tokens.drop 1 }) d

/-- The bytes that the packet in front of a queue takes in a ring. -/
def ringNeed (s : State) (q : Fin 256) : Nat := 4 * (ringWords q.val (splitUnit s.queues[q].committed).1).length

/-- Whether a ring lacks room (R310). -/
def RingState.lacks (r : RingState) (need : Nat) : Bool := r.wr + need - r.rd > r.bytes

/-- FULL of an engine: it waits for room (R310). -/
def engineFull (s : State) (d : Ring) : Bool :=
  let r := s.rings[d]
  r.en && !r.fault && r.transfer.isNone && (match nextQueue s d with | some q => r.lacks (ringNeed s q) | none => false)

/-- Start to move the packet in front of a queue (R303, R310, R319). -/
def startTransfer (s : State) (d : Ring) (q : Fin 256) (ecc : EccResult) : State :=
  let ready := readyQueues s d
  let s := checkPacket s q ecc
  let raw := (splitUnit s.queues[q].committed).1
  let ws := ringWords q.val raw
  let r := s.rings[d]
  if r.lacks (4 * ws.length) then s
  else
    match ringPas s.mm r ws.length r.wr [] with
    | .inl pas =>
      let s := cacheXlates s r.asid.toNat ((List.range ws.length).map fun i => r.va (r.wr + 4 * i))
      let s := updRing s d fun r =>
        { r with fault := false, transfer := some ⟨q.val, ws, pas, s.tb.now⟩, owed := servedQueue ready q r.owed }
      updQueue s q fun k => { k with draining := raw.length }
    | .inr (va, f) => ringFault (updRing s d fun r => { r with fault := true }) (.engine d) d.val r.asid.toNat va f

/-- A drain engine looks for a packet (R308, R311). In vigil engines stand still (R392). -/
def engineStart (s : State) (d : Ring) (ecc : EccResult) : State :=
  let r := s.rings[d]
  if !r.en || r.stopping || r.transfer.isSome || r.fault || ddrAsleep s then s
  else
    let s := takeTriggers 256 s d
    match nextQueue s d with
    | some q => startTransfer s d q ecc
    | none => s

/-- The threshold of a ring (R310): source 302 when WR - RD passes it from below. -/
def ringThreshold (s : State) (d : Ring) (before : Nat) : State :=
  let r := s.rings[d]
  if r.thr != 0 && before ≤ r.thr * 1024 && r.thr * 1024 < r.wr - r.rd then raise s 302 else s

/-- A transfer ends (R310, R311): the bytes are visible, WR advances, the packet leaves its queue, and a ring that is to stop stops. -/
def engineEnd (s : State) (d : Ring) : State :=
  match s.rings[d].transfer with
  | none => s
  | some t =>
    let before := s.rings[d].wr - s.rings[d].rd
    let s := { s with mm := { s.mm with mem := storeWords s.mm.mem ((t.pas.map (retiredTo s.mm)).zip t.words) } }
    let s := updRing s d fun r =>
      { r with wr := r.wr + 4 * t.words.length, transfer := none, en := r.en && !r.stopping, stopping := false }
    let s := offerDevice s 3 t.start s.tb.now
    let s := ringThreshold s d before
    if h : t.queue < 256 then
      let q : Fin 256 := ⟨t.queue, h⟩
      let last := (splitUnit s.queues[q].committed).1.getLast?.getD 0
      let s := countResidency s q last
      closeIfEmpty (changeQueue s q fun k => { dropUnit k with draining := 0 }) q
    else s

/-! ### Ring registers (R308, R310, Tables 9.6 and 9.7) -/

/-- Whether EN of a ring is refused (R308, R344): ASID 0, a size outside its limits, or a base that is not aligned. -/
def ringRefused (r : RingState) (top : Nat) : Bool :=
  r.asid == 0 || r.log2size < 20 || r.log2size > top || r.base % 2 ^ r.log2size != 0

/-- A ring register block after a write of its CFG: the fields of a ring that is off, EN with its check, EN = 0 after the transfer in
progress. `bits` is the width of LOG2SIZE. -/
def ringCfg (r : RingState) (v : Word) (top bits : Nat) : RingState :=
  let r := { r with rdRej := r.rdRej && !flag v 8, trig := if bits = 6 then flag v 30 else r.trig }
  if r.en then
    if flag v 31 then { r with stopping := false }
    else if r.transfer.isSome then { r with stopping := true }
    else { r with en := false, fault := false }
  else
    let r := { r with asid := BitVec.ofNat 4 (field v 27 24), log2size := field v (bits - 1) 0 }
    if flag v 31 && !ringRefused r top then
      { r with en := true, wr := 0, rd := 0, rdLo := 0, fault := false, sentTo := 0, maxSent := 0, credit := [], owed := [] }
    else r

/-- A write of Q_RING_CFG. -/
def ringCfgWrite (s : State) (d : Ring) (v : Word) : State := updRing s d fun r => ringCfg r v 33 6

/-- Commit RD of a ring (R310): refused below the old one, above WR, or off a multiple of 4. -/
def ringCommit (r : RingState) (hi : Word) : RingState :=
  let new := hi.toNat * 2 ^ 32 + r.rdLo.toNat
  if new < r.rd || r.wr < new || new % 4 != 0 then { r with rdRej := true } else { r with rd := new }

/-- A write of Q_RING_RD_HI: refused while the ring belongs to the HHT stream (R438). -/
def ringRdWrite (s : State) (d : Ring) (hi : Word) : State :=
  updRing s d fun r => if s.hht.stream.getLsbD d.val then { r with rdRej := true } else ringCommit r hi

end Sys2Proof.Machine
end

