-- ==== Sys2Proof/Machine/MemoryOps.lean ====
section
/-!
DEFINITION. The shared operations of address translation (R315 to R323): mapping commands, the resolution of demand faults, the release of
waiting requesters, invalidation, retirement, and RESUME.
-/
namespace Sys2Proof.Machine

/-- Response statuses (Table 14.8). -/
def stOk : Nat := 0x0000
def stUnknown : Nat := 0x0001
def stBadLen : Nat := 0x0002
def stTimeout : Nat := 0x0003
def stBusy : Nat := 0x0004
def stRange : Nat := 0x0005
def stExists : Nat := 0x0006
def stOverlap : Nat := 0x0007
def stNotMapped : Nat := 0x0008
def stState : Nat := 0x0009

/-- Change memory and translation state. -/
def updMm (s : State) (f : Memory → Memory) : State := { s with mm := f s.mm }

/-! ### Ranges and mappings -/

/-- Whether a run of physical addresses can be named by a mapping (Table 9.8): it exists throughout and is not reserved. -/
def rangeMappable (m : Memory) (pa len : Nat) : Bool :=
  let within := fun lo hi : Nat => lo ≤ pa && pa + len ≤ hi
  within storeBase (storeBase + storeSize) || within 0x40000000 (m.maGib * 2 ^ 30) || within (2 ^ 40) (2 ^ 40 + m.mbGib * 2 ^ 30)
    || (m.maGib = 1024 && within 0x40000000 (2 ^ 40 + m.mbGib * 2 ^ 30))

/-- Whether two ranges share an address. -/
def rangesMeet (a n b k : Nat) : Bool := a < b + k && b < a + n

/-- The size of a page from the FLAGS of MAP (below Table 14.7). -/
def pageOf (flags : Word) : Nat := if field flags 1 0 = 0 then 0x1000 else if field flags 1 0 = 1 then 0x200000 else 0x40000000

/-- Whether FLAGS names the reserved page size; the reserved bits are ignored (R13). -/
def flagsReserved (flags : Word) : Bool := field flags 1 0 = 3

/-- Whether an ASID is one that the host can name and that has tables. -/
def asidLive (m : Memory) (asid : Nat) : Bool := 1 ≤ asid && asid ≤ 15 && m.asids.contains asid

/-- Whether a virtual range lies in 48 bits and is aligned to a page size. -/
def vaOk (va len page : Nat) : Bool := va % page = 0 && len % page = 0 && va + len ≤ 2 ^ 48

/-- Whether any page of a range is mapped. -/
def anyMapped (m : Memory) (asid va len : Nat) : Bool := m.maps.any fun e => e.asid == asid && rangesMeet e.va e.len va len

/-- The pieces of a mapping around a part of it, and that part: its bounds round outwards to the mapping's pages (assumption 22). -/
def cutMapping (e : Mapping) (va len : Nat) : List Mapping × Mapping :=
  let lo := max e.va (va / e.page * e.page)
  let hi := min (e.va + e.len) ((va + len + e.page - 1) / e.page * e.page)
  let part := fun (a b : Nat) => ({ e with va := a, len := b - a, pa := e.pa.map (· + (a - e.va)) } : Mapping)
  ((if e.va < lo then [part e.va lo] else []) ++ (if hi < e.va + e.len then [part hi (e.va + e.len)] else []), part lo hi)

/-- Replace the part of every mapping of an address space that lies in a range by its image; none removes it. -/
def changeMappings (ms : List Mapping) (asid va len : Nat) (f : Mapping → Option Mapping) : List Mapping :=
  ms.flatMap fun e =>
    if e.asid == asid && rangesMeet e.va e.len va len then
      let c := cutMapping e va len
      c.1 ++ (f c.2).toList
    else [e]

/-- The bytes of a range that mappings cover. -/
def mappedBytes (m : Memory) (asid va len : Nat) : Nat :=
  m.maps.foldl (fun a e =>
    if e.asid == asid && rangesMeet e.va e.len va len then a + (min (e.va + e.len) (va + len) - max e.va va) else a) 0

/-! ### Release of waiting requesters (R319) -/

/-- A requester that the MP or the host lets go on. -/
def releaseWaiter (s : State) (w : Waiter) : State :=
  match w with
  | .context n x =>
    match (s.context n x).state with
    | .suspended _ _ => wake (endWaits s w) n x
    | _ => s
  | .prefetch n =>
    if s.chans[n].graver.prefetchStalled then updGraver (endWaits s w) n fun g => { g with prefetchStalled := false } else s
  | .engine d => if s.rings[d].fault then updRing (endWaits s w) d fun r => { r with fault := false } else s
  | .proofRing =>
    if s.pf.ring.fault then
      let s := endWaits s w
      { s with pf := { s.pf with ring := { s.pf.ring with fault := false } } }
    else s

/-- Whether a forwarded fault of a prefetch or a ring is cured: its page now translates. An ECC fault is not (R320). -/
def cured (m : Memory) (w : Wait) : Bool :=
  w.reason != 4 &&
    (match w.who with
    | .context _ _ => false
    | .prefetch _ => (match translate m w.asid w.va .r with | .fault _ _ => false | _ => true)
    | _ => (match translate m w.asid w.va .w with | .fault _ _ => false | _ => true))

/-- After a MAP, MAP_DZ or PROTECT, prefetches and engines whose page is now mapped go on by themselves (R319). -/
def releaseCured (s : State) : State :=
  (s.mm.waits.filter (cured s.mm)).foldl (fun s w => releaseWaiter s w.who) s

/-! ### Mapping commands (R318, Table 9.9) -/

/-- ASID_CREATE. -/
def asidCreateOp (s : State) (asid : Nat) : Nat × State :=
  if asid = 0 || asid > 15 then (stRange, s)
  else if s.mm.asids.contains asid then (stExists, s)
  else (stOk, updMm s fun m => { m with asids := m.asids ++ [asid] })

/-- Whether a Graver window or a ring uses an ASID. -/
def asidUsed (s : State) (asid : Nat) : Bool :=
  allChans.any (fun n => s.chans[n].graver.asid.toNat == asid) || allRings.any (fun d => s.rings[d].en && s.rings[d].asid.toNat == asid)
    || (s.pf.ring.en && s.pf.ring.asid.toNat == asid)

/-- Enter a mapping. -/
def addMapping (s : State) (e : Mapping) : State :=
  if e.len = 0 then s
  else releaseCured (updMm s fun m => { m with maps := m.maps ++ [e], tables := m.tables ++ [(e.asid, e.va, e.len, e.page)] })

/-- MAP. -/
def mapOp (s : State) (asid : Nat) (flags : Word) (va pa len : Nat) : Nat × State :=
  let page := pageOf flags
  if !asidLive s.mm asid || flagsReserved flags || !vaOk va len page || pa % page != 0 || !rangeMappable s.mm pa len then (stRange, s)
  else if anyMapped s.mm asid va len then (stOverlap, s)
  else (stOk, addMapping s ⟨asid, va, len, page, some pa, flag flags 4, flag flags 5, flag flags 6⟩)

/-- MAP_DZ: of FLAGS it takes R and W only; its pages have 4 KiB. -/
def mapDzOp (s : State) (asid : Nat) (flags : Word) (va len : Nat) : Nat × State :=
  if !asidLive s.mm asid || !vaOk va len 0x1000 then (stRange, s)
  else if anyMapped s.mm asid va len then (stOverlap, s)
  else (stOk, addMapping s ⟨asid, va, len, 0x1000, none, flag flags 4, flag flags 5, false⟩)

/-- An invalidation begins (t1 and t2 of Table 9.12): the range leaves the IOTLB, and what waits for the accesses under way is kept. -/
def startInv (s : State) (i : Inv) : State := updMm (dropXlates s i.asid i.va i.len) fun m => { m with invPending := m.invPending ++ [i] }

/-- UNMAP of a range; the command waits for the invalidation. -/
def unmapRange (s : State) (asid va len : Nat) (who : Option (Path × Word × Nat × Nat)) : State :=
  startInv (updMm s fun m => { m with maps := changeMappings m.maps asid va len fun _ => none }) ⟨who, asid, va, len, none⟩

/-- PROTECT; none when the range is not mapped throughout. -/
def protectOp (s : State) (asid : Nat) (flags : Word) (va len : Nat) (who : Option (Path × Word × Nat × Nat)) : Nat × State :=
  if flagsReserved flags then (stRange, s)
  else if mappedBytes s.mm asid va len < len then (stNotMapped, s)
  else
    let s := updMm s fun m =>
      { m with maps := changeMappings m.maps asid va len fun e => some { e with r := flag flags 4, w := flag flags 5, x := flag flags 6 } }
    (stOk, releaseCured (startInv s ⟨who, asid, va, len, none⟩))

/-- ASID_DESTROY: unmaps everything as UNMAP does, then frees the tables. -/
def asidDestroyOp (s : State) (asid : Nat) (who : Option (Path × Word × Nat × Nat)) : Nat × State :=
  if !asidLive s.mm asid then (stRange, s)
  else if asidUsed s asid then (stBusy, s)
  else
    (stOk, updMm (unmapRange s asid 0 (2 ^ 48) who) fun m =>
      { m with asids := m.asids.filter (· != asid), tables := m.tables.filter fun t => t.1 != asid })

/-- POOL_ADD. -/
def poolAddOp (s : State) (pa pages : Nat) : Nat × State :=
  if pa % 0x1000 != 0 || !rangeMappable s.mm pa (0x1000 * pages) then (stRange, s)
  else (stOk, if pages = 0 then s else updMm s fun m => { m with pool := m.pool ++ [(pa, pages)] })

/-- The free pages of the pool. -/
def poolPages (m : Memory) : Nat := m.pool.foldl (fun a r => a + r.2) 0

/-- CACHE_INV: the program cache lines of a range, in every bank (R130). -/
def cacheInvOp (s : State) (asid va len : Nat) : State :=
  { s with banks := s.banks.map fun b =>
      { b with lines := b.lines.filter fun l => !(l.1.toNat == asid && rangesMeet (64 * l.2.1) 64 va len) } }

/-! ### Accesses under way (R323) -/

/-- Whether a memory access through a window address of a context falls under an invalidation; `pa` is what it translated to. -/
def Inv.covers (i : Inv) (asid va pa : Nat) : Bool :=
  match i.page with
  | some p => p ≤ pa && pa < p + 0x1000
  | none => asid == i.asid && i.va ≤ va && va < i.va + i.len

/-- Whether an access of a Graver that has been translated and has not retired falls under an invalidation: the LD that holds the execution unit, or
an outstanding store. -/
def graverHolds (g : Graver) (i : Inv) : Bool :=
  let stores := fun (x : Ctx) => g.ctx[x].stores.any fun st => i.covers st.asid st.va st.pa
  allCtx.any stores
    || (match g.busy with
      | some (x, .load _ va pa) => i.covers (windowAsid g x) va pa
      | some (_, .store st) => i.covers st.asid st.va st.pa
      | _ => false)

/-- Whether a transfer of a drain engine writes where an invalidation falls. -/
def ringHolds (r : RingState) (i : Inv) : Bool :=
  match r.transfer with
  | none => false
  | some t => t.pas.zipIdx.any fun p => i.covers r.asid.toNat (r.base + (r.wr + 4 * p.2) % 2 ^ r.log2size) p.1

/-- Whether an invalidation still waits for an access (t3 of Table 9.12). Fills take their words as they translate, so they hold none. -/
def invHeld (s : State) (i : Inv) : Bool := s.chans.any (fun c => graverHolds c.graver i) || s.rings.any fun r => ringHolds r i

/-! ### Demand faults (R319) -/

/-- The first free page of the pool and what is left. -/
def takePage : List (Nat × Nat) → Option (Nat × List (Nat × Nat))
  | [] => none
  | (pa, k) :: rest => some (pa, if k ≤ 1 then rest else (pa + 0x1000, k - 1) :: rest)

/-- Map a zeroed page of the pool at a demand-zero address; of a retired page the spare is zeroed (R315). -/
def mapDemand (s : State) (asid va pa : Nat) (pool : List (Nat × Nat)) : State :=
  updMm s fun m =>
    { m with
      pool := pool
      mem := memZero m.mem (retiredTo m pa) 0x1000
      maps := changeMappings m.maps asid (va / 0x1000 * 0x1000) 0x1000 fun e => some { e with pa := some pa }
      dzcnt := satAdd max32 m.dzcnt 1 }

/-- The class and requester number of a waiter's fault record (Table 9.11). -/
def waiterClass (s : State) (w : Waiter) : Nat × Nat × Nat :=
  match w with
  | .context n x => (match (s.context n x).state with | .suspended .xlateFetch _ => 1 | _ => 2, n.val, x.val)
  | .prefetch n => (3, n.val, 0)
  | .engine d => (4, d.val, 0)
  | .proofRing => (4, 8, 0)

/-- A demand fault that finds the pool empty is forwarded (R319), with a record of the access that faulted (R322). -/
def demandToPool (s : State) (d : Demand) : State :=
  let c := waiterClass s d.who
  let s := match d.who with
    | .context n x => updCtx s n x fun k => { k with state := match k.state with | .suspended c _ => .suspended c false | st => st }
    | _ => s
  forwardFault s d.who (faultRecord c.1 5 c.2.1 d.asid c.2.2 d.wr d.split 3 d.va d.since)

/-- Whether fault resolution waits for the MP: its work of class 1 (R324). -/
def faultWork (s : State) : Bool := !s.mm.demand.isEmpty

/-- The MP takes the oldest demand fault (device unit 136 takes its wait): it maps a page if one is still missing, and the requester goes
on. -/
def resolveDemand (s : State) : State :=
  match s.mm.demand with
  | [] => s
  | d :: rest =>
    let s := offerDevice (updMm s fun m => { m with demand := rest }) 0 d.since s.tb.now
    match findMapping s.mm.maps d.asid d.va with
    | some e =>
      if e.pa.isSome then releaseCured (releaseWaiter s d.who)
      else
        match takePage s.mm.pool with
        | some (pa, pool) => releaseCured (releaseWaiter (mapDemand s d.asid d.va pa pool) d.who)
        | none => demandToPool s d
    | none => releaseWaiter s d.who

/-! ### Retirement and spares (R295, R315) -/

/-- The spare for the next page to retire, from the top of the reserved range (assumption 23). -/
def sparePage (m : Memory) : Nat := 0x3FFFF000 - 0x1000 * m.retired.length

/-- The large pages that contain a physical page, as ranges of 4 KiB pages: the tables that their split adds. -/
def splitTables (ms : List Mapping) (pa : Nat) : List (Nat × Nat × Nat × Nat) :=
  ms.filterMap fun e =>
    match e.pa with
    | some p =>
      if p ≤ pa && pa < p + e.len && e.page != 0x1000 then
        let c := (cutMapping e (e.va + (pa - p)) 1).2
        some (e.asid, c.va, c.len, 0x1000)
      else none
    | none => none

/-- Split the mappings that contain a physical page so that its large page becomes 4 KiB pages. -/
def splitAround (ms : List Mapping) (pa : Nat) : List Mapping :=
  ms.flatMap fun e =>
    match e.pa with
    | some p =>
      if p ≤ pa && pa < p + e.len && e.page != 0x1000 then
        let c := cutMapping e (e.va + (pa - p)) 1
        c.1 ++ [{ c.2 with page := 0x1000 }]
      else [e]
    | none => [e]

/-- Whether a physical page is mapped, itself or as the spare of a retired one. -/
def pageMapped (m : Memory) (pa : Nat) : Bool :=
  let behind := pa :: (m.retired.map (·.1)).filter fun q => followSpare m.retired q = pa
  m.maps.any fun e => match e.pa with | some p => behind.any fun q => p ≤ q && q < p + e.len | none => false

/-- Retire a page of external memory (R315); a page that holds what an earlier retirement moved there is retired like any other. -/
def retirePage (s : State) (pa : Nat) : State :=
  if !paExternal pa || !paExists s.mm pa || s.mm.retired.any (fun r => r.1 == pa) then s
  else
    let spare := sparePage s.mm
    let mapped := pageMapped s.mm pa
    let s := updMm (dropPage s pa) fun m =>
      { m with
        mem := memWriteBytes m.mem spare (memReadBytes m.mem pa 0x1000)
        maps := splitAround m.maps pa
        tables := m.tables ++ splitTables m.maps pa
        retired := m.retired ++ [(pa, spare)] }
    if mapped then startInv s ⟨none, 0, 0, 0, some pa⟩ else s

/-- Copy an SRAM row into a spare of its macro, or keep it in service when the four are used (R295). -/
def repairRow (s : State) (k : Nat) : State :=
  let used := ((s.mm.spares.find? fun e => e.1 == k).map (·.2)).getD 0
  if used ≥ 4 then updMm s fun m => { m with spareOut := true }
  else
    updMm s fun m =>
      { m with spares := (k, used + 1) :: m.spares.filter (fun e => e.1 != k), rowrep := m.rowrep + 1 }

/-! ### The fault log (R322) -/

/-- A read of MMU_FLOG_W0 on a path. -/
def flogPop (s : State) (p : Path) : Word × State :=
  match s.mm.flog with
  | [] => (0, updPath s p fun k => { k with readLog := [0] })
  | r :: rest =>
    let w := r.head?.getD 0
    (w, updPath (updMm s fun m => { m with flog := rest }) p fun k => { k with flog := r.drop 1, readLog := [w] })

/-! ### RESUME (R149) -/

/-- Whether the instruction at a context's program counter has an extension word. -/
def extAtPc (s : State) (n : Chan) (x : Ctx) : Bool :=
  match fetch s n x with
  | .words w _ => hasExt (wordOp w) (wordFields w 0)
  | .miss _ split => split
  | .noExt => true
  | .nothing => false

/-- End a suspension (R149): RETRY, NEXT or HALT; STATE when the context is not SUSPENDED. -/
def resumeOp (s : State) (n : Chan) (x : Ctx) (a : ResumeAction) : Nat × State :=
  match (s.context n x).state with
  | .suspended _ _ =>
    let s := updMm s fun m => { m with demand := m.demand.filter fun d => d.who != .context n x }
    (stOk, match a with
      | .retry => wake (endWaits s (.context n x)) n x
      | .next => wake (updCtx (endWaits s (.context n x)) n x fun k => { k with pc := nextPc k.pc (extAtPc s n x) }) n x
      | .halt => haltCtx s n x)
  | _ => (stState, s)

end Sys2Proof.Machine
end

