-- ==== Sys2Proof/Machine/ProofOps.lean ====
section
/-!
DEFINITION. Proof intervals, unit aggregates, Proof records and the indices of the device key (R331 to R346).
-/
namespace Sys2Proof.Machine

/-- Change the trust state. -/
def updPf (s : State) (f : Trust → Trust) : State := { s with pf := f s.pf }

/-! ### Byte strings (R328) -/

/-- The bytes of a serial number, in the order in which they are produced. -/
def serialBytes (d : BitVec 128) : List Byte := (List.range 16).map fun i => BitVec.ofNat 8 (d.toNat / 256 ^ (15 - i))

/-- A serial number from its bytes. -/
def serialOf (bs : List Byte) : BitVec 128 := BitVec.ofNat 128 (bs.foldl (fun a b => a * 256 + b.toNat) 0)

/-- A digest from its bytes. -/
def digestOf (bs : List Byte) : Digest := BitVec.ofNat 256 (bs.foldl (fun a b => a * 256 + b.toNat) 0)

/-- Zero bytes. -/
def zeros (n : Nat) : List Byte := List.replicate n 0

/-- A signed number in w bytes of two's complement. -/
def leSigned (w : Nat) (v : Int) : List Byte := leBytes w (bitsOf (8 * w) v)

/-! ### Keys (R327, Table 10.1) -/

/-- A parameter set of RFC 8391 by its height and its layers; one layer is XMSS, more are XMSS^MT. -/
structure ParamSet where
  h : Nat
  d : Nat

/-- The size of a signature: index, randomness, and the WOTS+ signatures and paths of the layers. -/
def ParamSet.sigSize (p : ParamSet) : Nat :=
  (if p.d ≤ 1 then 4 else (p.h + 7) / 8) + 32 + (p.h + 67 * p.d) * 32

/-- The parameter sets of the four keys. -/
def rootSet : ParamSet := ⟨60, 6⟩
def deviceSet : ParamSet := ⟨40, 4⟩
def ownerSets : List ParamSet := [⟨10, 1⟩, ⟨16, 1⟩, ⟨20, 1⟩, ⟨20, 2⟩, ⟨40, 4⟩]
def plateSet : ParamSet := ⟨16, 1⟩

/-- The parameter set, among some, that the OID of an encoded public key names. -/
def keySet (ps : List ParamSet) (key : List Byte) : Option ParamSet :=
  if key.length = 68 then ps.find? fun p => Config.oid p.h p.d == (key.take 4).foldl (fun a b => a * 256 + b.toNat) 0 else none

/-- Verify a signature under a key that must be of one of some parameter sets. -/
def verify (ps : List ParamSet) (key message signature : List Byte) : Bool :=
  match keySet ps key with
  | some p => signature.length == p.sigSize && Config.verifies key message signature
  | none => false

/-- The index field that a signature of a parameter set begins with (RFC 8391; R327, R345): highest byte first. -/
def ParamSet.indexField (p : ParamSet) (index : Nat) : List Byte :=
  (leBytes (if p.d ≤ 1 then 4 else (p.h + 7) / 8) index).reverse

/-- The device key's signature over a message with an index (R333): the index in the signature's own field (R345), and the rest in the size of its
parameter set. -/
def deviceSignature (index : Nat) (message : List Byte) : List Byte :=
  (deviceSet.indexField index ++ Config.deviceSign index message ++ zeros deviceSet.sigSize).take deviceSet.sigSize

/-! ### Digests of what is in force -/

/-- OWNER_DIGEST of a key (R347). -/
def keyDigest (k : List Byte) : Digest := Config.shake256 ([0x50] ++ k)

/-- OWNER_DIGEST, zero when unowned. -/
def ownerDigest (p : Trust) : Digest := match p.owner with | some k => keyDigest k | none => 0

/-- The bytes of a safety record (Table 2.12). -/
def safetyBytes (r : Safety) : List Byte :=
  leBytes 4 (bitsOf 20 r.park) ++ leBytes 4 (bitsOf 20 r.fault) ++ leBytes 4 (bit r.imm * 2 ^ 31 + r.e * 2 ^ 26 + r.m * 2 ^ 16 + r.period)
    ++ leBytes 4 r.openDly

/-- Bytes 0x000 to 0x15F of a calibration slot (Table 13.4). -/
def calSlotBytes (n : Chan) (c : CalSet) : List Byte :=
  leBytes 4 0x4C433648 ++ leBytes 2 1 ++ leBytes 1 n.val ++ leBytes 1 (bit c.run + 2 * bit c.refvSet) ++ leBytes 8 c.seq ++ leBytes 4 c.calcnt
    ++ zeros 4 ++ leBytes 8 c.tRun ++ leBytes 8 c.epochRun ++ leBytes 8 c.epochRef
    ++ ((c.cpsId.take 5).flatMap fun w => leBytes 2 w.toNat) ++ zeros (16 - 2 * min 5 c.cpsId.length) ++ safetyBytes c.safety
    ++ (c.segmap.flatMap fun w => leBytes 2 w.toNat) ++ leBytes 4 c.adcred.toNat ++ zeros 4 ++ (c.trims.flatMap fun w => leBytes 2 w.toNat)
    ++ (c.coef.flatMap fun p => leSigned 4 p.1 ++ leSigned 4 p.2) ++ (c.refv.flatMap fun v => leSigned 4 v) ++ zeros 24

/-- The calibration set in force of a channel (R407). -/
def setInForce (c : Calib) : Option CalSet := (c.slots[c.slot]?).getD none

/-- The digest of the calibration slot in force (R407). -/
def calSlotDigest (s : State) (n : Chan) : Digest :=
  match setInForce s.chans[n].cal with
  | some c => Config.shake256 ([0x61] ++ calSlotBytes n c)
  | none => 0

/-- CAL_DIGEST (Table 10.5). -/
def calDigest (s : State) : Digest := Config.shake256 ([0x60] ++ allChans.flatMap fun n => digestBytes (calSlotDigest s n))

/-- CAL_EPOCH (R407): the highest epoch of the sets in force. -/
def calEpochOf (s : State) : Nat :=
  allChans.foldl (fun a n => match setInForce s.chans[n].cal with | some c => max a (max c.epochRun c.epochRef) | none => a) 0

/-- PLATE_REC of a record body (R358); zero when no record has been read. -/
def plateDigest (body : List Byte) : Digest := if body.isEmpty then 0 else Config.shake256 ([0x80] ++ body)

/-- The SERIAL of a record body (Table 11.1). -/
def plateSerial (body : List Byte) : BitVec 128 := serialOf ((body.drop 0x10).take 16)

/-! ### Intervals (R339 to R341, R346) -/

/-- What a Proof records as it stands at T_END. -/
def endState (s : State) : EndState :=
  { fwVersion := s.fw.version
    fwDigest := s.fw.digest
    plateGen := s.pl.gen
    plateState := if !s.pl.body.isEmpty && (s.pl.sess == .live || s.pl.sess == .refused) then s.pl.pstate else 0
    plateSerial := if s.pl.body.isEmpty then 0 else plateSerial s.pl.body
    plateCycles := if s.pl.body.isEmpty then 0 else s.pl.cyc
    plateRec := plateDigest s.pl.body
    calcnts := allChans.map fun n => match setInForce s.chans[n].cal with | some c => c.calcnt | none => 0
    cflags := allChans.map fun n => s.chans[n].proof.cflags
    ens := s.ht.units.toList.map (·.en)
    tai := (s.fw.tai.1, s.fw.tai.2.1, s.fw.tai.2.2, s.fw.ptpState)
    calEpoch := calEpochOf s
    calDigest := calDigest s
    ownerDigest := ownerDigest s.pf }

/-- The open interval after the conditions of ALIGN and HOLDOVER as they stand now (R346). -/
def alignNow (s : State) (v : Interval) : Interval :=
  { v with
    holdover := v.holdover || s.tb.holdover
    unaligned := v.unaligned || !s.tb.aligned
    aligner := v.aligner || s.tb.skewEn || s.tb.timingRef
    timingRef := v.timingRef || s.tb.timingRef
    noLink := v.noLink || (sibiaUp s).isEmpty }

/-- Change the open interval. -/
def updInterval (s : State) (f : Interval → Interval) : State := updPf s fun p => { p with interval := p.interval.map f }

/-- Take notice of alignment, holdover and links after they may have changed (R278, R346). -/
def noteAlign (s : State) : State :=
  let s := updInterval s (alignNow s)
  if s.tb.holdover then { s with ht := { s.ht with holdover := true } } else s

/-- Open an interval at a boundary (R339): the CFLAGS start anew. -/
def openInterval (s : State) (tick frame : Nat) : State :=
  let s := { s with chans := s.chans.map fun c => { c with proof := { c.proof with cflags := bit c.force.relieved } } }
  updPf s fun p => { p with interval := some (alignNow s { tStart := tick, frameFirst := frame }) }

/-- Whether a boundary ends the interval by the first two conditions of R339. `frame` is the number of the frame that begins there. -/
def endQualifies (p : Trust) (v : Interval) (tick frame : Nat) (scheduled : Bool) : Bool :=
  v.tStart + 3200000 ≤ tick && frame % max p.frames 1 = 0 && scheduled

/-- Intervals at a boundary that ends frame `num` (R339, R341). -/
def turnInterval (s : State) (tick num : Nat) (scheduled final : Bool) : State :=
  match s.pf.interval with
  | none => s
  | some v =>
    let q := endQualifies s.pf v tick (num + 1) scheduled
    if q && !final && s.pf.held.length ≥ 8 then
      let s := updInterval s fun v => { v with merged := v.merged + 1 }
      raise (updPf s fun p => { p with merged := satAdd max32 p.merged 1 }) 275
    else if q || final then
      let done := { alignNow s v with tEnd := tick, frameLast := num, trunc := !q, final := final, atEnd := some (endState s),
                                        frozen := final && s.pf.held.length ≥ 8 }
      let s := updPf s fun p => { p with interval := none, ended := p.ended ++ [done] }
      if final then s else openInterval s tick (num + 1)
    else s

/-! ### Unit aggregates (R346, Table 10.7) -/

/-- Whether two settings count as the same (R346). -/
def sameCfg (a b : UnitCfg) : Bool := a.inp == b.inp && a.urange == b.urange && a.excl == b.excl

/-- An aggregate after one frame's record. -/
def foldRecord (a : UnitProof) (b : HatchBuf) : UnitProof :=
  { a with
    count := a.count + b.count
    sum := a.sum + b.sum
    sumsq := a.sumsq + b.sumsq
    min := if b.min < a.min then b.min else a.min
    minT := if b.min < a.min then b.minT else a.minT
    max := if b.max > a.max then b.max else a.max
    maxT := if b.max > a.max then b.maxT else a.maxT
    part := a.part || b.part
    frames := a.frames + 1 }

/-- The aggregates after a record, one for each settings. -/
def foldCfg (cfg : UnitCfg) (b : HatchBuf) : List UnitProof → List UnitProof
  | [] => [foldRecord { cfg := cfg } b]
  | a :: as => if sameCfg a.cfg cfg then foldRecord a b :: as else a :: foldCfg cfg b as

/-- A unit's account after a frame: its record, or none where its slot was absent. -/
def foldUnit (r : Option (HatchBuf × UnitCfg)) (u : UnitAgg) : UnitAgg :=
  match r with
  | some (b, cfg) => { u with recs := foldCfg cfg b u.recs, last := some cfg }
  | none => { u with absent := true }

/-- A unit record (Table 10.7): the aggregate of the settings of the last frame, over `frames` frames. -/
def unitRec (en : Bool) (frames : Nat) (u : UnitAgg) : UnitRec :=
  let a := (u.last.bind fun c => u.recs.find? fun a => sameCfg a.cfg c).getD {}
  { agg := a, en := en, part := a.part || u.absent, excluded := frames - a.frames }

/-- A frame summary is handed over (R288, R337): the summary chain advances; a frame that lay in an interval (`frame`) enters the aggregates, and after
the interval's last frame they are taken for its Proof. -/
def handOver (s : State) (words : List Word) (frame : Bool) (boundary : Nat) (absent : Bool)
    (recs : Nat → Option (HatchBuf × UnitCfg)) : State :=
  let head := Config.shake256 ([0x21] ++ digestBytes s.pf.summaryHead ++ chainBytes words)
  let s := updPf s fun p => { p with summaryHead := head, summaries := p.summaries + 1, absent := p.absent || absent }
  let i := s.pf.ended.findIdx? fun v => !v.handed
  if !frame || (i.isNone && s.pf.interval.isNone) then s
  else
    let s := updPf s fun p =>
      { p with emitted := p.emitted + 1, units := p.units.mapFinIdx fun u a _ => foldUnit (recs u) a }
    match i with
    | none => s
    | some j =>
      updPf s fun p =>
        match p.ended[j]? with
        | some v =>
          if v.tEnd = boundary then
            let ens := (v.atEnd.map (·.ens)).getD []
            let us := p.units.toList.zipIdx.map fun x => unitRec ((ens[x.2]?).getD false) p.emitted x.1
            { p with
              ended := p.ended.set j { v with
                handed := true, summaryHead := p.summaryHead, summaries := p.summaries, incomplete := p.absent, units := us }
              units := Vector.replicate 144 {}, emitted := 0, summaries := 0, absent := false }
          else p
        | none => p

/-! ### Channel records (R338, Table 10.6) -/

/-- Whether Proof number q covers a packet (R338): its first dated word lies before T_END, or it was committed while no interval ran and q is the first
Proof after that. -/
def packetCovered (q tEnd : Nat) (e : ChainEntry) : Bool := e.first.any (· < tEnd) || e.owed.any (· ≤ q)

/-- Whether Proof number q covers the next packet of a list of entries. -/
def nextCovered (q tEnd : Nat) (es : List ChainEntry) : Bool := (es.find? (·.first.isSome)).any (packetCovered q tEnd)

/-- Whether a GAP of DISABLE that no packet follows is covered: by the first Proof sealed after its commit (R338), and one whose body is frozen at
its final boundary takes none of a later commit (R341). -/
def lastGapCovered (v : Interval) (e : ChainEntry) (es : List ChainEntry) : Bool :=
  e.byDisable && es.all (·.first.isNone) && (!v.frozen || e.commit ≤ v.tEnd)

/-- How many entries Proof number q covers (R338): a prefix of those that no Proof covers yet. -/
def coveredCount (q : Nat) (v : Interval) : List ChainEntry → Nat
  | [] => 0
  | e :: es =>
    if packetCovered q v.tEnd e || (e.first.isNone && (lastGapCovered v e es || nextCovered q v.tEnd es)) then coveredCount q v es + 1 else 0

/-- The channel record of the covered entries. -/
def chanRec (c : ChanProof) (es : List ChainEntry) : ChanRec :=
  { head := (es.getLast?.map (·.head)).getD c.covered
    entries := es.length
    words := min max32 (es.foldl (fun a e => a + e.words) 0)
    gapWords := min max32 (es.foldl (fun a e => a + e.gap) 0)
    lastSeq := (es.filterMap (·.seq)).getLast? }

/-- A chain once the entries are covered. -/
def coverChain (q : Nat) (v : Interval) (c : ChanProof) : ChanProof :=
  let k := coveredCount q v c.entries
  let es := c.entries.take k
  { c with
    entries := c.entries.drop k
    covered := (chanRec c es).head
    lastCovered := match (es.filter fun e => e.seq.isSome).getLast? with
      | some e => e.seq.map fun q => (e.commit, q)
      | none => c.lastCovered }

/-! ### The Proof record (R345, Tables 10.5 to 10.8) -/

/-- ALIGN (R346; an interval with holdover is never VERIFIED for a device that takes part in alignment, R39). -/
def alignOf (v : Interval) : Nat :=
  if !v.aligner then 2 else if v.timingRef then (if v.noLink || v.holdover then 1 else 0) else if v.unaligned || v.holdover then 1 else 0

/-- Seal the body of an interval's Proof (t2 of Table 10.4). The fields that T_END does not date are as they stand now, but for a body that is
frozen at its final boundary (R341). -/
def sealProof (s : State) (v : Interval) (e : EndState) : State :=
  let f := if v.frozen then e else endState s
  let p : Proof :=
    { interval := v, atEnd := e, seq := s.pf.proofSeq, first := s.pf.proofSeq = 0, debug := s.pf.debug, keyend := s.pf.keyend && v.final
      align := alignOf v, sysid := s.fw.straps.sysid.toNat, serial := Config.serial, bootCnt := s.pf.bootCnt
      tai := f.tai, calEpoch := f.calEpoch, calDigest := f.calDigest, ownerDigest := f.ownerDigest
      channels := allChans.map fun n =>
        let c := s.chans[n].proof
        chanRec c (c.entries.take (coveredCount s.pf.proofSeq v c.entries))
      units := v.units, prevDigest := 0, sigIndex := none, signed := false, sealedAt := s.tb.now }
  let s := { s with chans := s.chans.map fun c => { c with proof := coverChain s.pf.proofSeq v c.proof } }
  updPf s fun f => { f with held := f.held ++ [p], proofSeq := f.proofSeq + 1, ended := f.ended.drop 1 }

/-- The flags of a Proof (Table 10.8). -/
def proofFlags (p : Proof) : Nat :=
  let v := p.interval
  512 * bit v.incomplete + 256 * bit v.holdover + 128 * bit v.plchg + 64 * bit v.calchg + 32 * bit v.fwchg + 16 * bit p.debug
    + 8 * bit p.keyend + 4 * bit p.first + 2 * bit v.trunc + bit (v.merged != 0)

/-- A channel record's bytes. -/
def chanRecBytes (c : ChanRec) (calcnt cflags : Nat) : List Byte :=
  digestBytes c.head ++ leBytes 4 c.entries ++ leBytes 4 c.words ++ leBytes 4 c.gapWords
    ++ leBytes 4 (match c.lastSeq with | some q => q % 2 ^ 17 | none => 2 ^ 31) ++ leBytes 4 calcnt ++ leBytes 4 cflags ++ zeros 8

/-- A unit record's bytes. -/
def unitRecBytes (u : Nat) (r : UnitRec) : List Byte :=
  let a := r.agg
  leBytes 8 a.count ++ leSigned 12 a.sum ++ leSigned 4 a.min ++ leBytes 16 a.sumsq ++ leBytes 8 a.minT ++ leBytes 8 a.maxT ++ leSigned 4 a.max
    ++ leBytes 4 (bit r.en * 2 ^ 31 + bit r.part * 2 ^ 30 + bit a.cfg.inp * 2 ^ 29 + a.cfg.urange * 2 ^ 24 + min 4095 r.excluded * 2 ^ 12 + u)

/-- The body of a Proof, bytes 0x0000 to 0x3657. -/
def proofBody (p : Proof) : List Byte :=
  let v := p.interval
  let e := p.atEnd
  leBytes 4 0x46503648 ++ leBytes 2 1 ++ leBytes 2 (proofFlags p) ++ leBytes 4 23805 ++ leBytes 1 p.sysid ++ leBytes 1 p.align
    ++ leBytes 1 e.plateGen ++ leBytes 1 e.plateState ++ serialBytes p.serial ++ leBytes 4 p.bootCnt ++ leBytes 4 p.seq ++ leBytes 4 v.merged
    ++ leBytes 4 e.fwVersion.toNat ++ leBytes 8 v.frameFirst ++ leBytes 8 v.frameLast ++ leBytes 8 v.tStart ++ leBytes 8 v.tEnd
    ++ leBytes 8 p.tai.1 ++ leBytes 8 (p.tai.2.1 % 2 ^ 48) ++ leBytes 4 p.tai.2.2.1 ++ leBytes 4 p.tai.2.2.2 ++ leBytes 8 p.calEpoch
    ++ digestBytes e.fwDigest ++ digestBytes p.calDigest ++ serialBytes e.plateSerial ++ leBytes 8 e.plateCycles ++ digestBytes e.plateRec
    ++ digestBytes p.ownerDigest ++ digestBytes p.prevDigest ++ digestBytes v.summaryHead ++ leBytes 4 v.summaries ++ zeros 4
    ++ (p.channels.zipIdx.flatMap fun c => chanRecBytes c.1 ((e.calcnts[c.2]?).getD 0) ((e.cflags[c.2]?).getD 0))
    ++ (p.units.zipIdx.flatMap fun u => unitRecBytes u.2 u.1) ++ leBytes 8 (p.sigIndex.getD 0)

/-- The digest of a Proof (R345). -/
def proofDigest (p : Proof) : Digest := Config.shake256 ([0x30] ++ proofBody p)

/-- A record as the proof ring takes it: body, signature, and zero bytes up to a multiple of 64 (R344). -/
def proofRecord (p : Proof) : List Byte :=
  let b := proofBody p
  b ++ (deviceSignature (p.sigIndex.getD 0) b ++ zeros 23808).take (23808 - b.length)

/-- Words of a list of bytes, lowest byte first. -/
def wordsOf : List Byte → List Word
  | a :: b :: c :: d :: rest => word (ofBytes [a, b, c, d]) :: wordsOf rest
  | [] => []
  | bs => [word (ofBytes bs)]

/-! ### The indices of the device key (R332 to R335) -/

/-- CHECK of an index slot (R332). -/
def slotCheck (seq bound boot : Nat) : Digest := Config.shake256 ([0x40] ++ leBytes 8 seq ++ leBytes 8 bound ++ leBytes 4 boot ++ zeros 12)

/-- Whether an index slot is valid. -/
def IndexSlot.valid (i : IndexSlot) : Bool := i.check == slotCheck i.seq i.bound i.boot

/-- The current slot: the valid one with the highest SEQ. -/
def newestSlot (slots : Vector (Option IndexSlot) 64) : Option IndexSlot :=
  slots.foldl (fun a i =>
    match i with
    | some i => if i.valid && (match a with | some c => c.seq < i.seq | none => true) then some i else a
    | none => a) none

/-- Write an index slot, which becomes the current one. -/
def writeSlot (p : Trust) (seq bound boot : Nat) : Trust :=
  { p with
    slots := p.slots.set (seq % 64) (some ⟨seq, bound, boot, slotCheck seq bound boot⟩)
    slotSeq := seq, bound := bound, bootCnt := boot }

/-- The write of the slot with a SEQ has not become whole: it holds nothing valid. -/
def spoilSlot (slots : Vector (Option IndexSlot) 64) (seq : Nat) : Vector (Option IndexSlot) 64 := slots.set (seq % 64) none

/-- Reserve the next block of indices (R333). Each write whose read-back fails is repeated in the next slot, until one passes: `fails` fail first. -/
def reserveBlock (p : Trust) (fails : Nat) : Trust :=
  let slots := (List.range fails).foldl (fun v i => spoilSlot v (p.slotSeq + 1 + i)) p.slots
  writeSlot { p with slots := slots } (p.slotSeq + 1 + fails) (p.bound + 16384) p.bootCnt

/-- KEYWARN (R335). -/
def keyWarn (p : Trust) : Bool := p.bound > 2 ^ 40 - 2 ^ 36

/-- Take the next index (R333), after a reservation where one is due, of which `fails` read-backs fail; none when all are used. -/
def takeIndex (p : Trust) (fails : Nat) : Option (Nat × Trust) :=
  if p.sigNext ≥ 2 ^ 40 then none
  else
    let q := if p.sigNext ≥ p.bound then reserveBlock p fails else p
    some (p.sigNext, { q with sigNext := p.sigNext + 1 })

/-! ### Work of class 2 (R324, R340, R344) -/

/-- The first held Proof that is not signed. -/
def unsigned (p : Trust) : Option Nat := p.held.findIdx? fun q => q.sigIndex.isNone

/-- Whether a record can be written into the proof ring now. -/
def ringTakes (s : State) : Bool := s.pf.ring.en && !s.pf.ring.fault && !ddrAsleep s && !s.pf.ring.lacks 23808

/-- Whether Proofs occupy the MP or wait for it: one that it signs, one that it can start to sign, one that it can write. -/
def proofWork (s : State) : Bool :=
  s.pf.signing || (s.pf.ready && (unsigned s.pf).isSome && (takeIndex s.pf 0).isSome)
    || ((s.pf.held.head?.map (·.signed)).getD false && ringTakes s)

/-- Whether the device key comes to its end (R335). -/
def keyEnds (p : Trust) : Bool := !p.keyend && p.sigNext + 16 ≥ 2 ^ 40

/-- A write of PF_CTRL (R339): refused while frames are enabled. -/
def pfCtrl (s : State) (v : Word) : State :=
  updPf s fun p =>
    if s.ht.en || s.ht.armed || s.ht.run then { p with ctrlRej := true } else { p with en := flag v 31, frames := field v 15 0 }

/-- A write of PF_RING_RD_HI (R344, R438). -/
def pfRdWrite (s : State) (hi : Word) : State :=
  updPf s fun f => { f with ring := if s.hht.stream.getLsbD 8 then { f.ring with rdRej := true } else ringCommit f.ring hi }

/-! ### The end of frames (R276, R335, R351) -/

/-- Frames end or disarm as by a write of EN = 0; the last frame is cut where its scheduled end comes later. Frames that would have begun again after
a final boundary do not. -/
def endFrames (s : State) : State :=
  if !s.ht.en then s
  else if s.ht.armed then { s with ht := { s.ht with en := false, disarm := true } }
  else if s.ht.again then { s with ht := { s.ht with en := false, again := false } }
  else
    let t := nextSample s
    { s with ht := { s.ht with en := false, endAt := some t, cut := t < s.ht.next, next := min s.ht.next t } }

/-- After an index has been used, the device key may have come to its end (R335). -/
def checkKeyEnd (s : State) : State := if keyEnds s.pf then endFrames (updPf s fun p => { p with keyend := true }) else s

end Sys2Proof.Machine
end

