-- ==== Sys2Proof/Machine/FrameOps.lean ====
section
/-!
DEFINITION. Frames and the collector (R272 to R291): the frame control register, boundaries, slots of the collector, and the packets of a
summary.
-/
namespace Sys2Proof.Machine

/-- Change the frame state. -/
def updHt (s : State) (f : Frames → Frames) : State := { s with ht := f s.ht }

/-! ### HT_FRM_CTRL (R272 to R276, R286) -/

/-- The limits of LEN and, in AT mode, of START (R272). -/
def gridOk (h : Frames) (token : Bool) : Bool :=
  h.len % 800 = 0 && 1600000 ≤ h.len && h.len ≤ 70368744177600 && (token || h.start % 800 = 0)

/-- The number of the first frame in AT mode (R273). -/
def firstFrame (h : Frames) (tick : Nat) : Nat := if h.start ≥ tick then 0 else (tick - h.start + h.len - 1) / h.len

/-- Frames are enabled: ARMED until the first boundary, which comes no earlier than a sample tick (R273). -/
def armAt (tick : Nat) (h : Frames) : Frames :=
  let k := firstFrame h tick
  let h := { h with en := true, armed := true, disarm := false, again := false }
  if h.token then { h with num := 0, next := 0 } else { h with num := k, next := h.start + k * h.len }

/-- EN is written 1 where it was 0 (R273). An EN = 0 that has not yet applied still ends the frame in progress (R276), and the frames begin again from
that boundary on. -/
def armFrames (s : State) : State := updHt s fun h => if h.run then { h with en := true, again := true } else armAt (nextSample s) h

/-- A write of HT_FRM_CTRL (R272 to R276, R286, R335). SNAP and MODE are judged on the state before the write. -/
def frmCtrlWrite (s : State) (v : Word) : State :=
  let busy := s.ht.en || s.ht.armed
  let refused := flag v 1 != s.ht.token && busy
  let token := if refused then s.ht.token else flag v 1
  let starts := flag v 0 && !s.ht.en
  if starts && (s.pf.keyend || !gridOk s.ht token) then updHt s fun h => { h with frmRej := true }
  else
    let s := updHt s fun h =>
      { h with
        frmRej := h.frmRej || refused, token := token
        snapRej := h.snapRej || (flag v 2 && busy), snapReq := h.snapReq || (flag v 2 && !busy) }
    if starts then armFrames s else if flag v 0 then s else endFrames s

/-! ### Boundaries (R275 to R278) -/

/-- Comparators of a channel at a boundary: LCLR clears the latches (R251). -/
def clearAtFrame (c : Comparator) : Comparator := if flag c.cfg 1 then clearLatches true true c else c

/-- Packets and latches of a channel at a boundary (R277): the packet closes once every word before the boundary can have been dated. -/
def channelBoundary (tick : Nat) (s : State) (n : Chan) : State :=
  let s := updCmp (updCmp s n .a clearAtFrame) n .b clearAtFrame
  flushIdle (askClose s n tick 3) n (tick + 1 - captureLead) (tick + 1 - captureLead)

/-- The frame that a boundary ends, as the collector holds it. -/
def endedFrame (s : State) (tick : Nat) (trunc : Bool) : HeldFrame :=
  { number := s.ht.num, start := s.ht.frameStart, boundary := tick, trunc := trunc, manual := false
    holdover := s.ht.holdover || s.tb.holdover, deviceReady := false, proofed := s.pf.interval.any (·.tStart ≤ s.ht.frameStart), slots := Vector.replicate 76 .empty }

/-- The first boundary after frames are enabled (R275): no record. -/
def firstBoundary (s : State) (tick : Nat) : State :=
  let s := turnUnits s tick false
  let s := updHt s fun h => { h with armed := false, run := true, ran := h.num, frameStart := tick, next := tick + h.len, endAt := none, cut := false }
  if s.pf.en then openInterval s tick s.ht.num else s

/-- A boundary that ends a frame (R276, R277). -/
def frameEnd (s : State) (tick : Nat) : State :=
  let final := s.ht.endAt = some tick
  let scheduled := !(final && s.ht.cut)
  let num := s.ht.num
  let f := endedFrame s tick (final && s.ht.cut)
  let s := turnUnits s tick true
  let s := updHt s fun h =>
    let h := { h with held := h.held ++ [f], frameStart := tick }
    if final then
      let h := { h with run := false, next := 0, endAt := none, cut := false }
      if h.again then armAt tick h else h
    else { h with num := num + 1, ran := num + 1, next := tick + h.len }
  turnInterval s tick num scheduled final

/-- A frame boundary (R277), once the counter is within a sample period of it. -/
def frameBoundaryOp (s : State) : State :=
  let tick := s.ht.next
  if !boundaryDue s tick || nextSample s < tick then s
  else
    let s := { s with tb := { s.tb with now := max s.tb.now tick } }
    let s := if s.ht.armed then firstBoundary s tick else frameEnd s tick
    let s := if boundaryDue s tick then firstBoundary s tick else s
    let s := allChans.foldl (channelBoundary tick) s
    wakeSyncf (raiseAt s 273 (some tick))

/-- A sample tick of the whole device. What lies at its instant and not behind its capture comes first: the writes of the group enables that are due at
its slot boundary (R260), and a boundary that FRAME_BOUNDARY has not carried out, so that a write after the tick finds the boundary past (R276, R282;
assumption 30). -/
def sampleTick (s : State) (tick : Nat) : State :=
  let s := if boundaryDue s tick then frameBoundaryOp s else s
  deviceTick (groupTick s (tick / 16)) tick

/-! ### Units (R283, R284) -/

/-- The unit that a path addresses. -/
def pathUnit (s : State) (p : Path) : Option (Fin 144) := if h : (s.path p).unitIdx < 144 then some ⟨(s.path p).unitIdx, h⟩ else none

/-- Whether the range of a unit configuration exists (R284). -/
def unitRangeOk (u : Fin 144) (r : Nat) : Bool := u.val ≥ 136 || (if u.val % 2 = 0 then r ≤ 2 else r ≤ 8)

/-- A changed configuration is staged (R284). -/
def stageCfg (k : HatchUnit) (c : UnitCfg) : HatchUnit := if k.staged.getD k.cfg == c then k else { k with staged := some c }

/-- A write of HT_UNIT_CFG (Table 8.8). Device units have no INP and no EXCL. -/
def writeUnitCfg (s : State) (u : Fin 144) (v : Word) : State :=
  updUnit s u fun k =>
    let r := field v 19 16
    if !unitRangeOk u r then { k with cfgRej := true }
    else
      let dev := u.val ≥ 136
      let k := { k with enNext := some (flag v 31, flag v 30) }
      stageCfg k { k.staged.getD k.cfg with
        inp := !dev && flag v 29, hist := flag v 28, k := field v 27 24
        excl := if dev then 0 else BitVec.ofNat 4 (field v 23 20), urange := r }

/-- A write of HT_UNIT_BASE. -/
def writeUnitBase (s : State) (u : Fin 144) (v : Word) : State :=
  updUnit s u fun k => stageCfg k { k.staged.getD k.cfg with base := sfield v 23 0 }

/-! ### The collector (R285 to R288) -/

/-- The units of a slot. -/
def slotUnits (slot : Fin 76) : List (Fin 144) :=
  if h : slot.val < 68 then [⟨2 * slot.val, by omega⟩, ⟨2 * slot.val + 1, by omega⟩] else [⟨68 + slot.val, by omega⟩]

/-- Whether a channel's slot is ready for a boundary (R285, R286): its bank is up, no pair converted before or at the boundary is under
way, and no packet of the frame waits to be committed. -/
def channelReady (s : State) (n : Chan) (tick : Nat) : Bool :=
  let m := s.chans[n].meas
  s.banks[bankOf n].up && s.tb.lastSample.any (tick ≤ ·) && m.convs.all (tick < ·.tick) && m.closes.all (tick < ·.1)

/-- Whether a slot is ready for a frame. -/
def slotReady (s : State) (slot : Fin 76) (f : HeldFrame) : Bool :=
  if h : slot.val < 68 then channelReady s ⟨slot.val, h⟩ f.boundary else f.deviceReady

/-- The sequence number of a channel's last packet of a frame, or of a snapshot's span (Table 8.4, R286). -/
def lastPacket (c : ChanProof) (f : HeldFrame) : Option Nat :=
  let within := fun t : Nat => f.start ≤ t && t < f.boundary
  let mine := c.entries.filter fun e => e.seq.isSome && (if f.manual then within e.commit else e.first.any within)
  match mine.getLast? with
  | some e => e.seq
  | none => if f.manual then c.lastCovered.bind fun l => if within l.1 then some l.2 else none else none

/-- A field of several DATA words, least significant 24 bits first (R291). -/
def dataWords (k v : Nat) : List Word := (List.range k).map fun i => resultWord 3 0xA (v / 2 ^ (24 * i))

/-- The DATA words of a unit block (Table 8.5). -/
def unitData (b : HatchBuf) (c : UnitCfg) : List Word :=
  dataWords 1 (bitsOf 24 c.base) ++ dataWords 2 b.count ++ dataWords 1 (bitsOf 24 b.min) ++ dataWords 3 b.minT ++ dataWords 1 (bitsOf 24 b.max)
    ++ dataWords 3 b.maxT ++ dataWords 3 (bitsOf 72 b.sum) ++ dataWords 4 b.sumsq ++ dataWords 2 b.under ++ dataWords 2 b.overs
    ++ b.q.reverse.flatMap (dataWords 2)

/-- The HIST words (R291). -/
def histWords (bins : List (Nat × Nat)) : List Word :=
  let h := bins.foldl (fun a p => a + p.2 * 2 ^ (32 * p.1)) 0
  (List.range 683).map fun j => resultWord 3 0xB (h / 2 ^ (24 * j))

/-- A unit block (R290). -/
def unitBlock (u : Nat) (b : HatchBuf) (c : UnitCfg) : List Word :=
  let head := resultWord 3 9 (bit b.enabled * 2 ^ 23 + bit b.part * 2 ^ 22 + bit b.bsat * 2 ^ 21 + bit c.hist * 2 ^ 20 + bit c.inp * 2 ^ 19
    + c.k * 2 ^ 15 + c.urange * 2 ^ 11 + u)
  if !b.enabled then [head] else head :: (unitData b c ++ if c.hist then histWords b.bins else [])

/-- The words of a stored slot between PKTHDR and PKTEND. -/
def slotWords (s : State) (slot : Fin 76) (f : HeldFrame) (bufs : List (HatchBuf × UnitCfg)) : List Word :=
  let seq := if h : slot.val < 68 then lastPacket s.chans[(⟨slot.val, h⟩ : Chan)].proof f else some 0
  resultWord 3 0xC (match seq with | some q => q % 2 ^ 17 | none => 2 ^ 22)
    :: ((slotUnits slot).zip bufs).flatMap fun x => unitBlock x.1.val x.2.1 x.2.2

/-- Whether a slot of a frame is still empty. -/
def slotEmpty (f : HeldFrame) (slot : Fin 76) : Bool := f.slots[slot] == .empty

/-- The units of a slot give up their closed buffers. -/
def releaseBufs (s : State) (slot : Fin 76) : State := (slotUnits slot).foldl (fun s u => updUnit s u fun k => { k with closed := none }) s

/-- The collector stores a slot's records for the frame whose boundary closed them (R287); after the slot was marked absent, or the frame
emitted, the record is discarded and counted. -/
def storeSlot (s : State) (slot : Fin 76) : State :=
  let us := slotUnits slot
  let bufs := us.filterMap fun u => s.ht.units[u].closed
  let tick := (us.head?.map fun u => s.ht.units[u].closedAt).getD 0
  if bufs.length != us.length then s
  else
    match s.ht.held.findIdx? fun f => f.boundary = tick && slotEmpty f slot with
    | some i =>
      match s.ht.held[i]? with
      | some f =>
        if !slotReady s slot f then s
        else
          let f' := { f with slots := f.slots.set slot (.stored (slotWords s slot f bufs) bufs) }
          releaseBufs (updHt s fun h => { h with held := h.held.set i f' }) slot
      | none => s
    | none =>
      let ready := if h : slot.val < 68 then channelReady s ⟨slot.val, h⟩ tick else true
      if ready then releaseBufs (updHt s fun h => { h with late := min 255 (h.late + us.length) }) slot else s

/-- Why an empty slot is absent (R287). -/
def absentReason (s : State) (slot : Fin 76) (f : HeldFrame) : Nat :=
  let down := if h : slot.val < 68 then !s.banks[bankOf ⟨slot.val, h⟩].up else false
  if down then 2 else if (slotUnits slot).any fun u => s.ht.units[u].closedAt != f.boundary then 1 else 0

/-- A frame after the timeout. -/
def timeOut (s : State) (f : HeldFrame) : HeldFrame :=
  { f with slots := f.slots.mapFinIdx fun i r h => if r == .empty then .absent (absentReason s ⟨i, h⟩ f) else r }

/-- The oldest frame with an empty slot times out (R287). -/
def timeOutFrame (s : State) : State :=
  match s.ht.held.findIdx? fun f => f.slots.any (· == .empty) with
  | some i => updHt s fun h => { h with held := h.held.modify i (timeOut s) }
  | none => s

/-- Device units of the oldest frame that waits for them are ready (R285); what comes after is late (R281). -/
def deviceUnitsReady (s : State) : State :=
  match s.ht.held.findIdx? fun f => !f.deviceReady with
  | some i =>
    updHt s fun h =>
      let h := arriveDelayed ((h.held[i]?.map (·.boundary)).getD 0) h
      { h with held := h.held.modify i fun f => { f with deviceReady := true } }
  | none => s

/-! ### Summaries (R288 to R290) -/

/-- A summary packet: type, slot number and the words between PKTHDR and PKTEND. -/
def summaryPacket (type slot number : Nat) (body : List Word) : List Word :=
  resultWord 0xF type (slot * 2 ^ 17 + number % 2 ^ 17) :: (body ++ [resultWord 0xE 0 (body.length + 2)])

/-- How many slots of a frame are absent. -/
def absentCount (f : HeldFrame) : Nat := f.slots.toList.countP fun r => match r with | .absent _ => true | _ => false

/-- The header packet (R290). -/
def headerPacket (f : HeldFrame) : List Word :=
  let k := absentCount f
  summaryPacket 2 0x7F f.number
    (resultWord 3 8 (bit f.trunc * 2 ^ 23 + bit f.manual * 2 ^ 22 + bit (k != 0) * 2 ^ 21 + bit f.holdover * 2 ^ 20 + k)
      :: (dataWords 3 f.number ++ dataWords 3 f.start ++ dataWords 3 f.boundary))

/-- The words of a slot in a summary. -/
def slotBody (r : SlotRec) : List Word :=
  match r with
  | .stored ws _ => ws
  | .absent k => [resultWord 3 0xC (2 ^ 23 + k * 2 ^ 20)]
  | .empty => []

/-- The 77 packets of a summary. -/
def summaryPackets (f : HeldFrame) : List (List Word) :=
  headerPacket f :: f.slots.toList.zipIdx.map fun x => summaryPacket 3 x.2 f.number (slotBody x.1)

/-- Queue 68 of the frame summaries. -/
def summaryQueue : Fin 256 := 68

/-- Push a whole packet: its PKTHDR, its words, its PKTEND. -/
def pushPacket (s : State) (q : Fin 256) (ws : List Word) : State :=
  match ws with
  | [] => s
  | h :: rest => (pushEnd (pushWords (pushWord s q h true) q rest.dropLast) q (rest.getLast?.getD 0)).1

/-- The record of a unit in a frame; none where its slot is absent. -/
def frameRecord (f : HeldFrame) (u : Nat) : Option (HatchBuf × UnitCfg) :=
  match f.slots[if u < 136 then u / 2 else u - 68]? with
  | some (.stored _ bufs) => bufs[if u < 136 then u % 2 else 0]?
  | _ => none

/-- The oldest frame is emitted once its slots are filled (R288). -/
def emitFrame (s : State) : State :=
  match s.ht.held with
  | [] => s
  | f :: rest =>
    if f.slots.any (· == .empty) then s
    else
      let absent := absentCount f != 0
      let ps := summaryPackets f
      let s := updHt s fun h => { h with held := rest, incomplete := if absent then min 255 (h.incomplete + 1) else h.incomplete }
      let s := ps.foldl (fun s p => pushPacket s summaryQueue p) s
      raise (handOver s ps.flatten f.proofed f.boundary absent (frameRecord f)) 272

end Sys2Proof.Machine
end

