-- ==== Sys2Proof/Machine/HostOps.lean ====
section
/-!
DEFINITION. The command path (R431 to R433): taking a command message, its deadline and length, and posting its response.
-/
namespace Sys2Proof.Machine

/-- Further statuses of Table 14.8. -/
def stBadFormat : Nat := 0x0010
def stBadNonce : Nat := 0x0011
def stBadOp : Nat := 0x0012
def stUnowned : Nat := 0x0013
def stOwned : Nat := 0x0014
def stNotOwner : Nat := 0x0015
def stBadSig : Nat := 0x0016
def stBadArg : Nat := 0x0017
def stKeyEnd : Nat := 0x0018

/-- A 32-bit count that wraps. -/
def count32 (c : Word) (k : Nat) : Word := c + word k

/-- How far a 32-bit count is ahead of another. -/
def ahead (a b : Word) : Nat := (a - b).toNat

/-! ### Responses -/

/-- The bytes of a field of variable length: zero bytes follow up to a multiple of 4 (R431). -/
def padded (bs : List Byte) : List Byte := bs ++ zeros ((4 - bs.length % 4) % 4)

/-- The bytes of a response message (Table 14.6). -/
def rspBytes (r : Rsp) : List Byte :=
  let d := padded r.data
  leBytes 2 r.opcode ++ leBytes 2 r.status ++ leBytes 4 (16 + d.length) ++ wordBytes r.tag ++ zeros 4 ++ d

/-- The size of a response message. -/
def Rsp.size (r : Rsp) : Nat := 16 + (padded r.data).length

/-- Write bytes into a ring window of a size in which counts wrap. -/
def ringStore (m : Mem) (size : Nat) (x : Nat) : List Byte → Mem
  | [] => m
  | b :: bs => ringStore (memWrite m (x % size) b) size (x + 1) bs

/-- The room for responses (R433). -/
def rspRoom (p : PathRegs) : Nat := 16384 - ahead p.rspWr p.rspRd

/-- Post one response on a path: bytes, count, the datagram of HHT, the interrupt of RSPIRQ (source 311), and device unit 142. -/
def postNow (s : State) (p : Path) (r : Rsp) (taken : Nat) : State :=
  let s := updPath s p fun k =>
    { k with
      rsps := k.rsps ++ [r]
      rspRing := ringStore k.rspRing 16384 k.rspWr.toNat (rspBytes r)
      rspWr := count32 k.rspWr r.size }
  let s := offerDevice s 6 taken s.tb.now
  let s := if p == .hht then { s with hht := { s.hht with out := s.hht.out ++ [.rsp ((s.path p).rspWr - word r.size).toNat r.size] } } else s
  if (s.path p).rspirq then raise s 311 else s

/-- Post the responses for which there is room, in the order of their completion; `fuel` bounds their number. -/
def postWaiting : Nat → State → Path → State
  | 0, s, _ => s
  | fuel + 1, s, p =>
    match (s.path p).unposted with
    | [] => s
    | (r, taken) :: rest =>
      if r.size ≤ rspRoom (s.path p) then
        postWaiting fuel (postNow (updPath s p fun k => { k with unposted := rest }) p r taken) p
      else s

/-- Post what waits on a path. -/
def postAll (s : State) (p : Path) : State := postWaiting (s.path p).unposted.length s p

/-- A command has completed: its response is posted once there is room. On HHT it is discarded when no session is live (R436). -/
def respond (s : State) (p : Path) (r : Rsp) (taken : Nat) : State :=
  if p == .hht && !s.hht.live then s
  else postAll (updPath s p fun k => { k with unposted := k.unposted ++ [(r, taken)] }) p

/-! ### Taking a command -/

/-- Whether the MP serves hosts: host-ready or in recovery mode, and not standing still (R448, R450, R456, R459). -/
def servesHosts (s : State) : Bool := (s.fw.ready || s.fw.recovery) && !mpStopped s

/-- Whether the MP serves an access path: recovery mode has no PCIe (R450). -/
def servesPath (s : State) (p : Path) : Bool := servesHosts s && !(s.fw.recovery && p == .pcie)

/-- Whether the MP takes host commands: it has no work of classes 1 and 2 (R324, R325). -/
def takesCommands (s : State) : Bool := servesHosts s && !faultWork s && !proofWork s

/-- The tick since which the oldest command of a path waits; one that no bytes have offered yet comes now. -/
def waitsSince (s : State) (p : Path) : Nat := ((s.path p).offers.head?.map (·.2)).getD s.tb.now

/-- A field of the header that comes next in a path's command ring (Table 14.5). -/
def headField (k : PathRegs) (off n : Nat) : Nat := ofBytes ((List.range n).map fun i => memRead k.cmdRing ((k.cmdRd.toNat + off + i) % 32768))

/-- Whether a whole message waits on a path (R433), by the LENGTH that stands in its ring. -/
def wholeWaits (s : State) (p : Path) : Bool :=
  let k := s.path p
  let offered := ahead k.cmdWr k.cmdRd
  24 ≤ offered && headField k 4 4 ≤ offered

/-- The order of concurrent commands (R432). -/
def pathRank : Path → Nat
  | .pcie => 0
  | .hht => 1
  | .spi => 2
  | .mp => 3

/-- Whether a command of another path is served before the one that comes next on a path: the oldest first, concurrent ones by path (R432). -/
def othersFirst (s : State) (p : Path) : Bool :=
  [Path.pcie, .hht, .spi].any fun q =>
    q != p && servesPath s q && wholeWaits s q
      && (waitsSince s q < waitsSince s p || (waitsSince s q = waitsSince s p && pathRank q < pathRank p))

/-- Whether the MP takes the next command of a path. -/
def takesFrom (s : State) (p : Path) : Bool := takesCommands s && servesPath s p && !othersFirst s p

/-- MSALRTN: low while a response on the management SPI path is unread (R433). -/
def alertOutput (s : State) : Bool := (s.path .spi).rspWr == (s.path .spi).rspRd

/-- Whether a host command waits in a ring: the MP's work of class 3. -/
def hostWork (s : State) : Bool := [Path.pcie, .hht, .spi].any fun p => servesPath s p && (s.path p).cmdWr != (s.path p).cmdRd

/-- The MP takes the housekeeping item that has waited longest, once nothing of a higher class waits (R324); device unit 136 takes its wait. -/
def housekeep (s : State) (p : ErrPlace → Bool) (f : State → State) : State :=
  match s.mm.house with
  | [] => s
  | (q, since) :: rest =>
    if !p q || mpStopped s || faultWork s || proofWork s || hostWork s then s
    else f (offerDevice (updMm s fun m => { m with house := rest }) 0 since s.tb.now)

/-- Whether a 32-bit count has reached another. -/
def reached (a b : Word) : Bool := ahead a b < 2 ^ 31

/-- The count of bytes taken passes a message of a length, and where it had not been offered before, the count of bytes offered does as well.
Device unit 136 takes the time since it was offered. -/
def passMessage (s : State) (p : Path) (len : Nat) : State :=
  let k := s.path p
  let end_ := count32 k.cmdRd len
  let since := ((k.offers.find? fun o => reached (word o.1) end_).map (·.2)).getD s.tb.now
  let s := offerDevice s 0 since s.tb.now
  updPath s p fun k =>
    { k with
      cmdRd := end_
      cmdWr := if len ≤ ahead k.cmdWr k.cmdRd then k.cmdWr else end_
      offers := k.offers.filter fun o => !reached end_ (word o.1) }

/-- Whether an opcode is one of Table 14.7 or Table 15.7 (R431, R452). -/
def knownOpcode (op : Nat) : Bool :=
  op = 0x01 || op = 0x10 || op = 0x11 || (0x20 ≤ op && op ≤ 0x28) || (0x30 ≤ op && op ≤ 0x34) || (0x40 ≤ op && op ≤ 0x4A)

/-- Whether the message that comes next on a path is whole and has an opcode of no command. -/
def unknownNext (s : State) (p : Path) : Bool :=
  let len := headField (s.path p) 4 4
  wholeWaits s p && 24 ≤ len && len ≤ 32768 && len % 4 = 0 && !knownOpcode (headField (s.path p) 0 2)

/-- A deadline that has passed refuses a command with TIMEOUT, which is counted (R325). -/
def pastDeadline (s : State) (deadline : Nat) : Bool := deadline != 0 && deadline < s.tb.now
def countTimeout (s : State) : State := { s with fw := { s.fw with timeouts := satAdd 65535 s.fw.timeouts 1 } }

/-- The message that comes next on a path is answered with UNKNOWN (R431). -/
def answerUnknown (s : State) (p : Path) : State :=
  let k := s.path p
  let late := pastDeadline s (headField k 0x10 8)
  let u := passMessage s p (headField k 4 4)
  respond (if late then countTimeout u else u) p
    ⟨headField k 0 2, if late then stTimeout else stUnknown, word (headField k 8 4), []⟩ s.tb.now

/-- The firmware answers the messages of no command that come next on a path; `fuel` bounds their number. -/
def answerUnknownsN : Nat → State → Path → State
  | 0, s, _ => s
  | fuel + 1, s, p => if unknownNext s p then answerUnknownsN fuel (answerUnknown s p) p else s

/-- Answer them all: a message takes 24 bytes at least of a ring of 32,768. -/
def answerUnknowns (s : State) (p : Path) : State := answerUnknownsN 1366 s p

/-- A message leaves the command stream (assumption 24), after those before it that are of no command. -/
def takeMessage (s : State) (h : Hdr) : State := passMessage (answerUnknowns s h.path) h.path h.len

/-- Whether a header's LENGTH cannot hold the arguments, or breaks Table 14.5. -/
def badLength (h : Hdr) (args : Nat) : Bool := h.len < 24 + args || h.len > 32768 || h.len % 4 != 0

/-- A host command is not executed: the status it is answered with at once, if any (R325, R431, R450). -/
def refusedAtOnce (s : State) (h : Hdr) (args : Nat) (inRecovery : Bool) : Option Nat :=
  if pastDeadline s h.deadline then some stTimeout
  else if badLength h args then some stBadLen
  else if s.fw.recovery && !inRecovery then some stState
  else none

/-- A command of an update session restarts the session's 60 s (R453). -/
def touchSession (s : State) (p : Path) : State :=
  match s.fw.update with
  | some u => if u.path == p then { s with fw := { s.fw with update := some { u with lastCmd := s.tb.now } } } else s
  | none => s

/-- Run a host command (R431): `args` is the size of its arguments, `body` its effect with status and response data, none where the response
follows later. -/
def hostCommand (s : State) (h : Hdr) (opcode args : Nat) (inRecovery : Bool) (body : State → Option (Nat × List Byte) × State) : State :=
  if !takesFrom s h.path then s
  else
    let taken := s.tb.now
    let s := takeMessage s h
    match refusedAtOnce s h args inRecovery with
    | some st =>
      let s := if st = stTimeout then countTimeout s else s
      respond s h.path ⟨opcode, st, h.tag, []⟩ taken
    | none =>
      let r := body s
      match r.1 with
      | some (st, data) => respond r.2 h.path ⟨opcode, st, h.tag, data⟩ taken
      | none => r.2

/-- A command with a status and no data. -/
def statusOnly (r : Nat × State) : Option (Nat × List Byte) × State := (some (r.1, []), r.2)

end Sys2Proof.Machine
end

