-- ==== Sys2Proof/Machine/TrustOps.lean ====
section
/-!
DEFINITION. Nonces, authorisation tokens, attestation records and what the trust commands share (R347 to R352).
-/
namespace Sys2Proof.Machine

/-- Token operations (Table 10.11). -/
def opEnrol : Nat := 0x0001
def opTransfer : Nat := 0x0002
def opOwnerRelease : Nat := 0x0003
def opFwUpdate : Nat := 0x0010
def opCalWrite : Nat := 0x0011
def opPlateLife : Nat := 0x0012
def opPowerBounds : Nat := 0x0013
def opDebugUnlock : Nat := 0x0020

/-- Bytes 0x00 to 0x8F of a token (Table 10.9). -/
def tokenBytes (t : Token) : List Byte :=
  wordBytes t.magic ++ leBytes 2 t.format.toNat ++ leBytes 2 t.op.toNat ++ wordBytes t.length ++ wordBytes t.reserved ++ serialBytes t.serial
    ++ digestBytes t.nonce ++ digestBytes t.signer ++ digestBytes t.argDigest ++ leBytes 8 t.param0.toNat ++ leBytes 8 t.param1.toNat

/-- The outstanding nonce of a path (R348). -/
def nonceOf (p : Trust) (path : Path) : Option Digest := (p.nonces.find? fun n => n.1 == path).map (·.2.1)

/-- The command that presents a path's nonce consumes it (R348). -/
def consumeNonce (s : State) (path : Path) (n : Digest) : State :=
  if nonceOf s.pf path == some n then updPf s fun p => { p with nonces := p.nonces.filter fun k => k.1 != path } else s

/-- A fresh nonce replaces the path's (R348). -/
def issueNonce (s : State) (path : Path) : Digest × State :=
  let r := drawEntropy s
  (r.1, updPf r.2 fun p => { p with nonces := (p.nonces.filter fun k => k.1 != path) ++ [(path, r.1, s.tb.now)] })

/-- Checks 1 and 2 of R349. -/
def tokenFormed (t : Token) : Bool :=
  t.magic == 0x4B543648 && t.format == 1 && t.length.toNat == 144 + t.signature.length && t.reserved == 0 && t.serial == Config.serial

/-- Checks 6 to 8 of R349: the key required, the signature, the argument. -/
def tokenSigned (t : Token) (key arg : List Byte) : Nat :=
  if t.signer != keyDigest key then stNotOwner
  else if !verify ownerSets key (tokenBytes t) t.signature then stBadSig
  else if t.argDigest != Config.shake256 ([0x51] ++ arg) then stBadArg
  else stOk

/-- The checks of R349 in order, without the consumption of the nonce: the token of operation `op` that a command on a path carries with an
argument; `newKey` is the key of an ENROLL. -/
def tokenStatus (s : State) (path : Path) (t : Token) (op : Nat) (newKey : Option (List Byte)) (arg : List Byte) : Nat :=
  if !tokenFormed t then stBadFormat
  else if nonceOf s.pf path != some t.nonce then stBadNonce
  else if t.op.toNat != op then stBadOp
  else
    match newKey, s.pf.owner with
    | some _, some _ => stOwned
    | some k, none => tokenSigned t k arg
    | none, none => stUnowned
    | none, some k => tokenSigned t k arg

/-- Check a token; the nonce it presents is consumed. -/
def useToken (s : State) (path : Path) (t : Token) (op : Nat) (newKey : Option (List Byte)) (arg : List Byte) : Nat × State :=
  (tokenStatus s path t op newKey arg, consumeNonce s path t.nonce)

/-- The size of a token in a command. -/
def tokenSize (t : Token) : Nat := 144 + t.signature.length

/-- Run an AUTHORISE (Table 10.10): on a good token the operation gives its OUTCOME. -/
def authorise (s : State) (path : Path) (t : Token) (op : Nat) (arg : List Byte) (f : State → Nat × State) :
    Option (Nat × List Byte) × State :=
  let r := useToken s path t op none arg
  if r.1 != stOk then (some (r.1, []), r.2)
  else
    let q := f r.2
    (some (stOk, leBytes 4 q.1), q.2)

/-- The size of the arguments of an AUTHORISE. -/
def authoriseArgs (t : Token) (arg : List Byte) : Nat := (padded (zeros (tokenSize t))).length + 4 + (padded arg).length

/-! ### Identity (R331) -/

/-- The device certificate (Table 10.2). -/
def deviceCertificate : List Byte :=
  leBytes 4 0x43453648 ++ leBytes 2 1 ++ leBytes 2 0x00B1 ++ leBytes 4 14968 ++ leBytes 4 (bit Config.gradeFi) ++ serialBytes Config.serial
    ++ Config.devicePk.toList ++ zeros 4 ++ digestBytes Config.rootDigest ++ leBytes 8 Config.certIndex.toNat ++ Config.certSignature.toList

/-! ### Attestation (R352) -/

/-- Bytes 0x00 to 0xD7 of an attestation record (Table 10.12). -/
def attestBody (s : State) (nonce : Digest) (index : Nat) : List Byte :=
  leBytes 4 0x54413648 ++ leBytes 2 1 ++ leBytes 2 (bit s.pf.owner.isSome + 2 * bit s.pf.debug + 4 * bit (keyWarn s.pf)) ++ leBytes 4 10109
    ++ leBytes 4 s.pf.bootCnt ++ serialBytes Config.serial ++ digestBytes nonce ++ leBytes 8 s.tb.now ++ wordBytes s.fw.version ++ zeros 4
    ++ digestBytes s.fw.digest ++ digestBytes (ownerDigest s.pf) ++ digestBytes (calDigest s) ++ digestBytes s.pf.lastWritten ++ leBytes 8 index

/-- Sign an attestation record with the next index; none when the key is used up. -/
def attestRecord (s : State) (nonce : Digest) (fails : Nat) : Option (List Byte × State) :=
  match takeIndex s.pf fails with
  | none => none
  | some (k, pf) =>
    let b := attestBody s nonce k
    some (b ++ deviceSignature k b, checkKeyEnd { s with pf := pf })

/-- Whether a record can be signed now. -/
def signStatus (s : State) : Nat := if s.pf.keyend then stKeyEnd else stOk

/-! ### Debug access (R351) -/

/-- Every channel is taken to its safe state as by a disable, and frames end. -/
def pinDrive (s : State) : State :=
  let s := allChans.foldl disableChannel s
  endFrames (updPf s fun p => { p with debug := true })

end Sys2Proof.Machine
end

