-- ==== Sys2Proof/Machine/CalRunOps.lean ====
section
/-!
DEFINITION. Calibration runs and their stores (R400 to R408), the events of reliefs (R411, R412), and requests from access paths.
-/
namespace Sys2Proof.Machine

/-! ### Storing a set (R408) -/

/-- The slot that is not in force. -/
def otherSlot (c : Calib) : Nat := 1 - c.slot

/-- The highest SEQ among the valid slots. -/
def topSeq (c : Calib) : Nat := c.slots.foldl (fun a k => match k with | some t => max a t.seq | none => a) 0

/-- Whether a set has been written: a read-back that fails is retried once (R408). -/
def setWritten (fails : Nat) : Bool := fails < 2

/-- A new set is written into the other slot; where a read-back passes, it takes effect. Two failures leave that slot invalid (R408). -/
def storeSet (c : Calib) (new : CalSet) (fails : Nat) : Calib :=
  let old := (setInForce c).getD {}
  let t := { new with seq := topSeq c + 1, calcnt := old.calcnt + 1 }
  let slots := c.slots.set (otherSlot c) (if setWritten fails then some t else none)
  if setWritten fails then { c with slots := slots, slot := otherSlot c, nocal := c.nocal && !(t.run && t.refvSet) } else { c with slots := slots }

/-- The safety record of a set comes into force in the bank die (R406): a channel that rests in INERT without FLT_LATCH moves to its PARK code from
the next sample tick on. -/
def takeSafety (r : Safety) (f : Force) : Force := { f with safety := r, parkDefault := false }

/-- A store on a channel: CFLAGS bit 2 and FLAGS.CALCHG (R408, Table 10.8) where it took effect; the safety record in force is the set's, and the digital
trim starts from the set's loop offset where that is a new one (Table 13.1). -/
def storeOn (s : State) (n : Chan) (new : CalSet) (fails : Nat) : State :=
  let old := loopTrim s.chans[n].cal
  let s := updCal s n fun c => storeSet c new fails
  if setWritten fails then
    let trim := loopTrim s.chans[n].cal
    let s := updForce s n fun f => { takeSafety new.safety f with trim := if trim = old then f.trim else trim }
    noteCflag (updInterval s fun v => { v with calchg := true }) n 2 s.tb.now
  else s

/-! ### Substitutions (R403) -/

/-- How far a width lies from the mean of the segments' widths, times their number. -/
def offMean (ws : List Nat) (w : Nat) : Nat := ((ws.length * w : Nat) - (ws.sum : Nat) : Int).natAbs

/-- The coarse segments whose width differs from the mean by more than half a fine step. -/
def badSegments (ws : List Nat) : List Nat :=
  (ws.zipIdx.filter fun w => ws.length * 65536 < 2 * offMean ws w.1).map (·.2)

/-- The spare not in use whose width lies closest to the mean. -/
def closestSpare (ws spares : List Nat) (used : List Nat) : Option Nat :=
  ((spares.zipIdx.filter fun x => !used.contains x.2).foldl (fun a x =>
    match a with
    | some b => if offMean ws x.1 < offMean ws b.1 then some x else a
    | none => some x) (none : Option (Nat × Nat))).map (·.2)

/-- The spares that serve segments, each with its segment. -/
def substitutions (ws spares : List Nat) : List (Nat × Nat) :=
  (badSegments ws).foldl (fun a g =>
    match closestSpare ws spares (a.map (·.1)) with
    | some k => a ++ [(k, g)]
    | none => a) []

/-- SEGMAP (Table 13.4): the logical segment that each spare serves. -/
def segmapOf (subs : List (Nat × Nat)) : List (BitVec 16) :=
  (List.range 32).map fun k => match subs.find? fun p => p.1 == k with | some p => BitVec.ofNat 16 p.2 | none => 0xFFFF

/-- The capacitors, 1 to 6, whose weight differs from nominal by more than half a raw LSB. -/
def badCaps (ds : List Int) : List Nat := (ds.zipIdx.filter fun d => 128 < d.1.natAbs).map (·.2 + 1)

/-- ADCRED (Table 13.4). -/
def adcredOf (voltage current : List Nat) : BitVec 12 :=
  let two := fun cs : List Nat => (cs[0]?).getD 0 + 8 * (cs[1]?).getD 0
  BitVec.ofNat 12 (two voltage + 64 * two current)

/-! ### The end of a run (R399 to R404) -/

/-- The residual gains of a set with the offsets of a run. -/
def newOffsets (old new : List (Int × Int)) : List (Int × Int) := (old.zip new).map fun p => (p.2.1, p.1.2)

/-- The trims in the order of Table 13.1 (assumption 89) that are gains, and those that a quick offset run keeps: gains, and the loop offset, which
only the loop phase of a full run finds (Table 13.3). -/
def gainTrim (k : Nat) : Bool := k = 1 || k = 3 || k = 5
def keptTrim (k : Nat) : Bool := gainTrim k || k = 12

/-- The trims of a set with the offsets of a run. -/
def newTrims (old new : List (BitVec 12)) : List (BitVec 12) := (old.zip new).zipIdx.map fun x => if keptTrim x.2 then x.1.1 else x.1.2

/-- The set that a run stores: a quick offset run keeps gains, segment map and capacitors (R402). -/
def runSet (c : Calib) (r : CalResult) (now : Nat) : CalSet :=
  let old := (setInForce c).getD {}
  if c.full then
    { old with run := true, tRun := now, epochRun := c.epoch, segmap := segmapOf (substitutions r.widths r.spareWidths)
               adcred := adcredOf (badCaps r.voltageCaps) (badCaps r.currentCaps), trims := r.trims, coef := r.coef }
  else { old with tRun := now, epochRun := c.epoch, trims := newTrims old.trims r.trims, coef := newOffsets old.coef r.coef }

/-- What a trim's code is worth, in ppb of a gain and in nV at the pins of an offset; nominal is code 0 (assumption 89). -/
def trimWorth (k : Nat) (code : BitVec 12) : Int := if code == 0 then 0 else Config.trimStep k * code.toInt

/-- The worths of a set's gain trims, and of its offset trims with their numbers. -/
def gainWorths (t : CalSet) : List Int := (t.trims.zipIdx.filter fun x => gainTrim x.2).map fun x => trimWorth x.2 x.1
def offsetWorths (t : CalSet) : List (Nat × Int) := (t.trims.zipIdx.filter fun x => !gainTrim x.2).map fun x => (x.2, trimWorth x.2 x.1)

/-- The full scale at the pins of a range's residual offset, in nV: 2.5 V at the voltage pins, 1.0 V at the current pins (R404). -/
def pinsFs (range : Nat) : Nat := if range < 3 then 2500000000 else 1000000000

/-- Whether a residual offset, in units of 2^-8 result LSB, exceeds a limit in nV at the pins. -/
def offsetOver (range limit : Nat) (v : Int) : Bool := limit * 2 ^ 31 < v.natAbs * pinsFs range

/-- The change limit of an offset in nV (R404): at the current pins that of the current ADC (trim 2) and of the current ranges, else at the voltage
pins (DESIGN CHOICE, assumption 129). -/
def driftLimit (current : Bool) : Nat := if current then 500000 else 1250000

/-- Whether any value of a set differs from that of another by more than 0.05 %: of a gain, or of the full scale at the pins (R404). -/
def drifted (old new : CalSet) : Bool :=
  ((gainWorths old).zip (gainWorths new)).any (fun p => 500000 < (p.2 - p.1).natAbs)
    || (old.coef.zip new.coef).any (fun p => 500000 < (p.2.2 - p.1.2).natAbs)
    || ((offsetWorths old).zip (offsetWorths new)).any (fun (p : (Nat × Int) × (Nat × Int)) => driftLimit (p.1.1 = 2) < (p.2.2 - p.1.2).natAbs)
    || (old.coef.zip new.coef).zipIdx.any (fun x => offsetOver x.2 (driftLimit (3 ≤ x.2)) (x.1.2.1 - x.1.1.1))

/-- Whether a set's gain trims lie within 0.5 % of nominal, and its offsets within 2 mV at the pins (R404). -/
def gainsOk (t : CalSet) : Bool := (gainWorths t).all fun g => g.natAbs ≤ 5000000
def offsetsOk (t : CalSet) : Bool :=
  (offsetWorths t).all (fun o => o.2.natAbs ≤ 2000000) && t.coef.zipIdx.all fun x => !offsetOver x.2 2000000 x.1.1

/-- The code of a run's results before they are stored: SPARES (R403), then the first failing limit of R404. -/
def runCheck (c : Calib) (r : CalResult) : Nat :=
  let t := runSet c r 0
  if c.full && ((badSegments r.widths).length > 32 || (badCaps r.voltageCaps).length > 2 || (badCaps r.currentCaps).length > 2) then 0x14
  else if !gainsOk t then 0x11
  else if !offsetsOk t then 0x12
  else if !c.nocal && drifted ((setInForce c).getD {}) t then 0x13
  else 0

/-- A run ends with a code, and a channel that was relieved for the run is handed back (R399, R400). -/
def finishRun (s : State) (n : Chan) (code : Nat) : State :=
  let back := s.chans[n].cal.handback && reliefForRun s n
  let s := updCal s n fun c => endRun s.chans[n].force.relieved code c
  match s.reliefs[bankOf n] with
  | some r => if back then beginHandback s (bankOf n) r else s
  | none => s

/-- Whether the pre-check fails (R401): the mean of 2,000 raw samples, in units of FS / 2^23 of V0 and of I2, exceeds 5 mV at the sense pins or 50 nA. -/
def precheckFails (raws : List (Int × Int)) : Bool :=
  10000 * 2 ^ 23 < (raws.map Prod.fst).sum.natAbs * 2500 || 100000 * 2 ^ 23 < (raws.map Prod.snd).sum.natAbs * 1000

/-- CAL_PRECHECK_END (R401). -/
def precheckEnd (s : State) (n : Chan) (raws : List (Int × Int)) : State :=
  let c := s.chans[n].cal
  if c.phase != .run || c.step != .precheck then s
  else if precheckFails raws then finishRun s n 0x10
  else updCal s n fun c => { c with step := .adc }

/-- The phase after one of Table 13.3; a quick offset run has no loop phase. -/
def nextStep (full : Bool) : RunStep → RunStep
  | .precheck => .precheck
  | .adc => .dac
  | .dac => .clamps
  | .clamps => if full then .loop else .check
  | .loop | .check => .check

/-- The results of a run are checked, and the set that passes begins to be written (R404, R408). -/
def runResults (s : State) (n : Chan) (r : CalResult) : State :=
  let c := s.chans[n].cal
  let code := runCheck c r
  if code != 0 then finishRun s n code else updCal s n fun c => { c with phase := .store, storing := some (runSet c r s.tb.now) }

/-- The write of a run's set has ended (R408). -/
def runStored (s : State) (n : Chan) (t : CalSet) (fails : Nat) : State :=
  let s := updCal s n fun c => { c with storing := none }
  finishRun (storeOn s n t fails) n (if setWritten fails then 0 else 0x16)

/-- CAL_RUN_END (R402, R404, R408). -/
def runEnd (s : State) (n : Chan) (e : RunEvent) : State :=
  let c := s.chans[n].cal
  match c.phase, e, c.storing with
  | .run, .phaseEnd, _ => updCal s n fun c => { c with step := nextStep c.full c.step }
  | .run, .results r, _ => if c.step == .check then runResults s n r else s
  | .store, .stored fails, some t => runStored s n t fails
  | _, _, _ => s

/-! ### Reliefs (R411, R412) -/

/-- Whether the relief switch commands of a relief have all been answered. -/
def switchesDone (s : State) (b : Bank) (r : Relief) : Bool :=
  !cpsPending s (chanAt b r.slot) [opRelief] && !cpsPending s (chanAt b 16) [opRelief]

/-- The relief switches of both slots are made or open. -/
def setRelieved (s : State) (b : Bank) (r : Relief) (v : Bool) : State :=
  let set := fun f : Force => { f with relieved := v }
  updForce (updForce s (chanAt b r.slot) set) (chanAt b 16) set

/-- t2 of Table 13.5: both switches are made; the ramp starts, or in MEAS the main channel is isolated at once. -/
def reliefMade (s : State) (b : Bank) : State :=
  match s.reliefs[b] with
  | none => s
  | some r =>
    if r.phase != .switching || !switchesDone s b r then s
    else
      let n := chanAt b r.slot
      let s := noteCflag (noteCflag (setRelieved s b r true) n 0 s.tb.now) (chanAt b 16) 0 s.tb.now
      let s := updFirmware s (chanAt b 16) fun i => { i with slew := r.captured.slew }
      let m := s.chans[n].force
      if m.fltLatch then carryOn s b r
      else if r.captured.mode == .meas then setRelief (updForce s n oenLow) b (some { r with phase := .isolating })
      else setRelief s b (some { r with phase := .ramp, rampTick := 0, rampLevel := m.target })

/-- t3 of Tables 13.5 and 13.6: a ramp of 400 sample ticks is complete. -/
def reliefRamped (s : State) (b : Bank) : State :=
  match s.reliefs[b] with
  | none => s
  | some r =>
    if r.rampTick < 400 then s
    else
      let slow := fun s : State => updFirmware s (chanAt b 16) fun i => { i with slew := r.captured.slew }
      match r.phase with
      | .ramp => setRelief (updForce (slow s) (chanAt b r.slot) oenLow) b (some { r with phase := .isolating })
      | .backRamp =>
        let s := updFirmware (slow s) (chanAt b r.slot) fun i => { i with slew := r.captured.slew }
        setRelief s b (some { r with phase := .toMode })
      | _ => s

/-- t4 of Table 13.6: the switches are open; the relief is over. -/
def reliefBroken (s : State) (b : Bank) : State :=
  match s.reliefs[b] with
  | none => s
  | some r =>
    if r.phase != .releasing || !switchesDone s b r then s
    else
      let n := chanAt b r.slot
      let q := chanAt b 16
      let s := setRelieved s b r false
      let s := requestInert (updFirmware s q (·.withMode .inert)) q none
      let s := haltCtx (haltCtx (setRelief s b none) q 3) n 3
      updCal s n fun c => { c with phase := .idle }

/-! ### Requests (R397, R398) -/

/-- CAL_CMD on an access path: the code is the path's CAL_STATUS. A request that is accepted needs external memory as CAL does (R393). -/
def calCommand (s : State) (p : Path) (n : Chan) (a : CalAsk) : State :=
  let s := wakeVigil s wakeDemand
  let r := calRequest s n a
  updPath r.2 p fun k => { k with calStatus := some r.1 }

end Sys2Proof.Machine
end

