-- ==== Sys2Proof/Machine/CalCommands.lean ====
section
/-!
DEFINITION. The commands of calibration and relief.
-/
namespace Sys2Proof.Machine

open Host

/-- RUN_FULL (R397 to R399). -/
def execRunFull (p : Path) (n : Chan) (s : State) : Outcome State Fault Refusal := .next (calCommand s p n .full)

/-- RUN_QUICK (R397 to R399). -/
def execRunQuick (p : Path) (n : Chan) (s : State) : Outcome State Fault Refusal := .next (calCommand s p n .quick)

/-- RELIEVE (R398, R411). -/
def execRelieve (p : Path) (n : Chan) (s : State) : Outcome State Fault Refusal := .next (calCommand s p n .relieve)

/-- RETURN (R398, R412). -/
def execReturnDut (p : Path) (n : Chan) (s : State) : Outcome State Fault Refusal := .next (calCommand s p n .ret)

/-- CAL_PRECHECK_END (R401). -/
def execCalPrecheckEnd (n : Chan) (raws : List (Int × Int)) (s : State) : Outcome State Fault Refusal := .next (precheckEnd s n raws)

/-- CAL_RUN_END (R402, R404). -/
def execCalRunEnd (n : Chan) (e : RunEvent) (s : State) : Outcome State Fault Refusal := .next (runEnd s n e)

/-- RELIEF_SWITCH_MADE (R411). -/
def execReliefSwitchMade (b : Bank) (s : State) : Outcome State Fault Refusal := .next (reliefMade s b)

/-- RELIEF_RAMP_END (R411, R412). -/
def execReliefRampEnd (b : Bank) (s : State) : Outcome State Fault Refusal := .next (reliefRamped s b)

/-- RELIEF_SWITCH_BROKEN (R412). -/
def execReliefSwitchBroken (b : Bank) (s : State) : Outcome State Fault Refusal := .next (reliefBroken s b)

end Sys2Proof.Machine
end

