-- ==== Sys2Proof/Machine/TimeOps.lean ====
section
/-!
DEFINITION. The timebase (R25 to R41, R493): REFCLK edges, loads and adjustments of the counter, holdover, and skew measurements.
-/
namespace Sys2Proof.Machine

/-- The REFCLK period in ticks (R493). -/
def refPeriod (s : State) : Nat := if s.fw.straps.refsel then 16 else 160

/-- The counter value at the first rising REFCLK edge at or after now. -/
def nextEdge (s : State) : Nat :=
  let p := refPeriod s
  s.tb.now + (s.tb.edgePhase + p - s.tb.now % p) % p

/-- The conditions of R32: a channel out of INERT, or a frame enabled. -/
def counterHeld (s : State) : Bool := s.chans.any outOfInert || s.ht.en || s.ht.armed || s.ht.run

/-- A slot number after the counter has moved from one value to another: what waits for a slot boundary keeps its distance (assumption 87). -/
def shiftSlot (old new slot : Nat) : Nat := ((slot : Int) + ((new / 16 : Nat) : Int) - ((old / 16 : Nat) : Int)).toNat

/-- An instant from which a duration is still measured, after the counter has moved from one value to another: it keeps its distance from now
(assumption 87). -/
def shiftTick (old new t : Nat) : Nat := ((t : Int) + new - old).toNat

/-- What waits in the Tracer for a slot boundary, after the counter has moved. -/
def shiftTracer (old new : Nat) (t : Tracer) : Tracer :=
  let f := shiftSlot old new
  let g := shiftTick old new
  { t with
    tc := t.tc.map fun c => { c with queue := c.queue.map g }
    ingress := t.ingress.map fun i => { i with slot := f i.slot, tick := g i.tick }
    flights := t.flights.map fun i => { i with slot := f i.slot, tick := g i.tick }
    remote := t.remote.map fun i => { i with slot := f i.slot, tick := g i.tick }
    timedTokens := t.timedTokens.map fun p => (p.1, f p.2)
    grpTokens := t.grpTokens.map fun p => (p.1, f p.2)
    grpWrite := t.grpWrite.map fun p => (p.1, f p.2) }

/-- A channel after the counter has moved: the filters start anew at the next sample tick, what is measured from an instant keeps its distance. -/
def shiftChan (old new : Nat) (c : Channel) : Channel :=
  let f := shiftTick old new
  { c with
    meas := { c.meas with
      settings := (c.meas.settings.drop (c.meas.settings.length - 1)).map fun e => { e with since := 0 }
      since := 0, aperture := none, trigNow := c.meas.trigNow || c.meas.aperture.isSome }
    force := { c.force with
      fltAt := f c.force.fltAt
      railWant := c.force.railWant.map fun e => (f e.1, e.2)
      railHist := c.force.railHist.map fun e => (f e.1, e.2) }
    graver := { c.graver with ctx := c.graver.ctx.map fun k => { k with jumpReq := k.jumpReq.map fun q => { q with tick := f q.tick } } }
    markNext := c.markNext.map fun e => (f e.1, e.2) }

/-- The waits of memory and of the firmware after the counter has moved. -/
def shiftMem (old new : Nat) (m : Memory) : Memory :=
  let f := shiftTick old new
  { m with
    demand := m.demand.map fun d => { d with since := f d.since }
    waits := m.waits.map fun w => { w with since := f w.since }
    errs := m.errs.map fun e => (e.1, f e.2)
    house := m.house.map fun e => (e.1, f e.2) }

/-- A ring after the counter has moved. -/
def shiftRing (old new : Nat) (r : RingState) : RingState :=
  { r with transfer := r.transfer.map fun t => { t with start := shiftTick old new t.start } }

/-- A path after the counter has moved: what waits in it, or for its response. -/
def shiftPath (old new : Nat) (k : PathRegs) : PathRegs :=
  let f := shiftTick old new
  { k with unposted := k.unposted.map fun e => (e.1, f e.2), offers := k.offers.map fun e => (e.1, f e.2) }

/-- The firmware's and the supplies' times after the counter has moved; a stall before the first count there can be is forgotten. -/
def shiftTimers (old new : Nat) (s : State) : State :=
  let f := shiftTick old new
  { s with
    pwr := { s.pwr with
      period := f s.pwr.period
      lastStall := (s.pwr.lastStall.filter fun t => old ≤ t + new).map f }
    lanes := s.lanes.map fun l =>
      { l with fresh := 0, readyAt := none, ptpLog := l.ptpLog.map fun m => { m with tick := f m.tick } }
    fw := { s.fw with tai := if s.fw.ptpState = 0 then s.fw.tai else (f s.fw.tai.1, s.fw.tai.2), trialStart := s.fw.trialStart.map f, update := s.fw.update.map fun u => { u with lastCmd := f u.lastCmd } }
    pl := { s.pl with askedAt := f s.pl.askedAt }
    pf := { s.pf with
      nonces := s.pf.nonces.map fun e => (e.1, e.2.1, f e.2.2)
      held := s.pf.held.map fun p => { p with sealedAt := f p.sealedAt }
      ring := shiftRing old new s.pf.ring }
    banks := s.banks.map fun b => { b with arrived := b.arrived.map fun a => (a.1, a.2.1, a.2.2.1, 0) }
    mrk := s.mrk.map fun p => { p with edges := p.edges.map fun e => (f e.1, e.2) } }

/-- The counter takes a value; the sample tick and the slot boundary of that value are still to come. A pulse on SYNCO, what waits for a slot
boundary and every duration that is being measured keep their distance from now, and the filters of all channels start anew at the next sample tick
(assumption 87). -/
def setCounter (s : State) (t phase : Nat) : State :=
  let old := s.tb.now
  let s := shiftTimers old t { s with
    tr := shiftTracer old t s.tr
    chans := s.chans.map (shiftChan old t)
    mm := shiftMem old t s.mm
    rings := s.rings.map (shiftRing old t)
    queues := s.queues.map fun q => { q with ticks := q.ticks.map (shiftTick old t) }
    paths := s.paths.map (shiftPath old t) }
  updTb s fun b =>
    { b with
      now := t, lastSample := none, lastSlot := none, edgePhase := phase % refPeriod s
      syncoPulses := b.syncoPulses.map fun p => p + (t : Int) - (b.now : Int) }

/-- Enter holdover (R39); source 279 on entry. -/
def enterHoldover (s : State) : State :=
  if s.tb.holdover then s else raise (noteAlign (updTb s fun b => { b with holdover := true })) 279

/-! ### REFCLK (R27) -/

/-- The PLL locks for the first time (R25, R27). -/
def firstLock (s : State) : State :=
  if s.tb.lock then s else updTb s fun b => { b with lock := true, now := 0, lastSample := none, lastSlot := none, edgePhase := 0 }

/-- REFCLK is lost (R27, R34, R39). DESIGN CHOICE (assumption 87): LOCK stays 1 while FREERUN is 1, and a loss before the first lock changes
nothing: the manual says neither. -/
def loseRef (s : State) : State :=
  if !s.tb.lock || s.tb.freerun then s
  else
    let s := updTb s fun b => { b with reflost := true, freerun := true, aligned := false, syncoPulses := [] }
    enterHoldover (noteAlign (raise s 276))

/-- The PLL has relocked (R27, R40, R493). -/
def relock (s : State) (phase : Nat) : State :=
  if !s.tb.freerun then s
  else
    noteAlign (updTb s fun b =>
      { b with freerun := false, edgePhase := phase % refPeriod s, holdover := b.holdover && b.skewEn })

/-! ### SYNC (R31 to R34) -/

/-- A LOAD at a REFCLK edge (R31, R32); `held` says whether the conditions of R32 stood at the edge. -/
def syncLoad (s : State) (held : Bool) : State :=
  if held then updTb s fun b => { b with loadRefused := true, syncMode := 1 }
  else setCounter (updTb s fun b => { b with syncMode := 1 }) s.tb.syncVal s.tb.syncVal

/-- A VERIFY (R31). -/
def syncVerify (s : State) : State :=
  if s.tb.syncCap = s.tb.syncVal then s else raise (updTb s fun b => { b with syncMismatch := true }) 278

/-- A SYNCV block with the captured value on every lane that is UP (R429). -/
def sendSyncv (s : State) : State :=
  (sibiaUp s).foldl (fun s k =>
    sendBlock s k (sibiaBlock 0x55 s.tb.syncCap)) s

/-- A SYNC pulse detected at a REFCLK edge (R31); source 277 is dated with the edge (Table 7.6). -/
def syncAt (s : State) (edge : Nat) (held : Bool) : State :=
  let s := updTb s fun b => { b with now := max b.now edge, syncCap := edge, syncCount := (b.syncCount + 1) % 65536, syncSeen := true }
  let s := sendSyncv (raiseAt s 277 (some edge))
  if s.tb.syncMode == 1 then syncVerify s else if s.tb.syncMode == 2 then syncLoad s held else s

/-- The level that SYNCO_P/N carries (R34): none while high-impedance, high for two REFCLK periods from the start of a pulse. -/
def syncoOutput (s : State) : Option Bool :=
  if !s.tb.syncoEn then none
  else some (s.tb.syncoPulses.any fun p => p ≤ s.tb.now && s.tb.now < p + 2 * refPeriod s)

/-- SYNC_GEN (R34): a pulse from the next rising REFCLK edge, beside one that still runs. DESIGN CHOICE (assumption 87): with SYNCO_EN = 0 or before the first lock the
request emits nothing and is not kept, one exactly at an edge takes the following edge. -/
def genSync (s : State) : State :=
  if s.tb.freerun || !s.tb.syncoEn || !s.tb.lock then s
  else
    let e := nextEdge s
    let start : Int := (if e = s.tb.now then e + refPeriod s else e : Nat)
    updTb s fun b => { b with syncoPulses := (b.syncoPulses.filter fun p => (b.now : Int) < p + 2 * refPeriod s) ++ [start] }

/-- TB_ADJ (R32). -/
def adjustCounter (s : State) (v : Word) : State :=
  if counterHeld s then updTb s fun b => { b with loadRefused := true }
  else
    let p := refPeriod s
    setCounter s ((s.tb.now + v.toInt) % 2 ^ 64).toNat (((s.tb.edgePhase : Int) + v.toInt) % p).toNat

/-! ### Skew measurement (R35 to R37, R428) -/

/-- The lane that leads towards the reference (R35). -/
def skewLane (s : State) : Lane := ⟨4 + s.tb.lane.toNat, by have := s.tb.lane.isLt; omega⟩

/-- A CAL block (Table 14.4). -/
def calBlock (kind seq time : Nat) : BitVec 64 := sibiaBlock 0x33 (kind * 2 ^ 46 + seq % 64 * 2 ^ 40 + time % 2 ^ 40)

/-- Whether a lane is a Sibia link that is UP (R430). -/
def sibiaLane (s : State) (k : Lane) : Bool := (sibiaUp s).contains k

/-- Begin a measurement: ASK with SEQ 0 (R428). Only a device with SKEW_EN that is not the reference measures (R35). DESIGN CHOICE
(assumption 87): a START or an expiry of PERIOD while a measurement runs begins it anew. -/
def startSkew (s : State) : State :=
  if !s.tb.skewEn || s.tb.timingRef || !sibiaLane s (skewLane s) then s
  else
    let s := updTb s fun b => { b with measuring := true, exchanges := 0, dropped := 0, sumOfs := 0, exchange := none }
    sendBlock s (skewLane s) (calBlock 0 0 0)

/-- A measurement fails (R428). -/
def failSkew (s : State) : State :=
  noteAlign (updTb s fun b => { b with measuring := false, exchange := none, ofsValid := false, aligned := false })

/-- The difference of two 40-bit times. -/
def diff40 (a b : BitVec 40) : Int := (a - b).toInt

/-- Twice the offset of one exchange (R35), in sixteenths of a tick. -/
def exchangeOfs (asym : Int) (t1 t2 t3 t4 : BitVec 40) : Int := diff40 t2 t1 - diff40 t4 t3 - 2 * asym

/-- The device's side of an exchange is complete: its REPORT has arrived. -/
def endExchange (s : State) (t4 : BitVec 40) : State :=
  match s.tb.exchange with
  | some (_, t1, t2, t3) =>
    let o := exchangeOfs s.tb.asym (BitVec.ofNat 40 t1) (BitVec.ofNat 40 t2) (BitVec.ofNat 40 t3) t4
    updTb s fun b => { b with exchange := none, exchanges := b.exchanges + 1, sumOfs := b.sumOfs + o }
  | none => s

/-- The fine phase moves at once while every channel is INERT, else by steps (R37). -/
def setFine (s : State) (target : Nat) : State :=
  let now := !(s.chans.any outOfInert)
  updTb s fun b => { b with phaseTarget := target, fine := if now then target else b.fine, fineTicks := 0 }

/-- The whole ticks of a correction of c sixteenths (R36): ceil(-c / 16). -/
def wholeTicks (c : Int) : Int := -(c / 16)

/-- The residual of a measurement: ALIGNED says whether it is at most one sixteenth, and where it is, holdover ends (R37, R40). -/
def settleSkew (s : State) : State :=
  let residual := max s.tb.phaseTarget s.tb.fine - min s.tb.phaseTarget s.tb.fine
  noteAlign (updTb s fun b => { b with aligned := decide (residual ≤ 1), holdover := b.holdover && !decide (residual ≤ 1) })

/-- An averaged offset is complete (R36, R37): TB_SKEW_OFS, the whole ticks under the conditions of R32, the fine phase. -/
def endSkew (s : State) : State :=
  let c := roundDiv s.tb.sumOfs (2 * 4096)
  let a := wholeTicks c
  let s := updTb s fun b => { b with measuring := false, ofs := c, ofsValid := true }
  let s := setFine s (16 * a + c).toNat
  if a = 0 then settleSkew s
  else if counterHeld s then raise (noteAlign (updTb s fun b => { b with aligned := false })) 278
  else
    let p := refPeriod s
    settleSkew (setCounter s ((s.tb.now + a) % 2 ^ 64).toNat (((s.tb.edgePhase : Int) + a) % p).toNat)

/-- One step of the fine phase, once 1,024 sample ticks have passed since the last one or since the target was set (R37). -/
def fineStep (s : State) : State :=
  if s.tb.fineTicks < 1024 then s
  else
    updTb s fun b =>
      { b with
        fineTicks := 0
        fine := if b.fine < b.phaseTarget then b.fine + 1 else if b.phaseTarget < b.fine then b.fine - 1 else b.fine }

end Sys2Proof.Machine
end

