-- ==== Sys2Proof/Machine/LaneOps.lean ====
section
/-!
DEFINITION. Serial lanes (R415 to R430): configuration, link states, training of Sibia links, PRBS, PCIe path state.
-/
namespace Sys2Proof.Machine

/-- Protocols (Table 14.1). -/
def protoPcie : Nat := 1
def protoSibia : Nat := 6
def protoRaw : Nat := 7

/-- Whether a protocol is one of the Ethernet ones. -/
def isEther (p : Nat) : Bool := 2 ≤ p && p ≤ 5

/-- Whether a lane can carry a protocol (Table 14.1). -/
def protoOn (k : Lane) (p : Nat) : Bool := p ≤ 7 && (p != protoPcie || k.val < 4) && (p != protoSibia || k.val ≥ 4)

/-! ### Equalisation (R418, R466) -/

/-- The rate code of a lane, by its protocol. -/
def rateCode (s : State) (l : LaneState) : Nat :=
  if l.proto = protoRaw then l.rawrate else if l.proto = protoPcie then max s.fw.pcieSpeed 1
  else if l.proto = 2 || l.proto = 3 then 0 else if l.proto = 5 then 5 else 4

/-- The entry of the board table for a lane at its rate: equalisation and PCIe preset, and whether it is the default entry. -/
def eqEntry (s : State) (k : Lane) : (Word × Byte) × Bool :=
  let rate := rateCode s s.lanes[k]
  match s.fw.board with
  | some b =>
    match b.eq.find? fun e => e.1 == k.val && e.2.1 == rate with
    | some e => (e.2.2, false)
    | none => (((b.eq.find? fun e => e.1 == 0xFF).map (·.2.2)).getD (Config.defaultEq, 0), true)
  | none => ((Config.defaultEq, 0), true)

/-- The equalisation of a lane and whether it is the default entry's. -/
def eqFor (s : State) (k : Lane) : Word × Bool := let e := eqEntry s k; (e.1.1, e.2)

/-- Phase 2 of the equalisation at 8.0 GT/s (R418): the preset of the board table is requested of the partner, once; at the other rates there is none. -/
def askPreset (s : State) (k : Lane) (speed : Nat) : State :=
  let p := (eqEntry s k).1.2
  updLane s k fun l => { l with preset := if speed = 3 then some p.toNat else none }

/-- The answer to a coefficient request of the partner in phase 3 (R418): the reject indication, with the table's values. -/
def phase3Answer (l : LaneState) (_request : Word) : Bool × Word := (true, l.eq)

/-- A lane takes its equalisation. -/
def takeEq (s : State) (k : Lane) : State :=
  let e := eqFor s k
  updLane s k fun l => { l with eq := e.1, eqdef := e.2 }

/-! ### Link states (R422) -/

/-- A lane's link state changes: source 288 + k, exits from UP counted, holdover when the lane towards the reference is lost (R39). -/
def setLState (s : State) (k : Lane) (st : LState) : State :=
  let l := s.lanes[k]
  if l.lstate == st then s
  else
    let lost := l.lstate == .up
    let s := updLane s k fun l => { l with lstate := st, downs := if lost then satAdd 65535 l.downs 1 else l.downs }
    let s := noteAlign (raise s (288 + k.val))
    if (lost || st == .down) && l.proto = protoSibia && s.tb.skewEn && skewLane s == k then enterHoldover s else s

/-- A TRAIN block (Table 14.4). -/
def trainBlock (sysid lane : Nat) (ack : Bool) : BitVec 64 := sibiaBlock 0x2D (sysid * 2 ^ 43 + lane * 2 ^ 41 + bit ack * 2 ^ 39)

/-- Send TRAIN with SEEK or ACK. -/
def sendTrain (s : State) (k : Lane) (ack : Bool) : State :=
  sendBlock s k (trainBlock s.fw.straps.sysid.toNat (k.val - 4) ack)

/-- TRAIN SEEK with the system ID, once in an attempt and with block lock only (R430). -/
def seek (s : State) (k : Lane) : State :=
  let l := s.lanes[k]
  if l.proto = protoSibia && l.lstate == .training && l.hdrlock && !l.sought then sendTrain (updLane s k fun l => { l with sought := true }) k false
  else s

/-- Begin an attempt of training (R430): the search for block lock, then SEEK. -/
def beginAttempt (s : State) (k : Lane) : State := seek (updLane s k fun l => { l with sentAck := false, gotAck := false, sought := false }) k

/-- Begin a cycle of three attempts (R430). -/
def beginCycle (s : State) (k : Lane) : State :=
  let s := setLState s k .training
  beginAttempt (updLane s k fun l => { l with attempt := 0, dupid := false, calSeq := none, calSent := none }) k

/-- Whether every Sibia lane that is enabled is DOWN because its partner has this device's system ID (R41). -/
def aloneByDup (s : State) : Bool :=
  let mine := allLanes.filter fun k => s.lanes[k].en && s.lanes[k].proto = protoSibia
  !mine.isEmpty && mine.all fun k => s.lanes[k].lstate == .down && s.lanes[k].dupid

/-- A device whose only links fail because of equal system IDs runs alone, in holdover (R41). -/
def enterAlone (s : State) : State := if aloneByDup s then enterHoldover s else s

/-- An attempt fails; after the third the lane is DOWN. -/
def failAttempt (s : State) (k : Lane) : State :=
  let n := s.lanes[k].attempt + 1
  let s := updLane s k fun l => { l with attempt := n, sentAck := false, gotAck := false }
  if n ≥ 3 then enterAlone (setLState s k .down) else beginAttempt s k

/-- A lane that is enabled and ACTIVE starts to establish its link (Table 14.2). -/
def startLink (s : State) (k : Lane) : State :=
  let l := s.lanes[k]
  if !l.en || l.proto = 0 || l.pstate != 0 then s
  else if l.proto = protoSibia then beginCycle s k
  else setLState s k .down

/-- A lane leaves the ACTIVE state, or goes OFF: it is not UP any more. -/
def stopLink (s : State) (k : Lane) (st : LState) : State :=
  setLState (updLane s k fun l => { l with hdrlock := false, sentAck := false, gotAck := false, calSeq := none, calSent := none })
    k st

/-- The power states of a lane (R420). -/
def standby : Nat := 1
def dormant : Nat := 2

/-- The state of the PCIe link whose lanes are in a power state: ASPM L1 is STANDBY, L2 is DORMANT (R420). -/
def pcieAsleep (p : Nat) : Nat := if p = standby then 2 else 3

/-- A lane's power state becomes STANDBY or DORMANT (R420). -/
def sleepLane (s : State) (k : Lane) (p : Nat) : State :=
  let link := s.lanes[k].proto = protoPcie && s.lanes[k].lstate == .up
  let s := if link then { s with fw := { s.fw with ltssm := pcieAsleep p } } else s
  let s := updLane s k fun l => { l with pstate := p }
  if s.lanes[k].en && s.lanes[k].proto != 0 then stopLink s k .down else s

/-- A lane has finished its exit from a power state: it is in the one that LPS asks for, and retrains when that is ACTIVE (R420). -/
def wakeLane (s : State) (k : Lane) : State :=
  let l := s.lanes[k]
  if l.pstate = l.lps || s.pwr.vigil then s
  else
    let s := updLane s k fun l => { l with pstate := l.lps }
    if l.lps = 0 then startLink s k else s

/-! ### LN_CFG (R415) -/

/-- Whether a write of LN_CFG is refused. -/
def cfgRefused (s : State) (p : Path) (onLane : Option Lane) (k : Lane) (v : Word) : Bool :=
  let l := s.lanes[k]
  let proto := field v 27 24
  let host := p == .pcie || p == .hht
  !protoOn k proto || (l.en && proto != l.proto) || (host && l.proto = protoPcie) || (host && onLane == some k)

/-- The fields of an accepted write, and what they start or stop. -/
def applyCfg (s : State) (k : Lane) (v : Word) : State :=
  let was := s.lanes[k]
  let s := updLane s k fun l =>
    { l with
      en := flag v 31, proto := field v 27 24, rawrate := field v 23 20, fec := field v 19 18, lps := field v 17 16, nelb := flag v 15 }
  let s := takeEq s k
  let l := s.lanes[k]
  if !l.en || l.proto = 0 then enterAlone (stopLink s k .off)
  else if l.lps != 0 then (if l.lps = was.pstate then s else sleepLane s k l.lps)
  else if !was.en || was.lstate == .off then startLink s k
  else s

/-- A write of LN_CFG. -/
def laneCfg (s : State) (p : Path) (onLane : Option Lane) (k : Lane) (v : Word) : State :=
  if cfgRefused s p onLane k v then updLane s k fun l => { l with cfgRej := true } else applyCfg s k v

/-! ### Commands of LN_CMD and LN_PRBS_CFG (R419, R421, R430) -/

/-- SLIP: SIBIA and RAW lanes only. -/
def slipLane (s : State) (k : Lane) : State :=
  let l := s.lanes[k]
  if l.en && (l.proto = protoSibia || l.proto = protoRaw) then updLane s k fun l => { l with slip := (l.slip + 1) % 66 } else s

/-- A DOWN Sibia lane starts a new cycle on RESTART or when SIGDET rises. -/
def restartLane (s : State) (k : Lane) : State :=
  let l := s.lanes[k]
  if l.en && l.proto = protoSibia && l.lstate == .down && l.pstate = 0 then beginCycle s k else s

/-- Whether a lane's PRBS checker is locked and counts. -/
def checking (l : LaneState) : Bool := l.en && l.proto = protoRaw && flag l.prbs 30 && l.hdrlock

/-- The taps of a pattern's polynomial (R421): x^a + x^b + 1. A reserved PAT acts as PRBS31 (assumption 132). -/
def prbsTaps : Nat → Nat × Nat
  | 0 => (7, 6)
  | 1 => (9, 5)
  | 2 => (15, 14)
  | 3 => (23, 18)
  | _ => (31, 28)

/-- One bit of a pattern, and its register after it. -/
def prbsStep (pat reg : Nat) : Bool × Nat :=
  let t := prbsTaps pat
  let b := reg.testBit (t.1 - 1) != reg.testBit (t.2 - 1)
  (b, (2 * reg + bit b) % 2 ^ t.1)

/-- The next n bits that a lane's generator sends from its register, before errors are injected: PAT and INV of LN_PRBS_CFG. -/
def prbsStream (l : LaneState) : (reg n : Nat) → List Bool
  | _, 0 => []
  | reg, n + 1 => let r := prbsStep (field l.prbs 29 27) reg; (r.1 != flag l.prbs 26) :: prbsStream l r.2 n

/-- Whether a lane's generator sends. -/
def generating (l : LaneState) : Bool := l.en && l.proto = protoRaw && flag l.prbs 31

/-- Whether a lane's checker sees its own generator's bits and nothing else (R421, NELB). -/
def looped (l : LaneState) : Bool := generating l && l.nelb

/-- The exponent N of the error rate: 3 to 12, others act as 12. -/
def injRate (l : LaneState) : Nat := let n := field l.prbs 15 12; if 3 ≤ n && n ≤ 12 then n else 12

/-- Errors that the checker counts, to the one at which it loses lock: the 64th of those that come at once (R421). -/
def countErrors (l : LaneState) (n : Nat) : LaneState :=
  { l with
    prbsErr := satAdd (2 ^ 48 - 1) l.prbsErr (min 64 n)
    hdrlock := l.hdrlock && n < 64
    lockloss := l.lockloss || 64 ≤ n }

/-- INJ_GO: one single error, or a burst. A looped checker counts them. -/
def injectLane (s : State) (k : Lane) : State :=
  let l := s.lanes[k]
  let mode := field l.prbs 25 24
  if generating l && (mode = 1 || mode = 2) then
    let n := if mode = 1 then 1 else max 1 (field l.prbs 23 16)
    let s := if checking l && looped l then updLane s k fun l => countErrors l n else s
    updLane s k fun l => { l with injected := l.injected + n }
  else s

/-- CLR: both counters. -/
def clearPrbs (s : State) (k : Lane) : State := updLane s k fun l => { l with prbsErr := 0, prbsBits := 0 }

/-- The bits that pass since the last look at a lane's counters, the errors that INJ = 3 injects among them at random, and the errors that the
receiver meets. What the lines and the random positions give is open: free values (assumption 26). A looped checker counts the injected errors only. -/
def countPrbs (s : State) (k : Lane) : State :=
  let l := s.lanes[k]
  let rate := generating l && field l.prbs 25 24 = 3
  if !checking l && !rate then s
  else
    let r := drawFree s
    let q := drawFree r.2
    let bits := r.1.toNat
    let errs := q.1.toNat % (bits + 1)
    updLane q.2 k fun l =>
      { l with
        injected := if rate then l.injected + errs else l.injected
        prbsBits := if checking l then satAdd (2 ^ 48 - 1) l.prbsBits bits else l.prbsBits
        prbsErr := if checking l && (rate || !looped l) then satAdd (2 ^ 48 - 1) l.prbsErr errs else l.prbsErr }

/-- A write of LN_PRBS_CFG (Table 14.15). A checker that is off is not locked. -/
def prbsWrite (s : State) (k : Lane) (v : Word) : State :=
  let s := countPrbs s k
  let s := updLane s k fun l =>
    { l with prbs := v &&& 0xFFFFF000, hdrlock := l.hdrlock && (l.proto != protoRaw || flag v 30) }
  let s := if flag v 11 then injectLane s k else s
  if flag v 10 then clearPrbs s k else s

/-! ### Sibia events (R426 to R430) -/

/-- A link that comes UP ends the holdover of a device that ran alone and does not measure (assumption 87). -/
def leaveAlone (s : State) : State :=
  if s.tb.skewEn || s.tb.freerun then s else noteAlign (updTb s fun b => { b with holdover := false })

/-- A TRAIN block arrives (R430, R41). -/
def trainArrived (s : State) (k : Lane) (sysid : BitVec 5) (ack : Bool) : State :=
  let l := s.lanes[k]
  if l.proto != protoSibia || l.lstate != .training || !l.hdrlock then s
  else if sysid == s.fw.straps.sysid then
    failAttempt (updTb (updLane s k fun l => { l with dupid := true }) fun b => { b with dupId := true }) k
  else
    let s := if l.sentAck then s else sendTrain s k true
    let s := updLane s k fun l => { l with sentAck := true, gotAck := l.gotAck || ack }
    if s.lanes[k].gotAck then leaveAlone (setLState s k .up) else s

/-- A lane has block or symbol lock, or the PRBS checker of a RAW lane has locked (R419); a Sibia lane in training sends SEEK (R430). -/
def gainLock (s : State) (k : Lane) : State :=
  seek (updLane s k fun l =>
    { l with hdrlock := l.hdrlock || (l.en && l.proto != 0 && l.pstate = 0 && (l.proto != protoRaw || flag l.prbs 30)) }) k

/-- An UP Sibia lane that loses its partner starts a new cycle at once (R430). -/
def sibiaLost (s : State) (k : Lane) : State :=
  if s.lanes[k].proto = protoSibia && s.lanes[k].lstate == .up then beginCycle s k else s

/-- A lane loses its lock: LOCKLOSS, and an UP Sibia lane trains again (R419, R430). -/
def loseLock (s : State) (k : Lane) : State :=
  if !s.lanes[k].hdrlock then s
  else sibiaLost (updLane (countPrbs s k) k fun l => { l with hdrlock := false, lockloss := true }) k

/-- Whether a protocol's link waits for Clause 37 auto-negotiation (R425). -/
def autoNegotiates (proto : Nat) : Bool := proto = 2

/-- The FEC that an Ethernet lane runs (R425): LN_CFG.FEC in 25GBASE-R, none in the others. A partner with another one gives no lock. -/
def fecInForce (l : LaneState) : Nat := if l.proto = 5 then l.fec else 0

/-- An Ethernet lane that is DOWN retries its lock (R422); in 1000BASE-X the link waits for auto-negotiation too (R425). -/
def retryEther (s : State) (k : Lane) (locked negotiated : Bool) : State :=
  let l := s.lanes[k]
  if locked && (negotiated || !autoNegotiates l.proto) && l.en && isEther l.proto && l.pstate = 0 && l.lstate == .down then
    setLState (takeEq (updLane s k fun l => { l with hdrlock := true }) k) k .up
  else s

/-- An Ethernet lane loses its partner (R422). -/
def loseEther (s : State) (k : Lane) : State :=
  if isEther s.lanes[k].proto && s.lanes[k].lstate == .up then
    setLState (updLane s k fun l => { l with hdrlock := false, lockloss := true }) k .down
  else s

/-- Whether a lane is an Ethernet port that is UP. -/
def etherUp (s : State) (k : Lane) : Bool := isEther s.lanes[k].proto && s.lanes[k].lstate == .up

/-- A datagram or frame is dropped and counted (R425, R435). -/
def dropFrame (s : State) : State := { s with hht := { s.hht with drop := satAdd (2 ^ 32 - 1) s.hht.drop 1 } }

/-- Whether the MAC accepts a frame (R425): up to 9,216 bytes, with one VLAN tag at most. -/
def macAccepts (len tags : Nat) : Bool := len ≤ 9216 && tags ≤ 1

/-- A frame arrives on an Ethernet port (R425): the firmware answers what it answers on host ports, leaves IEEE 1588 messages and the datagrams
of HHT to their own commands, ignores PAUSE, and drops the rest, frames that the MAC does not accept among them (assumption 130). -/
def etherFrame (s : State) (k : Lane) (f : EtherFrame) (len tags : Nat) : State :=
  if !etherUp s k || mpStopped s then s
  else if !macAccepts len tags then dropFrame s
  else
    let host := s.lanes[k].hostp
    match f with
    | .ptp | .pause => s
    | .hht => if host && s.hht.en then s else dropFrame s
    | .arp | .icmpEcho | .icmp6Echo | .neighbour => if host then updLane s k fun l => { l with answers := l.answers ++ [f] } else dropFrame s
    | .hhtBad | .other => dropFrame s

/-- The number nearest to the present slot whose low 32 bits are A (R427). -/
def fullSlot (present a : Nat) : Nat :=
  let base := present / 2 ^ 32 * 2 ^ 32 + a
  if base + 2 ^ 31 < present then base + 2 ^ 32
  else if present + 2 ^ 31 < base && base ≥ 2 ^ 32 then base - 2 ^ 32
  else base

/-- The device's time in sixteenths of a tick (R428). DESIGN CHOICE (assumption 87): the sixteenths within a tick are taken from the fine
phase alone, so that a timestamp is 16 times the tick plus FINE. -/
def fineTime (s : State) : Nat := 16 * s.tb.now + s.tb.fine

/-- The partner sends its next REQ (R428): none while one is out, after the 4,096th, or where nobody asked. -/
def sendReq (s : State) (k : Lane) : State :=
  let l := s.lanes[k]
  match l.calSeq with
  | some (seq, left) =>
    if !sibiaLane s k || left = 0 || l.calSent.isSome then s
    else
      sendBlock (updLane s k fun l => { l with calSent := some seq, calSeq := some ((seq + 1) % 64, left - 1) }) k
        (calBlock 1 seq (fineTime s))
  | none => s

/-- ASK arrives: the partner is to run 4,096 exchanges (R428). -/
def askArrived (s : State) (k : Lane) : State :=
  if sibiaLane s k then updLane s k fun l => { l with calSeq := some (0, 4096), calSent := none } else s

/-- REQ arrives at the measuring device: it answers with RSP (R428). -/
def reqArrived (s : State) (k : Lane) (seq : BitVec 6) (t1 t2 t3 : BitVec 40) : State :=
  if !s.tb.measuring || skewLane s != k || !sibiaLane s k then s
  else
    sendBlock (updTb s fun b => { b with exchange := some (seq.toNat, t1.toNat, t2.toNat, t3.toNat) }) k (calBlock 2 seq.toNat t3.toNat)

/-- RSP arrives at the partner: it sends REPORT (R428). -/
def rspArrived (s : State) (k : Lane) (seq : BitVec 6) (t4 : BitVec 40) : State :=
  if !sibiaLane s k || s.lanes[k].calSent != some seq.toNat then s
  else sendBlock (updLane s k fun l => { l with calSent := none }) k (calBlock 3 seq.toNat t4.toNat)

/-- REPORT arrives: the exchange of its SEQ is complete. -/
def reportArrived (s : State) (k : Lane) (seq : BitVec 6) (t4 : BitVec 40) : State :=
  if s.tb.measuring && skewLane s == k && sibiaLane s k && s.tb.exchange.map (·.1) == some seq.toNat then endExchange s t4 else s

/-- A SYNCV block arrives (R429). -/
def syncvArrived (s : State) (k : Lane) (cap : BitVec 48) : State :=
  if sibiaLane s k && cap.toNat != s.tb.syncCap % 2 ^ 48 then updLane s k fun l => { l with syncdiff := true } else s

/-- A TOKEN block arrives (R268, R427). -/
def tokenArrived (s : State) (k : Lane) (mask : BitVec 16) (a : BitVec 32) : State :=
  if sibiaLane s k then receiveTokens s k mask.toNat (fullSlot (s.tb.now / 16) a.toNat) else s

/-- A block that is discarded is counted (R426). -/
def badBlock (s : State) (k : Lane) : State :=
  if s.lanes[k].proto = protoSibia && s.lanes[k].en then updLane s k fun l => { l with badblk := min 63 (l.badblk + 1) } else s

/-- A lane's time runs out for an exchange (R428): the measuring device drops it and may fail, the partner runs one in its place. -/
def exchangeTimeout (s : State) (k : Lane) : State :=
  let s := if s.lanes[k].calSent.isSome then
      updLane s k fun l => { l with calSent := none, calSeq := l.calSeq.map fun c => (c.1, c.2 + 1) }
    else s
  if s.tb.measuring && skewLane s == k then
    let s := updTb s fun b => { b with exchange := none, dropped := b.dropped + 1 }
    if s.tb.dropped > 64 then failSkew s else s
  else s

/-! ### PCIe (R424) -/

/-- A PCIe reset or link-down: the path state of PCIe, its nonce and snapshots, the responses that it waits for, and an update session that
it holds. PCIe lanes leave L0. -/
def resetPcie (s : State) : State :=
  let s := updPath s .pcie fun _ => {}
  let s := updPf s fun p => { p with nonces := p.nonces.filter fun k => k.1 != .pcie }
  let s := updMm s fun m => { m with invPending := m.invPending.map fun i => { i with who := i.who.filter fun x => x.1 != .pcie } }
  let s := { s with
    chans := s.chans.mapFinIdx fun n c _ => { c with meas := { c.meas with snaps := c.meas.snaps.set 0 ⟨word n, word n, 0⟩ } }
    tr := { s.tr with msix := Vector.replicate 64 {}, masked := [], msixEn := false }
    fw := { s.fw with
      ltssm := 0
      update := match s.fw.update with | some u => if u.path == .pcie then none else some u | none => none } }
  allLanes.foldl (fun s k => if s.lanes[k].proto = protoPcie && s.lanes[k].lstate == .up then setLState s k .down else s) s

/-- The greatest generation and width that the board record gives the PCIe port (R416); without PCIe lanes in it, those of R423. -/
def pcieBounds (f : Firmware) : Nat × Nat :=
  match f.board with
  | some b =>
    let width := (b.hostProto.filter (·.toNat == protoPcie)).length
    if width = 0 then (3, 4) else (min 3 (max 1 b.pcieGen), width)
  | none => (3, 4)

/-- The speed and width that the port and its partner agree on (R423). -/
def pcieAgreed (f : Firmware) (speed width : Nat) : Nat × Nat := let b := pcieBounds f; (min speed b.1, min width b.2)

/-- The capabilities of the endpoint in its configuration space, by their numbers in the PCI Express base specification (R423): power management,
PCI Express and MSI-X, and the extended capability AER. -/
def pcieCapabilities : List Nat × List Nat := ([0x01, 0x10, 0x11], [0x0001])

/-- The greatest payload and read request in bytes (R423). -/
def pcieMaxPayload : Nat := 256
def pcieMaxReadRequest : Nat := 512

/-- Software of the host enables MSI-X (assumption 131): the messages that waited for it go out, but for those whose mask bits stand. -/
def enableMsix (s : State) : State :=
  let go := s.tr.masked.filter fun v => !vectorMasked s.tr v
  { s with tr := { s.tr with msixEn := true, masked := s.tr.masked.filter (!go.contains ·), sent := s.tr.sent ++ go } }

/-- The PCIe link reaches L0 at a speed, on the lanes of the width that was negotiated (R416, R422, R423). -/
def pcieUp (s : State) (speed width : Nat) : State :=
  let a := pcieAgreed s.fw speed width
  let mine := allLanes.filter fun k => k.val < a.2 && s.lanes[k].en && s.lanes[k].proto = protoPcie && s.lanes[k].pstate = 0
  if mine.isEmpty then s
  else
    let s := enableMsix { s with fw := { s.fw with pcieSpeed := a.1, pcieWidth := a.2, ltssm := 1 } }
    mine.foldl (fun s k => setLState (askPreset (takeEq (updLane s k fun l => { l with hdrlock := true }) k) k a.1) k .up) s

end Sys2Proof.Machine
end

