-- ==== Sys2Proof/Machine/PlateOps.lean ====
section
/-!
DEFINITION. Plates (11_plates): sessions and their checks, counting of contact cycles, rated life, the plate hold.
-/
namespace Sys2Proof.Machine

/-- Change the Plate session. -/
def updPl (s : State) (f : Plate → Plate) : State := { s with pl := f s.pl }

/-- The session changed within the open interval (FLAGS.PLCHG, R376). -/
def noteSession (s : State) : State := updInterval s fun v => { v with plchg := true }

/-! ### The plate hold (R373) -/

/-- The hold begins on a channel: a run that needs a handback ends with ABORTED (R405), and the channel goes to INERT. -/
def holdOne (s : State) (n : Chan) : State :=
  let s := if s.chans[n].cal.handback then abortRun s n 0x15 else s
  holdChannel s n

/-- Carry out a change of the session; where the hold begins with it, every channel is held. -/
def withHold (s : State) (f : State → State) : State :=
  let t := f s
  if plateHold t.pl && !plateHold s.pl then allChans.foldl holdOne t else t

/-! ### The record (R358, R359) -/

/-- A little-endian field of a record. -/
def recField (body : List Byte) (off n : Nat) : Nat := ofBytes ((body.drop off).take n)

/-- LIFE and WARN of a record. -/
def recLife (body : List Byte) : Nat := recField body 0x30 8
def recWarn (body : List Byte) : Nat := recField body 0x38 8

/-- GEN of a record. -/
def recGen (body : List Byte) : Nat := recField body 6 1

/-- The format checks: MAGIC, FORMAT, LENGTH, GEN, LIFE and WARN, and the reserved fields. -/
def recFormed (body signature : List Byte) : Bool :=
  let gen := recGen body
  body.length = 448 && recField body 0 4 = 0x4C503648 && recField body 4 2 = 1 && 1 ≤ gen && gen ≤ 3 && recField body 7 1 < 4
    && recField body 8 4 = 448 + (if gen = 1 then 0 else signature.length)
    && 1 ≤ recLife body && recWarn body ≤ recLife body
    && recField body 0x40 8 = 0 && recField body 0x19C 4 = 0
    && (gen = 3 || recField body 0x158 68 = 0) && (gen != 1 || recField body 0x1A0 32 = 0)

/-- The digest that a record names as its signer's. -/
def recSigner (body : List Byte) : Digest := digestOf ((body.drop 0x1A0).take 32)

/-- The refusal code of a record on this device, 0 where it passes (Table 11.4 t2). -/
def recRefusal (p : Trust) (reqv token : Bool) (body signature : List Byte) : Nat :=
  let gen := recGen body
  if !recFormed body signature then 0x02
  else if token != (gen == 3) then 0x03
  else
    match p.owner with
    | some k =>
      if gen = 1 then (if reqv then 0x0B else 0)
      else if recSigner body != keyDigest k then 0x04
      else if !verify ownerSets k body signature then 0x05
      else 0
    | none => if reqv then 0x0B else 0

/-- Whether a record that has passed is vouched for by the owner present as it is read (R359). -/
def recVouched (p : Trust) (body : List Byte) : Bool := recGen body != 1 && p.owner.isSome

/-- The plate state of a record that has passed (R359). -/
def recState (p : Trust) (body : List Byte) : Nat := if recVouched p body then 2 else 1

/-! ### Rated life (R370 to R372) -/

/-- The life override of a record (R372). -/
def overrideOf (p : Plate) (body : List Byte) : Option Nat := (p.overrides.find? fun o => o.1 == plateDigest body).map (·.2)

/-- Life and warning count in force. -/
def setLife (p : Plate) : Plate :=
  match overrideOf p p.body with
  | some l => { p with life := l, warn := l * recWarn p.body / recLife p.body, ovr := true }
  | none => { p with life := recLife p.body, warn := recWarn p.body, ovr := false }

/-- Whether a life is in force (R370): that of a record that has passed, or an override. -/
def lifeHeld (p : Plate) : Bool := p.life != 0 || p.ovr

/-- Life and warning count in force, where an override lets an end-of-life hold end (R372). -/
def relieveLife (p : Plate) : Plate :=
  let q := setLife p
  { q with eolhold := q.eolhold && !(q.ovr && q.cyc + q.unconfirmed ≤ q.life) }

/-- Whether the end-of-life policy is HOLD (R371). -/
def eolHolds (p : Plate) : Bool := p.fhold || recField p.body 7 1 / 2 % 2 = 1

/-- What a count that has just risen to c does (R370, R371): source 283 at WARN and at LIFE, the end-of-life hold above LIFE. -/
def lifeChecks (s : State) (c : Nat) : State :=
  let s := if c = s.pl.warn then raise s 283 else s
  let s := if c = s.pl.life then raise s 283 else s
  if s.pl.life < c && eolHolds s.pl && !s.pl.eolhold then raise (withHold s fun s => updPl s fun p => { p with eolhold := true }) 283
  else s

/-! ### The device's memory (R361) -/

/-- The count that the device remembers for a Plate, 0 where it has none. -/
def remembered (p : Plate) (serial : BitVec 128) : Nat := ((p.memory.find? fun m => m.1 == serial).map (·.2)).getD 0

/-- Remember a count; the least recently used of 64 entries makes room. -/
def remember (m : List (BitVec 128 × Nat)) (serial : BitVec 128) (count : Nat) : List (BitVec 128 × Nat) :=
  let old := ((m.find? fun e => e.1 == serial).map (·.2)).getD 0
  let rest := m.filter fun e => e.1 != serial
  (if rest.length ≥ 64 then rest.drop 1 else rest) ++ [(serial, max old count)]

/-! ### Storing counts -/

/-- Bytes 0x00 to 0x0F of a counter slot (Table 11.2). -/
def counterBytes (count seq : Nat) : List Byte := leBytes 8 count ++ leBytes 4 seq ++ zeros 4

/-- CHECK of a counter slot on a Plate. -/
def counterCheck (serial : BitVec 128) (count seq : Nat) : List Byte :=
  (digestBytes (Config.shake256 ([0x81] ++ serialBytes serial ++ counterBytes count seq))).take 16

/-- Write a count into the EEPROM (R361): with SEQ + 1 into slot (SEQ + 1) mod 16. -/
def writeCount (p : Plate) (count : Nat) : Plate :=
  let seq := p.slotSeq + 1
  { p with
    writing := some count
    slotOut := (0x3E00 + 32 * (seq % 16), counterBytes count seq ++ counterCheck (plateSerial p.body) count seq) }

/-- Store the count in the EEPROM, or after the write in progress (R361). -/
def storeCount (p : Plate) : Plate := if p.writing.isSome then { p with writeNext := true } else writeCount p p.cyc

/-- A frame's CRC after one more bit of a byte (R363): polynomial 0x1021. -/
def crcBit (c : BitVec 16) : BitVec 16 := if c.msb then (c <<< 1) ^^^ 0x1021#16 else c <<< 1

/-- A frame's CRC after one more byte. -/
def crcByte (c : BitVec 16) (b : Byte) : BitVec 16 := (List.range 8).foldl (fun c _ => crcBit c) (c ^^^ (b.setWidth 16 <<< 8))

/-- A frame to a token (R363, Table 11.3). -/
def tokenFrame (code : Byte) (payload : List Byte) : List Byte :=
  let f := code :: (leBytes 2 payload.length ++ payload)
  f ++ leBytes 2 (f.foldl crcByte 0xFFFF#16).toNat

/-- A READ frame (Table 11.3): offset and length. -/
def readFrame (off len : Nat) : List Byte := tokenFrame 0x02 (leBytes 2 off ++ leBytes 2 len)

/-- The READ frames that fetch a token's record: its body, and then the signature that LENGTH tells of. DESIGN CHOICE (assumption 126): the manual does not
say in what pieces the device reads. -/
def recordReads (body : List Byte) : List (List Byte) := [readFrame 0 448, readFrame 448 (ofBytes ((body.drop 8).take 4) - 448)]

/-- H^m(x) with H(y) = shake256(0x85 || y) (R364). -/
def hashChain : Nat → Digest → Digest
  | 0, x => x
  | m + 1, x => hashChain m (Config.shake256 ([0x85] ++ digestBytes x))

/-- The preimage of the i-th ADVANCE of a session (R365). -/
def advancePreimage (x : Digest) (i : Nat) : Digest := hashChain (65536 - i) x

/-- Send ADVANCE for the oldest cycle that is not confirmed (R365). -/
def advance (p : Plate) : Plate :=
  if p.advancing || p.unconfirmed = 0 then p
  else
    { p with
      advancing := true
      frame := tokenFrame 0x05 (digestBytes (advancePreimage (p.secret.getD 0) (p.advances + 1)) ++ leBytes 8 p.cyc) }

/-- A cycle is counted while the session is LIVE (R369). -/
def countLive (s : State) : State :=
  if s.pl.gen = 3 then
    let s := updPl s fun p => advance { p with unconfirmed := p.unconfirmed + 1 }
    lifeChecks s (s.pl.cyc + s.pl.unconfirmed)
  else
    let s := updPl s fun p => storeCount { p with cyc := p.cyc + 1 }
    lifeChecks s s.pl.cyc

/-- Source 280 or 281, which wakes the device from vigil where PLATE is enabled (R393). -/
def raisePlate (s : State) (src : Nat) : State := raise (if s.pwr.wakePlate then wakeVigil s wakePlate else s) src

/-- Count a cycle (R369). -/
def countCycle (s : State) : State :=
  match s.pl.sess with
  | .absent => s
  | .live => countLive (raisePlate s 281)
  | .refused => updPl (raisePlate s 281) fun p => { p with lostcyc := satAdd (2 ^ 32 - 1) p.lostcyc 1 }
  | .settling | .reading | .auth | .opening =>
    updPl (raisePlate s 281) fun p =>
      if p.pend < 255 then { p with pend := p.pend + 1 } else { p with lostcyc := satAdd (2 ^ 32 - 1) p.lostcyc 1 }

/-- Apply the cycles that waited; `fuel` is their number. -/
def applyPending : Nat → State → State
  | 0, s => s
  | fuel + 1, s => applyPending fuel (countLive (updPl s fun p => { p with pend := p.pend - 1 }))

/-! ### Sessions (R364 to R367, R375) -/

/-- What a session that has learnt its Plate's count leaves behind when it closes (R361): the device's memory entry. -/
def closeMemory (p : Plate) : Plate :=
  if p.sess == .live || p.sess == .auth || p.sess == .opening then { p with memory := remember p.memory (plateSerial p.body) p.cyc } else p

/-- Cycles that no token has confirmed are kept for their Plate's return, but for one whose ADVANCE is in flight (R375). DESIGN CHOICE (assumption
125). -/
def keepUnsent (p : Plate) : Plate :=
  let n := p.unconfirmed - bit p.advancing
  if n = 0 then { p with unconfirmed := 0 } else { p with unconfirmed := 0, unsent := p.unsent ++ [(plateSerial p.body, n)] }

/-- Cycles kept for a token come back with it. -/
def takeUnsent (p : Plate) : Plate :=
  let mine := p.unsent.filter fun e => e.1 == plateSerial p.body
  if p.gen != 3 || mine.isEmpty then p
  else { p with unconfirmed := p.unconfirmed + (mine.map (·.2)).sum, unsent := p.unsent.filter fun e => e.1 != plateSerial p.body }

/-- Forget what was read from the Plate. -/
def forgetPlate (p : Plate) : Plate :=
  { keepUnsent p with
    pstate := 0, gen := 0, refuse := 0, ovr := false, cyc := 0, life := 0, warn := 0, body := [], signature := [], busTry := 0
    busToken := true, slotSeq := 0, writing := none, writeNext := false, attested := false, secret := none, advances := 0, advancing := false
    advFails := 0, tokenNonce := 0, deviceNonce := 0, authsLeft := 0, vouched := false, reads := [] }

/-- Close the session (R375, steps 2 to 4). -/
def closeSession (s : State) : State :=
  if s.pl.sess == .absent then s
  else
    withHold (noteSession s) fun s =>
      updPl s fun p => { forgetPlate (closeMemory p) with sess := .absent, eolhold := false, pend := 0 }

/-- Start the session machine where EN and DETEN are 1 and a Plate is present (R367). -/
def startSession (s : State) : State :=
  if s.pl.en && s.pl.deten && s.pl.pldet && s.pl.sess == .absent then updPl s fun p => { p with sess := .settling } else s

/-- Begin READING: the probe of 0x5A (Table 11.4 t1). -/
def beginReading (s : State) : State := withHold s fun s => updPl s fun p => { forgetPlate (closeMemory p) with sess := .reading, frame := tokenFrame 0x01 [] }

/-- The session is REFUSED with a code of Table 11.5. -/
def refusePlate (s : State) (code : Nat) : State :=
  withHold (noteSession s) fun s =>
    updPl s fun p =>
      { keepUnsent (closeMemory p) with
        sess := .refused, pstate := 3, refuse := code, writing := none, writeNext := false, attested := false, secret := none
        advancing := false }

/-- The session goes LIVE with the plate state of its record. -/
def goLive (s : State) : State :=
  let s := updPl (noteSession s) fun p => advance (relieveLife { takeUnsent p with sess := .live, pstate := if p.vouched then 2 else 1 })
  let s := if s.pl.cyc ≥ s.pl.warn then raise s 283 else s
  applyPending s.pl.pend s

/-- The current counter slot: the valid one with the highest SEQ (R361). -/
def currentSlot (serial : BitVec 128) (slots : List (Nat × Nat × BitVec 128)) : Option (Nat × Nat) :=
  slots.foldl (fun a k =>
    if serialBytes k.2.2 == counterCheck serial k.1 k.2.1 then
      match a with
      | some b => if b.2 < k.2.1 then some (k.1, k.2.1) else a
      | none => some (k.1, k.2.1)
    else a) none

/-- A Gen A or Gen B session opens with its count (R361, R362). -/
def openEeprom (s : State) (slots : List (Nat × Nat × BitVec 128)) : State :=
  let cur := (currentSlot (plateSerial s.pl.body) slots).getD (0, 0)
  let mine := remembered s.pl (plateSerial s.pl.body)
  let s := updPl s fun p =>
    if mine > cur.1 then writeCount { p with cyc := mine, slotSeq := cur.2, cntfix := true } mine
    else { p with cyc := cur.1, slotSeq := cur.2 }
  goLive s

/-- A Gen C session begins its authentication (R364, R366). -/
def beginAuth (s : State) (r : PlateRead) : State :=
  let s := updPl s fun p => { p with sess := .auth, cyc := r.counter }
  if r.counter < remembered s.pl (plateSerial r.body) then refusePlate s 0x09
  else if r.authsLeft = 0 then refusePlate s 0x07
  else
    let d := drawEntropy s
    updPl d.2 fun p =>
      { p with
        authsLeft := r.authsLeft - 1, tokenNonce := r.tokenNonce, deviceNonce := d.1
        frame := tokenFrame 0x03 (digestBytes d.1) }

/-- The record has been read (Table 11.4 t2). -/
def recordRead (s : State) (r : PlateRead) : State :=
  if s.pl.sess != .reading then s
  else if !r.answers then refusePlate s 0x01
  else
    let code := recRefusal s.pf s.pl.reqv r.token r.body r.signature
    let s := updPl s fun p =>
      { p with
        body := r.body, signature := r.signature, busTry := 0, busToken := r.token
        reads := if r.token then recordReads r.body else [] }
    if code = 0x02 then refusePlate s code
    else
      let s := updPl s fun p => { p with gen := recGen r.body }
      if code != 0 then refusePlate s code
      else
        let s := updPl s fun p => setLife { p with vouched := recVouched s.pf r.body }
        if r.token then beginAuth s r else openEeprom s r.slots

/-- Draw the secret x of a session and queue its attestation (R364); not with a device key at its end. -/
def beginOpen (s : State) : State :=
  if s.pf.keyend then refusePlate s 0x0A
  else
    let d := drawEntropy s
    withHold d.2 fun s => updPl s fun p => { p with sess := .opening, secret := some d.1, advances := 0, attested := false, advFails := 0, advancing := false, askedAt := s.tb.now }

/-- The message that AUTH signs (Table 11.3). -/
def authMessage (p : Plate) : List Byte :=
  digestBytes (Config.shake256 ([0x83] ++ digestBytes p.deviceNonce ++ digestBytes (plateDigest p.body) ++ leBytes 8 p.cyc))

/-- AUTH has been answered (R364). -/
def authAnswer (s : State) (signature : List Byte) : State :=
  if s.pl.sess != .auth then s
  else if !verify [plateSet] ((s.pl.body.drop 0x158).take 68) (authMessage s.pl) signature then refusePlate s 0x06
  else beginOpen s

/-- The anchor A of a session (R364). -/
def openAnchor (p : Plate) : Digest := hashChain 65536 (p.secret.getD 0)

/-- The NONCE of a session's attestation (R364). -/
def openNonce (p : Plate) : Digest :=
  Config.shake256 ([0x84] ++ digestBytes p.tokenNonce ++ serialBytes (plateSerial p.body) ++ digestBytes (openAnchor p)
    ++ leBytes 4 65536)

/-- The attestation is signed, as MP work of class 3 (R324; device unit 136 takes its wait), and OPEN goes to the token. -/
def openSigned (s : State) (fails : Nat) : State :=
  if s.pl.sess != .opening || s.pl.attested || !takesCommands s then s
  else
    match attestRecord (offerDevice s 0 s.pl.askedAt s.tb.now) (openNonce s.pl) fails with
    | none => refusePlate s 0x0A
    | some r =>
      updPl r.2 fun p =>
        { p with
          attested := true
          frame := tokenFrame 0x04 (digestBytes (openAnchor p) ++ leBytes 4 65536 ++ deviceCertificate ++ r.1) }

/-- The token has answered OPEN (R364); accepting it replaces TN. -/
def openAnswer (s : State) (ok : Bool) (tokenNonce : Digest) : State :=
  if s.pl.sess != .opening || !s.pl.attested then s
  else if ok then goLive (updPl s fun p => { p with tokenNonce := tokenNonce })
  else refusePlate s 0x08

/-- The token has confirmed an ADVANCE: after m of them a new session opens. -/
def advanced (s : State) : State :=
  let s := updPl s fun p =>
    { p with cyc := p.cyc + 1, unconfirmed := p.unconfirmed - 1, advances := p.advances + 1, advFails := 0, advancing := false }
  if s.pl.advances ≥ 65536 then beginOpen s else updPl s advance

/-- An ADVANCE has failed; the third failure refuses the Plate. -/
def advanceFailed (s : State) : State :=
  let s := updPl s fun p => { p with advFails := p.advFails + 1 }
  if s.pl.advFails ≥ 3 then refusePlate s 0x0C else s

/-- The token has answered ADVANCE (R365). -/
def advanceAnswer (s : State) (ok : Bool) : State :=
  if s.pl.sess != .live || !s.pl.advancing then s else if ok then advanced s else advanceFailed s

/-- A token, or the address being read, gives no answer (R355, R363). -/
def noAnswer (s : State) : State :=
  let s := updPl s fun p => { p with busTry := 0 }
  match s.pl.sess with
  | .reading => if s.pl.busToken then updPl s fun p => { p with busToken := false } else refusePlate s 0x01
  | .auth | .opening => refusePlate s 0x01
  | .live => if s.pl.advancing then advanceFailed s else updPl s fun p => { p with writing := none, writeNext := false }
  | .absent | .settling | .refused => s

/-- Whether an exchange with a token is in progress. -/
def exchanging (p : Plate) : Bool :=
  (p.sess == .reading && p.busToken) || p.sess == .auth || (p.sess == .opening && p.attested) || (p.sess == .live && p.advancing)

/-- Whether a transfer on the plate bus is in progress. -/
def transferring (p : Plate) : Bool := exchanging p || p.sess == .reading || (p.sess == .live && p.writing.isSome)

/-- A token has not answered within 1 s, which is no answer (R363). -/
def tokenSilent (s : State) : State := if exchanging s.pl then noAnswer s else s

/-- A retry of a transfer that was not acknowledged (R355): the third failure in all ends it. -/
def busRetry (s : State) (acked : Bool) : State :=
  if !transferring s.pl then s
  else if acked then updPl s fun p => { p with busTry := 0 }
  else if s.pl.busTry ≥ 1 then noAnswer s
  else updPl s fun p => { p with busTry := p.busTry + 1 }

/-- A counter slot has been written (R361). -/
def countWritten (s : State) : State :=
  if s.pl.writing.isNone then s
  else
    updPl s fun p =>
      let q := { p with slotSeq := p.slotSeq + 1, writing := none, writeNext := false }
      if p.writeNext then writeCount q p.cyc else q

/-- PLDET falls (R356, R357, R375). -/
def pldetFalls (s : State) : State :=
  let was := s.pl.pldet
  let s := updPl s fun p => { p with pldet := false }
  if !was || !s.pl.deten then s
  else
    let s := allChans.foldl (fun s n => safeTrigger (abortRun s n 0x15) n 4) s
    raisePlate (closeSession s) 280

/-- PLDET rises (R356, R367). -/
def pldetRises (s : State) : State :=
  let was := s.pl.pldet
  let s := updPl s fun p => { p with pldet := true }
  if was || !s.pl.deten then s else raisePlate (startSession s) 280

/-- The session machine runs while EN and DETEN are both 1 (R357, R367). -/
def runSessions (s : State) : State := if s.pl.en && s.pl.deten then startSession s else closeSession s

/-- A write of PL_CTRL (R357, R367): EN and DETEN start and end the session machine. -/
def plCtrlWrite (s : State) (p : Path) (v : Word) : State :=
  let firmware := !(p == .pcie || p == .hht)
  runSessions <| withHold s fun s => updPl s fun l =>
    { l with
      compa := flag v 7, compEn := flag v 6, fhold := flag v 5, reqv := flag v 4, csrc := flag v 3, fmp := flag v 2
      deten := if firmware then flag v 1 else l.deten, en := flag v 0 }

/-- CYCLE (R368). -/
def hostCycle (s : State) : State :=
  if s.pl.csrc && s.pl.sess != .absent then countCycle s else updPl s fun p => { p with cmdRej := true }

/-- REOPEN (R367). -/
def reopenPlate (s : State) : State :=
  if s.pl.sess == .live || s.pl.sess == .refused then noteSession (beginReading s) else updPl s fun p => { p with cmdRej := true }

/-- A life override (R372): the oldest of 32 entries makes room; it applies at once to a life in force for its record. -/
def overrideLife (s : State) (record : List Byte) (life : Nat) : State :=
  let d := plateDigest (record.take 448)
  let s := updPl s fun p =>
    let rest := p.overrides.filter fun o => o.1 != d
    { p with overrides := (if rest.length ≥ 32 then rest.drop 1 else rest) ++ [(d, life)] }
  if lifeHeld s.pl && plateDigest s.pl.body == d then updPl (noteSession s) relieveLife else s

end Sys2Proof.Machine
end

