-- ==== Sys2Proof/Machine/FlashOps.lean ====
section
/-!
DEFINITION. The boot flash (R444 to R447, R465): images, the directory, the board record, the library; and the choice of a slot.
-/
namespace Sys2Proof.Machine

/-- Change the firmware's part of the state. -/
def updFw (s : State) (f : Firmware → Firmware) : State := { s with fw := f s.fw }

/-- A little-endian field of some flash. -/
def flashField (m : Mem) (off n : Nat) : Nat := ofBytes (memReadBytes m off n)

/-- Whether a range of flash reads as zero. -/
def flashZero (m : Mem) (off n : Nat) : Bool := (memReadBytes m off n).all (· == 0)

/-! ### Images (R446, Table 15.4) -/

def imageHeader (m : Mem) : List Byte := memReadBytes m 0 0x1080
def imageVersion (m : Mem) : Nat := flashField m 0x08 4
def imageSvn (m : Mem) : Nat := flashField m 0x0C 4
def imageBlocks (m : Mem) : Nat := flashField m 0x10 4
def imageSetFmt (m : Mem) : Nat := flashField m 0x18 2
def imageHfmt (m : Mem) : Nat := flashField m 0x1A 2
def imageHfmtMin (m : Mem) : Nat := flashField m 0x1C 2
def imageRootKey (m : Mem) : List Byte := memReadBytes m 0x30 68
def imageSignature (m : Mem) : List Byte := memReadBytes m 0x1080 14824

/-- The image digest. -/
def imageDigest (m : Mem) : Digest := Config.shake256 ([0x90] ++ imageHeader m)

/-- MAGIC, FORMAT, the reserved fields and the check values above NBLK. -/
def imageFormed (m : Mem) : Bool :=
  let n := min (imageBlocks m) 128
  flashField m 0 4 = 0x49463648 && flashField m 4 2 = 1 && flashZero m 6 2 && flashZero m 0x1E 18 && flashZero m 0x74 12
    && flashZero m (0x80 + 32 * n) (32 * (128 - n))

/-- Whether a code block matches its check value. -/
def blockOk (m : Mem) (i : Nat) : Bool :=
  memReadBytes m (0x60 + 32 * i) 32 == digestBytes (Config.shake256 ([0x91] ++ leBytes 4 i ++ memReadBytes m (0x10000 * i) 0x10000))

/-- Whether every code block matches. -/
def blocksOk (m : Mem) : Bool := (List.range (imageBlocks m)).all fun i => blockOk m (i + 1)

/-- ROOT_PK against ROOTD, and the signature (R329). -/
def imageSigned (m : Mem) : Bool :=
  Config.shake256 ([0x70] ++ imageRootKey m) == Config.rootDigest && verify [rootSet] (imageRootKey m) (imageHeader m) (imageSignature m)

/-- NBLK within its limits. -/
def imageSized (m : Mem) : Bool := 1 ≤ imageBlocks m && imageBlocks m ≤ 96

/-- The verification of R447 step 6. -/
def imageVerified (svnCnt : Nat) (m : Mem) : Bool :=
  imageFormed m && imageSigned m && svnCnt ≤ imageSvn m && imageSized m && blocksOk m

/-! ### The directory (R445) -/

/-- The codes of the slot states (Table 15.3). -/
def SlotState.code : SlotState → Nat
  | .empty => 0
  | .invalid => 1
  | .valid => 2
  | .trial => 3
  | .confirmed => 4
  | .failed => 5

/-- Bytes 0x000 to 0x09F of a directory copy (Table 15.3). -/
def dirBytes (d : Directory) : List Byte :=
  leBytes 4 0x52443648 ++ leBytes 2 1 ++ zeros 2 ++ leBytes 8 d.seq ++ leBytes 1 d.stateA.code ++ leBytes 1 d.stateB.code ++ leBytes 1 d.triesA
    ++ leBytes 1 d.triesB ++ leBytes 1 (bit d.journal) ++ leBytes 1 (bit d.jslotB) ++ zeros 2 ++ digestBytes d.digestA ++ digestBytes d.digestB
    ++ leBytes 1 d.libHalf ++ zeros 7 ++ digestBytes d.libDigest ++ leBytes 4 d.libLen ++ zeros 28

/-- CHECK of a directory copy. -/
def dirCheck (d : Directory) : Digest := Config.shake256 ([0x93] ++ dirBytes d)

/-- The valid copy with the higher SEQ, and its number. -/
def newestDir (f : Firmware) : Option (Fin 2 × Directory) :=
  (List.finRange 2).foldl (fun a i =>
    match f.dirs[i] with
    | some c =>
      if c.check == dirCheck c.dir && (match a with | some b => b.2.seq < c.dir.seq | none => true) then some (i, c.dir) else a
    | none => a) none

/-- Read both copies: the directory in force. -/
def readDirs (f : Firmware) : Firmware :=
  match newestDir f with
  | some c => { f with dir := c.2, dirCopy := c.1, dirsValid := true }
  | none => { f with dir := {}, dirsValid := false }

/-- Whether the read-back of the write that comes next passes; writes are counted. -/
def readBack (f : Firmware) : Bool × Firmware := (Config.readback f.writes, { f with writes := f.writes + 1 })

/-- Write a change of the directory: with SEQ + 1 into the other copy, which is in force once its read-back has passed. A copy whose read-back fails
is not valid, and the change is not made (assumption 134). -/
def writeDir (f : Firmware) (g : Directory → Directory) : Firmware :=
  let d := { g f.dir with seq := f.dir.seq + 1 }
  let r := readBack f
  if r.1 then
    { r.2 with dir := d, dirsValid := true, dirCopy := 1 - f.dirCopy, dirs := f.dirs.set (1 - f.dirCopy) (some ⟨d, dirCheck d⟩) }
  else { r.2 with dirs := f.dirs.set (1 - f.dirCopy) none }

/-- Whether a write of the directory was made. -/
def dirMade (old new : Firmware) : Bool := new.dir.seq == old.dir.seq + 1

/-- State of a slot (true: B). -/
def Directory.state (d : Directory) (b : Bool) : SlotState := if b then d.stateB else d.stateA

/-- Boots left to a slot. -/
def Directory.tries (d : Directory) (b : Bool) : Nat := if b then d.triesB else d.triesA

/-- Digest of a slot. -/
def Directory.digest (d : Directory) (b : Bool) : Digest := if b then d.digestB else d.digestA

/-- A slot takes a state. -/
def setSlot (b : Bool) (st : SlotState) (tries : Nat) (d : Directory) : Directory :=
  if b then { d with stateB := st, triesB := tries } else { d with stateA := st, triesA := tries }

/-- The slot in a state, A first. -/
def slotIn (d : Directory) (st : SlotState) : Option Bool :=
  if d.stateA == st then some false else if d.stateB == st then some true else none

/-- The flash of a slot. -/
def Firmware.slot (f : Firmware) (b : Bool) : Mem := if b then f.slotB else f.slotA

/-- Replace the flash of a slot. -/
def setFlash (f : Firmware) (b : Bool) (m : Mem) : Firmware := if b then { f with slotB := m } else { f with slotA := m }

/-! ### The choice of a slot (R447) -/

/-- Steps 6 and 7 for a chosen slot: verify it, else the other one; none when neither boots. -/
def verifySlot (f : Firmware) (b : Bool) : Firmware × Option Bool :=
  if imageVerified f.svnCnt (f.slot b) then (f, some b)
  else
    let f := writeDir f (setSlot b .invalid 0)
    let o := f.dir.state (!b)
    if o == .valid || o == .trial || o == .confirmed then
      if imageVerified f.svnCnt (f.slot !b) then (writeDir f (setSlot (!b) .confirmed 0), some !b)
      else (writeDir f (setSlot (!b) .invalid 0), none)
    else (f, none)

/-- Step 1 without a directory: slot A, then slot B. -/
def withoutDir (f : Firmware) : Firmware × Option Bool :=
  if imageVerified f.svnCnt f.slotA then (writeDir f fun d => { setSlot false .confirmed 0 d with digestA := imageDigest f.slotA }, some false)
  else if imageVerified f.svnCnt f.slotB then
    (writeDir f fun d => { setSlot true .confirmed 0 (setSlot false .invalid 0 d) with digestB := imageDigest f.slotB }, some true)
  else (writeDir f fun d => setSlot true .invalid 0 (setSlot false .invalid 0 d), none)

/-- Step 2: an activation that a power failure cut short leaves its slot VALID. -/
def endJournal (f : Firmware) : Firmware :=
  if f.dir.journal then writeDir f fun d => { setSlot d.jslotB .valid 0 d with journal := false } else f

/-- Steps 3 to 5: the slot to boot. -/
def pickSlot (f : Firmware) : Firmware × Option Bool :=
  match slotIn f.dir .trial with
  | some b =>
    if f.dir.tries b = 1 then (writeDir f (setSlot b .trial 0), some b)
    else
      let f := writeDir f (setSlot b .failed 0)
      (f, slotIn f.dir .confirmed)
  | none => (f, slotIn f.dir .confirmed)

/-- The slot that boots, if any (R447). -/
def chooseSlot (f : Firmware) : Firmware × Option Bool :=
  let f := readDirs f
  if !f.dirsValid then withoutDir f
  else
    let r := pickSlot (endJournal f)
    match r.2 with
    | some b => verifySlot r.1 b
    | none => (r.1, none)

/-! ### The board configuration record (R465) -/

/-- An equalisation entry of the record. -/
def boardEq (m : Mem) (i : Nat) : Nat × Nat × Word × Byte :=
  let o := 0x50 + 8 * i
  (flashField m o 1, flashField m (o + 1) 1, word (flashField m (o + 2) 4), memRead m (o + 6))

/-- The HOSTPROTO of a lane. -/
def boardProto (m : Mem) (k : Lane) : Nat := flashField m (0x10 + k.val) 1

/-- Whether the lanes of the record are ones that R465 allows. -/
def boardLanesOk (m : Mem) : Bool :=
  let pcie := allLanes.map fun k => boardProto m k == protoPcie
  allLanes.all (fun k => boardProto m k ≤ 5 && protoOn k (boardProto m k))
    && (pcie == List.replicate 8 false || pcie == [true] ++ List.replicate 7 false || pcie == [true, true] ++ List.replicate 6 false
      || pcie == List.replicate 4 true ++ List.replicate 4 false)

/-- Whether every reserved field of the record is zero. -/
def boardZeros (m : Mem) (count : Nat) : Bool :=
  flashField m 0x19 1 < 128 && flashField m 0x1A 1 < 2 && flashField m 0x1B 1 < 2 && flashZero m 0x1D 3 && flashZero m 0x42 14
    && flashField m 0x40 1 < 32 && flashField m 0x41 1 < 32 && (List.range count).all fun i => flashZero m (0x57 + 8 * i) 1

/-- Whether the record is valid. -/
def boardValid (m : Mem) : Bool :=
  let count := flashField m 6 2
  let length := flashField m 8 4
  flashField m 0 4 = 0x43423648 && flashField m 4 2 = 1 && length = 0x50 + 8 * count && 1 ≤ count && count ≤ 256 && boardZeros m count
    && boardLanesOk m && ((List.range count).filter fun i => (boardEq m i).1 == 0xFF).length = 1
    && memReadBytes m length 32 == digestBytes (Config.shake256 ([0x95] ++ memReadBytes m 0 length))

/-- The record's digest. -/
def boardDigest (m : Mem) : Digest := Config.shake256 ([0x95] ++ memReadBytes m 0 (flashField m 8 4))

/-- The record, where it is valid. -/
def readBoard (m : Mem) : Option Board :=
  if !boardValid m then none
  else
    some
      { boardId := word (flashField m 0xC 4)
        hostProto := allLanes.map fun k => BitVec.ofNat 4 (boardProto m k)
        pcieGen := flashField m 0x18 1
        pmbusAddr := BitVec.ofNat 7 (flashField m 0x19 1)
        deten := flashField m 0x1A 1 = 1
        ptpPeer := flashField m 0x1B 1 = 1
        ptpDomain := memRead m 0x1C
        macBase := BitVec.ofNat 48 (flashField m 0x20 6)
        hhtPort := if flashField m 0x26 2 = 0 then 18520 else flashField m 0x26 2
        kp := (List.range 4).map fun i => flashField m (0x28 + 2 * i) 2
        kn := (List.range 4).map fun i => flashField m (0x30 + 2 * i) 2
        asym := (List.range 4).map fun i => signedOf 16 (flashField m (0x38 + 2 * i) 2)
        ddrMa := memRead m 0x40
        ddrMb := memRead m 0x41
        eq := (List.range (flashField m 6 2)).map (boardEq m) }

/-- How many modules the firmware trains on a DDR5 channel of the record, and their highest data rate in MT/s (R466, Table 9.8): above DDR5-4000 two
modules train at DDR5-4000. The reserved rates count as the highest (assumption 138). -/
def ddrLimit (b : Byte) : Option (Nat × Nat) :=
  if !b.getLsbD 0 then none
  else
    let rate := 3200 + 400 * min 4 (b.toNat / 4 % 8)
    some (if b.getLsbD 1 then (2, min 4000 rate) else (1, rate))

/-! ### Settings (R462) -/

/-- The newest valid half of the settings store, and its number. -/
def newestHalf (f : Firmware) : Option (Fin 2 × Saved) :=
  match f.halves[0], f.halves[1] with
  | some a, some b => if a.seq < b.seq then some (1, b) else some (0, a)
  | some a, none => some (0, a)
  | none, some b => some (1, b)
  | none, none => none

/-- The half that is not in force, and the sequence number of its next write. -/
def nextHalf (f : Firmware) : Fin 2 × Nat := match newestHalf f with | some h => (1 - h.1, h.2.seq + 1) | none => (0, 1)

/-- Save settings in a format: into the half that is not in force, whose read-back is to pass as a directory's is (assumption 134). -/
def saveSettings (f : Firmware) (fmt : Nat) (blob : List Byte) : Firmware :=
  let n := nextHalf f
  let r := readBack f
  if r.1 then { r.2 with settings := blob, halves := f.halves.set n.1 (some ⟨n.2, fmt, blob⟩) }
  else { r.2 with halves := f.halves.set n.1 none }

/-! ### The event log (R444, R462) -/

/-- The entries of the event log: 1 MiB of 64 bytes each. -/
def logEntries : Nat := 16384

/-- An entry is written; the list is circular, so the oldest entry gives way. -/
def logAdd (f : Firmware) (kind value : Nat) : Firmware :=
  let l := f.log ++ [(kind, value)]
  { f with log := l.drop (l.length - logEntries) }

/-! ### The security version counter (R455) -/

/-- Write the counter as R408 writes a set: into the slot that is not in force, with one repetition of a write whose read-back fails; two failures
leave that slot invalid and the counter as it was. -/
def writeSvn (f : Firmware) (v : Nat) : Firmware :=
  let other := 1 - f.svnSlot
  let seq := match f.svnSlots[f.svnSlot] with | some c => c.1 + 1 | none => 1
  let r1 := readBack f
  let r2 := if r1.1 then r1 else readBack r1.2
  if r2.1 then { r2.2 with svnCnt := v, svnSlot := other, svnSlots := f.svnSlots.set other (some (seq, v)) }
  else { r2.2 with svnSlots := f.svnSlots.set other none }

/-! ### The library (R460) -/

/-- Where the library lies in the program and segment store. -/
def libraryBase : Nat := 0x800000C00000

/-- The bytes below a length of a region, moved to a base of another one whose 4 MiB are cleared first. -/
def copyRegion (dst src : Mem) (base len : Nat) : Mem :=
  src.foldl (fun m c => if c.1 < len then memWrite m (base + c.1) c.2 else m) (memZero dst base 0x400000)

/-- Whether a line of a program cache holds library words. -/
def lineInLibrary (m : Memory) (l : BitVec 4 × Nat × List Word) : Bool :=
  match translate m l.1.toNat (64 * l.2.1) .x with
  | .ok pa => libraryBase ≤ pa && pa < libraryBase + 0x400000
  | _ => false

/-- Copy the library in force into memory, and invalidate the program cache over it. -/
def copyLibrary (s : State) : State :=
  let d := s.fw.dir
  let lib := if d.libHalf = 0 then s.fw.libs[0] else s.fw.libs[1]
  { s with
    mm := { s.mm with mem := copyRegion s.mm.mem lib libraryBase d.libLen }
    banks := s.banks.map fun b => { b with lines := b.lines.filter fun l => !lineInLibrary s.mm l } }

/-- The result of a delta: the bytes so far and their number, or an operation that cannot be carried out. -/
abbrev DeltaOut := Option (Mem × Nat)

/-- Append n bytes of a region from an offset. -/
def appendBytes (src : Mem) (from_ n : Nat) (out : Mem × Nat) : Mem × Nat :=
  ((List.range n).foldl (fun m i => memWrite m (out.2 + i) (memRead src (from_ + i))) out.1, out.2 + n)

/-- Run the operations of a delta from a position (R460); `fuel` bounds their number. -/
def runDelta (delta lib : Mem) : Nat → Nat → Mem × Nat → DeltaOut
  | 0, _, _ => none
  | fuel + 1, pos, out =>
    let w := word (flashField delta pos 4)
    let n := field w 29 0
    match field w 31 30 with
    | 0 => runDelta delta lib fuel (pos + 8) (appendBytes lib (flashField delta (pos + 4) 4) n out)
    | 1 => runDelta delta lib fuel (pos + 4 + (n + 3) / 4 * 4) (appendBytes delta (pos + 4) n out)
    | 2 => some out
    | _ => none

/-- The position behind a delta's END, by the same walk. -/
def deltaEnd (delta : Mem) : Nat → Nat → Option Nat
  | 0, _ => none
  | fuel + 1, pos =>
    let w := word (flashField delta pos 4)
    match field w 31 30 with
    | 0 => deltaEnd delta fuel (pos + 8)
    | 1 => deltaEnd delta fuel (pos + 4 + (field w 29 0 + 3) / 4 * 4)
    | 2 => some (pos + 4)
    | _ => none

/-- The digest of a library. -/
def libraryDigest (m : Mem) (len : Nat) : Digest := Config.shake256 ([0x92] ++ memReadBytes m 0 len)

end Sys2Proof.Machine
end

