-- ==== Sys2Proof/Machine/HhtOps.lean ====
section
/-!
DEFINITION. The Halku host transport (R435 to R439), the mailbox counts (R433) and IEEE 1588 (R440).
-/
namespace Sys2Proof.Machine

/-- Change the transport. -/
def updHht (s : State) (f : Hht → Hht) : State := { s with hht := f s.hht }

/-- Send a datagram. -/
def sendHht (s : State) (d : HhtOut) : State := updHht s fun h => { h with out := h.out ++ [d] }

/-- Whether the firmware, or the ROM in recovery, handles the datagrams that arrive on a lane. -/
def hhtPort (s : State) (k : Lane) : Bool := etherUp s k && s.lanes[k].hostp && servesHosts s

/-- The MAC address of an Ethernet port: the board record's base plus the lane (R425), in recovery mode from the serial number (R450). -/
def portMac (s : State) (k : Lane) : BitVec 48 :=
  if s.fw.recovery then
    BitVec.ofNat 48 (((0x02 : Byte) :: (digestBytes (Config.shake256 ([0x98] ++ serialBytes Config.serial))).take 5).foldl (fun a b => a * 256 + b.toNat) 0)
  else ((s.fw.board.map (·.macBase)).getD 0) + BitVec.ofNat 48 k.val

/-! ### Datagrams (Tables 14.10 and 14.11) -/

/-- The header of a datagram (Table 14.10). -/
def hhtHeader (type : Nat) (session : Word) (len : Nat) : List Byte :=
  leBytes 2 0x5448 ++ leBytes 1 1 ++ leBytes 1 type ++ wordBytes session ++ leBytes 2 len ++ zeros 6

/-- The TYPE of a datagram that the device sends. -/
def HhtOut.type : HhtOut → Nat
  | .opened _ _ _ => 0x02
  | .alive => 0x04
  | .ack _ _ => 0x11
  | .rsp _ _ => 0x12
  | .data _ _ _ => 0x20
  | .event _ _ => 0x30

/-- The bytes of a path's response ring from a count on. -/
def rspRingBytes (k : PathRegs) (from_ n : Nat) : List Byte := (List.range n).map fun i => memRead k.rspRing ((from_ + i) % 16384)

/-- The bytes of a stream's ring from an offset on. -/
def ringBytes (s : State) (r : RingState) (from_ n : Nat) : List Byte :=
  (List.range n).map fun i => memRead s.mm.mem (physOf s.mm r.asid.toNat (r.va (from_ + i)))

/-- The ring of a stream. -/
def streamRing (s : State) (i : Fin 9) : RingState := if h : i.val < 8 then s.rings[i.val] else s.pf.ring

/-- The payload of a datagram (Table 14.11). -/
def HhtOut.payload (s : State) : HhtOut → List Byte
  | .opened status _ smax => leBytes 4 status ++ leBytes 4 smax
  | .alive => []
  | .ack offset window => leBytes 4 offset ++ leBytes 4 window
  | .rsp offset len => leBytes 4 offset ++ rspRingBytes (s.path .hht) offset len
  | .data stream offset len =>
    leBytes 1 stream ++ zeros 3 ++ leBytes 8 offset ++ ringBytes s (streamRing s (Fin.ofNat 9 stream)) offset len
  | .event vector tick => leBytes 4 vector ++ leBytes 8 tick

/-- The bytes of a datagram of the session, OPENED under the SESSION that it returns. -/
def HhtOut.bytes (s : State) (d : HhtOut) : List Byte :=
  let session := match d with | .opened _ k _ => k | _ => s.hht.session
  let body := d.payload s
  hhtHeader d.type session body.length ++ body

/-! ### Sessions (R436) -/

/-- The session ends: responses not acknowledged or not yet posted are discarded, commands not taken are forgotten, an update session of it
ends; stream data stays in its ring. -/
def endSession (s : State) : State :=
  let s := updHht s fun h => { h with live := false, session := 0, events := [] }
  let s := updPath s .hht fun k => { k with unposted := [], offers := [], cmdWr := k.cmdRd, rspRd := k.rspWr }
  let s := updMm s fun m => { m with invPending := m.invPending.map fun i => { i with who := i.who.filter fun x => x.1 != .hht } }
  { s with fw := { s.fw with update := match s.fw.update with | some u => if u.path == .hht then none else some u | none => none } }

/-- The state of a ring's stream at its RD. -/
def restartStream (r : RingState) : RingState := { r with sentTo := r.rd, maxSent := r.rd }

/-- A session begins (R436): a random SESSION, and every stream at its RD. -/
def beginSession (s : State) (k : Lane) (host : HostAddr) : State :=
  let r := drawFree s
  let s := updHht r.2 fun h => { h with live := true, lane := k.val, host := host, session := r.1 }
  let s := updPf { s with rings := s.rings.map restartStream } fun p => { p with ring := restartStream p.ring }
  sendHht s (.opened 0 r.1 Config.hhtSmax)

/-- OPEN. -/
def openHht (s : State) (k : Lane) (host : HostAddr) : State :=
  if !hhtPort s k then s
  else if !s.hht.en then dropFrame s
  else if s.hht.live && s.hht.host != host then sendHht s (.opened 1 0 Config.hhtSmax)
  else beginSession (if s.hht.live then endSession s else s) k host

/-- A datagram of a session: dropped and counted unless it names the live session and comes from the lane, address and port that it is bound to
(R435). -/
def inSession (s : State) (k : Lane) (host : HostAddr) (session : Word) (f : State → State) : State :=
  if !hhtPort s k then s
  else if s.hht.en && s.hht.live && s.hht.lane = k.val && s.hht.host == host && s.hht.session == session then f s
  else dropFrame s

/-! ### The command and response streams (R437, R433) -/

/-- The free room of a path's command ring. -/
def cmdRoom (p : PathRegs) : Nat := 32768 - ahead p.cmdWr p.cmdRd

/-- Command bytes are offered to the firmware, which answers the messages of no command that come next (R431). -/
def offerBytes (s : State) (p : Path) (end_ : Word) : State :=
  let s := updPath s p fun k => { k with cmdWr := end_, offers := k.offers ++ [(end_.toNat, s.tb.now)] }
  if takesFrom s p then answerUnknowns s p else s

/-- CMD: accepted only at the expected offset and within the window; always answered. -/
def hhtBytes (s : State) (offset : Nat) (bytes : List Byte) : State :=
  let k := s.path .hht
  let s := if offset = k.cmdWr.toNat && bytes.length ≤ cmdRoom k then
      offerBytes (updPath s .hht fun k => { k with cmdRing := ringStore k.cmdRing 32768 k.cmdWr.toNat bytes }) .hht (count32 k.cmdWr bytes.length)
    else s
  sendHht s (.ack (s.path .hht).cmdWr.toNat (cmdRoom (s.path .hht)))

/-- Response bytes are read up to a count, which makes room. -/
def freeRsp (s : State) (p : Path) (v : Word) : State := postAll (updPath s p fun k => { k with rspRd := v }) p

/-- RSPACK: an offset within the bytes sent. -/
def hhtRspAck (s : State) (offset : Nat) : State :=
  let k := s.path .hht
  let v := word offset
  if offset < 2 ^ 32 && ahead v k.rspRd ≤ ahead k.rspWr k.rspRd then freeRsp s .hht v else s

/-- Unacknowledged response bytes are sent again. -/
def resendRsp (s : State) : State :=
  let k := s.path .hht
  if s.hht.live && k.rspRd != k.rspWr then sendHht s (.rsp k.rspRd.toNat (ahead k.rspWr k.rspRd)) else s

/-- A write of FW_CMD_WR (R433): refused below the previous count, beyond the ring or off a multiple of 4. -/
def cmdWrWrite (s : State) (p : Path) (v : Word) : State :=
  let k := s.path p
  if v.toNat % 4 != 0 || ahead v k.cmdRd < ahead k.cmdWr k.cmdRd || ahead v k.cmdRd > 32768 then
    updPath s p fun k => { k with rej := true }
  else if v == k.cmdWr then s
  else offerBytes s p v

/-- A write of FW_RSP_RD (R433): refused above FW_RSP_WR. -/
def rspRdWrite (s : State) (p : Path) (v : Word) : State :=
  let k := s.path p
  if ahead v k.rspRd > ahead k.rspWr k.rspRd then updPath s p fun k => { k with rej := true } else freeRsp s p v

/-- Whether a path has a mailbox (R433). -/
def hasMailbox (p : Path) : Bool := p == .pcie || p == .spi

/-! ### Result streams (R438) -/

/-- Replace the ring of a stream by its image. -/
def updStream (s : State) (i : Fin 9) (f : RingState → RingState) : State :=
  if h : i.val < 8 then updRing s ⟨i.val, h⟩ f else updPf s fun p => { p with ring := f p.ring }

/-- Whether a stream is assigned. -/
def assigned (s : State) (i : Fin 9) : Bool := s.hht.stream.getLsbD i.val

/-- DACK: commits RD as a write of RD would, or is ignored. -/
def dackRing (r : RingState) (offset : Nat) : RingState :=
  if r.rd < offset && offset ≤ r.maxSent && offset % 4 = 0 then { r with rd := offset, rdLo := word offset, sentTo := max r.sentTo offset } else r

/-- DNAK: sending goes on from an offset between RD and the highest offset sent. -/
def dnakStream (s : State) (i : Fin 9) (offset : Nat) : State :=
  let r := streamRing s i
  if assigned s i && r.rd ≤ offset && offset ≤ r.maxSent then updStream s i fun r => { r with sentTo := offset }
  else updHht s fun h => { h with ign := satAdd 65535 h.ign 1 }

/-- The data bytes of the next datagram of a stream. -/
def nextLen (h : Hht) (r : RingState) : Nat := min Config.hhtSmax (min (r.wr - r.sentTo) (r.rd + h.win - r.sentTo)) / 4 * 4

/-- The streams that have a datagram to send, the lowest first. -/
def readyStreams (s : State) : List Nat :=
  ((List.finRange 9).filter fun i => assigned s i && nextLen s.hht (streamRing s i) != 0).map (·.val)

/-- Whether a stream is served next (R438, R21): the lowest that is ready and need not give way to one that waited when it was served last. -/
def streamNext (s : State) (i : Fin 9) : Bool :=
  let ready := readyStreams s
  (ready.find? fun k => !(s.hht.owed.any fun o => o.1 == k && ready.any fun r => o.2.contains r)) = some i.val

/-- Whom a served stream gives way to from now on. -/
def serveStream (ready : List Nat) (i : Fin 9) (h : Hht) : Hht :=
  { h with owed := ((h.owed.filter fun o => o.1 != i.val).map fun o => (o.1, o.2.filter (· != i.val))) ++ [(i.val, ready.filter (· != i.val))] }

/-- What the read of a stream's ring finds in the check bits (R294, R314). -/
def streamEcc (s : State) (r : RingState) (ecc : EccResult) : State :=
  eccMet (cacheXlate s r.asid.toNat (r.va r.sentTo)) (physOf s.mm r.asid.toNat (r.va r.sentTo)) ecc

/-- One DATA datagram from where the stream stands; one sent before counts as resent. -/
def sendData (s : State) (i : Fin 9) (ecc : EccResult) : State :=
  let r := streamRing s i
  let n := nextLen s.hht r
  if !s.hht.live || !assigned s i || n = 0 || !streamNext s i then s
  else
    let s := updHht (streamEcc s r ecc) (serveStream (readyStreams s) i)
    let s := sendHht s (.data i.val r.sentTo n)
    let s := if r.sentTo < r.maxSent then updHht s fun h => { h with retx := satAdd 65535 h.retx 1 } else s
    updStream s i fun r => { r with sentTo := r.sentTo + n, maxSent := max r.maxSent (r.sentTo + n) }

/-- 50 ms without a DACK while data is outstanding: sending goes on from RD. -/
def resendData (s : State) (i : Fin 9) : State :=
  let r := streamRing s i
  if s.hht.live && assigned s i && r.rd < r.maxSent then updStream s i fun r => { r with sentTo := r.rd } else s

/-- A write of LN_HHT_STREAM: a stream newly assigned starts at its RD. -/
def writeStream (s : State) (v : BitVec 9) : State :=
  let old := s.hht.stream
  let s := updHht s fun h => { h with stream := v }
  (List.finRange 9).foldl (fun s (i : Fin 9) => if v.getLsbD i.val && !old.getLsbD i.val then updStream s i restartStream else s) s

/-! ### Events (R439) -/

/-- Every unacknowledged event is sent again. -/
def repeatEvents (s : State) : State :=
  if s.hht.live && s.hht.evtEn then updHht s fun h => { h with out := h.out ++ h.events.map fun e => .event e.1 e.2 } else s

/-! ### IEEE 1588 (R440) -/

/-- The rate of an Ethernet lane as its latencies are characterised for it. -/
def latencyOf (l : LaneState) (sent : Bool) : Nat := Config.laneLatency l.proto sent

/-- An event message is timestamped at the pins: the lane's latency comes after the stamp where it is sent, before it where it is received. -/
def ptpStamp (s : State) (k : Lane) (kind : PtpKind) (sent : Bool) (tick : Nat) (domain : Byte) (time : Nat) : State :=
  if etherUp s k then
    updLane s k fun l =>
      { l with ptpLog := l.ptpLog ++ [⟨kind, sent, if sent then tick + latencyOf l true else tick - latencyOf l false, domain, time⟩] }
  else s

/-- The state of the mapping: 1 locked while a grandmaster is tracked and the offsets agree, 2 holdover once it is lost, 0 none. -/
def ptpNext (state : Nat) (tracked agree lost : Bool) : Nat :=
  if tracked then (if agree then 1 else 0) else if state != 0 && !lost then 2 else 0

/-- The domain and the delay mechanism of the board record: peer delay or delay request-response. -/
def ptpDomain (f : Firmware) : Byte := (f.board.map (·.ptpDomain)).getD 0
def ptpPeer (f : Firmware) : Bool := (f.board.map (·.ptpPeer)).getD false

/-- The last message of a kind and a direction in a domain that a lane stamped. -/
def lastStamp (log : List PtpStamp) (domain : Byte) (kind : PtpKind) (sent : Bool) : Option PtpStamp :=
  log.reverse.find? fun m => m.kind == kind && m.sent == sent && m.domain == domain

/-- Twice the mean path delay in eighths of a nanosecond, a tick being five of them: from a Sync and the Delay_Req, or from the two messages of a
peer-delay exchange, as IEEE 1588 computes it. -/
def twiceDelay (peer : Bool) (log : List PtpStamp) (domain : Byte) (sync : PtpStamp) : Option Int :=
  if peer then
    match lastStamp log domain .pdelayReq true, lastStamp log domain .pdelayResp false with
    | some req, some resp => some (5 * ((resp.tick : Int) - req.tick) - 8 * ((resp.time : Int) - req.time))
    | _, _ => none
  else
    match lastStamp log domain .delayReq true with
    | some req => some (8 * ((req.time : Int) - sync.time) - 5 * ((req.tick : Int) - sync.tick))
    | none => none

/-- The mapping that a lane's stamps give (assumption 133): the tick at which the last Sync arrived, and TAI then, in seconds and nanoseconds. -/
def laneMapping (f : Firmware) (l : LaneState) : Option (Nat × Nat × Nat) :=
  match lastStamp l.ptpLog (ptpDomain f) .sync false with
  | some sync =>
    (twiceDelay (ptpPeer f) l.ptpLog (ptpDomain f) sync).map fun d =>
      let ns := ((16 * (sync.time : Int) + d) / 16).toNat
      (sync.tick, ns / 1000000000, ns % 1000000000)
  | none => none

/-- The newest mapping that a lane gives. -/
def ptpMapping (s : State) : Option (Nat × Nat × Nat) :=
  (s.lanes.toList.filterMap (laneMapping s.fw)).foldl (fun a m =>
    match a with | some b => if b.1 < m.1 then some m else a | none => some m) none

/-- The mapping is updated once per second. -/
def ptpUpdate (s : State) (tracked agree lost : Bool) : State :=
  if !s.fw.ready || mpStopped s then s
  else
    let st := ptpNext s.fw.ptpState tracked agree lost
    let put := fun (st : Nat) (tai : Nat × Nat × Nat) => ({ s with fw := { s.fw with ptpState := st, tai := tai } } : State)
    if st = 1 then (match ptpMapping s with | some m => put 1 m | none => put 0 (0, 0, 0))
    else if st = 2 then put 2 s.fw.tai
    else put 0 (0, 0, 0)

end Sys2Proof.Machine
end

