-- ==== Sys2Proof/Machine/PowerOps.lean ====
section
/-!
DEFINITION. Power management (12_power_rails): pace, budgets, temperature, vigil.
-/
namespace Sys2Proof.Machine

/-- Change the power registers. -/
def updPwr (s : State) (f : Power → Power) : State := { s with pwr := f s.pwr }

/-! ### The core regulator (R381 to R383) -/

/-- A regulator fault (R383): each one raises source 287. -/
def regulatorFault (s : State) : State := raise (updPwr s fun p => { p with regflt := true }) 287

/-- A transaction with the core regulator has ended (R383): the third failure in a row is a fault. -/
def pmbusDone (s : State) (failed : Bool) : State :=
  if failed then
    let n := s.pwr.pmbusFails + 1
    let s := updPwr s fun p => { p with pmbusFails := if n ≥ 3 then 0 else n }
    if n ≥ 3 then regulatorFault s else s
  else updPwr s fun p => { p with pmbusFails := 0 }

/-- STATUS_WORD has been read: a reported fault, or the third transaction in a row that failed. -/
def statusPoll (s : State) (failed fault : Bool) : State :=
  let s := pmbusDone s failed
  if fault && !failed then regulatorFault s else s

/-- The sensor readings of the core die. -/
def coreTemps (p : Power) : List (Option (BitVec 16)) := p.temps.drop 32

/-- The sensor readings of a bank die. -/
def bankTemps (p : Power) (b : Bank) : List (Option (BitVec 16)) := (p.temps.drop (8 * b.val)).take 8

/-- Whether any of some sensors reads at or above a temperature in °C. -/
def anyAt (ts : List (Option (BitVec 16))) (deg : Nat) : Bool :=
  ts.any fun t => match t with | some v => v.toInt ≥ 8 * deg | none => false

/-! ### The MP's load and the pace (R325, R326, R382) -/

/-- One more millisecond of the MP, with its busy share in percent: LOAD1 and LOAD100 of Table 9.14. -/
def noteLoad (v : Nat) (f : Firmware) : Firmware :=
  let ls := (v :: f.loads).take 100
  { f with load1 := v, load100 := ls.sum / 100, loads := ls }

/-- Whether LOAD1 has stayed above 90 % for ten milliseconds (R325). -/
def mpSaturated (f : Firmware) : Bool := f.loads.length ≥ 10 && (f.loads.take 10).all (90 < ·)

/-- Whether a Graver stall has been measured within some ticks (R382). -/
def stalledWithin (p : Power) (now ticks : Nat) : Bool := p.lastStall.any fun t => now < t + ticks

/-- One step of the pace by the MP (R382), once READ_VOUT lies within 10 mV of the present value. -/
def paceMove (p : Power) (f : Firmware) (now : Nat) : Power :=
  let far := p.set + 10 < p.readVout || p.readVout + 10 < p.set
  if p.paceMan || p.vigil || far then p
  else if mpSaturated f || stalledWithin p now 1600000 then
    if anyAt (coreTemps p) p.twarn || p.set + 10 > p.highest then p else paceTo p (p.set + 10)
  else if f.load100 < 40 && !stalledWithin p now 160000000 && p.lowest + 10 ≤ p.set then paceTo p (p.set - 10)
  else p

/-- A write of PWR_PACE (R382): while PACE_MAN is 1, clipped to the bounds, in steps of 10 mV. -/
def paceWrite (p : Power) (v : Nat) : Power := if p.paceMan && !p.vigil then paceTo p (paceGrid p.lowest p.highest v) else p

/-! ### Budgets (R390) -/

/-- A channel's power over the millisecond in mW: the sum holds set point codes × scale (0.01 V/V) × code of the current × 10 nA × 10^range. -/
def chanPower (p : ChanPower) : Nat :=
  if p.samples = 0 then 0 else min (2 ^ 20 - 1) (roundDiv p.sum (p.samples * (4000000 * 2 ^ 35))).toNat

/-- A channel's power is computed and its sums start anew. -/
def closePower (p : ChanPower) : ChanPower :=
  let w := chanPower p
  { p with power := w, samples := 0, sum := 0, budx := p.budx || (p.budget != 0 && p.budget < w) }

/-- A bank's power is computed from its channels' (R390). -/
def bankPower (s : State) (b : Bank) : Nat := (bankChans b).foldl (fun a n => a + s.chans[n].pwr.power) 0

/-- Whether a channel, or a bank, exceeds its budget. -/
def chanOver (s : State) (n : Chan) : Bool := let p := s.chans[n].pwr; p.budget != 0 && p.budget < p.power
def bankOver (s : State) (b : Bank) : Bool := let k := s.banks[b]; k.budget != 0 && k.budget < k.power

/-- Whether the budget action applies to a channel. -/
def budgetActs (s : State) (n : Chan) : Bool :=
  (chanOver s n && s.chans[n].pwr.act) || (bankOver s (bankOf n) && s.banks[bankOf n].act)

/-- The end of a millisecond, once the conversions before it have been handed over (R390). The budget action is safety work of the MP (R324). The MP's busy
share over the millisecond is open: a free value. -/
def powerPeriod (s : State) : State :=
  let t := s.tb.now / 1600000 * 1600000
  if t ≤ s.pwr.period || s.chans.any (fun c => c.meas.convs.any fun k => k.tick < t) then s
  else
    let w := drawFree s
    let s := { w.2 with fw := noteLoad (w.1.toNat % 101) w.2.fw }
    let s := updPwr { s with chans := s.chans.map fun c => { c with pwr := closePower c.pwr } } fun p => { p with period := t }
    let s := allBanks.foldl (fun s b => updBank s b fun k => { k with power := bankPower s b }) s
    let s := allBanks.foldl (fun s b => updBank s b fun k => { k with budx := k.budx || bankOver s b }) s
    let s := if allChans.any (chanOver s) || allBanks.any (bankOver s) then raise s 284 else s
    let acts := allChans.filter (budgetActs s)
    if acts.isEmpty then s else acts.foldl disableChannel (mpAtOnce s)

/-! ### Temperature (R391) -/

/-- The warning bit after a reading: set at or above TWARN, cleared after ten readings 5 °C below it. -/
def warnStep (p : Power) : Power :=
  if anyAt p.temps p.twarn then { p with twarnHit := true, coolMs := 0 }
  else if p.temps.any (fun t => match t with | some v => v.toInt > 8 * ((p.twarn : Int) - 5) | none => false) then { p with coolMs := 0 }
  else if p.coolMs + 1 ≥ 10 then { p with twarnHit := false, coolMs := 10 }
  else { p with coolMs := p.coolMs + 1 }

/-- The shutdown of a bank: its channels' safe states, BANKHOT, and source 286 when it begins. -/
def bankShutdown (s : State) (b : Bank) : State :=
  let was := s.banks[b].hot
  let hot := bankSensorHot s b
  let s := updBank s b fun k => { k with hot := hot }
  if !hot then s
  else
    let s := (bankChans b).foldl (fun s n => safeTrigger s n 5) s
    if was then s else raise s 286

/-- The shutdown of the core die, as safety work of the MP (R324): every channel is disabled and frames end; source 286 when it begins. -/
def coreShutdown (s : State) (was : Bool) : State :=
  if !anyAt (coreTemps s.pwr) 125 then s
  else
    let s := endFrames (allChans.foldl disableChannel (mpAtOnce (updPwr s fun p => { p with coreHot := true })))
    if was then s else raise s 286

/-- The sensors have been read. -/
def readTemps (s : State) (temps : List (BitVec 16)) : State :=
  let wasCore := anyAt (coreTemps s.pwr) 125
  let wasWarn := s.pwr.twarnHit
  let s := updPwr s fun p => warnStep { p with temps := (List.range 44).map fun i => temps[i]? }
  let s := if s.pwr.twarnHit && !wasWarn then raise s 285 else s
  coreShutdown (allBanks.foldl bankShutdown s) wasCore

/-! ### Vigil (R392, R393) -/

/-- Whether an active context of a channel runs a supplier. -/
def supplies (c : Channel) : Bool := c.graver.ctx.any fun k => isActive k && (k.supplier != .none || k.startNext.isSome)

/-- Whether something on a channel keeps the device out of vigil. -/
def busyForVigil (s : State) (n : Chan) : Bool :=
  let c := s.chans[n]
  supplies c || c.force.bridge.isSome || slewing c.force || c.force.ldid.isSome || runActive c.cal (reliefForRun s n)

/-- Whether VIGIL is refused (R392). -/
def vigilRefused (s : State) : Bool :=
  allChans.any (busyForVigil s)
    || s.reliefs.any (fun r => match r with | some q => q.phase != .carrying | none => false)
    || s.pl.sess == .settling || s.pl.sess == .reading || s.pl.sess == .auth || s.pl.sess == .opening
    || s.fw.update.isSome

/-- A comparator in vigil runs in M3 (R248). -/
def enterM3 (c : Comparator) : Comparator := if flag c.cfg 2 then { c with vigil := true } else c

/-- Enter vigil, step by step (R392). -/
def enterVigil (s : State) : State :=
  let s := allChans.foldl (fun s n => askClose s n (nextSample s) 6) s
  let s := (List.finRange 136).foldl (fun s (i : Fin 136) =>
    let u : Fin 144 := ⟨i.val, by omega⟩
    if s.ht.units[u].en && s.ht.units[u].cfg.inp then markPart s u else s) s
  let s := { s with chans := s.chans.map fun c => { c with cmpA := enterM3 c.cmpA, cmpB := enterM3 c.cmpB } }
  let s := updPwr s fun p => { paceTo { p with paceBefore := p.set } p.lowest with vigil := true, ddrReady := false }
  allLanes.foldl (fun s k => if s.lanes[k].en then sleepLane s k 2 else s) s

/-- A write of VIGIL. -/
def vigilCmd (s : State) : State :=
  if s.pwr.vigil then s
  else if vigilRefused s then updPwr s fun p => { p with vigRej := true }
  else enterVigil s

/-- The counter reaches PWR_WAKE_T (R393). -/
def timerWake (s : State) : State :=
  if !s.pwr.vigil || !s.pwr.wakeTimer then s
  else
    match reach s s.pwr.wakeT with
    | some t => wakeVigil t wakeTimer
    | none => s

end Sys2Proof.Machine
end

