-- ==== Sys2Proof/Machine/BootOps.lean ====
section
/-!
DEFINITION. Resets and boot (R442, R443, R447 to R450, R459): what a full reset keeps, how the firmware starts, the MP warm restart.
-/
namespace Sys2Proof.Machine

/-! ### What a full reset keeps: secure ReRAM, the boot flash, and the levels that the pins see -/

/-- A channel's calibration as the ReRAM loader finds it (R409). A write that the power failure interrupted left its slot invalid (R408). -/
def loadCal (c : Calib) : Calib :=
  let slots := if c.storing.isSome then c.slots.set (1 - c.slot) none else c.slots
  let seq := fun i => match slots[i]? with | some (some t) => t.seq + 1 | _ => 0
  { slots := slots, slot := if seq 1 > seq 0 then 1 else 0, nocal := seq 0 = 0 && seq 1 = 0 }

/-- A channel's safety record as loaded, and whether the shipped values stand in for it (R80). -/
def loadSafety (c : Calib) : Safety × Bool := match setInForce c with | some t => (t.safety, false) | none => ({}, true)

/-- The start of a channel's hash chain (R336). -/
def chainStart (bootCnt n : Nat) : Digest :=
  Config.shake256 ([0x10] ++ serialBytes Config.serial ++ leBytes 4 bootCnt ++ leBytes 1 n)

/-- The start of the summary chain (R337). -/
def summaryStart (bootCnt : Nat) : Digest := Config.shake256 ([0x20] ++ serialBytes Config.serial ++ leBytes 4 bootCnt)

/-- A channel after a full reset: INERT, OEN_n low, its DAC at PARK (Table 15.1). -/
def resetChan (bootCnt n : Nat) (c : Channel) : Channel :=
  let r := Channel.reset n
  let cal := loadCal c.cal
  let s := loadSafety cal
  let head := chainStart bootCnt n
  { r with
    cal := cal
    force := { r.force with
      safety := s.1, parkDefault := s.2, trim := loopTrim cal, dac := s.1.park, target := s.1.park, fltLow := c.force.fltLow
      relay := .open_ }
    proof := { head := head, covered := head } }

/-- The keys and indices after a power-up (R334): from the current slot a new block is reserved, and the next index is the old bound. -/
def resetTrust (p : Trust) : Trust :=
  let c := (newestSlot p.slots).getD ⟨p.slotSeq, p.bound, p.bootCnt, 0⟩
  let q : Trust :=
    writeSlot { slots := p.slots, sigNext := c.bound, owner := p.owner, draws := p.draws, summaryHead := summaryStart (c.boot + 1) }
      (c.seq + 1) (min (2 ^ 40) (c.bound + 16384)) (c.boot + 1)
  { q with keyend := keyEnds q }

/-- A full reset (R442, R443). -/
def fullReset (s : State) : State :=
  let pf := resetTrust s.pf
  { State.reset with
    pending := s.pending
    free := s.free
    chans := s.chans.mapFinIdx fun n c _ => resetChan pf.bootCnt n c
    banks := s.banks.map fun b => { supplies := b.supplies }
    mm := { spares := s.mm.spares, rowrep := s.mm.rowrep, spareOut := s.mm.spareOut, retired := s.mm.retired }
    pf := pf
    pl := { pldet := s.pl.pldet, contact := s.pl.contact, memory := s.pl.memory, overrides := s.pl.overrides }
    pwr := { highest := s.pwr.highest, lowest := s.pwr.lowest }
    lanes := s.lanes.map fun l => { sigdet := l.sigdet }
    fw := {
      straps := s.fw.straps, svnCnt := s.fw.svnCnt, svnSlots := s.fw.svnSlots, svnSlot := s.fw.svnSlot, writes := s.fw.writes
      dir := s.fw.dir, dirs := s.fw.dirs, dirCopy := s.fw.dirCopy, slotA := s.fw.slotA, slotB := s.fw.slotB
      boardFlash := s.fw.boardFlash, halves := s.fw.halves, log := s.fw.log, libs := s.fw.libs } }

/-- A channel whose bank die has lost the core die (FCAUSE 6, Table 2.14): FAULT at once, OEN_n low. -/
def heldChan (c : Channel) : Channel :=
  { c with force := { c.force with
      dac := c.force.safety.fault, target := c.force.safety.fault, fltLatch := true, fcause := 6
      safe := some ⟨6, c.force.safety.fault, true, true⟩ } }

/-- PORN goes low (R442). The index slots are written at the power-up that follows; a write that the power failure interrupts leaves its slot invalid
(R333). -/
def holdReset (s : State) : State :=
  let t := fullReset s
  { t with
    chans := t.chans.map heldChan
    pf := { t.pf with
      slots := if Config.tornSlot s.pf.bootCnt then spoilSlot s.pf.slots (s.pf.slotSeq + 1) else s.pf.slots
      slotSeq := s.pf.slotSeq, bound := s.pf.bound, sigNext := s.pf.sigNext, bootCnt := s.pf.bootCnt, keyend := false } }

/-! ### Recovery mode (R450) -/

/-- Lane 0 as a host port. -/
def hostLane0 (s : State) : State :=
  startLink (takeEq (updLane s 0 fun l => { l with en := true, proto := 2, hostp := true }) 0) 0

/-- Enter recovery mode: lane 0 is a host port as 1000BASE-X, whatever it was, and HHT has its default port. -/
def enterRecovery (s : State) : State :=
  let was := s.fw.recovery
  let s := updFw s fun f => { f with recovery := true, running := false, chosen := false, ready := false }
  let s := updHht s fun h => { h with port := 18520 }
  if was && s.lanes[0].en then s
  else hostLane0 (updLane (stopLink s 0 .off) 0 fun l => { sigdet := l.sigdet, downs := l.downs })

/-- Lane 0 of recovery mode is given up. -/
def leaveRecovery (s : State) : State :=
  if s.fw.recovery then updLane (stopLink s 0 .off) 0 fun l => { sigdet := l.sigdet, downs := l.downs } else s

/-- Steps 1 to 8 of R447, with the level of RECOVERY. -/
def bootRom (s : State) (recoveryHigh : Bool) : State :=
  let r := chooseSlot s.fw
  match r.2, recoveryHigh with
  | some b, false => updFw (leaveRecovery s) fun _ => { r.1 with chosen := true, runB := b, recovery := false, running := false }
  | _, _ => enterRecovery { s with fw := r.1 }

/-- PORN rises (R443, R447). -/
def powerOn (s : State) (straps : Straps) : State :=
  if s.fw.porn then s
  else bootRom (updFw (fullReset s) fun f => { f with porn := true, straps := straps }) straps.recovery

/-! ### The firmware starts (R448) -/

/-- The registers that a running image gives (Table 15.9). -/
def loadImage (f : Firmware) (b : Bool) : Firmware :=
  let m := f.slot b
  { f with runB := b, version := word (imageVersion m), svnImg := imageSvn m, digest := imageDigest m }

/-- The counter rises to the SVN of the CONFIRMED slot (R455). -/
def raiseSvn (f : Firmware) : Firmware :=
  match slotIn f.dir .confirmed with
  | some b => if f.svnCnt < imageSvn (f.slot b) then writeSvn f (imageSvn (f.slot b)) else f
  | none => f

/-- The firmware starts at ENTRY. -/
def startFirmware (s : State) : State :=
  if !s.fw.porn || !s.fw.chosen || s.fw.running then s
  else
    updFw s fun f =>
      let g := raiseSvn (loadImage f f.runB)
      { g with running := true, chosen := false, trialStart := if g.dir.state g.runB == .trial then some s.tb.now else none }

/-! ### Host-ready (R448, R449, R462) -/

/-- A host port of the board record is enabled (R416). -/
def enableHost (s : State) (k : Lane) (proto : Nat) : State :=
  if proto = 0 then s else startLink (takeEq (updLane s k fun l => { l with en := true, proto := proto, hostp := true }) k) k

/-- The board record is applied; without a valid one the defaults of R449. -/
def applyBoard (s : State) (maGib mbGib : Nat) : State :=
  let board := readBoard s.fw.boardFlash
  let s := updFw s fun f => { f with board := board, boarddef := board.isNone }
  match board with
  | none =>
    let s := runSessions (withHold s fun s => updPl s fun p => { p with deten := false })
    hostLane0 s
  | some b =>
    let s := updMm s fun m =>
      { m with maGib := if (ddrLimit b.ddrMa).isSome then maGib else 0, mbGib := if (ddrLimit b.ddrMb).isSome then mbGib else 0 }
    let s := runSessions (withHold s fun s => updPl s fun p => { p with deten := b.deten })
    let s := updTb s fun t => { t with asym := (b.asym[t.lane.toNat]?).getD 0 }
    let s := updHht s fun h => { h with port := b.hhtPort }
    allLanes.foldl (fun s k => enableHost (takeEq s k) k ((b.hostProto[k.val]?.map BitVec.toNat).getD 0)) s

/-- The settings of the newest valid half are loaded; those of another format are reset to defaults, and the log records their format (R462). -/
def loadSettings (s : State) : State :=
  updFw s fun f =>
    match newestHalf f with
    | none => { f with settings := [] }
    | some h =>
      if h.2.fmt = imageSetFmt (f.slot f.runB) then { f with settings := h.2.blob }
      else logAdd { f with settings := [], setrst := true } 1 h.2.fmt

/-- The firmware gives the queues of its own their places (R297): each within units 15,760 to 16,383 and clear of the others. -/
def placeQueues (s : State) : State :=
  ((List.finRange 256).filter fun q => 69 ≤ q.val).foldl (fun s q =>
    let c := Config.queuePlace q.val
    if 15760 ≤ c.1 && c.1 + c.2 ≤ 16384 && c.2 != 0 && !overlapsQueue s q c.1 c.2 then
      updQueue s q fun k => { k with base := c.1, size := c.2 }
    else s) s

/-- The firmware is host-ready (t5 of Table 15.5); the pace of a supported regulator lies within the bounds from then on (R381). -/
def becomeReady (s : State) (regulatorLinear : Bool) (maGib mbGib : Nat) : State :=
  if !s.fw.running || s.fw.ready || s.fw.restarting then s
  else
    let s := applyBoard s maGib mbGib
    let s := match s.fw.board with | some b => updFw s fun f => logAdd f 2 b.boardId.toNat | none => s
    let s := updPwr s fun p => let p := { p with regns := !regulatorLinear }; paceTo p (paceGrid p.lowest p.highest p.set)
    updFw (copyLibrary (loadSettings (placeQueues s))) fun f => { f with ready := true }

/-! ### The MP warm restart (R459, R457, R458) -/

/-- What falls back at a warm restart: a running TRIAL slot, and the slot of an activation. -/
def fallBack (f : Firmware) : Firmware × Bool :=
  let trial := (f.running || f.chosen) && f.dir.state f.runB == .trial
  let f1 := if trial then writeDir f (setSlot f.runB .failed 0) else f
  let f2 := if f1.dir.journal then writeDir f1 fun d => { setSlot d.jslotB .failed 0 d with journal := false } else f1
  (f2, trial || f1.dir.journal)

/-- A calibration run that has not reached its store ends with RESTART (R405). -/
def restartRuns (s : State) : State :=
  allChans.foldl (fun s n => if s.chans[n].cal.phase == .store then s else abortRun s n 0x17) s

/-- Commands that were taken and not answered get no response. -/
def dropTaken (s : State) : State :=
  { s with
    paths := s.paths.map fun k => { k with unposted := [] }
    mm := { s.mm with invPending := s.mm.invPending.map fun i => { i with who := none } } }

/-- A warm restart begins, with its cause; 4 where it falls back from a trial. -/
def warmRestart (s : State) (cause : Nat) : State :=
  if !s.fw.porn then s
  else
    let r := fallBack s.fw
    dropTaken (restartRuns (updFw { s with fw := r.1 } fun f =>
      { f with
        restarting := true, chosen := false, handover := .none, trialStart := none, wrcause := if r.2 then 4 else cause, wrcnt := satAdd 255 f.wrcnt 1 }))

/-- The host sessions end (R459). -/
def endHostSessions (s : State) : State :=
  let s := if s.hht.live then endSession s else s
  updFw s fun f => { f with update := none }

/-- The firmware runs again, from the slot that R447 gives. -/
def restartDone (s : State) (adoptOk : Bool) : State :=
  if !s.fw.restarting then s
  else
    let r := match slotIn s.fw.dir .confirmed with
      | some b => verifySlot s.fw b
      | none => chooseSlot s.fw
    let s := updFw { s with fw := r.1 } fun f => { f with restarting := false }
    let s := if adoptOk then s else endHostSessions s
    match r.2, s.fw.straps.recovery with
    | some b, false => updFw (leaveRecovery s) fun f => { raiseSvn (loadImage f b) with running := true, recovery := false }
    | _, _ => enterRecovery (endHostSessions s)

end Sys2Proof.Machine
end

