-- ==== Sys2Proof/Machine/UpdateOps.lean ====
section
/-!
DEFINITION. Update sessions (R452 to R455), activation and confirmation (R456 to R458), libraries, settings and the event log.
-/
namespace Sys2Proof.Machine

/-- A response body: the status and the data. -/
abbrev Reply := Option (Nat × List Byte) × State

/-- A status without data. -/
def reply (st : Nat) (s : State) : Reply := (some (st, []), s)

/-- Change the update session. -/
def updSession (s : State) (f : Update → Update) : State := updFw s fun w => { w with update := w.update.map f }

/-- The session of a path. -/
def sessionOf (s : State) (p : Path) : Option Update := s.fw.update.filter fun u => u.path == p

/-! ### Opening (R452, R453) -/

/-- The number of a path in a holder record. -/
def pathCode (recovery : Bool) : Path → Nat
  | .pcie => if recovery then 3 else 0
  | .hht => if recovery then 3 else 1
  | _ => if recovery then 3 else 2

/-- The holder record. -/
def holderRecord (s : State) (u : Update) : List Byte :=
  leBytes 4 (pathCode s.fw.recovery u.path) ++ leBytes 4 ((s.tb.now - u.lastCmd) / 1600000) ++ serialBytes u.host.ip
    ++ leBytes 2 u.host.port.toNat ++ zeros 2

/-- The slot that an image is written into: outside recovery the one that is not CONFIRMED. -/
def targetSlot (f : Firmware) (slot : Bool) : Bool :=
  if f.recovery then slot
  else
    match slotIn f.dir .confirmed with
    | some b => !b
    | none => !f.runB

/-- The library half that is not in force. -/
def otherHalf (f : Firmware) : Fin 2 := if f.dir.libHalf = 0 then 1 else 0

/-- The session that an accepted UPD_OPEN starts. -/
def openUpdate (s : State) (p : Path) (kind : UpdKind) (slot : Bool) (digest : Digest) : State :=
  let b := targetSlot s.fw slot
  let host := if p == .hht then s.hht.host else ⟨0, 0⟩
  let done := kind == .image && !s.fw.recovery && s.fw.dir.state b == .valid && s.fw.dir.digest b == digest
  let u : Update :=
    { path := p, host := host, kind := kind, slotB := b, digest := digest, lastCmd := s.tb.now, ranges := [], finished := done, libLen := 0
      libHalf := (otherHalf s.fw).val }
  let s := updFw s fun f => { f with update := some u, object := [] }
  if kind == .image && !s.fw.recovery && !done then
    updFw s fun f => let g := writeDir f (setSlot b .invalid 0); if dirMade f g then setFlash g b [] else { g with update := none }
  else s

/-- The check of the token of UPD_OPEN: an owned device needs one. -/
def updToken (s : State) (p : Path) (digest : Digest) (t : Option Token) : Nat × State :=
  match t, s.pf.owner with
  | some k, _ => useToken s p k opFwUpdate none (digestBytes digest)
  | none, none => (stOk, s)
  | none, some _ => (stBadFormat, s)

/-- UPD_OPEN. -/
def updOpenOp (s : State) (p : Path) (kind : UpdKind) (slot : Bool) (digest : Digest) (t : Option Token) : Reply :=
  if s.fw.recovery && kind != .image then reply stState s
  else
    match s.fw.update.filter fun u => u.path != p with
    | some u => (some (stBusy, holderRecord s u), s)
    | none =>
      let r := updToken s p digest t
      if r.1 != stOk then reply r.1 r.2
      else
        let t := openUpdate r.2 p kind slot digest
        reply (if t.fw.update.isSome then stOk else stState) t

/-! ### Writing (R454) -/

/-- From a position, how far ranges cover without a hole; `fuel` bounds the steps. -/
def coveredTo (rs : List (Nat × Nat)) : Nat → Nat → Nat
  | 0, x => x
  | fuel + 1, x =>
    match rs.find? fun r => r.1 ≤ x && x < r.1 + r.2 with
    | some r => coveredTo rs fuel (r.1 + r.2)
    | none => x

/-- Whether a range has been written throughout. -/
def covers (u : Update) (lo hi : Nat) : Bool := hi ≤ coveredTo u.ranges (u.ranges.length + 1) lo

/-- Whether block i of an image has been written throughout. -/
def blockThere (u : Update) (i : Nat) : Bool := covers u (0x10000 * i) (0x10000 * (i + 1))

/-- Forget what was written of a block. -/
def forgetBlock (i : Nat) (rs : List (Nat × Nat)) : List (Nat × Nat) :=
  let lo := 0x10000 * i
  let hi := lo + 0x10000
  rs.flatMap fun r =>
    let e := r.1 + r.2
    (if r.1 < lo then [(r.1, min e lo - r.1)] else []) ++ (if hi < e then [(max r.1 hi, e - max r.1 hi)] else [])

/-- What a session has written: the flash of its slot or of the board record, or what it collects. -/
def objectOf (s : State) (u : Update) : Mem :=
  if u.kind == .board then s.fw.boardFlash else if u.kind == .image && !s.fw.recovery then s.fw.slot u.slotB else s.fw.object

/-- Write bytes of the object. -/
def writeObject (s : State) (u : Update) (offset : Nat) (bytes : List Byte) : State :=
  updFw s fun f =>
    if u.kind == .board then { f with boardFlash := memWriteBytes f.boardFlash offset bytes }
    else if u.kind == .image && !f.recovery then setFlash f u.slotB (memWriteBytes (f.slot u.slotB) offset bytes)
    else { f with object := memWriteBytes f.object offset bytes }

/-- The size of the region that an object may fill (Table 15.2). -/
def objectLimit : UpdKind → Nat
  | .image => 0x1000000
  | .library => 0x800000
  | .board => 0x20000

/-- The code blocks that a write has just completed. -/
def completed (old new : Update) (offset len : Nat) : List Nat :=
  (List.range (len / 0x10000 + 2)).map (· + offset / 0x10000) |>.filter fun i => i != 0 && !blockThere old i && blockThere new i

/-- UPD_DATA. -/
def updDataOp (s : State) (p : Path) (offset : Nat) (bytes : List Byte) : Reply :=
  match sessionOf s p with
  | none => reply stState s
  | some u =>
    if u.finished then reply stState s
    else if bytes.length % 4 != 0 then reply stBadLen s
    else if offset + bytes.length > objectLimit u.kind then reply stRange s
    else if u.kind == .image && offset + bytes.length > 0x10000 && !blockThere u 0 then reply stState s
    else
      let s := writeObject s u offset bytes
      let v := { u with ranges := u.ranges ++ [(offset, bytes.length)] }
      match (completed u v offset bytes.length).find? fun i => u.kind == .image && !blockOk (objectOf s u) i with
      | some i => (some (stBadArg, leBytes 4 i), updSession s fun w => { w with ranges := forgetBlock i v.ranges })
      | none => reply stOk (updSession s fun w => { w with ranges := v.ranges })

/-! ### Finishing (R454, R451, R460, R465) -/

/-- The status of an image at UPD_FINISH. -/
def imageStatus (s : State) (u : Update) (m : Mem) : Nat :=
  if !(imageFormed m && imageSized m && (List.range (imageBlocks m + 1)).all (blockThere u) && blocksOk m) then stBadArg
  else if !imageSigned m then stBadSig
  else if imageDigest m != u.digest then stBadArg
  else if imageSvn m < s.fw.svnCnt then stRange
  else stOk

/-- A slot takes a digest in the directory. -/
def setDigest (b : Bool) (g : Digest) (d : Directory) : Directory := if b then { d with digestB := g } else { d with digestA := g }

/-- The directory of a slot that recovery has written: TRIAL with TRIES 1, and no other slot TRIAL (assumption 134). -/
def recovered (u : Update) (d : Directory) : Directory :=
  let d := if d.state (!u.slotB) == .trial then setSlot (!u.slotB) .failed 0 d else d
  setDigest u.slotB u.digest (setSlot u.slotB .trial 1 d)

/-- An image has passed: VALID; in recovery it is written and read back, becomes TRIAL, and the ROM boots unless RECOVERY is still high. A write
whose read-back fails leaves the session as it is, with STATE (assumption 134). -/
def finishImage (s : State) (u : Update) (recoveryHigh : Bool) : Reply :=
  if s.fw.recovery then
    let r := readBack (setFlash s.fw u.slotB s.fw.object)
    let f := if r.1 then writeDir r.2 (recovered u) else r.2
    if r.1 && dirMade s.fw f then
      let t := updFw s fun _ => { f with update := none }
      reply stOk (if recoveryHigh then t else bootRom t false)
    else reply stState (updFw s fun _ => f)
  else
    let f := writeDir s.fw fun d => setDigest u.slotB u.digest (setSlot u.slotB .valid 0 d)
    if dirMade s.fw f then reply stOk (updSession (updFw s fun _ => f) fun w => { w with finished := true }) else reply stState (updFw s fun _ => f)

/-- UPD_FINISH of a library delta: its status, and its result. -/
def finishDelta (s : State) (u : Update) : Nat × State :=
  let m := s.fw.object
  let lib := if s.fw.dir.libHalf = 0 then s.fw.libs[0] else s.fw.libs[1]
  let len := flashField m 72 4
  match deltaEnd m 0x200000 76, runDelta m lib 0x200000 76 ([], 0) with
  | some e, some out =>
    if flashField m 0 4 != 0x4C443648 || flashField m 4 2 != 1 || !covers u 0 e then (stBadArg, s)
    else if digestOf (memReadBytes m 8 32) != s.fw.dir.libDigest then (stState, s)
    else if out.2 != len || len > 0x400000 || libraryDigest out.1 len != digestOf (memReadBytes m 40 32)
        || digestOf (memReadBytes m 40 32) != u.digest then (stBadArg, s)
    else
      (stOk, updSession (updFw s fun f => { f with libs := f.libs.set (otherHalf f) out.1 }) fun w => { w with finished := true, libLen := len })
  | _, _ => (stBadArg, s)

/-- UPD_FINISH of a board record, which stands in its flash. -/
def finishBoard (s : State) (u : Update) : Nat × State :=
  let m := s.fw.boardFlash
  if !covers u 0 (flashField m 8 4 + 32) || !boardValid m || boardDigest m != u.digest then (stBadArg, s)
  else (stOk, updSession s fun w => { w with finished := true })

/-- UPD_FINISH. -/
def updFinishOp (s : State) (p : Path) (recoveryHigh : Bool) : Reply :=
  match sessionOf s p with
  | none => reply stState s
  | some u =>
    if u.finished then reply stState s
    else
      match u.kind with
      | .image => let st := imageStatus s u (objectOf s u); if st = stOk then finishImage s u recoveryHigh else reply st s
      | .library => statusOnly (finishDelta s u)
      | .board => statusOnly (finishBoard s u)

/-- The update session ends (R453). -/
def endUpdate (s : State) : State := updFw s fun f => { f with update := none, object := [] }

/-- UPD_ABORT. -/
def updAbortOp (s : State) (p : Path) : Reply :=
  match sessionOf s p with
  | some _ => reply stOk (endUpdate s)
  | none => reply stState s

/-! ### Activation (R456 to R458) -/

/-- The status of FW_ACTIVATE. -/
def activateStatus (s : State) (u : Update) : Nat :=
  let f := s.fw
  let new := f.slot u.slotB
  if u.kind != .image || !u.finished || s.mm.maGib = 0 || imageHfmt (f.slot f.runB) < imageHfmtMin new || f.dir.state u.slotB != .valid
      || f.dir.state f.runB == .trial then stState
  else if imageSvn new < f.svnCnt then stRange
  else stOk

/-- FW_ACTIVATE: accepted, the new image is loaded while host commands go on. -/
def activateOp (s : State) (p : Path) : Reply :=
  match sessionOf s p with
  | none => reply stState s
  | some u =>
    let st := activateStatus s u
    reply st (if st = stOk then updFw s fun f => { f with handover := .preload u.slotB } else s)

/-- t1 and t2 of Table 15.7: the journal is written and the pause begins, which ends the calibration runs that have not reached their store
(R405); an image that fails its checks, or a journal that does not read back, ends the handover. -/
def preloadDone (s : State) : State :=
  match s.fw.handover with
  | .preload b =>
    if imageVerified s.fw.svnCnt (s.fw.slot b) then
      let f := writeDir s.fw fun d => { d with journal := true, jslotB := b }
      if dirMade s.fw f then updFw (restartRuns s) fun _ => { f with handover := .pause b } else updFw s fun _ => { f with handover := .none }
    else updFw s fun f => { writeDir f (setSlot b .invalid 0) with handover := .none }
  | _ => s

/-- t3 and t4: the new image adopts the handover block and its slot is TRIAL; or it fails, or its directory does not read back, and the watchdog
restarts the MP (R457, assumption 134). -/
def imageStart (s : State) (adopted : Bool) : State :=
  match s.fw.handover with
  | .pause b =>
    let f := writeDir s.fw fun d => { setSlot b .trial 1 d with journal := false }
    if !adopted then warmRestart s 3
    else if !dirMade s.fw f then warmRestart (updFw s fun _ => f) 3
    else
      updInterval (updFw s fun _ => { loadImage f b with handover := .none, trialStart := some s.tb.now }) fun v => { v with fwchg := true }
  | _ => s

/-- The TRIAL slot becomes CONFIRMED, the previous one VALID, and the counter rises (R458, R455), once the directory reads back. -/
def confirmSlot (f : Firmware) (b : Bool) : Firmware :=
  let old := f.dir.state (!b) == .confirmed
  let g := writeDir f fun d => setSlot b .confirmed 0 (if old then setSlot (!b) .valid 0 d else d)
  if dirMade f g then raiseSvn { g with trialStart := none } else g

/-- FW_CONFIRM. -/
def confirmOp (s : State) : Reply :=
  match slotIn s.fw.dir .trial with
  | some b =>
    let f := confirmSlot s.fw b
    reply (if dirMade s.fw f then stOk else stState) (updFw s fun _ => f)
  | none => reply stState s

/-- Ten minutes of a running TRIAL image with AUTOCONF. -/
def autoConfirm (s : State) : State :=
  if s.fw.autoconf && s.fw.running && !s.fw.restarting && s.fw.trialStart.isSome && s.fw.dir.state s.fw.runB == .trial then
    updFw s fun f => confirmSlot f f.runB
  else s

/-! ### Libraries, settings, the event log (R461, R462, R452) -/

/-- LIB_ACTIVATE. -/
def libActivateOp (s : State) (p : Path) : Reply :=
  match sessionOf s p with
  | some u =>
    if u.kind == .library && u.finished then
      let f := writeDir s.fw fun d => { d with libHalf := u.libHalf, libDigest := u.digest, libLen := u.libLen }
      let t := updFw s fun _ => f
      if dirMade s.fw f then reply stOk (copyLibrary t) else reply stState t
    else reply stState s
  | none => reply stState s

/-- SET_SAVE: into the half that is not in force, with the format of the running image. -/
def setSaveOp (s : State) (blob : List Byte) : Reply :=
  reply (if (readBack s.fw).1 then stOk else stState) (updFw s fun f => saveSettings f (imageSetFmt (f.slot f.runB)) blob)

/-- SET_DEFAULTS: the retirement list stays. -/
def setDefaultsOp (s : State) : Reply := setSaveOp s []

/-- LOG_READ. -/
def logReadOp (s : State) (first count : Nat) : Reply :=
  if count = 0 || count > 256 then reply stRange s
  else (some (stOk, ((s.fw.log.drop first).take count).flatMap fun e => Config.logEntry e.1 e.2), s)

end Sys2Proof.Machine
end

