-- ==== Sys2Proof/Machine/FirmwareCommands.lean ====
section
/-!
DEFINITION. The update and library commands (Table 15.6) and the events of updates and handovers.
-/
namespace Sys2Proof.Machine

open Host

/-- A command of the session of its path, whose 60 s start anew (R453). -/
def sessionCommand (s : State) (h : Hdr) (opcode args : Nat) (inRecovery : Bool) (body : State → Reply) : State :=
  hostCommand s h opcode args inRecovery fun s => body (touchSession s h.path)

/-- UPD_OPEN (R452, R453). -/
def execUpdOpen (h : Hdr) (kind : UpdKind) (slot : Bool) (digest : Digest) (token : Option Token) (s : State) : Outcome State Fault Refusal :=
  .next (hostCommand s h 0x0040 (36 + (match token with | some t => (padded (zeros (tokenSize t))).length | none => 0)) true fun s =>
    updOpenOp s h.path kind slot digest token)

/-- UPD_DATA (R454). -/
def execUpdData (h : Hdr) (offset : Nat) (bytes : List Byte) (s : State) : Outcome State Fault Refusal :=
  .next (sessionCommand s h 0x0041 (8 + bytes.length) true fun s => updDataOp s h.path offset bytes)

/-- UPD_FINISH (R454, R451). -/
def execUpdFinish (h : Hdr) (recoveryHigh : Bool) (s : State) : Outcome State Fault Refusal :=
  .next (sessionCommand s h 0x0042 0 true fun s => updFinishOp s h.path recoveryHigh)

/-- UPD_ABORT (R453). -/
def execUpdAbort (h : Hdr) (s : State) : Outcome State Fault Refusal :=
  .next (sessionCommand s h 0x0043 0 true fun s => updAbortOp s h.path)

/-- UPD_SESSION_TIMEOUT (R453): 60 s. -/
def execUpdSessionTimeout (s : State) : Outcome State Fault Refusal := .next (if s.fw.update.isSome then endUpdate s else s)

/-- FW_ACTIVATE (R456, R457). -/
def execFwActivate (h : Hdr) (s : State) : Outcome State Fault Refusal :=
  .next (sessionCommand s h 0x0044 0 false fun s => activateOp s h.path)

/-- HANDOVER_PRELOAD_DONE (R456). -/
def execHandoverPreloadDone (s : State) : Outcome State Fault Refusal := .next (preloadDone s)

/-- HANDOVER_IMAGE_START (R456, R457). -/
def execHandoverImageStart (adopted : Bool) (s : State) : Outcome State Fault Refusal := .next (imageStart s adopted)

/-- FW_CONFIRM (R458). -/
def execFwConfirm (h : Hdr) (s : State) : Outcome State Fault Refusal := .next (sessionCommand s h 0x0045 0 false confirmOp)

/-- TRIAL_AUTOCONFIRM (R458). -/
def execTrialAutoconfirm (s : State) : Outcome State Fault Refusal := .next (autoConfirm s)

/-- FW_RESTART (R459): no response. -/
def execFwRestart (h : Hdr) (s : State) : Outcome State Fault Refusal :=
  .next (hostCommand s h 0x0046 0 false fun s => (none, warmRestart s 2))

/-- LIB_ACTIVATE (R461). -/
def execLibActivate (h : Hdr) (s : State) : Outcome State Fault Refusal :=
  .next (sessionCommand s h 0x0047 0 false fun s => libActivateOp s h.path)

/-- SET_SAVE (R462). -/
def execSetSave (h : Hdr) (blob : List Byte) (s : State) : Outcome State Fault Refusal :=
  .next (hostCommand s h 0x0048 blob.length false fun s => setSaveOp s blob)

/-- SET_DEFAULTS (R462). -/
def execSetDefaults (h : Hdr) (s : State) : Outcome State Fault Refusal := .next (hostCommand s h 0x0049 0 false setDefaultsOp)

/-- LOG_READ (R452). -/
def execLogRead (h : Hdr) (first count : Nat) (s : State) : Outcome State Fault Refusal :=
  .next (hostCommand s h 0x004A 8 false fun s => logReadOp s first count)

end Sys2Proof.Machine
end

