-- ==== Sys2Proof/Machine/SampleWorld.lean ====
section
/-!
DEFINITION. The commands of the sample-tick world: the sample tick itself, raw pairs, ranging, packets by age, the stability watch, the
trim loop, load identification, range switches and the rails.
-/
namespace Sys2Proof.Machine

open Host

/-- SAMPLE_TICK (R26): nothing before the PLL has locked (R27). The counter reaches the next sample tick, and everything that applies at a
sample tick applies. -/
def execSampleTick (s : State) : Outcome State Fault Refusal :=
  .next (if s.tb.lock then sampleTick s (nextSample s) else s)

/-- RAIL_FALL (R387): a code falls to the highest code that the sample ticks of the last THOLD required. -/
def execRailFall (n : Chan) (s : State) : Outcome State Fault Refusal :=
  .next (match s.tb.lastSample with
    | none => s
    | some t =>
      let c := s.chans[n]
      let h := heldCodes c t
      let new := (min c.force.railP h.1, min c.force.railN h.2)
      updForce s n fun f =>
        { f with railP := new.1, railN := new.2, railHist := histAdd f.railHist t (t - 5200 * 800) new })

/-- The raw sample that a pair gives: calibrated, and the voltage compensated for the Plate (R98 steps 1 and 2). It carries OVERRANGE where the
converter's input lay outside its span or its own value lies beyond the codes (R99). -/
def rawOf (k : Conv) (xv xi : Int) (vOut iOut comp : Bool) : Raw :=
  let v := match k.rp with | some rp => compensate xv xi k.ranges rp | none => xv
  { tick := k.tick
    v := v
    i := xi
    ranges := k.ranges
    qual := 8 * bit k.ranging + 4 * bit comp + bit k.held
    vOver := vOut || satCode v != v
    iOver := iOut || satCode xi != xi }

/-- The samples of a channel's power (R390): the rail that carries the current, times the current. -/
def powerSample (scale : Nat × Nat) (k : Conv) (i : Int) (p : ChanPower) : ChanPower :=
  let rail := if i > 0 then k.rails.1 * scale.1 else k.rails.2 * scale.2
  { p with samples := p.samples + 1, sum := p.sum + (rail * i.natAbs * fsI k.ranges.i : Nat) }

/-- The pair of a conversion that took place during LDID (R68). -/
def ldidPair (k : Conv) (v i : Int) (comp : Bool) (f : Force) : Force :=
  if !k.ldid then f
  else { f with ldid := f.ldid.map fun l => { l with pairs := l.pairs ++ [(v, i)], compliance := l.compliance || comp } }

/-- A raw pair on the handshake side (R98): what its sample tick reported of the clamp loop, the calibrated and compensated values, the
Hatch units, ranging and power, the filter, and the words of its instant. -/
def handoff (s : State) (n : Chan) (k : Conv) (v i : BitVec 20) (vOut iOut clamping upper : Bool) : State :=
  let c := s.chans[n]
  let xv := calibrated c.cal k.ranges.v v
  let xi := calibrated c.cal (3 + k.ranges.i) i
  let s := complianceTick k.cfg.smode s n k.tick (clamping && k.forced != .inert) upper
  let comp := s.chans[n].force.inComp
  let r := rawOf k xv xi vOut iOut comp
  let s := updMeas s n fun m =>
    { m with
      extV := xv, extI := xi, extRanges := k.ranges
      hist := let h := (if k.restart then [] else m.hist) ++ [r]; h.drop (h.length - histNeed k.cfg) }
  let s := updForce s n (ldidPair k r.v r.i comp)
  let s := updChan s n fun c =>
    { c with pwr := powerSample (railScale s (bankOf n)) k xi c.pwr }
  let s := if k.rp.isSome then noteCflag s n 3 k.tick else s
  let s := offerPair s n k false r.v r.i k.ranges (r.qual + 2 * bit r.vOver) (r.qual + 2 * bit r.iOver)
  let s := autorangeSample s n k.ranging xv xi vOut iOut
  let s := flushStream s n (resultBatch s.chans[n].meas k) k.tick (k.tick + 1)
  let s := match k.win with | some w => emitOutput s n k w | none => s
  flushStream s n none (k.tick + 1) (k.tick + 1)

/-- RAW_PAIR_HANDOFF (R98): the oldest conversion of the channel crosses to the core die, with the two converter codes, whether each
input lay outside its span, and the report of the clamp detector; the status words of its bank cross with it (R90). A boundary at its tick comes first. -/
def execRawPairHandoff (n : Chan) (v i : BitVec 20) (vOut iOut clamping upper : Bool) (s : State) : Outcome State Fault Refusal :=
  .next (match s.chans[n].meas.convs with
    | [] => s
    | k :: rest =>
      if boundaryDue s k.tick then s
      else handoff (crossStatus (updMeas s n fun m => { m with convs := rest }) (bankOf n) k.tick) n k v i vOut iOut clamping upper)

/-- AUTORANGE_DOWN (R105): after D consecutive raw samples below 0.09 FS. -/
def execAutorangeDown (n : Chan) (s : State) : Outcome State Fault Refusal :=
  .next (if s.chans[n].meas.downCount ≥ s.chans[n].meas.cfg.d then autoRequest s n false else s)

/-- PACKET_AGE (R119): the packet closes at the first sample tick at which its age limit has passed. -/
def execPacketAge (n : Chan) (s : State) : Outcome State Fault Refusal :=
  .next (match s.chans[n].meas.packet with
    | none => s
    | some p =>
      let limit := p.first + s.chans[n].meas.cfg.ageMs * 1600000
      let t := (limit + 799) / 800 * 800
      match s.tb.lastSample with
      | some last =>
        let upTo := min (t + 1) (last + 1 - captureLead)
        if t ≤ last then flushIdle (askClose s n t 2) n upTo upTo else s
      | none => s)

/-- One step up of COMP by an alarm, in the intent of the owner (R69). -/
def autoStep (s : State) (n : Chan) : State :=
  updApplied s n fun i => { i with comp := { i.comp with comp := i.comp.comp + 1, autoSteps := satAdd 255 i.comp.autoSteps 1 } }

/-- STABILITY_ALARM (R69): SW_WIN consecutive windows of 16 sample ticks with at least 4 × (SW_THR + 1) crossings each, all since the watch began or
last restarted. -/
def execStabilityAlarm (n : Chan) (crossings : List Nat) (s : State) : Outcome State Fault Refusal :=
  .next (
    let f := s.chans[n].force
    if f.mode == .inert || f.comp.swWin = 0 || f.swTicks < 16 * f.comp.swWin || crossings.length != f.comp.swWin
        || !crossings.all (fun c => c ≥ 4 * (f.comp.swThr + 1)) then s
    else
      let step := f.comp.swAuto && f.comp.comp < f.comp.compMax && f.applied.comp.comp < f.comp.compMax
      let s := updForce s n fun f => { f with osc := true, swTicks := 0 }
      let s := if step then autoStep s n else s
      let t := s.tb.lastSample.getD s.tb.now
      raiseAt (eventWord s n t 3 (4 * n.val + 2) (f.comp.comp + bit step)) (4 * n.val + 2) (some t))

/-- What the latest calibrated sample says of the forced quantity against its target: how far the target lies above it, in units of the smaller
scale (R70). -/
def trimError (c : Channel) : Int :=
  let f := c.force
  let m := c.meas
  if forcesV f.mode then f.target * 16 * fsV f.ranges.v - m.extV * fsV m.extRanges.v
  else f.target * 16 * fsI f.ranges.i - m.extI * fsI m.extRanges.i

/-- One step of the trim DAC towards a smaller error; none where there is none. -/
def trimToward (e : Int) (t : Int) : Int := clampInt (-2048) 2047 (if 0 < e then t + 1 else if e < 0 then t - 1 else t)

/-- TRIM_STEP (R70): once the loop has run for 1,024 sample ticks, at most one step of the 12-bit trim DAC. -/
def execTrimStep (n : Chan) (s : State) : Outcome State Fault Refusal :=
  .next (if trimRuns s.chans[n] && s.chans[n].force.trimTicks ≥ 1024 then
      updForce s n fun f => { f with trim := trimToward (trimError s.chans[n]) f.trim, trimTicks := 0 }
    else s)

/-- LDID_PERTURB_COUNT (R68): 32 sample ticks of a phase have passed. -/
def execLdidPerturbCount (n : Chan) (s : State) : Outcome State Fault Refusal :=
  .next (updForce s n fun f =>
    { f with ldid := f.ldid.map fun l =>
      if (l.phase = 1 || l.phase = 2) && l.ticks = 32 then { l with phase := l.phase + 1, ticks := 0 } else l })

/-- The recommendation of LDID (R68): the lowest COMP whose load of Table 2.7 is at least twice the capacitance in pF. -/
def compFor (pf : Nat) : Nat :=
  let loads := [1000, 2200, 4700, 10000, 22000, 47000, 100000, 220000, 470000, 1000000, 2200000, 4700000, 10000000, 22000000, 47000000,
    100000000]
  (loads.findIdx? fun l => 2 * pf ≤ l).getD 15

/-- The result word of a completed fit (Tables 2.8 and 2.9). Where several values of STAT hold, it is 2, then 5, then 1 (DESIGN CHOICE,
assumption 93). -/
def ldidWord (l : LdidRun) : Word :=
  let r := Config.ldidFit l.pairs
  let cm := r.1 % 256
  let ce := r.2.1 % 16
  let rm := r.2.2.1 % 256
  let re := r.2.2.2.1 % 16
  let big := r.2.2.2.2.2
  let stat := if l.compliance then 2 else if big then 5 else if r.2.2.2.2.1 > 50 then 1 else 0
  let rec_ := if big then 15 else compFor (cm * 10 ^ ce)
  pack [(rec_, 28), (1, 27), (stat, 24), (ce, 20), (cm, 12), (re, 8), (rm, 0)]

/-- LDID_FIT_DONE (R68): the result word is written and LDID completes. -/
def execLdidFitDone (n : Chan) (s : State) : Outcome State Fault Refusal :=
  .next (match s.chans[n].force.ldid with
    | none => s
    | some l =>
      if l.phase != 3 then s
      else
        let s := updForce s n fun f => { f with ldid := none }
        match s.chans[n].graver.busy with
        | some (x, .ldid dest) => finishBusy (updCtx s n x fun k => setGr k dest (ldidWord l)) n x
        | _ => s)

/-- RANGE_SWITCH_MADE (R73, Table 2.4): the make time has passed and CLOSE is acknowledged. The sample tick that follows is t2 of a bridged change;
a channel that leaves INERT sends ENABLE at once. -/
def execRangeSwitchMade (n : Chan) (s : State) : Outcome State Fault Refusal :=
  .next (
    let f := s.chans[n].force
    if cpsPending s n [opCloseI, opCloseV] then s
    else
      match f.bridge with
      | some b => if b.phase == .closing then updForce s n fun f => { f with bridge := some { b with ready := true } } else s
      | none =>
        if f.seq == .leaving .switches then
          updForce (cpsFor s n opEnable 1) n fun f => { f with seq := .leaving .enabling }
        else s)

/-- RANGE_SWITCH_BROKEN (R73): the old element is open; the sample tick that follows is t4. -/
def execRangeSwitchBroken (n : Chan) (s : State) : Outcome State Fault Refusal :=
  .next (match s.chans[n].force.bridge with
    | some b =>
      if b.phase == .opening && !cpsPending s n [opOpenI, opOpenV] then
        updForce s n fun f => { f with bridge := some { b with ready := true } }
      else s
    | none => s)

/-- The ranges that a waiting automatic request asks for, if it may still be carried out (R76, R77, R105): the range is still the measured
quantity's, and no clamp saturates in it. -/
def waitingRanges (f : Force) (w : Bool × Nat) : Option Ranges :=
  let r := withRange f.ranges w
  if f.mode != .inert && forcesV f.mode == w.1 && declares f r && clampsFit f r then some r else none

/-- t5 of a bridged change (R73, R76, R105): RANGING ends, the down count restarts, and once no step of a chain is left, an automatic request that
waited goes into the intent. -/
def bridgeEnd (s : State) (n : Chan) : State :=
  let s := updForce s n fun f => { f with bridge := none }
  let s := updMeas s n fun m => { m with downCount := 0 }
  let f := s.chans[n].force
  match f.waitingAuto with
  | some w =>
    if f.applied.ranges != f.ranges then s
    else
      let s := updForce s n fun f => { f with waitingAuto := none }
      match waitingRanges f w with
      | some r => updApplied s n fun i => { i with ranges := r }
      | none => s
  | none => s

/-- BRIDGE_SETTLE_END (R73): t5, 16 sample ticks after t4. The sixteenth of them already converts without RANGING. -/
def execBridgeSettleEnd (n : Chan) (s : State) : Outcome State Fault Refusal :=
  .next (match s.chans[n].force.bridge with
    | some b => if b.phase == .settling && b.ticks ≥ 15 then bridgeEnd s n else s
    | none => s)

/-- LEAVE_INERT_TIMEOUT (R47): RAILOK has not been reported within 5 ms of t0. -/
def execLeaveInertTimeout (n : Chan) (s : State) : Outcome State Fault Refusal :=
  .next (if s.chans[n].force.seq == .leaving .rails then safeTrigger s n 3 else s)

end Sys2Proof.Machine
end

