-- ==== Sys2Proof/Machine/ForcePath.lean ====
section
/-!
DEFINITION. The commands of the force path outside the sample ticks: relays, safe states, faults, disabling, bank dies and the CPS link.
-/
namespace Sys2Proof.Machine

open Host

/-- The relief in which a channel is the main channel, if its phase is the given one. -/
def mainRelief (s : State) (n : Chan) (ph : ReliefPhase) : Option Relief :=
  match s.reliefs[bankOf n] with
  | some r => if chanAt (bankOf n) r.slot == n && r.phase == ph then some r else none
  | none => none

/-- t2 of a handback (Table 13.6): the relay is made. In MEAS the switches open at once; otherwise the ramp starts, to the relief channel's
measured current for a DUT in FV, to its level in FI. -/
def handbackMade (s : State) (b : Bank) (r : Relief) : State :=
  let q := s.chans[chanAt b 16]
  let n := chanAt b r.slot
  match r.captured.mode with
  | .meas =>
    let s := cpsSend (cpsSend s b r.slot opRelief 0) b 16 opRelief 0
    setRelief s b (some { r with phase := .releasing })
  | .fi => setRelief s b (some { r with phase := .backRamp, rampTick := 0, rampLevel := q.force.target })
  | _ => setRelief s b (some { r with phase := .backRamp, rampTick := 0, rampLevel := preloadCode q.meas .fi s.chans[n].force.ranges })

/-- The relay of a handback does not make: the handback ends with FAULT, and the main channel goes back to INERT (R412). -/
def relayStuck (s : State) (n : Chan) : State :=
  match mainRelief s n .connecting with
  | some r => requestInert (updFirmware (updForce (failHandback s (bankOf n) r) n oenLow) n (·.withMode .inert)) n none
  | none => s

/-- RELAY_MAKE_DONE (R78): CONN becomes 1; a handback goes on, or ends where its relay does not make (R412). -/
def execRelayMakeDone (n : Chan) (made : Bool) (s : State) : Outcome State Fault Refusal :=
  .next (if s.chans[n].force.relay != .making then s
    else if !made then relayStuck s n
    else
      let s := updForce s n fun f => { f with relay := .closed }
      match mainRelief s n .connecting with
      | some r => handbackMade s (bankOf n) r
      | none => s)

/-- RELAY_BREAK_DONE (R78, R49): output changes may apply again; a channel that enters INERT goes on to disable its CPS, and a takeover to
MODE INERT (t4 of Table 13.5). -/
def execRelayBreakDone (n : Chan) (s : State) : Outcome State Fault Refusal :=
  .next (if !s.chans[n].force.breakRuns then s
    else
      let s := updForce s n fun f => { f with breakRuns := false, relay := if f.relay == .breaking then .open_ else f.relay }
      let s := if s.chans[n].force.seq == .entering .relay then beginParking s n else s
      match mainRelief s n .isolating with
      | some r =>
        let s := requestInert (updFirmware s n (·.withMode .inert)) n none
        setRelief s (bankOf n) (some { r with phase := .parking })
      | none => s)

/-- SAFE_STATE_RAMP_END (R83): the fault ramp has ended or OPEN_DLY has passed: OEN_n goes low and ENABLE with ARG[0] = 0 is sent. -/
def execSafeStateRampEnd (n : Chan) (s : State) : Outcome State Fault Refusal :=
  .next (match s.chans[n].force.safe with
    | some q =>
      if q.opened then s
      else sendDisable (updForce s n fun f => { oenLow f with safe := some { q with opened := true } }) n
    | none => s)

/-- FLT_ASSERT (R83): FLT_n has been low for 200 ns. -/
def execFltAssert (n : Chan) (s : State) : Outcome State Fault Refusal :=
  .next (safeTrigger (updForce s n fun f => { f with fltLow := true }) n 1)

/-- CORE_HANDSHAKE_LOSS (R83, R473): the bank die acts by itself under FCAUSE 6, and SYS_BANK.UP becomes 0. -/
def execCoreHandshakeLoss (b : Bank) (s : State) : Outcome State Fault Refusal :=
  .next (if !s.banks[b].up then s
    else (bankChans b).foldl (fun s n => safeTrigger s n 6) (bankLost s b))

/-- FLT_LATCH_CLEAR (R84): a write of 1 to FLT_LATCH, with the level that FLT_n has. -/
def execFltLatchClear (_p : Path) (n : Chan) (fltHigh : Bool) (s : State) : Outcome State Fault Refusal :=
  .next (accessed s (clearFltLatch (updForce s n fun f => { f with fltLow := !fltHigh }) n))

/-- DISABLE (R86). -/
def execDisable (_p : Path) (n : Chan) (s : State) : Outcome State Fault Refusal := .next (accessed s (disableChannel s n))

/-- BANK_SUPPLY_VALID (R81): t0 of Table 2.13. -/
def execBankSupplyValid (b : Bank) (s : State) : Outcome State Fault Refusal :=
  .next (updBank s b fun k => { k with supplies := true })

/-- BANK_DIE_UP (R473, R81, R82, R92): t1 of Table 2.13, not before PORN is high. After the supplies came up, PARK codes are loaded, CPS polling starts and the identity
of every slot is read; a link that only lost its handshake goes on. -/
def execBankDieUp (b : Bank) (s : State) : Outcome State Fault Refusal :=
  .next (if !s.banks[b].supplies || s.banks[b].up || !s.fw.porn then s
    else
      let fresh := !s.banks[b].linkUp && !s.banks[b].linkDown
      let s := updBank s b fun k => { k with up := true, supplyLost := false }
      if fresh then
        let s := updBank (loadPark s b) b fun k => { k with linkUp := true, queue := [], sent := [], arrived := [], pollSlot := 0, sincePoll := 0 }
        (bankChans b).foldl startIdentity s
      else s)

/-- BANK_SUPPLY_FAIL (R482): OEN_n low, FRC_n grounded, the handshake link dropped, FCAUSE 2 on every channel. -/
def execBankSupplyFail (b : Bank) (s : State) : Outcome State Fault Refusal :=
  .next (if !s.banks[b].supplies then s
    else
      let s := if s.banks[b].up then bankLost s b else s
      let s := (bankChans b).foldl (fun s n => safeTrigger s n 2) s
      let s := freshSlots s b
      updBank s b fun k =>
        { k with
          supplies := false, supplyLost := true, linkUp := false, linkDown := false, queue := [], sent := [], arrived := []
          restartSlot := none, failedPolls := 0 })

/-- CPS_FRAME (R88, R90): the next command word, at most one command waiting for its response meanwhile. -/
def execCpsFrame (b : Bank) (s : State) : Outcome State Fault Refusal :=
  .next (if (s.banks[b].linkUp || s.banks[b].linkDown) && s.banks[b].sent.length ≤ 1 then updBank s b sendFrame else s)

/-- CPS_RESPONSE (R91). -/
def execCpsResponse (b : Bank) (w : Word) (s : State) : Outcome State Fault Refusal := .next (receiveResponse s b w)

/-- CPS_LINK_RESTART_ROUND (R91): a round of seventeen restart polls begins. -/
def execCpsLinkRestartRound (b : Bank) (s : State) : Outcome State Fault Refusal :=
  .next (if s.banks[b].linkDown then updBank s b fun k => { k with restartSlot := some 0, restartOk := true } else s)

end Sys2Proof.Machine
end

