-- ==== Sys2Proof/Machine/FrameCommands.lean ====
section
/-!
DEFINITION. The commands of frames, Hatch units and the collector.
-/
namespace Sys2Proof.Machine

open Host

/-- FRAMES_ENABLE (R272, R273): a write of HT_FRM_CTRL with EN = 1. -/
def execFramesEnable (_p : Path) (v : Word) (s : State) : Outcome State Fault Refusal := .next (accessed s (if flag v 0 then frmCtrlWrite s v else s))

/-- FRAMES_DISABLE (R276): a write of HT_FRM_CTRL with EN = 0. -/
def execFramesDisable (_p : Path) (v : Word) (s : State) : Outcome State Fault Refusal := .next (accessed s (if flag v 0 then s else frmCtrlWrite s v))

/-- SNAP (R286): a write of HT_FRM_CTRL with SNAP = 1. -/
def execSnap (_p : Path) (v : Word) (s : State) : Outcome State Fault Refusal := .next (accessed s (if flag v 2 then frmCtrlWrite s v else s))

/-- FRAME_BOUNDARY (R277). -/
def execFrameBoundary (s : State) : Outcome State Fault Refusal := .next (frameBoundaryOp s)

/-- HATCH_START (R283): from the next sample tick. -/
def execHatchStart (_p : Path) (s : State) : Outcome State Fault Refusal :=
  .next (accessed s (updHt s fun h => { h with gateReq := (true, h.gateReq.2) }))

/-- HATCH_STOP (R283). -/
def execHatchStop (_p : Path) (s : State) : Outcome State Fault Refusal :=
  .next (accessed s (updHt s fun h => { h with gateReq := (h.gateReq.1, true) }))

/-- HATCH_UNIT_CFG_WRITE (R284): HT_UNIT_CFG, or with `base` HT_UNIT_BASE, of the unit that the path addresses. -/
def execHatchUnitCfgWrite (p : Path) (base : Bool) (v : Word) (s : State) : Outcome State Fault Refusal :=
  .next (accessed s (match pathUnit s p with
    | some u => if base then writeUnitBase s u v else writeUnitCfg s u v
    | none => s))

/-- COLL_STAT_CLR (Table 8.10). -/
def execCollStatClr (_p : Path) (s : State) : Outcome State Fault Refusal :=
  .next (accessed s (updHt s fun h => { h with incomplete := 0, late := 0, latemeas := 0 }))

/-- DEVICE_UNIT_READY (R285). -/
def execDeviceUnitReady (s : State) : Outcome State Fault Refusal := .next (deviceUnitsReady s)

/-- COLLECTOR_SLOT_STORE (R287). -/
def execCollectorSlotStore (slot : Fin 76) (s : State) : Outcome State Fault Refusal := .next (storeSlot s slot)

/-- COLLECTOR_TIMEOUT (R287). -/
def execCollectorTimeout (s : State) : Outcome State Fault Refusal := .next (timeOutFrame s)

/-- FRAME_EMIT (R288). -/
def execFrameEmit (s : State) : Outcome State Fault Refusal := .next (emitFrame s)

end Sys2Proof.Machine
end

