-- ==== Sys2Proof/Machine/GraverOps.lean ====
section
/-!
DEFINITION. Writes of GV_CTRL and GV_IMM (R146, R147): starting, halting and disabling, and the immediate buffer.
-/
namespace Sys2Proof.Machine

/-- Codes of CMD (Table 4.10). -/
def cmdStart : Nat := 1
def cmdHalt : Nat := 2
def cmdGo : Nat := 3
def cmdClearImm : Nat := 4
def cmdDisable : Nat := 5

/-- A context as START, GO or the firmware starts it at an address (R142, R146): cleared registers, counters and flags, a copy of the
intent in force with nothing staged, no supplier. -/
def startedCtx (applied : Intent) (obs : Bool) (pc : Word) (k : Context) : Context :=
  { haltedCtx k with
    g := Vector.replicate 16 0, lc := Vector.replicate 4 {}, z := false, n := false, c := false, v := false
    pc := pc, state := .ready, obs := obs, intent := { applied with staged := none }, modeHeld := false }

/-- The vector of a context (R129). -/
def vectorOf (n : Chan) (x : Ctx) : Word := word (0x40 * n.val + 0x10 * x.val)

/-- Refuse a write or a command of GV_CTRL (R146). -/
def refuseCtrl (s : State) (n : Chan) : State := updGraver s n fun g => { g with ctrlRej := true }

/-- START of context 0 to 2 (R146). -/
def startCtx (s : State) (n : Chan) (x : Ctx) : State :=
  let c := s.chans[n]
  if isActive c.graver.ctx[x] then refuseCtrl s n
  else updCtx s n x (startedCtx c.force.applied c.graver.obsNext (vectorOf n x))

/-- GO (R146): context 2 from word 0 of the immediate buffer. -/
def goCtx (s : State) (n : Chan) : State :=
  let c := s.chans[n]
  if isActive c.graver.ctx[2] || c.graver.imm.isEmpty then refuseCtrl s n
  else updGraver (updCtx s n 2 (startedCtx c.force.applied c.graver.obsNext 0)) n fun g => { g with immBusy := true }

/-- CLEAR_IMM (R146). -/
def clearImmBuffer (s : State) (n : Chan) : State :=
  if s.chans[n].graver.immBusy then refuseCtrl s n else updGraver s n fun g => { g with imm := [] }

/-- Whether a write of GV_CTRL is refused whole (R146). -/
def ctrlRefused (g : Graver) (v : Word) : Bool :=
  let cmd := field v 3 0
  ((field v 31 16 != g.wbase.toNat || field v 15 12 != g.asid.toNat)
      && (isActive g.ctx[0] || isActive g.ctx[1] || isActive g.ctx[2]))
    || ((cmd == cmdStart || cmd == cmdHalt) && field v 9 8 == 3)
    || ((cmd == cmdStart || cmd == cmdGo) && field v 15 12 == 0)

/-- The context that CTX names. -/
def ctrlCtx (v : Word) : Ctx := ⟨field v 9 8 % 4, by omega⟩

/-- A write of GV_CTRL (R146): DISABLE is never refused and changes no field; any other accepted write updates the fields first. -/
def gvCtrlWrite (s : State) (n : Chan) (v : Word) : State :=
  let cmd := field v 3 0
  if cmd = cmdDisable then disableChannel s n
  else if ctrlRefused s.chans[n].graver v then refuseCtrl s n
  else
    let s := updGraver s n fun g =>
      { g with
        wbase := BitVec.ofNat 16 (field v 31 16), asid := BitVec.ofNat 4 (field v 15 12), obsNext := flag v 11
        ctxSel := BitVec.ofNat 2 (field v 9 8) }
    if cmd = cmdStart then startCtx s n (ctrlCtx v)
    else if cmd = cmdHalt then haltRequest s n (ctrlCtx v)
    else if cmd = cmdGo then goCtx s n
    else if cmd = cmdClearImm then clearImmBuffer s n
    else s

/-- A write of GV_IMM (R147). -/
def gvImmAppend (s : State) (n : Chan) (v : Word) : State :=
  updGraver s n fun g =>
    if g.immBusy then { g with immRej := true }
    else if g.imm.length ≥ 16 then { g with immOvf := true }
    else { g with imm := g.imm ++ [v] }

/-- A write of GV_STATUS: its W1C bits (Table 4.11). -/
def gvStatusClear (s : State) (n : Chan) (v : Word) : State :=
  updGraver s n fun g =>
    { g with immOvf := g.immOvf && !flag v 21, immRej := g.immRej && !flag v 20, ctrlRej := g.ctrlRej && !flag v 19 }

end Sys2Proof.Machine
end

