-- ==== Sys2Proof/Machine/GraverCommands.lean ====
section
/-!
DEFINITION. The Graver commands: START, HALT, GO and CLEAR_IMM of GV_CTRL, and GV_IMM. Each row carries the whole word written; a word
with another CMD is another row's (assumption 10).
-/
namespace Sys2Proof.Machine

open Host

/-- A write of GV_CTRL that carries the given CMD. -/
def gvCommand (cmd : Nat) (n : Chan) (v : Word) (s : State) : State := if field v 3 0 = cmd then gvCtrlWrite s n v else s

/-- GV_START (R146). -/
def execGvStart (_p : Path) (n : Chan) (v : Word) (s : State) : Outcome State Fault Refusal := .next (accessed s (gvCommand cmdStart n v s))

/-- GV_HALT (R146). -/
def execGvHalt (_p : Path) (n : Chan) (v : Word) (s : State) : Outcome State Fault Refusal := .next (accessed s (gvCommand cmdHalt n v s))

/-- GO (R146). -/
def execGo (_p : Path) (n : Chan) (v : Word) (s : State) : Outcome State Fault Refusal := .next (accessed s (gvCommand cmdGo n v s))

/-- CLEAR_IMM (R146). -/
def execClearImm (_p : Path) (n : Chan) (v : Word) (s : State) : Outcome State Fault Refusal := .next (accessed s (gvCommand cmdClearImm n v s))

/-- GV_IMM_WRITE (R147). -/
def execGvImmWrite (_p : Path) (n : Chan) (v : Word) (s : State) : Outcome State Fault Refusal := .next (accessed s (gvImmAppend s n v))

end Sys2Proof.Machine
end

