-- ==== Sys2Proof/Machine/HhtCommands.lean ====
section
/-!
DEFINITION. The commands of the mailbox, the Halku host transport and IEEE 1588.
-/
namespace Sys2Proof.Machine

open Host

/-- FW_CMD_WR_WRITE (R433). -/
def execFwCmdWrWrite (p : Path) (v : Word) (s : State) : Outcome State Fault Refusal :=
  .next (if hasMailbox p then cmdWrWrite s p v else s)

/-- FW_RSP_RD_WRITE (R433). -/
def execFwRspRdWrite (p : Path) (v : Word) (s : State) : Outcome State Fault Refusal :=
  .next (if hasMailbox p then rspRdWrite s p v else s)

/-- HHT_OPEN (R436). -/
def execHhtOpen (k : Lane) (host : HostAddr) (s : State) : Outcome State Fault Refusal := .next (openHht s k host)

/-- HHT_CLOSE (R436). -/
def execHhtClose (k : Lane) (host : HostAddr) (session : Word) (s : State) : Outcome State Fault Refusal := .next (inSession s k host session endSession)

/-- HHT_KEEPALIVE (R436). -/
def execHhtKeepalive (k : Lane) (host : HostAddr) (session : Word) (s : State) : Outcome State Fault Refusal :=
  .next (inSession s k host session fun s => sendHht s .alive)

/-- HHT_CMD (R437). -/
def execHhtCmd (k : Lane) (host : HostAddr) (session : Word) (offset : Nat) (bytes : List Byte) (s : State) : Outcome State Fault Refusal :=
  .next (inSession s k host session fun s => hhtBytes s offset bytes)

/-- HHT_RSPACK (R437). -/
def execHhtRspack (k : Lane) (host : HostAddr) (session : Word) (offset : Nat) (s : State) : Outcome State Fault Refusal :=
  .next (inSession s k host session fun s => hhtRspAck s offset)

/-- HHT_DACK (R438). -/
def execHhtDack (k : Lane) (host : HostAddr) (session : Word) (stream : Fin 9) (offset : Nat) (s : State) : Outcome State Fault Refusal :=
  .next (inSession s k host session fun s => if assigned s stream then updStream s stream fun r => dackRing r offset else s)

/-- HHT_DNAK (R438). -/
def execHhtDnak (k : Lane) (host : HostAddr) (session : Word) (stream : Fin 9) (offset : Nat) (s : State) : Outcome State Fault Refusal :=
  .next (inSession s k host session fun s => dnakStream s stream offset)

/-- HHT_DATA_SEND (R438). -/
def execHhtDataSend (stream : Fin 9) (ecc : EccResult) (s : State) : Outcome State Fault Refusal := .next (sendData s stream ecc)

/-- HHT_SESSION_TIMEOUT (R436): 5 s. -/
def execHhtSessionTimeout (s : State) : Outcome State Fault Refusal := .next (if s.hht.live then endSession s else s)

/-- HHT_RSP_RESEND (R437). -/
def execHhtRspResend (s : State) : Outcome State Fault Refusal := .next (resendRsp s)

/-- HHT_DATA_RESEND (R438). -/
def execHhtDataResend (stream : Fin 9) (s : State) : Outcome State Fault Refusal := .next (resendData s stream)

/-- HHT_EVENT_REPEAT (R439). -/
def execHhtEventRepeat (s : State) : Outcome State Fault Refusal := .next (repeatEvents s)

/-- PTP_EVENT_MESSAGE (R440). -/
def execPtpEventMessage (k : Lane) (kind : PtpKind) (sent : Bool) (tick : Nat) (domain : Byte) (time : Nat) (s : State) :
    Outcome State Fault Refusal :=
  .next (ptpStamp s k kind sent tick domain time)

/-- PTP_MAPPING_UPDATE (R440). -/
def execPtpMappingUpdate (tracked16s agree1us lost1000s : Bool) (s : State) : Outcome State Fault Refusal :=
  .next (ptpUpdate s tracked16s agree1us lost1000s)

end Sys2Proof.Machine
end

