-- ==== Sys2Proof/Machine/MemoryCommands.lean ====
section
/-!
DEFINITION. The commands of memory and address translation that the device carries out itself.
-/
namespace Sys2Proof.Machine

open Host

/-- PATROL_SCRUB (R294, R295, R300, R314, R315): what the scrubber finds in the words of a place, whether a rewrite cures an uncorrectable error, and
the queue whose open packet holds such a word, if any. The MP takes the report as it comes (R324). -/
def execPatrolScrub (p : ErrPlace) (q : Option (Fin 256)) (cured : Bool) (found : EccResult) (s : State) : Outcome State Fault Refusal :=
  .next (match found with
    | .clean => s
    | .corrected => mpAtOnce (eccCorrected s p)
    | .uncorrectable =>
      let s := mpAtOnce <| eccUncorrectable s p (match p with | .page _ => true | .row _ _ => !cured)
      match q with
      | some q => rewindOpen s q
      | none => s)

/-- SRAM_ROW_REPAIR (R295): the MP repairs the row of a macro that has waited longest. -/
def execSramRowRepair (macro_ : Fin 384) (s : State) : Outcome State Fault Refusal :=
  .next (housekeep s (fun p => match p with | .row k _ => k == macro_.val | .page _ => false) fun s => repairRow s macro_.val)

/-- PAGE_RETIRE (R315): the MP retires the page that has waited longest; its copy needs external memory (R393). -/
def execPageRetire (pa : Nat) (s : State) : Outcome State Fault Refusal :=
  .next (demandMemory s pa fun s => housekeep s (fun p => p == .page pa) fun s => retirePage s pa)

/-- DEMAND_FAULT_RESOLVED (R319). -/
def execDemandFaultResolved (s : State) : Outcome State Fault Refusal := .next (if mpStopped s then s else resolveDemand s)

/-- MMU_FLOG_POP (R322): word 0 is returned and words 1 to 4 are kept for the path; an empty log returns 0. -/
def execMmuFlogPop (p : Path) (s : State) : Outcome State Fault Refusal :=
  .next (accessedRead s p (flogPop s p).2)

end Sys2Proof.Machine
end

