-- ==== Sys2Proof/Machine/HostCommands.lean ====
section
/-!
DEFINITION. The host commands for memory, suspensions and echo (Tables 9.9 and 14.7).
-/
namespace Sys2Proof.Machine

open Host

/-- What a command that waits for an invalidation leaves in the queue of R323. -/
def waiting (s : State) (h : Hdr) (opcode : Nat) : Option (Path × Word × Nat × Nat) := some (h.path, h.tag, opcode, s.tb.now)

/-- A refusal is answered at once, a success when the invalidation is complete. -/
def afterInvalidation (r : Nat × State) : Option (Nat × List Byte) × State := if r.1 = stOk then (none, r.2) else statusOnly r

/-- ECHO (R431). -/
def execEcho (h : Hdr) (bytes : List Byte) (s : State) : Outcome State Fault Refusal :=
  .next (hostCommand s h 0x0001 bytes.length true fun s => (some (stOk, bytes), s))

/-- ASID_CREATE (R318). -/
def execAsidCreate (h : Hdr) (asid : Nat) (s : State) : Outcome State Fault Refusal :=
  .next (hostCommand s h 0x0020 4 false fun s => statusOnly (asidCreateOp s asid))

/-- ASID_DESTROY (R318, R323). -/
def execAsidDestroy (h : Hdr) (asid : Nat) (s : State) : Outcome State Fault Refusal :=
  .next (hostCommand s h 0x0021 4 false fun s => afterInvalidation (asidDestroyOp s asid (waiting s h 0x0021)))

/-- MAP (R318). -/
def execMap (h : Hdr) (asid : Nat) (flags : Word) (va pa len : Nat) (s : State) : Outcome State Fault Refusal :=
  .next (hostCommand s h 0x0022 32 false fun s => statusOnly (mapOp s asid flags va pa len))

/-- MAP_DZ (R318). -/
def execMapDz (h : Hdr) (asid : Nat) (flags : Word) (va len : Nat) (s : State) : Outcome State Fault Refusal :=
  .next (hostCommand s h 0x0023 24 false fun s => statusOnly (mapDzOp s asid flags va len))

/-- UNMAP (R323). -/
def execUnmap (h : Hdr) (asid va len : Nat) (s : State) : Outcome State Fault Refusal :=
  .next (hostCommand s h 0x0024 24 false fun s => (none, unmapRange s asid va len (waiting s h 0x0024)))

/-- PROTECT (R323). -/
def execProtect (h : Hdr) (asid : Nat) (flags : Word) (va len : Nat) (s : State) : Outcome State Fault Refusal :=
  .next (hostCommand s h 0x0025 24 false fun s => afterInvalidation (protectOp s asid flags va len (waiting s h 0x0025)))

/-- POOL_ADD (R318). -/
def execPoolAdd (h : Hdr) (pa pages : Nat) (s : State) : Outcome State Fault Refusal :=
  .next (hostCommand s h 0x0026 16 false fun s => statusOnly (poolAddOp s pa pages))

/-- CACHE_INV (R318, R130). -/
def execCacheInv (h : Hdr) (asid va len : Nat) (s : State) : Outcome State Fault Refusal :=
  .next (hostCommand s h 0x0027 24 false fun s => (some (stOk, []), cacheInvOp s asid va len))

/-- RESUME (R149). -/
def execResume (h : Hdr) (n : Chan) (x : Ctx) (action : ResumeAction) (s : State) : Outcome State Fault Refusal :=
  .next (hostCommand s h 0x0028 12 false fun s => statusOnly (resumeOp s n x action))

/-- The oldest invalidation is complete (t3 and t4 of Table 9.12), once every access that falls under it has retired. -/
def invalidated (s : State) : State :=
  match s.mm.invPending with
  | [] => s
  | i :: rest =>
    if invHeld s i then s
    else
    let s := updMm s fun m => { m with invPending := rest, invSeq := (m.invSeq + 1) % 2 ^ 32 }
    match i.who with
    | some (p, tag, opcode, taken) =>
      respond s p ⟨opcode, stOk, tag, if opcode = 0x0021 then [] else leBytes 4 s.mm.invSeq⟩ taken
    | none => s

/-- INVALIDATION_COMPLETE (R323). -/
def execInvalidationComplete (s : State) : Outcome State Fault Refusal := .next (invalidated s)

end Sys2Proof.Machine
end

