-- ==== Sys2Proof/Machine/KrytgerControl.lean ====
section
/-!
DEFINITION. Krytger: the control instructions (R160 to R169), the illegal opcodes (R133), and the completion of FENCE.
-/
namespace Sys2Proof.Machine

open Host

/-- A relative branch by a number of words from the branch instruction (R132); in the immediate buffer a target outside the loaded words
is a translation fault (R147). -/
def relBranch (s : State) (n : Chan) (x : Ctx) (words : Word) (t : State) : Done :=
  let g := s.chans[n].graver
  let target := g.ctx[x].pc + 4 * words
  if inImm g x && target.toNat / 4 ≥ g.imm.length then .leaveImm else .jump target t

/-- A register-indirect branch (R162): in the immediate buffer it leaves the buffer for the window (R147). -/
def regBranch (n : Chan) (x : Ctx) (target : Word) (t : State) : Done :=
  .jump target (updGraver t n fun g => { g with immBusy := if x = 2 then false else g.immBusy })

/-- JMP and the branch of CALL (R162). -/
def jumpForm (s : State) (n : Chan) (x : Ctx) (k : Fields) (t : State) : Done :=
  if k.b == 0 then relBranch s n x k.ext t else regBranch n x ((gr (s.context n x) k.a &&& ~~~3) + 4 * k.ext) t

/-- The field check of JMP and CALL (Table 5.3). -/
def jumpFields (k : Fields) : Bool := zeroFields k true true false false && (k.b == 1 || (k.b == 0 && k.a == 0))

/-- NOP (R160). -/
def execNop (n : Chan) (k : Fields) (s : State) : Outcome State Fault Refusal :=
  .next (issue 0x00 n k s fun _ s => checked (zeroFields k false false false false) (.next s))

/-- HALT (R161): the context halts with its program counter past the instruction. -/
def execHalt (n : Chan) (k : Fields) (s : State) : Outcome State Fault Refusal :=
  .next (issue 0x01 n k s fun x s => checked (zeroFields k false false false false) (.next (haltCtx s n x)))

/-- JMP (R162). -/
def execJmp (n : Chan) (k : Fields) (s : State) : Outcome State Fault Refusal :=
  .next (issue 0x02 n k s fun x s => checked (jumpFields k) (jumpForm s n x k s))

/-- JCC (R163). -/
def execJcc (n : Chan) (k : Fields) (s : State) : Outcome State Fault Refusal :=
  .next (issue 0x03 n k s fun x s =>
    if !zeroFields k true false true true || (k.c != 0xF && k.a != 0) then .fault .illegal
    else
      match condition s n (s.context n x) k.c k.a with
      | none => .fault .illegal
      | some true => relBranch s n x (imm14 k) s
      | some false => .next s)

/-- CALL (R164): g15 takes the address of the next instruction, then the branch of JMP, which reads g15 as it now stands (assumption 27). -/
def execCall (n : Chan) (k : Fields) (s : State) : Outcome State Fault Refusal :=
  .next (issue 0x04 n k s fun x s =>
    let t := updCtx s n x fun c => setGr c 15 (nextPc c.pc true)
    checked (jumpFields k) (jumpForm t n x k t))

/-- RET (R165): pc = g15 & ~3. In the immediate buffer it branches within the buffer (assumption 9). -/
def execRet (n : Chan) (k : Fields) (s : State) : Outcome State Fault Refusal :=
  .next (issue 0x05 n k s fun x s =>
    let g := s.chans[n].graver
    let target := gr g.ctx[x] 15 &&& ~~~3
    checked (zeroFields k false false false false)
      (if inImm g x && target.toNat / 4 ≥ g.imm.length then .leaveImm else .jump target s))

/-- The loop counter that bits 1:0 of C name (Table 5.3). -/
def counterOf (k : Fields) : Fin 4 := ⟨k.c.toNat % 4, by omega⟩

/-- LOOP (R166): the counter and the start address, or past the ENDL when the count is 0. -/
def execLoop (n : Chan) (k : Fields) (s : State) : Outcome State Fault Refusal :=
  .next (issue 0x06 n k s fun x s =>
    let c := s.context n x
    let count := if immBit k 13 then k.ext else gr c k.a
    let off := immField k 12 0
    let l : LoopCounter := { count := count, start := nextPc c.pc (immBit k 13), stop := c.pc + 4 * word off }
    let t := updCtx s n x fun c => { c with lc := c.lc.set (counterOf k) l }
    checked (zeroFields k true false true true && regOrExtOk k && k.c.toNat < 4 && off != 0)
      (if count == 0 then relBranch s n x (word (off + 1)) t else .next t))

/-- ENDL (R166): count down and branch to the start while the counter is not 0. -/
def execEndl (n : Chan) (k : Fields) (s : State) : Outcome State Fault Refusal :=
  .next (issue 0x07 n k s fun x s =>
    let l := (s.context n x).lc[counterOf k]
    let count := if l.count == 0 then 0 else l.count - 1
    let t := updCtx s n x fun c => { c with lc := c.lc.set (counterOf k) { l with count := count } }
    checked (zeroFields k false false true false && k.c.toNat < 4) (if count != 0 then .jump l.start t else .next t))

/-- YIELD (R167): the context stands aside for n decisions, 0 acting as 1. -/
def execYield (n : Chan) (k : Fields) (s : State) : Outcome State Fault Refusal :=
  .next (issue 0x08 n k s fun x s =>
    checked (zeroFields k false false false true) (.next (updCtx s n x fun c => { c with yields := max k.imm.toNat 1 })))

/-- FENCE (R168): completes at once when its conditions hold, else the context waits. -/
def execFence (n : Chan) (k : Fields) (s : State) : Outcome State Fault Refusal :=
  .next (issue 0x09 n k s fun x s =>
    let mem := immBit k 0
    let out := immBit k 1
    checked (zeroFields k false false false true && immZero k 13 2 && (mem || out))
      (if fenceHolds s n x mem out false then .next s
      else .next (updCtx s n x fun c => { c with state := .waiting (.fence mem out (out && s.chans[n].force.safe.isSome)) })))

/-- The conditions of a waiting FENCE hold and the context continues (R168). -/
def execFenceComplete (n : Chan) (x : Ctx) (s : State) : Outcome State Fault Refusal :=
  .next (match (s.context n x).state with
    | .waiting (.fence mem out safe) => if fenceHolds s n x mem out safe then wake s n x else s
    | _ => s)

/-- TRAP (R169): suspends with its code. -/
def execTrap (n : Chan) (k : Fields) (s : State) : Outcome State Fault Refusal :=
  .next (issue 0x0A n k s fun _ _ =>
    checked (zeroFields k false false false true && immZero k 13 8) (.fault (.trap (BitVec.ofNat 8 (immField k 7 0)))))

/-- One of the six unassigned opcodes, or a reserved form of an assigned one: ILLEGAL (R133). -/
def execIllegalOpcode (n : Chan) (opcode : BitVec 6) (k : Fields) (s : State) : Outcome State Fault Refusal :=
  .next (if unassigned opcode || reservedForm opcode k then issue opcode n k s fun _ _ => .fault .illegal else s)

end Sys2Proof.Machine
end

