-- ==== Sys2Proof/Machine/KrytgerInteger.lean ====
section
/-!
DEFINITION. Krytger: the integer and memory instructions (R170 to R178), the data of a load, the stores becoming visible, and the
program cache fill (R130).
-/
namespace Sys2Proof.Machine

open Host

/-- Write register A of the executing context, with flags computed from the context before. -/
def writeGr (s : State) (n : Chan) (x : Ctx) (f : Fields) (r : Word) (flags : Context → Context) : Done :=
  .next (updCtx s n x fun k => setGr (flags k) f.a r)

/-- An instruction of the integer class: its second operand of Table 5.4, its result and its flags. -/
def integerOp (op : BitVec 6) (n : Chan) (f : Fields) (s : State) (result : Context → Word → Word)
    (flags : Context → Word → Context → Context) : State :=
  issue op n f s fun x s =>
    let k := s.context n x
    match op2 k f with
    | none => .fault .illegal
    | some b => writeGr s n x f (result k b) (flags k b)

/-- MOV: g[a] = g[b] (R171). -/
def execMov (n : Chan) (k : Fields) (s : State) : Outcome State Fault Refusal :=
  .next (issue 0x0C n k s fun x s => checked (zeroFields k true true false false) (writeGr s n x k (gr (s.context n x) k.b) id))

/-- LDI: g[a] = sext(imm14, 14) (R171). -/
def execLdi (n : Chan) (k : Fields) (s : State) : Outcome State Fault Refusal :=
  .next (issue 0x0D n k s fun x s => checked (zeroFields k true false false true) (writeGr s n x k (imm14 k) id))

/-- LDX: g[a] = ext (R171). -/
def execLdx (n : Chan) (k : Fields) (s : State) : Outcome State Fault Refusal :=
  .next (issue 0x0E n k s fun x s => checked (zeroFields k true false false false) (writeGr s n x k k.ext id))

/-- ADD (R172). -/
def execAdd (n : Chan) (k : Fields) (s : State) : Outcome State Fault Refusal :=
  .next (integerOp 0x0F n k s (fun c b => gr c k.b + b) fun c b d => flagsAdd d (gr c k.b) b)

/-- SUB (R172). -/
def execSub (n : Chan) (k : Fields) (s : State) : Outcome State Fault Refusal :=
  .next (integerOp 0x10 n k s (fun c b => gr c k.b - b) fun c b d => flagsSub d (gr c k.b) b)

/-- MUL: the low 32 bits of the signed product (R173). -/
def execMul (n : Chan) (k : Fields) (s : State) : Outcome State Fault Refusal :=
  .next (integerOp 0x11 n k s (fun c b => wordI ((gr c k.b).toInt * b.toInt)) fun c b d => flagsMul d (gr c k.b) b)

/-- MAC: the low 32 bits of g[a] plus the signed product (R173). -/
def execMac (n : Chan) (k : Fields) (s : State) : Outcome State Fault Refusal :=
  .next (integerOp 0x12 n k s (fun c b => wordI ((gr c k.a).toInt + (gr c k.b).toInt * b.toInt)) fun c b d =>
    flagsMac d (gr c k.a) (gr c k.b) b)

/-- AND (R174). -/
def execAnd (n : Chan) (k : Fields) (s : State) : Outcome State Fault Refusal :=
  .next (integerOp 0x13 n k s (fun c b => gr c k.b &&& b) fun c b d => setZN d (gr c k.b &&& b))

/-- OR (R174). -/
def execOr (n : Chan) (k : Fields) (s : State) : Outcome State Fault Refusal :=
  .next (integerOp 0x14 n k s (fun c b => gr c k.b ||| b) fun c b d => setZN d (gr c k.b ||| b))

/-- XOR (R174). -/
def execXor (n : Chan) (k : Fields) (s : State) : Outcome State Fault Refusal :=
  .next (integerOp 0x15 n k s (fun c b => gr c k.b ^^^ b) fun c b d => setZN d (gr c k.b ^^^ b))

/-- The amount of a shift (R175); none for a non-zero reserved field. -/
def shiftAmount (c : Context) (k : Fields) : Option Nat :=
  if immBit k 13 || !immZero k 9 5 then none
  else if immBit k 12 then (if k.c != 0 then none else some (immField k 4 0))
  else if immField k 4 0 != 0 then none
  else some ((gr c k.c).toNat % 32)

/-- A shift of the given TYPE: its result and the last bit shifted out (R175). -/
def shiftOp (type : Nat) (n : Chan) (k : Fields) (s : State) (result : Word → Nat → Word) (last : Word → Nat → Bool) : State :=
  if immField k 11 10 != type then s
  else
    issue 0x16 n k s fun x s =>
      let c := s.context n x
      match shiftAmount c k with
      | none => .fault .illegal
      | some a => writeGr s n x k (result (gr c k.b) a) fun d => flagsShift d (result (gr c k.b) a) a (last (gr c k.b) a)

/-- SHL: fills with zeros; the last bit out is bit 32 - s (R175). -/
def execShl (n : Chan) (k : Fields) (s : State) : Outcome State Fault Refusal :=
  .next (shiftOp 0 n k s (fun w a => w <<< a) fun w a => w.getLsbD (32 - a))

/-- SHR: fills with zeros; the last bit out is bit s - 1 (R175). -/
def execShr (n : Chan) (k : Fields) (s : State) : Outcome State Fault Refusal :=
  .next (shiftOp 1 n k s (fun w a => w >>> a) fun w a => w.getLsbD (a - 1))

/-- ASR: fills with bit 31; the last bit out is bit s - 1 (R175). -/
def execAsr (n : Chan) (k : Fields) (s : State) : Outcome State Fault Refusal :=
  .next (shiftOp 2 n k s (fun w a => w.sshiftRight a) fun w a => w.getLsbD (a - 1))

/-- CMP: SUB without a result; A must be 0 (R172). -/
def execCmp (n : Chan) (k : Fields) (s : State) : Outcome State Fault Refusal :=
  .next (issue 0x17 n k s fun x s =>
    let c := s.context n x
    match op2 c k with
    | none => .fault .illegal
    | some b => checked (k.a == 0) (.next (updCtx s n x fun d => flagsSub d (gr c k.b) b)))

/-- SAT: limit to the signed range of w bits (R176). -/
def execSat (n : Chan) (k : Fields) (s : State) : Outcome State Fault Refusal :=
  .next (issue 0x18 n k s fun x s =>
    let v := gr (s.context n x) k.b
    let w := immField k 5 0
    let r := wordI (clampInt (-(2 ^ (w - 1) : Nat)) ((2 ^ (w - 1) : Nat) - 1) v.toInt)
    checked (zeroFields k true true false true && immZero k 13 6 && 1 ≤ w && w ≤ 32)
      (writeGr s n x k r fun d => { setZN d r with v := r != v }))

/-- ABS: the absolute value; 0x8000_0000 gives 0x7FFF_FFFF with V (R177). -/
def execAbs (n : Chan) (k : Fields) (s : State) : Outcome State Fault Refusal :=
  .next (issue 0x19 n k s fun x s =>
    let v := gr (s.context n x) k.b
    let r := if v == 0x80000000 then 0x7FFFFFFF else if v.msb then -v else v
    checked (zeroFields k true true false false)
      (writeGr s n x k r fun d => { setZN d r with v := v == 0x80000000 }))

/-- The word address of LD and ST (R178); none for a non-zero reserved field. -/
def memAddress (c : Context) (k : Fields) : Option Word :=
  if k.c != 0 then none
  else if immBit k 13 then (if immField k 12 0 != 0 then none else some ((gr c k.b + k.ext) &&& ~~~3))
  else some ((gr c k.b + wordI (signedOf 13 (immField k 12 0))) &&& ~~~3)

/-- LD: once its page translates for reading, the context's own latest outstanding store to the address, else a read that holds the execution
unit (R178, R140). -/
def execLd (n : Chan) (k : Fields) (s : State) : Outcome State Fault Refusal :=
  .next (issue 0x1A n k s fun x s =>
    let c := s.context n x
    let g := s.chans[n].graver
    match memAddress c k with
    | none => .fault .illegal
    | some a =>
      match translate s.mm (windowAsid g x) (windowVa g x a) .r with
      | .ok pa =>
        let s := cacheXlate s (windowAsid g x) (windowVa g x a)
        match c.stores.reverse.find? fun st => st.pa == pa with
        | some st => writeGr s n x k st.data id
        | none => .hold (demandMemory (updGraver s n fun g => { g with busy := some (x, .load k.a (windowVa g x a) pa) }) pa id)
      | f => .xlate false (windowVa g x a) f)

/-- The data of an outstanding LD arrive (R152, R294, R320); a HALT that was asked for meanwhile takes a context that suspends (R150). -/
def execLdDataReturn (n : Chan) (ecc : EccResult) (s : State) : Outcome State Fault Refusal :=
  .next (match s.chans[n].graver.busy with
    | some (x, .load dest va pa) =>
      demandMemory s pa fun s =>
        let s := eccMet s pa ecc
        if ecc == .uncorrectable then haltIfAsked (suspendXlate s n x false false false va eccFault) n x
        else finishBusy (updCtx s n x fun k => setGr k dest (memReadWord s.mm.mem (retiredTo s.mm pa))) n x
    | _ => s)

/-- ST: completes once its address is translated; it stalls while eight stores are outstanding (R178, Table 4.8). -/
def execSt (n : Chan) (k : Fields) (s : State) : Outcome State Fault Refusal :=
  .next (issue 0x1B n k s fun x s =>
    let c := s.context n x
    let g := s.chans[n].graver
    match memAddress c k with
    | none => .fault .illegal
    | some a =>
      match translate s.mm (windowAsid g x) (windowVa g x a) .w with
      | .ok pa =>
        let s := cacheXlate s (windowAsid g x) (windowVa g x a)
        let st : Store := ⟨windowAsid g x, windowVa g x a, pa, gr c k.a⟩
        if c.stores.length ≥ 8 then .hold (updGraver s n fun g => { g with busy := some (x, .store st) })
        else .next (updCtx s n x fun d => { d with stores := d.stores ++ [st] })
      | f => .xlate true (windowVa g x a) f)

/-- A store lands in memory, in the spare where its page has been retired meanwhile (R315). -/
def landStore (s : State) (n : Chan) (x : Ctx) (st : Store) (rest : List Store) : State :=
  let s := { s with mm := { s.mm with mem := memWriteWord s.mm.mem (retiredTo s.mm st.pa) st.data } }
  let s := updCtx s n x fun k => { k with stores := rest }
  match s.chans[n].graver.busy with
  | some (y, .store next) =>
    if y = x then finishBusy (updCtx s n x fun k => { k with stores := k.stores ++ [next] }) n x
    else s
  | _ => s

/-- The oldest outstanding store of a context becomes visible, and a store stalled behind eight goes out (R178). -/
def execStVisible (n : Chan) (x : Ctx) (s : State) : Outcome State Fault Refusal :=
  .next (match (s.context n x).stores with
    | [] => s
    | st :: rest => demandMemory s st.pa fun s => landStore s n x st rest)

/-- Lines of one program cache: 128 KiB of 64-byte lines (R130). -/
def cacheLines : Nat := 2048

/-- Put a line into a program cache; a full cache gives up the line with the number `victim` (assumption 11). -/
def cacheInsert (ls : List (BitVec 4 × Nat × List Word)) (victim : Nat) (l : BitVec 4 × Nat × List Word) :
    List (BitVec 4 × Nat × List Word) :=
  (if ls.length ≥ cacheLines then ls.eraseIdx (victim % ls.length) else ls) ++ [l]

/-- The fill of a missed line completes, or the fetch suspends the context (R130, R319, R320). -/
def execProgramCacheFill (n : Chan) (victim : Nat) (ecc : EccResult) (s : State) : Outcome State Fault Refusal :=
  .next (match s.chans[n].graver.busy with
    | some (x, .fetch) =>
      let g := s.chans[n].graver
      match fetch s n x with
      | .miss va split =>
        match translate s.mm (windowAsid g x) va .x with
        | .ok pa =>
          demandMemory s pa fun s =>
            let s := eccMet (cacheXlate s (windowAsid g x) va) pa ecc
            if ecc == .uncorrectable then haltIfAsked (suspendXlate s n x true false split va eccFault) n x
            else
              let ws := (List.range 16).map fun i => memReadWord s.mm.mem (pa / 64 * 64 + 4 * i)
              let s := updBank s (bankOf n) fun b =>
                { b with lines := cacheInsert b.lines victim (BitVec.ofNat 4 (windowAsid g x), va / 64, ws) }
              settle (updGraver s n fun g => { g with busy := none, granted := some x }) n x
        | f => haltIfAsked (suspendXlate s n x true false split va f) n x
      | _ => settle (updGraver s n fun g => { g with busy := none, granted := some x }) n x
    | _ => s)

end Sys2Proof.Machine
end

