-- ==== Sys2Proof/Machine/KrytgerOutput.lean ====
section
/-!
DEFINITION. Krytger: the output instructions (R179 to R187).
-/
namespace Sys2Proof.Machine

open Host

/-- The mode a code names (Table 2.3). -/
def modeOf (c : Nat) : Mode := if c = 0 then .inert else if c = 1 then .fv else if c = 2 then .fi else .meas

/-- MODE on a slot that cannot leave INERT, whether or not the channel has left it: no effect on the intent, and a trigger of FCAUSE 2 (R92). A slot
that is held is not judged before its identity has been read. -/
def cannotLeave (f : Force) (m : Mode) (r : Ranges) : Bool :=
  m != .inert && !slotHeld f && (noCps f || !declares f r)

/-- A MODE that takes effect (R92, R179): the context remembers whether its slot was held. -/
def modeEffect (s : State) (n : Chan) (x : Ctx) (m : Mode) : State :=
  let held := m != .inert && slotHeld s.chans[n].force
  updCtx (updIntent s n x fun i => i.withMode m) n x fun k => { k with modeHeld := held }

/-- MODE (R179): the mode of the intent; without effect while FLT_LATCH is 1 (R84) or where R92 and R409 say so. R92 names no context, so its trigger
is that of any (assumption 13). -/
def execMode (n : Chan) (k : Fields) (s : State) : Outcome State Fault Refusal :=
  .next (issue 0x20 n k s fun x s =>
    let m := modeOf (immField k 1 0)
    let c := s.chans[n]
    let own := ownerOf c == some x
    checked (zeroFields k false false false true && immZero k 13 2)
      (noObs s n x
        (if m != .inert && modeBlocked s n then .next s
        else if cannotLeave c.force m c.graver.ctx[x].intent.ranges then
          .next (safeTrigger s n 2)
        else
          let s := modeEffect s n x m
          .next (if !own then s else if m == .inert then requestInert s n (some x)
            else updForce s n fun f => { f with inertReq := false, parkCtx := none }))))

/-- RANGE in an intent: the codes of a context that does not own the output stand in the new ranges as they are (assumption 12); those of the owner
are re-scaled when the channel takes the ranges (R72). -/
def newRanges (own : Bool) (new : Ranges) (i : Intent) : Intent :=
  if own then { i with ranges := new } else { i with ranges := new, levelIn := new, clampsIn := new }

/-- CLAMP in an intent: the codes are codes of the intent's ranges, or for the owner of an active channel of the ranges in force (R76). -/
def newClamps (f : Force) (own : Bool) (hi lo : Int) (i : Intent) : Intent :=
  { i with clamps := ⟨hi, lo⟩, clampsIn := if own then codeRanges f i else i.ranges }

/-- RANGE (R180): VRANGE and IRANGE unless kept; a range that the identity in force does not declare is ILLEGAL. While the identity is
being read none is in force, and R92 judges the ranges when the channel leaves INERT (assumption 84). A programmed request replaces a waiting
automatic one (R76). -/
def execRange (n : Chan) (k : Fields) (s : State) : Outcome State Fault Refusal :=
  .next (issue 0x21 n k s fun x s =>
    let i := immField k 11 8
    let v := immField k 5 4
    let keepI := immBit k 1
    let keepV := immBit k 0
    let f := s.chans[n].force
    let r := (s.context n x).intent.ranges
    let new : Ranges := { v := if keepV then r.v else v, i := if keepI then r.i else i }
    let ok := zeroFields k false false false true && immZero k 13 12 && immZero k 7 6 && immZero k 3 2 && i ≤ 8 && v ≤ 2
      && (!keepI || i == 0) && (!keepV || v == 0)
      && (slotHeld f || ((keepI || (identWord f 11).testBit i) && (keepV || (identWord f 11).testBit (9 + v))))
    checked ok (noObs s n x
      (let own := ownerOf s.chans[n] == some x
       let s := updIntent s n x (newRanges own new)
       .next (if own then updForce s n fun f => { f with waitingAuto := none } else s))))

/-- A level operand: the extension word's code, or a register limited to the code range (R181). -/
def levelOperand (c : Context) (k : Fields) : Int :=
  if immBit k 13 then sfield k.ext 19 0 else satLevel (gr c k.a).toInt

/-- The reserved bits of a level operand: bits 31:20 of the extension word are copies of bit 19 (R181). -/
def levelOk (k : Fields) : Bool :=
  regOrExtOk k && immField k 12 0 == 0 && (!immBit k 13 || k.ext.toInt == sfield k.ext 19 0)

/-- LEVEL (R181): stages a code. -/
def execLevel (n : Chan) (k : Fields) (s : State) : Outcome State Fault Refusal :=
  .next (issue 0x22 n k s fun x s =>
    checked (zeroFields k true false false true && levelOk k)
      (noObs s n x (.next (updIntent s n x fun i => { i with staged := some (levelOperand (s.context n x) k) }))))

/-- STROBE, select form (R182): the strobe source. -/
def execStrobeSelect (n : Chan) (k : Fields) (s : State) : Outcome State Fault Refusal :=
  .next (if immBit k 12 then s else issue 0x23 n k s fun x s =>
    let v := immField k 3 0
    checked (zeroFields k false false false true && !immBit k 13 && immZero k 11 4 && (v ≤ 1 || 8 ≤ v))
      (noObs s n x (.next (updIntent s n x fun i => { i with strobe := BitVec.ofNat 4 v }))))

/-- Fire a strobe group: it acts at the next sample tick (R55). -/
def fireGroup (s : State) (g : Nat) : State :=
  { s with tr := { s.tr with groupStrobes := s.tr.groupStrobes ||| (1#8 <<< g) } }

/-- STROBE, fire form (R182, Table 4.6): SELF for the owner fires the channel, for another context it transfers the staged level of its
own intent; a group fires. -/
def execStrobeFire (n : Chan) (k : Fields) (s : State) : Outcome State Fault Refusal :=
  .next (if !immBit k 12 then s else issue 0x23 n k s fun x s =>
    let v := immField k 3 0
    checked (zeroFields k false false false true && !immBit k 13 && immZero k 11 4 && (v == 1 || 8 ≤ v))
      (noObs s n x
        (if 8 ≤ v then .next (fireGroup s (v - 8))
        else if ownerOf s.chans[n] = some x then .next (updForce s n fun f => { f with strobed := true })
        else .next (updCtx s n x fun c => { c with intent := strobeIntent c.intent }))))

/-- CLAMP (R183): both clamps, or neither when their difference is below 256 (R62). -/
def execClamp (n : Chan) (k : Fields) (s : State) : Outcome State Fault Refusal :=
  .next (issue 0x24 n k s fun x s =>
    let w := regOrExt (s.context n x) k
    let hi := sfield w 31 16
    let lo := sfield w 15 0
    let own := ownerOf s.chans[n] == some x
    checked (zeroFields k true false false true && regOrExtOk k && immField k 12 0 == 0)
      (noObs s n x
        (if hi - lo < 256 then .next (if own then updForce s n fun f => { f with clampRej := true } else s)
        else
          let s := updIntent s n x (newClamps s.chans[n].force own hi lo)
          .next (if own then updForce s n fun f => { f with satHi := false, satLo := false } else s))))

/-- SLEW (R184): the step rounded down to what STEP_M and STEP_E represent (R57), and the period. -/
def execSlew (n : Chan) (k : Fields) (s : State) : Outcome State Fault Refusal :=
  .next (issue 0x25 n k s fun x s =>
    let c := s.context n x
    let ext := immBit k 13
    let step := if ext then field k.ext 15 0 * 2 ^ immField k 3 0 else (gr c k.a).toNat
    let period := if ext then field k.ext 31 16 else max 1 (min (gr c k.b).toNat 65535)
    let r := slewOf step
    checked (zeroFields k true true false true && immZero k 12 4 && (ext || immZero k 3 0)
        && (!ext || (k.a == 0 && k.b == 0 && period != 0)))
      (noObs s n x (.next (updIntent s n x fun i => { i with slew := ⟨r.1, r.2, period⟩ }))))

/-- RAMP (R185): a staged code with the slew that reaches it within d sample ticks of the applied level. -/
def execRamp (n : Chan) (k : Fields) (s : State) : Outcome State Fault Refusal :=
  .next (issue 0x26 n k s fun x s =>
    let c := s.context n x
    let code := levelOperand c k
    let d := (gr c k.b).toNat
    let dist := (code - c.intent.level).natAbs
    let r := slewAbove (if d = 0 then 524288 else (dist + d - 1) / d)
    checked (zeroFields k true true false true && levelOk k)
      (noObs s n x (.next (updIntent s n x fun i => { i with slew := ⟨r.1, r.2, 1⟩, staged := some code }))))

/-- COMPS (R186): COMP alone, or the settings of the extension word; AUTO_STEPS is not written. -/
def execComps (n : Chan) (k : Fields) (s : State) : Outcome State Fault Refusal :=
  .next (issue 0x27 n k s fun x s =>
    let ext := immBit k 13
    let w := k.ext
    checked (zeroFields k false false false true && immZero k 12 4
        && (if ext then immZero k 3 0 && field w 29 16 == 0 else true))
      (noObs s n x (.next (updIntent s n x fun i =>
        { i with
          comp :=
            if ext then
              { trimEn := flag w 31, swAuto := flag w 30, autoSteps := i.comp.autoSteps, compMax := field w 15 12
                swThr := field w 11 8, swWin := field w 7 4, comp := field w 3 0 }
            else { i.comp with comp := immField k 3 0 } }))))

/-- Whether CONNECT finds the channel out of INERT (R78): in an active mode, or on the way to the one that the intent names; not on the way to
INERT (assumption 85). -/
def mayConnect (f : Force) (m : Mode) : Bool :=
  !f.fltLatch && !f.oen && (match f.seq with
    | .idle => f.mode != .inert || (m != .inert && !slotHeld f)
    | .leaving _ => true
    | .entering _ => false)

/-- CONNECT (R187, R78): OEN_n high; nothing in INERT. -/
def execConnect (n : Chan) (k : Fields) (s : State) : Outcome State Fault Refusal :=
  .next (if !immBit k 0 then s else issue 0x28 n k s fun x s =>
    checked (zeroFields k false false false true && immZero k 13 1)
      (ownerOnly s n x (.next (updForce s n fun f =>
        if mayConnect f (s.context n x).intent.mode then { f with oen := true, relay := .making } else f))))

/-- ISOLATE (R187, R78): OEN_n low. -/
def execIsolate (n : Chan) (k : Fields) (s : State) : Outcome State Fault Refusal :=
  .next (if immBit k 0 then s else issue 0x28 n k s fun x s =>
    checked (zeroFields k false false false true && immZero k 13 1)
      (ownerOnly s n x (.next (updForce s n oenLow))))

end Sys2Proof.Machine
end

