-- ==== Sys2Proof/Machine/KrytgerSequence.lean ====
section
/-!
DEFINITION. Krytger: the sequencing instructions (R193 to R198) and the fills and entry starts that follow them.
-/
namespace Sys2Proof.Machine

open Host

/-- The fields of PLAY and SWEEP beside B: X and WT in imm14 (Table 5.8). -/
def playFields (k : Fields) (b : Bool) : Bool := zeroFields k true b false true && regOrExtOk k && immField k 12 1 == 0

/-- A request completes with its supplier starting at the next sample tick; with WT the context waits for the supplier's end (R193, R196).
It discards a pending jump request (R227) and clears UR. -/
def acceptSupplier (s : State) (n : Chan) (x : Ctx) (p : Supplier) (wait : Option Waiting) : State :=
  updCtx s n x fun k =>
    { k with
      startNext := some p, stopGen := false, jumpReq := none, ur := false
      state := match wait with | some w => .waiting w | none => k.state }

/-- A word that an instruction read, with what a memory error makes of the read (R294, R320). -/
def eccRead (s : State) (n : Chan) (x : Ctx) (va : Nat) (ecc : EccResult) (d : State → Done) : Done :=
  if ecc == .uncorrectable then .ecc va
  else d (eccMetAt (cacheXlate s (windowAsid s.chans[n].graver x) va) n x va ecc)

/-- A descriptor as an instruction reads it (R216, R319): a fault, a memory error or a reserved value suspends the context. -/
def withDesc (s : State) (n : Chan) (x : Ctx) (a : Word) (ecc : EccResult) (d : Desc → State → Done) : Done :=
  match readDesc s n x a with
  | (_, some (va, f)) => .xlate false va f
  | (r, none) =>
    eccRead s n x (windowVa s.chans[n].graver x a) ecc fun s => match r with | .bad => .fault .illegal | .good g => d g s

/-- PLAY (R193, R220): reads the first descriptor, then holds the context until the first samples are present. -/
def execPlay (n : Chan) (k : Fields) (ecc : EccResult) (s : State) : Outcome State Fault Refusal :=
  .next (issue 0x2E n k s fun x s =>
    let a := regOrExt (s.context n x) k &&& ~~~15
    checked (playFields k false) (noObs s n x (demandDone s
      (withDesc s n x a ecc fun d s =>
        .hold (updGraver s n fun g => { g with busy := some (x, .playFill a.toNat d (immBit k 0)) })))))

/-- A fill that an instruction holds its context for (R220, R234): what stands between the words read and their buffer suspends the context with
XLATE_DATA, as a data access before playback starts (R319 to R321; of samples DEDUCED, assumption 98). -/
def firstFill (s : State) (n : Chan) (x : Ctx) (as : List Nat) (ecc : EccResult) (f : List (Nat × Word) → State → State) : State :=
  let r := readBlock s n x as
  let va := windowVa s.chans[n].graver x (word (as.headD 0))
  match r.2, ecc with
  | some (va, e), _ => haltIfAsked (suspendXlate s n x false false false va e) n x
  | none, .uncorrectable => haltIfAsked (suspendXlate (eccMetAt s n x va ecc) n x false false false va eccFault) n x
  | none, _ => f r.1 (eccMetAt (cacheWindow s n x as) n x va ecc)

/-- An access through a context's window wakes the device from vigil where it needs external memory (R393). -/
def demandWindow (s : State) (n : Chan) (x : Ctx) (a : Word) (f : State → State) : State :=
  match windowRead s n x a with
  | (_, .ok pa) => demandMemory s pa f
  | _ => f s

/-- The first 64 samples are in a buffer and PLAY's request completes (R220). A context that does not own the output fills no buffer: its
playback stays paused (Table 4.6, R218). -/
def execPlayFillComplete (n : Chan) (ecc : EccResult) (s : State) : Outcome State Fault Refusal :=
  .next (match s.chans[n].graver.busy with
    | some (x, .playFill a d wt) =>
      let accept := fun s : State => finishBusy (acceptSupplier s n x (.play (startPlayback a d)) (if wt then some .play else none)) n x
      if ownerOf s.chans[n] == some x then
        demandWindow s n x (word (sampleAddr d 0)) fun s => firstFill s n x (segmentBlock d 0) ecc fun ws s =>
          accept (updGraver s n fun g =>
            { g with buf := ws, bufOwner := some x, sweptList := none, prefetchStalled := false, prefetchEcc := false })
      else accept s
    | _ => s)

/-- A descriptor read from external memory waits while that sleeps (R393). -/
def armDemand (s : State) (n : Chan) (x : Ctx) (a : Word) (t : State) : Done :=
  match windowRead s n x a with
  | (_, .ok pa) => if paExternal pa then demandDone s (.next t) else .next t
  | _ => .next t

/-- ARMJ (R194): reads the descriptor and arms it. -/
def execArmj (n : Chan) (k : Fields) (ecc : EccResult) (s : State) : Outcome State Fault Refusal :=
  .next (issue 0x2F n k s fun x s =>
    let a := regOrExt (s.context n x) k &&& ~~~15
    checked (zeroFields k true false false true && regOrExtOk k && immField k 12 0 == 0) (noObs s n x
      (withDesc s n x a ecc fun d s => armDemand s n x a (updCtx s n x fun c => { c with armed := some { addr := a.toNat, desc := d } }))))

/-- The samples of a jump head (R218). -/
def headAddrs (d : Desc) : List Nat := (List.range (min 1024 d.length)).map (sampleAddr d)

/-- The jump head store takes samples of a context's armed target, all of its head or what the copy has reached. -/
def takeHead (s : State) (n : Chan) (x : Ctx) (ws : List (Nat × Word)) (whole : Bool) : State :=
  updGraver s n fun g =>
    { g with
      head := ws
      ctx := g.ctx.mapFinIdx fun i k _ =>
        { k with armed := k.armed.map fun b => { b with headHeld := i = x.val, headDone := i = x.val && whole } } }

/-- The copy of an armed target's head into the jump head store: to its end, or to a page that faults or the first sample that an uncorrectable error
spoils, where the prefetch stalls (R319, R320). -/
def copyHead (s : State) (n : Chan) (x : Ctx) (as : List Nat) (ecc : EccResult) : State :=
  let r := readBlock s n x as
  fillEcc s n x as ecc fun s =>
    match r.2 with
    | some (va, f) => stallPrefetch (takeHead s n x r.1 false) n x va f
    | none => takeHead s n x r.1 true

/-- The copy of the armed target's head (R194, R218) has got as far as it can; none while the Graver's prefetch is stalled. -/
def execJumpHeadCopyDone (n : Chan) (x : Ctx) (ecc : EccResult) (s : State) : Outcome State Fault Refusal :=
  .next (match (s.context n x).armed with
    | some a =>
      let g := s.chans[n].graver
      if a.headDone || g.prefetchStalled || g.prefetchEcc then s
      else demandWindow s n x (word ((headAddrs a.desc).headD 0)) fun s => copyHead s n x (headAddrs a.desc) ecc
    | none => s)

/-- JSEG (R195): records a jump request, or starts the armed target, whose descriptor it then reads (R216). -/
def execJseg (n : Chan) (k : Fields) (ecc : EccResult) (s : State) : Outcome State Fault Refusal :=
  .next (issue 0x30 n k s fun x s =>
    checked (zeroFields k false false false false) (noObs s n x (demandDone s
      (let c := s.context n x
       if supplierRuns c then .next (recordJump s n x false)
       else
        match c.armed with
        | none => .next s
        | some a => withDesc s n x (word a.addr) ecc fun d s => .next (startArmed s n x a.addr d)))))

/-- Whether a list stands whole in the buffers from an earlier sweep (R234). -/
def listPresent (g : Graver) (x : Ctx) (list count : Nat) : Bool :=
  match g.sweptList with
  | some (l, asid, c) =>
    l == list && asid.toNat == windowAsid g x && count ≤ c
      && (List.range (min 32 count)).all fun i =>
          g.buf.any (fun e => e.1 == (list + 8 * i) % 2 ^ 32) && g.buf.any (fun e => e.1 == (list + 8 * i + 4) % 2 ^ 32)
  | none => false

/-- The first entry of a list that still stands in the buffers. -/
def heldEntry (g : Graver) (list : Nat) : Option Entry :=
  let w := fun a : Nat => ((g.buf.find? fun e => e.1 == a % 2 ^ 32).map (·.2)).getD 0
  decodeEntry (w list) (w (list + 4))

/-- SWEEP (R196, R234): a count of 0 only clears UR, and what runs goes on (DESIGN CHOICE, assumption 119). It checks the first entry; where the list is still in the buffers, which observe no write, it is taken from there and the request
completes without a fill. -/
def execSweep (n : Chan) (k : Fields) (ecc : EccResult) (s : State) : Outcome State Fault Refusal :=
  .next (issue 0x31 n k s fun x s =>
    let c := s.context n x
    let a := regOrExt c k &&& ~~~7
    let count := (gr c k.b).toNat
    let wt := immBit k 0
    checked (playFields k true) (noObs s n x (demandDone s
      (if count = 0 then .next (updCtx s n x fun c => { c with ur := false })
      else if ownerOf s.chans[n] == some x && listPresent s.chans[n].graver x a.toNat count then
        match heldEntry s.chans[n].graver a.toNat with
        | none => .fault .illegal
        | some _ =>
          let s := updGraver s n fun g => { g with bufOwner := some x, prefetchEcc := false }
          .next (acceptSupplier s n x (.sweep { list := a.toNat, count := count }) (if wt then some .sweep else none))
      else
        match windowRead s n x a with
        | (va, .ok pa) =>
          eccRead s n x va ecc fun s =>
            match decodeEntry (memReadWord s.mm.mem pa) (memReadWord s.mm.mem (pa + 4)) with
            | none => .fault .illegal
            | some _ => .hold (updGraver s n fun g => { g with busy := some (x, .sweepFill a.toNat count wt) })
        | (va, f) => .xlate false va f))))

/-- The first entries are in a buffer and SWEEP's request completes (R234). -/
def execSweepFillComplete (n : Chan) (ecc : EccResult) (s : State) : Outcome State Fault Refusal :=
  .next (match s.chans[n].graver.busy with
    | some (x, .sweepFill list count wt) =>
      let w : Sweep := { list := list, count := count }
      let accept := fun s : State => finishBusy (acceptSupplier s n x (.sweep w) (if wt then some .sweep else none)) n x
      if ownerOf s.chans[n] == some x then
        demandWindow s n x (word list) fun s => firstFill s n x (entryBlock w 0) ecc fun ws s =>
          accept (updGraver s n fun g =>
            { g with
              buf := ws, bufOwner := some x, prefetchStalled := false, prefetchEcc := false
              sweptList := if count ≤ 4096 then some (list, BitVec.ofNat 4 (windowAsid g x), count) else none })
      else accept s
    | _ => s)

/-- The next entry of the sweep in control is due at the coming sample tick and leaves the buffers for it (R235), with what the clamp detector reports at
that tick. What takes place at it, a jump, the end of the sweep, CPSTOP or the entry, the tick itself decides (R236, R237). -/
def execSweepEntryStart (n : Chan) (clamping : Bool) (s : State) : Outcome State Fault Refusal :=
  .next (match ownerOf s.chans[n] with
    | some x =>
      let k := s.context n x
      match k.supplier with
      | .sweep w =>
        let off := (effectiveCfg s.chans[n].meas).smode == .off
        let g := s.chans[n].graver
        if w.staged.isSome || k.startNext.isSome || w.index ≥ w.count || !sweepDue off (sweepAdvance off w) || !sweepReady g x w then s
        else
          match entryWords g x w w.index with
          | some e => setSupplier s n x (.sweep { w with staged := some (e, clamping) })
          | none => s
      | _ => s
    | none => s)

/-- A prefetch block lands in a buffer (R218, R234): for the playback or sweep of the context in control. -/
def execPrefetchFill (n : Chan) (ecc : EccResult) (s : State) : Outcome State Fault Refusal :=
  .next (match ownerOf s.chans[n] with
    | some x =>
      if s.chans[n].graver.bufOwner != some x then s
      else
        match (s.context n x).supplier with
        | .play p => fillPlayback s n x p ecc
        | .sweep w => fillSweep s n x w ecc
        | _ => s
    | none => s)

/-- GEN (R197). The whole of g[c] is the offset, also outside the range of level codes (DESIGN CHOICE, assumption 118). -/
def execGen (n : Chan) (k : Fields) (s : State) : Outcome State Fault Refusal :=
  .next (if immBit k 13 then s else issue 0x32 n k s fun x s =>
    let c := s.context n x
    let shape := immField k 12 10
    let a := gr c k.a
    let g : Gen :=
      { shape := shape, offset := (gr c k.c).toInt, amp := min (field (gr c k.b) 19 0) 524287
        phase := word (immField k 9 0 * 2 ^ 22), inc := a }
    checked (shape ≤ 4) (noObs s n x (demandDone s
      (.next (acceptSupplier (updCtx s n x fun c => { c with lfsr := if shape ≥ 3 && a != 0 then a else c.lfsr }) n x (.gen g) none)))))

/-- GSTOP (R197): the generator stops at the next sample tick. -/
def execGstop (n : Chan) (k : Fields) (s : State) : Outcome State Fault Refusal :=
  .next (if !immBit k 13 then s else issue 0x32 n k s fun x s =>
    checked (zeroFields k false false false true && immField k 12 0 == 0) (noObs s n x
      (.next (updCtx s n x fun c =>
        { c with
          stopGen := true
          startNext := match c.startNext with | some (.gen _) => some .none | p => p }))))

/-- RATE (R198). -/
def execRate (n : Chan) (k : Fields) (s : State) : Outcome State Fault Refusal :=
  .next (issue 0x33 n k s fun x s =>
    checked (zeroFields k true false false true && regOrExtOk k && immField k 12 0 == 0) (noObs s n x
      (.next (updCtx s n x fun c => { c with rate := regOrExt c k }))))

end Sys2Proof.Machine
end

