-- ==== Sys2Proof/Machine/KrytgerSpecial.lean ====
section
/-!
DEFINITION. Krytger: the special instructions LDID, CAL, RDS and RDT (R207 to R210).
-/
namespace Sys2Proof.Machine

open Host

/-- Why LDID cannot start (R68, Table 2.9): STAT 3 outside FV and FI, 4 while the target slews or the range changes, 2 in compliance. Where several
hold, the first of them in this order (DESIGN CHOICE, assumption 93). -/
def ldidStat (f : Force) : Option Nat :=
  if !(f.mode == .fv || f.mode == .fi) || f.seq != .idle then some 3
  else if !levelReached f || f.bridge.isSome then some 4
  else if f.inComp then some 2
  else none

/-- LDID (R207): an accepted identification holds the execution unit; a refused one writes VALID = 0 with its STAT at once. -/
def execLdid (n : Chan) (k : Fields) (s : State) : Outcome State Fault Refusal :=
  .next (issue 0x3C n k s fun x s =>
    checked (zeroFields k true false false false) (ownerOnly s n x
      (match ldidStat s.chans[n].force with
      | some stat => .next (updCtx s n x fun c => setGr c k.a (pack [(stat, 24)]))
      | none =>
        .hold (updGraver (updForce s n fun f => { f with ldid := some ⟨0, 0, [], false⟩ }) n fun g =>
          { g with busy := some (x, .ldid k.a) }))))

/-- CAL (R208): context 3 only; the register receives 0 or the refusal code of Table 13.2. -/
def execCal (n : Chan) (k : Fields) (s : State) : Outcome State Fault Refusal :=
  .next (issue 0x3D n k s fun x s =>
    checked (zeroFields k true false false true && immZero k 13 2 && immField k 1 0 < 2)
      (if x != 3 then .fault .priv
      else
        demandDone s (
          let r := calRequest s n (if immField k 1 0 = 0 then .full else .quick)
          .next (updCtx r.2 n x fun c => setGr c k.a (word r.1)))))

/-- The access path of a context in the snapshots of the latest-value registers. -/
def ctxPath (x : Ctx) : Fin 8 := ⟨4 + x.val, by omega⟩

/-- What RDS reads (Table 5.11), and the state after the read; none for a reserved selector. -/
def rdsValue (s : State) (n : Chan) (x : Ctx) (sel : Nat) : Option (Word × State) :=
  let c := s.chans[n]
  let i := c.graver.ctx[x].intent
  match sel with
  | 0 => some (rdMode c, s)
  | 1 => some (rdRange c, s)
  | 2 => some (rdLevel c, s)
  | 3 => some (rdClampHi c, s)
  | 4 => some (rdClampLo c, s)
  | 5 => some (rdSlew c, s)
  | 6 => some (rdStrobe c, s)
  | 7 => some (rdComp c, s)
  | 8 => some (rdStatus s n, s)
  | 9 => some (c.meas.latest.seq, snapLatest s n (ctxPath x))
  | 10 => some (c.meas.snaps[ctxPath x].v, s)
  | 11 => some (c.meas.snaps[ctxPath x].i, s)
  | 12 => some (rdCmpStatus c, s)
  | 13 => some (rdGvStatus c, s)
  | 14 => some (wordI i.level, s)
  | 15 => some (match i.staged with | some v => pack [(1, 31), (bitsOf 31 v, 0)] | none => 0, s)
  | _ => none

/-- RDS (R209). With no staged code selector 15 reads 0 (assumption 20). -/
def execRds (n : Chan) (k : Fields) (s : State) : Outcome State Fault Refusal :=
  .next (if immBit k 13 then s else issue 0x3E n k s fun x s =>
    checked (zeroFields k true false false true && immZero k 12 5)
      (match rdsValue s n x (immField k 4 0) with
      | some (v, t) => .next (updCtx t n x fun c => setGr c k.a v)
      | none => .fault .illegal))

/-- Write a timestamp into two registers: bits 31:0 into a, then bits 63:32 into b (the same register keeps the high word). -/
def setPair (c : Context) (a b : BitVec 4) (t : Option Nat) : Context :=
  match t with
  | some t => setGr (setGr c a (word t)) b (word (t / 2 ^ 32))
  | none => setGr (setGr c a 0xFFFFFFFF) b 0xFFFFFFFF

/-- RDT (R210): the counter, the oldest capture of WA or WB, or the instant of the most recent result. -/
def execRdt (n : Chan) (k : Fields) (s : State) : Outcome State Fault Refusal :=
  .next (if !immBit k 13 then s else issue 0x3E n k s fun x s =>
    let src := immField k 1 0
    let cmp := if src = 1 then Cmp.a else Cmp.b
    let t :=
      if src = 0 then some s.tb.now
      else if src = 3 then s.chans[n].meas.lastResult
      else (cmpOf s.chans[n] cmp).fifo.head?
    let u := if src = 1 || src = 2 then updCmp s n cmp fun c => { c with fifo := c.fifo.drop 1 } else s
    checked (zeroFields k true true false true && immZero k 12 2)
      (.next (updCtx u n x fun c => setPair c k.a k.b t)))

end Sys2Proof.Machine
end

