-- ==== Sys2Proof/Machine/LaneCommands.lean ====
section
/-!
DEFINITION. The commands of the serial lanes.
-/
namespace Sys2Proof.Machine

open Host

/-- LANE_CFG_WRITE (R415). -/
def execLaneCfgWrite (p : Path) (onLane : Option Lane) (k : Lane) (v : Word) (s : State) : Outcome State Fault Refusal :=
  .next (accessed s (laneCfg s p onLane k v))

/-- SLIP (R419). -/
def execSlip (_p : Path) (k : Lane) (s : State) : Outcome State Fault Refusal := .next (accessed s (slipLane s k))

/-- LANE_RESTART (R430). -/
def execLaneRestart (_p : Path) (k : Lane) (s : State) : Outcome State Fault Refusal := .next (accessed s (restartLane s k))

/-- SIGNAL_DETECT_RISE (R430); on a host port it wakes the device from vigil (R393). A DORMANT lane that is none detects no signal (R420). -/
def execSignalDetectRise (k : Lane) (s : State) : Outcome State Fault Refusal :=
  .next (
    if s.lanes[k].pstate = dormant && !s.lanes[k].hostp then s
    else
      let s := updLane s k fun l => { l with sigdet := true }
      let s := if s.lanes[k].hostp then wakeVigil s wakeHost else s
      restartLane s k)

/-- INJ_GO (R421). -/
def execInjGo (_p : Path) (k : Lane) (s : State) : Outcome State Fault Refusal := .next (accessed s (injectLane s k))

/-- PRBS_CLR (R421). -/
def execPrbsClr (_p : Path) (k : Lane) (s : State) : Outcome State Fault Refusal := .next (accessed s (clearPrbs s k))

/-- PCIE_RESET (R424). -/
def execPcieReset (s : State) : Outcome State Fault Refusal := .next (resetPcie s)

/-- PCIE_LINK_UP (R422). -/
def execPcieLinkUp (speed width : Nat) (s : State) : Outcome State Fault Refusal := .next (pcieUp s speed width)

/-- ETHERNET_LOCK_RETRY (R422). -/
def execEthernetLockRetry (k : Lane) (locked negotiated : Bool) (s : State) : Outcome State Fault Refusal :=
  .next (retryEther s k locked negotiated)

/-- ETHERNET_LINK_LOSS (R422). -/
def execEthernetLinkLoss (k : Lane) (s : State) : Outcome State Fault Refusal := .next (loseEther s k)

/-- ETHERNET_FRAME (R425). -/
def execEthernetFrame (k : Lane) (f : EtherFrame) (len tags : Nat) (s : State) : Outcome State Fault Refusal :=
  .next (etherFrame s k f len tags)

/-- HDRLOCK_GAIN (R419). -/
def execHdrlockGain (k : Lane) (s : State) : Outcome State Fault Refusal := .next (gainLock s k)

/-- HDRLOCK_LOSS (R419, R430). -/
def execHdrlockLoss (k : Lane) (s : State) : Outcome State Fault Refusal := .next (loseLock s k)

/-- SIBIA_TRAIN (R430, R41). -/
def execSibiaTrain (k : Lane) (sysid : BitVec 5) (ack : Bool) (s : State) : Outcome State Fault Refusal := .next (trainArrived s k sysid ack)

/-- SIBIA_TRAIN_TIMEOUT (R430): 10 ms pass. -/
def execSibiaTrainTimeout (k : Lane) (s : State) : Outcome State Fault Refusal :=
  .next (if s.lanes[k].proto = protoSibia && s.lanes[k].lstate == .training then failAttempt s k else s)

/-- SIBIA_LINK_LOSS (R430). -/
def execSibiaLinkLoss (k : Lane) (s : State) : Outcome State Fault Refusal := .next (sibiaLost s k)

/-- SIBIA_BAD_BLOCK (R426). -/
def execSibiaBadBlock (k : Lane) (s : State) : Outcome State Fault Refusal := .next (badBlock s k)

/-- SIBIA_CAL_ASK (R428). -/
def execSibiaCalAsk (k : Lane) (s : State) : Outcome State Fault Refusal := .next (askArrived s k)

/-- SIBIA_CAL_REQ_SEND (R428). -/
def execSibiaCalReqSend (k : Lane) (s : State) : Outcome State Fault Refusal := .next (sendReq s k)

/-- SIBIA_CAL_REQ (R428). -/
def execSibiaCalReq (k : Lane) (seq : BitVec 6) (t1 t2 t3 : BitVec 40) (s : State) : Outcome State Fault Refusal :=
  .next (reqArrived s k seq t1 t2 t3)

/-- SIBIA_CAL_RSP (R428). -/
def execSibiaCalRsp (k : Lane) (seq : BitVec 6) (_t3 t4 : BitVec 40) (s : State) : Outcome State Fault Refusal := .next (rspArrived s k seq t4)

/-- SIBIA_CAL_REPORT (R428). -/
def execSibiaCalReport (k : Lane) (seq : BitVec 6) (t4 : BitVec 40) (s : State) : Outcome State Fault Refusal := .next (reportArrived s k seq t4)

/-- SIBIA_CAL_EXCHANGE_TIMEOUT (R428). -/
def execSibiaCalExchangeTimeout (k : Lane) (s : State) : Outcome State Fault Refusal := .next (exchangeTimeout s k)

/-- SIBIA_TOKEN (R268, R427). -/
def execSibiaToken (k : Lane) (mask : BitVec 16) (a : BitVec 32) (s : State) : Outcome State Fault Refusal := .next (tokenArrived s k mask a)

/-- SIBIA_SYNCV (R429). -/
def execSibiaSyncv (k : Lane) (cap : BitVec 48) (s : State) : Outcome State Fault Refusal := .next (syncvArrived s k cap)

/-- LANE_POWER_STATE_EXIT (R420). -/
def execLanePowerStateExit (k : Lane) (s : State) : Outcome State Fault Refusal := .next (wakeLane s k)

/-- RECOVERY_LANE_ALTERNATE (R450): until a link comes up. -/
def execRecoveryLaneAlternate (s : State) : Outcome State Fault Refusal :=
  .next (
    if s.fw.recovery && s.lanes[0].lstate != .up then updLane s 0 fun l => { l with proto := if l.proto = 2 then 3 else 2 } else s)

end Sys2Proof.Machine
end

