-- ==== Sys2Proof/Machine/PlateCommands.lean ====
section
/-!
DEFINITION. The commands of the Plate and its bus.
-/
namespace Sys2Proof.Machine

open Host

/-- PLDET_FALL (R356). -/
def execPldetFall (s : State) : Outcome State Fault Refusal := .next (pldetFalls s)

/-- PLDET_RISE (R356). -/
def execPldetRise (s : State) : Outcome State Fault Refusal := .next (pldetRises s)

/-- PLATE_SETTLE_END (R367): 20 ms. -/
def execPlateSettleEnd (s : State) : Outcome State Fault Refusal := .next (if s.pl.sess == .settling then beginReading s else s)

/-- PLATE_BUS_RETRY (R355). -/
def execPlateBusRetry (acked : Bool) (s : State) : Outcome State Fault Refusal := .next (busRetry s acked)

/-- TOKEN_ANSWER_TIMEOUT (R363): 1 s. -/
def execTokenAnswerTimeout (s : State) : Outcome State Fault Refusal := .next (tokenSilent s)

/-- PLATE_RECORD_READ (R367). -/
def execPlateRecordRead (r : PlateRead) (s : State) : Outcome State Fault Refusal := .next (recordRead s r)

/-- TOKEN_AUTH_ANSWER (R364). -/
def execTokenAuthAnswer (signature : List Byte) (s : State) : Outcome State Fault Refusal := .next (authAnswer s signature)

/-- PLATE_ATTESTATION_SIGNED (R364). -/
def execPlateAttestationSigned (fails : Nat) (s : State) : Outcome State Fault Refusal := .next (openSigned s fails)

/-- TOKEN_OPEN_ANSWER (R364), with the nonce TN that an acceptance leaves in the token. -/
def execTokenOpenAnswer (ok : Bool) (tokenNonce : Digest) (s : State) : Outcome State Fault Refusal := .next (openAnswer s ok tokenNonce)

/-- TOKEN_ADVANCE_ANSWER (R365). -/
def execTokenAdvanceAnswer (ok : Bool) (s : State) : Outcome State Fault Refusal := .next (advanceAnswer s ok)

/-- EEPROM_COUNT_WRITE_DONE (R361). -/
def execEepromCountWriteDone (s : State) : Outcome State Fault Refusal := .next (countWritten s)

/-- PLSNS_OPEN (R368). -/
def execPlsnsOpen (s : State) : Outcome State Fault Refusal := .next (updPl s fun p => { p with contact := false })

/-- PLATE_CONTACT_CYCLE (R368): counted where CSRC selects PLSNS and the comparator was in OPEN. -/
def execPlateContactCycle (s : State) : Outcome State Fault Refusal :=
  .next (
    if s.pl.contact then s
    else
      let s := updPl s fun p => { p with contact := true }
      if s.pl.csrc then s else countCycle s)

/-- CYCLE (R368). -/
def execCycle (_p : Path) (s : State) : Outcome State Fault Refusal := .next (accessed s (hostCycle s))

/-- REOPEN (R367). -/
def execReopen (_p : Path) (s : State) : Outcome State Fault Refusal := .next (accessed s (reopenPlate s))

end Sys2Proof.Machine
end

