-- ==== Sys2Proof/Machine/PowerCommands.lean ====
section
/-!
DEFINITION. The commands of power management.
-/
namespace Sys2Proof.Machine

open Host

/-- REGULATOR_STATUS_POLL (R383). -/
def execRegulatorStatusPoll (failed fault : Bool) (s : State) : Outcome State Fault Refusal := .next (statusPoll s failed fault)

/-- PMALRTN_ASSERT (R383). -/
def execPmalrtnAssert (s : State) : Outcome State Fault Refusal := .next (regulatorFault s)

/-- PACE_STEP (R382): READ_VOUT has been read, or its transaction or that of VOUT_COMMAND has failed (R383). -/
def execPaceStep (failed : Bool) (readVout : Nat) (s : State) : Outcome State Fault Refusal :=
  .next (
    let s := pmbusDone s failed
    if failed then s else updPwr s fun p => paceMove { p with readVout := readVout } s.fw s.tb.now)

/-- POWER_BUDGET_PERIOD (R390). -/
def execPowerBudgetPeriod (s : State) : Outcome State Fault Refusal := .next (powerPeriod s)

/-- TEMPERATURE_READ (R391). -/
def execTemperatureRead (temps : List (BitVec 16)) (s : State) : Outcome State Fault Refusal := .next (readTemps s temps)

/-- VIGIL (R392). -/
def execVigil (_p : Path) (s : State) : Outcome State Fault Refusal := .next (accessed s (vigilCmd s))

/-- RUN (R393). -/
def execRun (_p : Path) (s : State) : Outcome State Fault Refusal := .next (accessed s (wakeVigil s wakeHost))

/-- VIGIL_WAKE_TIMER (R393). -/
def execVigilWakeTimer (s : State) : Outcome State Fault Refusal := .next (timerWake s)

/-- VIGIL_DDR_READY (R393): t2 of Table 12.3. -/
def execVigilDdrReady (s : State) : Outcome State Fault Refusal :=
  .next (if s.pwr.vigil then s else updPwr s fun p => { p with ddrReady := true })

end Sys2Proof.Machine
end

