-- ==== Sys2Proof/Machine/ProofCommands.lean ====
section
/-!
DEFINITION. The commands of Proofs: sealing, signing, writing, and the writes of the Proof registers.
-/
namespace Sys2Proof.Machine

open Host

/-- PROOF_SEAL (t2 of Table 10.4): the oldest ended interval whose last summary has been handed over, while fewer than eight are held. -/
def execProofSeal (s : State) : Outcome State Fault Refusal :=
  .next (match s.pf.ended with
    | v :: _ =>
      match v.atEnd with
      | some e => if v.handed && s.pf.held.length < 8 then sealProof s v e else s
      | none => s
    | [] => s)

/-- PREV_DIGEST (Table 10.5). -/
def prevDigest (p : Trust) : Digest :=
  p.lastDigest.getD (Config.shake256 ([0x31] ++ serialBytes Config.serial ++ leBytes 4 p.bootCnt))

/-- PROOF_SIGN_START (t3 of Table 10.4): the oldest Proof that is not signed takes PREV_DIGEST and the next index. `fails` says how many
read-backs of a reservation fail before one passes. Device unit 136 takes the wait. -/
def execProofSignStart (fails : Nat) (s : State) : Outcome State Fault Refusal :=
  .next (if s.pf.signing || !s.pf.ready || mpStopped s || faultWork s then s
    else
      match unsigned s.pf with
      | none => s
      | some i =>
        match s.pf.held[i]?, takeIndex s.pf fails with
        | some p, some (k, pf) =>
          let since := p.sealedAt
          let p := { p with prevDigest := prevDigest s.pf, sigIndex := some k }
          let s := offerDevice s 0 since s.tb.now
          checkKeyEnd { s with pf := { pf with held := pf.held.set i p, signing := true, lastDigest := some (proofDigest p) } }
        | _, _ => s)

/-- PROOF_SIGNED (t4 of Table 10.4); device unit 141 takes the time since T_END. -/
def execProofSigned (s : State) : Outcome State Fault Refusal :=
  .next (if !s.pf.signing then s
    else
      match s.pf.held.findIdx? fun p => p.sigIndex.isSome && !p.signed with
      | none => s
      | some i =>
        let tEnd := (s.pf.held[i]?.map (·.interval.tEnd)).getD s.tb.now
        let s := updPf s fun f => { f with signing := false, held := f.held.modify i fun p => { p with signed := true } }
        offerDevice s 5 tEnd s.tb.now)

/-- Write a record into the proof ring (R344). -/
def writeProof (s : State) (p : Proof) : State :=
  let r := s.pf.ring
  if !ringTakes s then s
  else
    match ringPas s.mm r 5952 r.wr [] with
    | .inr (va, f) =>
      ringFault (updPf s fun p => { p with ring := { p.ring with fault := true } }) .proofRing 8 r.asid.toNat va f
    | .inl pas =>
      let s := cacheXlates s r.asid.toNat ((List.range 6).map fun i => r.va (r.wr + min 23807 (4096 * i)))
      let s := cacheXlate s r.asid.toNat (r.va (r.wr + 23807))
      let s := { s with mm := { s.mm with mem := storeWords s.mm.mem (pas.zip (wordsOf (proofRecord p))) } }
      raise (updPf s fun f =>
        { f with held := f.held.drop 1, seq := f.seq + 1, lastWritten := proofDigest p, ring := { f.ring with wr := f.ring.wr + 23808 } }) 274

/-- PROOF_WRITTEN (t5 of Table 10.4): the MP writes the record, and holds it while it stands still (R344, R456). -/
def execProofWritten (s : State) : Outcome State Fault Refusal :=
  .next (match s.pf.held with
    | p :: _ => if p.signed && !mpStopped s && !faultWork s then writeProof s p else s
    | [] => s)

/-- PF_CTRL_WRITE (R339). -/
def execPfCtrlWrite (_p : Path) (v : Word) (s : State) : Outcome State Fault Refusal :=
  .next (accessed s (pfCtrl s v))

/-- PROOF_RING_ENABLE (R344): a write of PF_RING_CFG with EN = 1. -/
def execProofRingEnable (_p : Path) (v : Word) (s : State) : Outcome State Fault Refusal :=
  .next (accessed s (if flag v 31 then updPf s fun f => { f with ring := ringCfg f.ring v 30 5 } else s))

/-- PROOF_RING_RD_COMMIT (R344, R310). -/
def execProofRingRdCommit (_p : Path) (hi : Word) (s : State) : Outcome State Fault Refusal :=
  .next (accessed s (pfRdWrite s hi))

/-- Whether a nonce was issued 60 s ago; a counter that has been set back since does not keep it. -/
def nonceOld (now issued : Nat) : Bool := now < issued || issued + 96000000000 ≤ now

/-- NONCE_EXPIRY (R348): the path's nonce expires 60 s after it was issued. -/
def execNonceExpiry (p : Path) (s : State) : Outcome State Fault Refusal :=
  .next (updPf s fun f => { f with nonces := f.nonces.filter fun k => k.1 != p || !nonceOld s.tb.now k.2.2 })

end Sys2Proof.Machine
end

