-- ==== Sys2Proof/Machine/QueueCommands.lean ====
section
/-!
DEFINITION. The commands of queues, result reads, drain engines and rings.
-/
namespace Sys2Proof.Machine

open Host

/-- QUEUE_ENABLE (R298): a write of Q_CTRL with CMD 1. -/
def execQueueEnable (p : Path) (v : Word) (s : State) : Outcome State Fault Refusal :=
  .next (accessed s (if field v 3 0 = 1 then qCtrlWrite s p (pathQueue s p) v else s))

/-- QUEUE_DISABLE (R298): CMD 2. -/
def execQueueDisable (p : Path) (v : Word) (s : State) : Outcome State Fault Refusal :=
  .next (accessed s (if field v 3 0 = 2 then qCtrlWrite s p (pathQueue s p) v else s))

/-- QUEUE_FLUSH (R298): CMD 3. -/
def execQueueFlush (p : Path) (v : Word) (s : State) : Outcome State Fault Refusal :=
  .next (accessed s (if field v 3 0 = 3 then qCtrlWrite s p (pathQueue s p) v else s))

/-- QUEUE_DROP_REM (R302): CMD 4. -/
def execQueueDropRem (p : Path) (v : Word) (s : State) : Outcome State Fault Refusal :=
  .next (accessed s (if field v 3 0 = 4 then qCtrlWrite s p (pathQueue s p) v else s))

/-- QUEUE_CFG_WRITE (R297). -/
def execQueueCfgWrite (p : Path) (v : Word) (s : State) : Outcome State Fault Refusal := .next (accessed s (qCfgWrite s p (pathQueue s p) v))

/-- QUEUE_PEAK_READ (R306): the read returns the peak. -/
def execQueuePeakRead (p : Path) (s : State) : Outcome State Fault Refusal :=
  .next (accessedRead s p (let q := pathQueue s p; returned (readPeak s q) p [word s.queues[q].peak]))

/-- CH_RESULT_POP (R121, R302, R303). -/
def execChResultPop (p : Path) (n : Chan) (ecc : EccResult) (s : State) : Outcome State Fault Refusal :=
  .next (accessedRead s p (let r := popQueue s p (resultQueue n) ecc; returned r.2 p [r.1]))

/-- The place of a path among a channel's snapshots. -/
def pathSnap (p : Path) : Fin 8 := ⟨(pathIdx p).val, by omega⟩

/-- CH_LATEST_SEQ_READ (R122): the latest values are kept for the path's later reads. -/
def execChLatestSeqRead (p : Path) (n : Chan) (s : State) : Outcome State Fault Refusal :=
  .next (accessedRead s p (returned (snapLatest s n (pathSnap p)) p [s.chans[n].meas.latest.seq]))

/-- DRAIN_TRANSFER_START (R311, R303). -/
def execDrainTransferStart (d : Ring) (ecc : EccResult) (s : State) : Outcome State Fault Refusal := .next (engineStart s d ecc)

/-- DRAIN_TRANSFER_END (R310). -/
def execDrainTransferEnd (d : Ring) (s : State) : Outcome State Fault Refusal := .next (engineEnd s d)

/-- RING_ENABLE (R308): a write of Q_RING_CFG with EN = 1. -/
def execRingEnable (_p : Path) (d : Ring) (v : Word) (s : State) : Outcome State Fault Refusal :=
  .next (accessed s (if flag v 31 then ringCfgWrite s d v else s))

/-- RING_DISABLE (R308): a write of Q_RING_CFG with EN = 0. -/
def execRingDisable (_p : Path) (d : Ring) (v : Word) (s : State) : Outcome State Fault Refusal :=
  .next (accessed s (if flag v 31 then s else ringCfgWrite s d v))

/-- RING_RD_COMMIT (R310, R438). -/
def execRingRdCommit (_p : Path) (d : Ring) (hi : Word) (s : State) : Outcome State Fault Refusal := .next (accessed s (ringRdWrite s d hi))

end Sys2Proof.Machine
end

