-- ==== Sys2Proof/Machine/RegsChan.lean ====
section
/-!
DEFINITION. The registers of a channel block (Table 16.8).
-/
namespace Sys2Proof.Machine

/-- A register of a channel. The latest values are those of the path's snapshot (R122); reading CH_LATEST_SEQ takes one, and reading
CH_RESULT_POP pops the channel's queue (R121). -/
def chanRead (s : State) (p : Path) (n : Chan) (off : Nat) : Word × State :=
  let c := s.chans[n]
  if off = 0x000 then (rdMode c, s)
  else if off = 0x004 then (rdRange c, s)
  else if off = 0x008 then (rdLevel c, s)
  else if off = 0x00C then (rdClampHi c, s)
  else if off = 0x010 then (rdClampLo c, s)
  else if off = 0x014 then (rdSlew c, s)
  else if off = 0x018 then (rdStrobe c, s)
  else if off = 0x01C then (rdComp c, s)
  else if off = 0x020 then (rdStatus s n, s)
  else if off = 0x024 then (c.meas.snaps[pathSnap p].v, s)
  else if off = 0x028 then (c.meas.snaps[pathSnap p].i, s)
  else if off = 0x02C then (c.meas.latest.seq, snapLatest s n (pathSnap p))
  else if off = 0x030 then popFree s p (resultQueue n)
  else if off = 0x034 then (c.cmpA.cfg, s)
  else if off = 0x038 then (c.cmpB.cfg, s)
  else if off = 0x03C then (rdCmpStatus c, s)
  else if off = 0x040 then (rdGvCtrl c, s)
  else if off = 0x044 then (rdGvStatus c, s)
  else if off = 0x04C then (rdGvFault c, s)
  else (0, s)

/-- The level of FLT_n at a register write that would clear the latch: low only if it was asserted, and after that a free value, since no command
brings it back high (assumptions 5 and 95). -/
def sampleFlt (s : State) (n : Chan) : State :=
  if !s.chans[n].force.fltLow then s
  else let w := drawFree s; updForce w.2 n fun f => { f with fltLow := flag w.1 0 }

/-- A write of CH_STATUS: its W1C bits (Table 2.28). -/
def chStatusWrite (s : State) (n : Chan) (v : Word) : State :=
  let s := updForce s n fun f =>
    { f with osc := f.osc && !flag v 27, lvlClip := f.lvlClip && !flag v 18, clampRej := f.clampRej && !flag v 17 }
  if flag v 31 then clearFltLatch (sampleFlt s n) n else s

/-- A write to a channel's registers: those that R475 lets the host write. -/
def chanWrite (s : State) (n : Chan) (off : Nat) (v : Word) : State :=
  if off = 0x020 then chStatusWrite s n v
  else if off = 0x03C then cmpStatusWrite s n v
  else if off = 0x040 then gvCtrlWrite s n v
  else if off = 0x044 then gvStatusClear s n v
  else if off = 0x048 then gvImmAppend s n v
  else s

end Sys2Proof.Machine
end

