-- ==== Sys2Proof/Machine/RegsTime.lean ====
section
/-!
DEFINITION. The registers of blocks SYS and TB (Tables 16.2 to 16.6, 1.7 to 1.11, 6.10) and the MSI-X table (R423, R467).
-/
namespace Sys2Proof.Machine

/-! ### SYS -/

/-- SYS_ID (Table 16.3): GRADE reads 0 for FC and 1 for FI. -/
def rdSysId : Word := pack [(0x6480, 16), (0xB1, 8), (bit Config.gradeFi, 0)]

/-- SYS_STATUS (Table 16.4). -/
def rdSysStatus (s : State) : Word :=
  pack [(bit s.mm.spareOut, 31), (bit s.mm.eccUe, 30), (bit s.mm.eccCe, 29), (min 255 s.mm.rowrep, 8)]

/-- SYS_BANK (Table 16.5). -/
def rdSysBank (s : State) : Word :=
  pack (allBanks.flatMap fun b =>
    let k := s.banks[b]
    [(bit k.up, 8 * b.val + 7), (bit k.linkErr, 8 * b.val + 6), (min 63 k.downs, 8 * b.val)])

/-- SYS_STRAP (Table 16.6). -/
def rdSysStrap (s : State) : Word :=
  pack [(bit s.fw.straps.recovery, 7), (bit s.fw.straps.refsel, 6), (s.fw.straps.sysid.toNat, 0)]

/-- A register of block SYS. -/
def sysRead (s : State) (off : Nat) : Word :=
  if off = 0x000 then rdSysId
  else if off = 0x004 then rdSysStatus s
  else if off = 0x008 then rdSysBank s
  else if off = 0x00C then rdSysStrap s
  else if 0x010 ≤ off && off < 0x020 then wordAt (serialBytes Config.serial) ((off - 0x010) / 4)
  else if off = 0x020 then s.fw.scratch
  else 0

/-- A write to block SYS. -/
def sysWrite (s : State) (off : Nat) (v : Word) : State :=
  if off = 0x004 then updMm s fun m => { m with eccUe := m.eccUe && !flag v 30, eccCe := m.eccCe && !flag v 29 }
  else if off = 0x008 then
    allBanks.foldl (fun s b => updBank s b fun k => { k with linkErr := k.linkErr && !flag v (8 * b.val + 6) }) s
  else if off = 0x020 then { s with fw := { s.fw with scratch := v } }
  else s

/-! ### The MSI-X table (R423) and its pending-bit array -/

/-- A word of the MSI-X table or of its pending bits; `off` counts from 0xF000. -/
def msixRead (s : State) (off : Nat) : Word :=
  if off < 0x400 then
    match s.tr.msix[off / 16]? with
    | some e => if off % 16 = 0 then e.addr else if off % 16 = 4 then e.addrHi else if off % 16 = 8 then e.data else e.control
    | none => 0
  else if off < 0x408 then
    word ((List.range 32).foldl (fun a i => a + bit (s.tr.masked.contains ((off - 0x400) * 8 + i)) * 2 ^ i) 0)
  else 0

/-- An entry after a write of one of its words. Its control word holds the mask bit. -/
def msixEntry (e : MsixEntry) (off : Nat) (v : Word) : MsixEntry :=
  if off % 16 = 0 then { e with addr := v &&& 0xFFFFFFFC }
  else if off % 16 = 4 then { e with addrHi := v }
  else if off % 16 = 8 then { e with data := v }
  else { e with control := v &&& 1 }

/-- A message that its mask bit held back goes out when the bit clears (R270). -/
def releaseMasked (s : State) (v : Nat) : State :=
  if s.tr.masked.contains v && !vectorHeld s.tr v then
    { s with tr := { s.tr with masked := s.tr.masked.filter (· != v), sent := s.tr.sent ++ [v] } }
  else s

/-- A write to the MSI-X table. -/
def msixWrite (s : State) (off : Nat) (v : Word) : State :=
  if h : off / 16 < 64 then
    releaseMasked { s with tr := { s.tr with msix := s.tr.msix.set (off / 16) (msixEntry s.tr.msix[off / 16] off v) } } (off / 16)
  else s

/-! ### TB -/

/-- TB_CTRL (Table 1.8). -/
def rdTbCtrl (b : Timebase) : Word := pack [(bit b.syncoEn, 7), (b.syncMode.toNat, 4), (bit b.timingRef, 3), (bit b.skewEn, 2)]

/-- TB_STATUS (Table 1.9). -/
def rdTbStatus (b : Timebase) : Word :=
  pack [(b.syncCount % 65536, 16), (bit b.dupId, 8), (bit b.loadRefused, 7), (bit b.syncMismatch, 6), (bit b.syncSeen, 5),
    (bit b.holdover, 4), (bit b.aligned, 3), (bit b.reflost, 2), (bit b.freerun, 1), (bit b.lock, 0)]

/-- TB_PHASE (Table 1.10). -/
def rdTbPhase (b : Timebase) : Word := pack [(b.phaseTarget % 16, 16), (b.fine % 16, 0)]

/-- TB_SKEW_CTRL (Table 1.11). -/
def rdSkewCtrl (b : Timebase) : Word := pack [(b.period.toNat, 16), (b.lane.toNat, 10), (bitsOf 10 b.asym, 0)]

/-- TB_SKEW_OFS (Table 1.7). -/
def rdSkewOfs (b : Timebase) : Word := pack [(bit b.ofsValid, 31), (bitsOf 24 b.ofs, 0)]

/-- The lower and upper word of a 64-bit value. -/
def low (v : Nat) : Word := word v
def high (v : Nat) : Word := word (v / 2 ^ 32)

/-- A 64-bit value after a write of its lower or upper half. -/
def setLow (v : Nat) (w : Word) : Nat := v / 2 ^ 32 * 2 ^ 32 + w.toNat
def setHigh (v : Nat) (w : Word) : Nat := v % 2 ^ 32 + w.toNat * 2 ^ 32

/-- A register of block TB, pairs that a read snapshots apart. -/
def tbRead (s : State) (off : Nat) : Word :=
  if off = 0x000 then rdTbCtrl s.tb
  else if off = 0x004 then rdTbStatus s.tb
  else if off = 0x010 then low s.tb.syncVal
  else if off = 0x014 then high s.tb.syncVal
  else if off = 0x020 then rdTbPhase s.tb
  else if off = 0x024 then rdSkewCtrl s.tb
  else if off = 0x028 then rdSkewOfs s.tb
  else if 0x100 ≤ off && off < 0x140 then ((s.mrk[(off - 0x100) / 4]?).map (·.cfg)).getD 0
  else 0

/-- A write of TB_CTRL (Table 1.8): a device that gives up SKEW_EN leaves a holdover that REFCLK does not cause (R40). -/
def tbCtrlWrite (s : State) (v : Word) : State :=
  let s := updTb s fun b =>
    { b with
      syncoEn := flag v 7, syncMode := BitVec.ofNat 2 (field v 5 4), timingRef := flag v 3, skewEn := flag v 2
      syncoPulses := if flag v 7 then b.syncoPulses else []
      holdover := b.holdover && (flag v 2 || b.freerun || !b.skewEn) }
  let s := noteAlign s
  if flag v 6 then genSync s else s

/-- A write of TB_STATUS: its W1C bits. -/
def tbStatusWrite (b : Timebase) (v : Word) : Timebase :=
  { b with
    dupId := b.dupId && !flag v 8, loadRefused := b.loadRefused && !flag v 7, syncMismatch := b.syncMismatch && !flag v 6
    syncSeen := b.syncSeen && !flag v 5, reflost := b.reflost && !flag v 2 }

/-- A write of TB_SKEW_CTRL (Table 1.11, R35, R38). -/
def skewCtrlWrite (s : State) (v : Word) : State :=
  let s := updTb s fun b =>
    { b with period := BitVec.ofNat 16 (field v 31 16), lane := BitVec.ofNat 2 (field v 11 10), asym := sfield v 9 0 }
  if flag v 15 then startSkew s else s

/-- A marker pin takes a new configuration (Table 6.10): what its old one still had to show is dropped. -/
def pinConfigure (s : State) (cfg : Word) (p : MarkPin) : MarkPin :=
  let cfg := cfg &&& 0xFBFFFFFF
  if cfg == p.cfg then p
  else { cfg := cfg, edges := [], level := field cfg 29 28 = 0 && pinLine s { p with cfg := cfg } }

/-- A write to block TB. -/
def tbWrite (s : State) (off : Nat) (v : Word) : State :=
  if off = 0x000 then tbCtrlWrite s v
  else if off = 0x004 then updTb s fun b => tbStatusWrite b v
  else if off = 0x010 then updTb s fun b => { b with syncVal := setLow b.syncVal v }
  else if off = 0x014 then updTb s fun b => { b with syncVal := setHigh b.syncVal v }
  else if off = 0x020 then setFine s (field v 19 16)
  else if off = 0x024 then skewCtrlWrite s v
  else if off = 0x02C then adjustCounter s v
  else if h : 0x100 ≤ off ∧ off < 0x140 then
    { s with mrk := s.mrk.set ((off - 0x100) / 4) (pinConfigure s v s.mrk[(off - 0x100) / 4]) }
  else s

end Sys2Proof.Machine
end

