-- ==== Sys2Proof/Machine/RegsLanes.lean ====
section
/-!
DEFINITION. The registers of block LN (Tables 14.12 to 14.15).
-/
namespace Sys2Proof.Machine

/-- LN_CFG (Table 14.13). -/
def rdLnCfg (l : LaneState) : Word :=
  pack [(bit l.en, 31), (l.proto, 24), (l.rawrate, 20), (l.fec, 18), (l.lps, 16), (bit l.nelb, 15), (bit l.hostp, 14)]

/-- The code of a link state (Table 14.14). -/
def LState.code : LState → Nat
  | .off => 0
  | .down => 1
  | .training => 2
  | .up => 3

/-- LN_STAT (Table 14.14). -/
def rdLnStat (l : LaneState) : Word :=
  pack [(l.lstate.code, 29), (l.pstate, 27), (bit l.sigdet, 26), (bit l.hdrlock, 25), (bit l.cfgRej, 24), (bit l.lockloss, 23),
    (bit l.eqdef, 22), (l.downs, 0)]

/-- LN_PRBS_CFG (Table 14.15): CHK_LOCK is the lock of the checker. -/
def rdPrbsCfg (l : LaneState) : Word := l.prbs ||| pack [(bit (checking l), 9)]

/-- LN_SIB_STAT (Table 14.12): byte k - 4 for lane k. -/
def rdSibStat (s : State) : Word :=
  pack ([4, 5, 6, 7].flatMap fun (k : Lane) =>
    let l := s.lanes[k]
    [(bit l.syncdiff, 8 * (k.val - 4) + 7), (bit l.dupid, 8 * (k.val - 4) + 6), (min 63 l.badblk, 8 * (k.val - 4))])

/-- LN_PCIE_STAT (Table 14.12). -/
def rdPcieStat (f : Firmware) : Word :=
  pack [(if f.ltssm = 0 then 0 else (Config.ltssmCode f.ltssm).toNat, 28), (f.pcieSpeed, 26), (f.pcieWidth, 23), (bit f.bar2flt, 22)]

/-- The lane whose registers an offset lies in. -/
def laneAt (off : Nat) : Lane := ⟨off / 0x40 % 8, by omega⟩

/-- A register of a lane that no read snapshots. -/
def laneRead (l : LaneState) (off : Nat) : Word :=
  if off = 0x00 then rdLnCfg l
  else if off = 0x04 then rdLnStat l
  else if off = 0x0C then l.eq
  else if off = 0x10 then rdPrbsCfg l
  else 0

/-- A register of block LN. -/
def lnRead (s : State) (off : Nat) : Word :=
  if off < 0x200 then laneRead s.lanes[laneAt off] (off % 0x40)
  else if off = 0x200 then rdSibStat s
  else if off = 0x300 then pack [(bit s.hht.evtEn, 1), (bit s.hht.en, 0)]
  else if off = 0x304 then pack [(bit s.hht.live, 31), (s.hht.lane, 27)]
  else if off = 0x308 then word s.hht.stream.toNat
  else if off = 0x30C then word s.hht.win
  else if off = 0x310 then word (s.hht.port % 65536)
  else if off = 0x314 then pack [(min 65535 s.hht.retx, 16), (min 65535 s.hht.ign, 0)]
  else if off = 0x318 then word (min s.hht.drop 0xFFFFFFFF)
  else if off = 0x400 then rdPcieStat s.fw
  else 0

/-- The lane over which an access path runs, where it is one (R415). -/
def pathLane (s : State) (p : Path) : Option Lane :=
  if p == .hht && s.hht.live then (if h : s.hht.lane < 8 then some ⟨s.hht.lane, h⟩ else none) else none

/-- A write to a lane's registers. LN_CMD carries out SLIP before RESTART. -/
def laneWrite (s : State) (p : Path) (k : Lane) (off : Nat) (v : Word) : State :=
  if off = 0x00 then laneCfg s p (pathLane s p) k v
  else if off = 0x04 then updLane s k fun l => { l with cfgRej := l.cfgRej && !flag v 24, lockloss := l.lockloss && !flag v 23 }
  else if off = 0x08 then
    let s := if flag v 1 then slipLane s k else s
    if flag v 0 then restartLane s k else s
  else if off = 0x10 then prbsWrite s k v
  else s

/-- A write of LN_SIB_STAT: bit 7 of a byte clears SYNCDIFF and BADBLK of its lane. -/
def sibStatWrite (s : State) (v : Word) : State :=
  [4, 5, 6, 7].foldl (fun s (k : Lane) =>
    if flag v (8 * (k.val - 4) + 7) then updLane s k fun l => { l with syncdiff := false, badblk := 0 } else s) s

/-- A write to block LN. -/
def lnWrite (s : State) (p : Path) (off : Nat) (v : Word) : State :=
  if off < 0x200 then laneWrite s p (laneAt off) (off % 0x40) v
  else if off = 0x200 then sibStatWrite s v
  else if off = 0x300 then updHht s fun h => { h with evtEn := flag v 1, en := flag v 0 }
  else if off = 0x308 then writeStream s (BitVec.ofNat 9 (field v 8 0))
  else if off = 0x30C then updHht s fun h => { h with win := v.toNat }
  else if off = 0x400 then { s with fw := { s.fw with bar2flt := s.fw.bar2flt && !flag v 22 } }
  else s

end Sys2Proof.Machine
end

