-- ==== Sys2Proof/Machine/RegsTracer.lean ====
section
/-!
DEFINITION. The registers of block TR (Tables 7.8 to 7.13).
-/
namespace Sys2Proof.Machine

/-- Change the Tracer. -/
def updTr (s : State) (f : Tracer → Tracer) : State := { s with tr := f s.tr }

/-- 32 flags of a table from its entry 32j on, as a word. -/
def flagsWord (n j : Nat) (f : Fin n → Bool) : Word :=
  word ((List.range 32).foldl (fun a i => a + (if h : 32 * j + i < n then bit (f ⟨32 * j + i, h⟩) else 0) * 2 ^ i) 0)

/-- TR_TC_CFG (Table 7.9). -/
def rdTcCfg (t : TracerChan) : Word :=
  pack [(bit t.en, 31), (bit t.direct, 30), (t.rmode.toNat, 28), (t.rlane.toNat, 26), (t.src, 0)]

/-- TR_TC_CNT (Table 7.10). -/
def rdTcCnt (t : TracerChan) : Word := pack [(bit t.flag, 31), (bit t.trip, 30), (t.count, 0)]

/-- Whether a Graver holds a pending jump request (Table 7.11). -/
def holdsJump (s : State) (n : Chan) : Bool := s.chans[n].graver.ctx.any fun k => k.jumpReq.isSome

/-- TR_CONS_CFG (Table 7.11). -/
def rdConsCfg (s : State) (i : Nat) : Word :=
  match s.tr.cons[i]? with
  | none => 0
  | some c =>
    let pend := if h : 272 ≤ i ∧ i < 340 then bit (holdsJump s ⟨i - 272, by omega⟩) else c.pend
    pack [(pend, 24), (bit c.ovf, 23), (bit c.acc, 8), (c.sel, 0)]

/-- TR_IM_CFG (Table 7.13). -/
def rdImCfg (s : State) (i : Nat) : Word :=
  match s.tr.im[i]? with
  | none => 0
  | some e => pack [(bit e.en, 15), (bit e.irqen, 14), (e.irq.toNat, 12), (e.vector.toNat, 0)]

/-- A register of block TR. -/
def trRead (s : State) (p : Path) (off : Nat) : Word :=
  let k := s.path p
  if off = 0x000 then pack [(bit s.tr.irqoe, 1), (bit s.tr.en, 0)]
  else if off = 0x004 then pack [(bit s.tr.late, 16), (s.tr.lateCount, 0)]
  else if off = 0x008 then word k.tcIdx
  else if off = 0x00C then rdTcCfg s.tr.tc[pathTc s p]
  else if off = 0x010 then rdTcCnt s.tr.tc[pathTc s p]
  else if off = 0x014 then word s.tr.tc[pathTc s p].merge
  else if off = 0x018 then word k.consIdx
  else if off = 0x01C then rdConsCfg s k.consIdx
  else if off = 0x020 then word ((s.tr.grpWrite.getLast?.map (·.1)).getD s.tr.grpEn).toNat
  else if off = 0x028 then s.tr.evi
  else if off = 0x02C then s.tr.evo
  else if off = 0x030 then word s.tr.lat
  else if off = 0x034 then word k.imIdx
  else if off = 0x038 then rdImCfg s k.imIdx
  else if 0x040 ≤ off && off < 0x050 then flagsWord 128 ((off - 0x040) / 4) fun i => s.tr.tc[i].flag
  else if 0x050 ≤ off && off < 0x060 then flagsWord 128 ((off - 0x050) / 4) fun i => s.tr.tc[i].trip
  else if 0x060 ≤ off && off < 0x088 then flagsWord 320 ((off - 0x060) / 4) fun i => s.tr.im[i].pend
  else 0

/-- A Tracer channel after a write of TR_TC_CFG (Table 7.9): RMODE exists on TC112 to TC127 only (R268). -/
def tcConfigure (k : Fin 128) (v : Word) (t : TracerChan) : TracerChan :=
  { t with
    en := flag v 31, direct := flag v 30, rmode := if k.val < 112 then 0 else BitVec.ofNat 2 (field v 29 28)
    rlane := BitVec.ofNat 2 (field v 27 26), src := field v 8 0 }

/-- An entry of the interrupt mapper after a write of TR_IM_CFG (Table 7.13). -/
def imConfigure (v : Word) (e : ImEntry) : ImEntry :=
  { e with en := flag v 15, irqen := flag v 14, irq := BitVec.ofNat 2 (field v 13 12), vector := BitVec.ofNat 6 (field v 5 0) }

/-- Whether a write of W1C bits to registers of 32 bits each clears the bit of entry i; `j` is the register's number. -/
def w1cAt (v : Word) (j i : Nat) : Bool := i / 32 = j && v.getLsbD (i % 32)

/-- A write to block TR. -/
def trWrite (s : State) (p : Path) (off : Nat) (v : Word) : State :=
  if off = 0x000 then updTr s fun t => { t with irqoe := flag v 1, en := flag v 0 }
  else if off = 0x004 then (if flag v 16 then updTr s fun t => { t with late := false, lateCount := 0 } else s)
  else if off = 0x008 then updPath s p fun k => { k with tcIdx := field v 6 0 }
  else if off = 0x00C then updTc s (pathTc s p) (tcConfigure (pathTc s p) v)
  else if off = 0x010 then updTc s (pathTc s p) fun t => { t with flag := t.flag && !flag v 31, trip := t.trip && !flag v 30 }
  else if off = 0x014 then writeMerge s p v
  else if off = 0x018 then updPath s p fun k => { k with consIdx := field v 9 0 }
  else if off = 0x01C then writeConsCfg s (s.path p).consIdx v
  else if off = 0x020 then updTr s fun t => { t with grpWrite := t.grpWrite ++ [(BitVec.ofNat 16 (field v 15 0), slotTarget s)] }
  else if off = 0x024 then injectSources s v
  else if off = 0x028 then updTr s fun t => { t with evi := v &&& 0xBBBBBBBB }
  else if off = 0x02C then updTr s fun t => { t with evo := v }
  else if off = 0x030 then updTr s fun t => { t with lat := field v 7 0 }
  else if off = 0x034 then updPath s p fun k => { k with imIdx := field v 8 0 }
  else if off = 0x038 then
    if h : (s.path p).imIdx < 320 then updTr s fun t => { t with im := t.im.set (s.path p).imIdx (imConfigure v t.im[(s.path p).imIdx]) }
    else s
  else if off = 0x03C then ackVector s (field v 5 0)
  else if 0x040 ≤ off && off < 0x050 then
    updTr s fun t => { t with tc := t.tc.mapFinIdx fun i c _ => { c with flag := c.flag && !w1cAt v ((off - 0x040) / 4) i } }
  else if 0x050 ≤ off && off < 0x060 then
    updTr s fun t => { t with tc := t.tc.mapFinIdx fun i c _ => { c with trip := c.trip && !w1cAt v ((off - 0x050) / 4) i } }
  else if 0x060 ≤ off && off < 0x088 then
    updTr s fun t => { t with im := t.im.mapFinIdx fun i e _ => { e with pend := e.pend && !w1cAt v ((off - 0x060) / 4) i } }
  else s

end Sys2Proof.Machine
end

