-- ==== Sys2Proof/Machine/RegsMemory.lean ====
section
/-!
DEFINITION. The registers of blocks Q and MMU (Tables 9.3 to 9.7, 9.13).
-/
namespace Sys2Proof.Machine

/-- The code of a queue's state (Table 9.4). -/
def QState.code : QState → Nat
  | .disabled => 0
  | .enabled => 1
  | .closing => 2

/-- Q_CTRL (Table 9.4). -/
def rdQCtrl (q : Queue) : Word := pack [(q.state.code, 30), (bit q.wmie, 12), (bit q.drn, 11), (q.eng, 8)]

/-- Q_STAT (Table 9.5). -/
def rdQStat (q : Queue) : Word :=
  pack [(bit q.hwmHit, 31), (bit q.lwmHit, 30), (bit q.drop, 29), (bit q.eccErr, 28), (bit q.cfgRej, 27), (min q.p 0xFFFFFF, 0)]

/-- Q_RING_CFG or PF_RING_CFG (Tables 9.7, 10.16). -/
def rdRingCfg (r : RingState) (full : Bool) : Word :=
  pack [(bit r.en, 31), (bit r.trig, 30), (r.asid.toNat, 24), (bit r.fault, 10), (bit full, 9), (bit r.rdRej, 8), (r.log2size, 0)]

/-- The base of a ring after a write of one of its halves (Table 9.6); a ring that runs ignores it. -/
def ringBase (r : RingState) (hi : Bool) (v : Word) : RingState :=
  if r.en then r
  else if hi then { r with base := setHigh r.base (word (field v 15 0)) }
  else { r with base := setLow r.base (v &&& 0xFFF00000) }

/-- A ring's register that no read snapshots; `off` counts from the ring's first register. -/
def ringRead (s : State) (d : Ring) (off : Nat) : Word :=
  let r := s.rings[d]
  if off = 0x00 then low r.base
  else if off = 0x04 then high r.base
  else if off = 0x08 then rdRingCfg r (engineFull s d)
  else if off = 0x0C then word r.thr
  else if off = 0x18 then r.rdLo
  else if off = 0x1C then high r.rd
  else 0

/-- A write to a ring's registers. -/
def ringWrite (s : State) (d : Ring) (off : Nat) (v : Word) : State :=
  if off = 0x00 then updRing s d fun r => ringBase r false v
  else if off = 0x04 then updRing s d fun r => ringBase r true v
  else if off = 0x08 then ringCfgWrite s d v
  else if off = 0x0C then updRing s d fun r => { r with thr := field v 22 0 }
  else if off = 0x18 then updRing s d fun r => { r with rdLo := v }
  else if off = 0x1C then ringRdWrite s d v
  else s

/-- The ring whose registers an offset of block Q lies in. -/
def ringAt (off : Nat) : Ring := ⟨(off - 0x100) / 0x20 % 8, by omega⟩

/-- A register of block Q. A read of Q_PEAK restarts the peak (R306). -/
def qRead (s : State) (p : Path) (off : Nat) : Word × State :=
  let q := pathQueue s p
  let k := s.queues[q]
  if off = 0x000 then (word (s.path p).qIdx, s)
  else if off = 0x004 then (pack [(k.size, 16), (k.base, 0)], s)
  else if off = 0x008 then (pack [(k.hwm, 16), (k.lwm, 0)], s)
  else if off = 0x00C then (rdQCtrl k, s)
  else if off = 0x010 then (rdQStat k, s)
  else if off = 0x014 then (word k.occ, s)
  else if off = 0x018 then (word k.committed.length, s)
  else if off = 0x01C then (word k.peak, readPeak s q)
  else if off = 0x020 then (word k.gapcnt, s)
  else if off = 0x024 then (word k.rwcnt, s)
  else if off = 0x028 then (word k.discnt, s)
  else if 0x100 ≤ off && off < 0x200 then (ringRead s (ringAt off) ((off - 0x100) % 0x20), s)
  else (0, s)

/-- A queue after a write of Q_STAT: its W1C bits. -/
def qStatWrite (v : Word) (k : Queue) : Queue :=
  { k with
    hwmHit := k.hwmHit && !flag v 31, lwmHit := k.lwmHit && !flag v 30, eccErr := k.eccErr && !flag v 28, cfgRej := k.cfgRej && !flag v 27 }

/-- A write to block Q. -/
def qWrite (s : State) (p : Path) (off : Nat) (v : Word) : State :=
  let q := pathQueue s p
  if off = 0x000 then updPath s p fun k => { k with qIdx := field v 7 0 }
  else if off = 0x004 then qCfgWrite s p q v
  else if off = 0x008 then
    if queueWritable p q then updQueue s q fun k => { k with hwm := field v 31 16, lwm := field v 15 0 } else s
  else if off = 0x00C then qCtrlWrite s p q v
  else if off = 0x010 then (if queueWritable p q then updQueue s q (qStatWrite v) else s)
  else if 0x100 ≤ off && off < 0x200 then ringWrite s (ringAt off) ((off - 0x100) % 0x20) v
  else s

/-! ### MMU -/

/-- MMU_STATUS (Table 9.13). -/
def rdMmuStatus (m : Memory) : Word :=
  pack ((m.asids.map fun a => (1, 16 + a % 16)) ++ [(bit !m.invPending.isEmpty, 15), (bit m.flogOvf, 14), (m.flog.length, 0)])

/-- A register of block MMU. A read of MMU_FLOG_W0 pops the oldest record for the path (R322). -/
def mmuRead (s : State) (p : Path) (off : Nat) : Word × State :=
  if off = 0x000 then (rdMmuStatus s.mm, s)
  else if off = 0x004 then flogPop s p
  else if 0x008 ≤ off && off < 0x018 then (((s.path p).flog[(off - 0x008) / 4]?).getD 0, s)
  else if off = 0x018 then (word s.mm.invSeq, s)
  else if off = 0x01C then (word s.mm.dzcnt, s)
  else if off = 0x020 then (word (min (poolPages s.mm) 0xFFFFFF), s)
  else if off = 0x024 then (word s.mm.hours, s)
  else (0, s)

/-- A write to block MMU. -/
def mmuWrite (s : State) (off : Nat) (v : Word) : State :=
  if off = 0x000 then updMm s fun m => { m with flogOvf := m.flogOvf && !flag v 14 }
  else if off = 0x024 then updMm s fun m => { m with hours := field v 7 0 }
  else s

end Sys2Proof.Machine
end

