-- ==== Sys2Proof/Machine/RegsFrames.lean ====
section
/-!
DEFINITION. The registers of blocks HT and PF (Tables 8.6 to 8.10, 10.13 to 10.16).
-/
namespace Sys2Proof.Machine

/-! ### HT -/

/-- HT_UNIT_CFG (Table 8.8): what was last written. -/
def rdUnitCfg (k : HatchUnit) : Word :=
  let c := k.staged.getD k.cfg
  let e := k.enNext.getD (k.en, k.gate)
  pack [(bit e.1, 31), (bit e.2, 30), (bit c.inp, 29), (bit c.hist, 28), (c.k, 24), (c.excl.toNat, 20), (c.urange, 16)]

/-- HT_UNIT_STAT (Table 8.9). -/
def rdUnitStat (k : HatchUnit) : Word :=
  pack [(bit k.folding, 31), (bit k.staged.isSome, 30), (bit k.cfgRej, 29), (bit k.binsat, 28), (min 65535 k.lost, 0)]

/-- HT_COLL_STAT (Table 8.10). -/
def rdCollStat (h : Frames) : Word :=
  pack [(h.held.length, 28), (min 255 h.incomplete, 16), (min 255 h.late, 8), (min 255 h.latemeas, 0)]

/-- A register of the unit that the path addresses; one that does not exist reads as 0. -/
def unitRead (s : State) (p : Path) (f : HatchUnit → Word) : Word :=
  match pathUnit s p with
  | some u => f s.ht.units[u]
  | none => 0

/-- A register of block HT that no read snapshots. -/
def htRead (s : State) (p : Path) (off : Nat) : Word :=
  let h := s.ht
  if off = 0x000 then pack [(bit h.token, 1), (bit h.en, 0)]
  else if off = 0x004 then pack [(bit h.snapRej, 3), (bit h.frmRej, 2), (bit h.run, 1), (bit (h.armed || h.again), 0)]
  else if off = 0x008 then low h.len
  else if off = 0x00C then high h.len
  else if off = 0x010 then low h.start
  else if off = 0x014 then high h.start
  else if off = 0x02C then rdCollStat h
  else if off = 0x030 then word (s.path p).unitIdx
  else if off = 0x034 then unitRead s p rdUnitCfg
  else if off = 0x038 then unitRead s p fun k => word (bitsOf 24 (k.staged.getD k.cfg).base)
  else if off = 0x03C then unitRead s p rdUnitStat
  else 0

/-- A write of half of HT_FRM_LEN or HT_FRM_START (R274): refused while EN or ARMED is 1. -/
def gridWrite (s : State) (f : Frames → Frames) : State :=
  updHt s fun h => if h.en || h.armed || h.again then { h with frmRej := true } else f h

/-- A write to block HT. -/
def htWrite (s : State) (p : Path) (off : Nat) (v : Word) : State :=
  if off = 0x000 then frmCtrlWrite s v
  else if off = 0x004 then updHt s fun h => { h with snapRej := h.snapRej && !flag v 3, frmRej := h.frmRej && !flag v 2 }
  else if off = 0x008 then gridWrite s fun h => { h with len := setLow h.len v }
  else if off = 0x00C then gridWrite s fun h => { h with len := setHigh h.len (word (field v 13 0)) }
  else if off = 0x010 then gridWrite s fun h => { h with start := setLow h.start v }
  else if off = 0x014 then gridWrite s fun h => { h with start := setHigh h.start v }
  else if off = 0x028 then updHt s fun h => { h with gateReq := (h.gateReq.1 || flag v 0, h.gateReq.2 || flag v 1) }
  else if off = 0x02C then (if flag v 31 then updHt s fun h => { h with incomplete := 0, late := 0, latemeas := 0 } else s)
  else if off = 0x030 then updPath s p fun k => { k with unitIdx := field v 7 0 }
  else
    match pathUnit s p with
    | none => s
    | some u =>
      if off = 0x034 then writeUnitCfg s u v
      else if off = 0x038 then writeUnitBase s u v
      else if off = 0x03C then updUnit s u fun k => { k with cfgRej := k.cfgRej && !flag v 29, binsat := k.binsat && !flag v 28 }
      else s

/-! ### PF -/

/-- PF_STATUS (Table 10.15). -/
def rdPfStatus (p : Trust) : Word :=
  pack [(bit p.owner.isSome, 31), (bit p.debug, 30), (bit (keyWarn p), 29), (bit p.keyend, 28), (bit p.ctrlRej, 27), (bit p.ready, 26),
    (p.held.length, 16)]

/-- Whether a write of the oldest signed Proof waits for room (Table 10.16). -/
def proofFull (s : State) : Bool :=
  let r := s.pf.ring
  r.en && !r.fault && (match s.pf.held with | p :: _ => p.signed && r.lacks 23808 | [] => false)

/-- A register of block PF that no read snapshots; offsets are those of Table 10.13. -/
def pfRead (s : State) (off : Nat) : Word :=
  let p := s.pf
  if off = 0x100 then pack [(bit p.en, 31), (p.frames, 0)]
  else if off = 0x104 then rdPfStatus p
  else if off = 0x108 then word p.seq
  else if off = 0x10C then word p.bootCnt
  else if off = 0x120 then word (min p.merged 0xFFFFFFFF)
  else if off = 0x12C then rdRingCfg p.ring (proofFull s)
  else 0

/-- A write to block PF. -/
def pfWrite (s : State) (off : Nat) (v : Word) : State :=
  if off = 0x100 then pfCtrl s v
  else if off = 0x104 then updPf s fun p => { p with ctrlRej := p.ctrlRej && !flag v 27 }
  else if off = 0x124 then updPf s fun p => { p with ring := ringBase p.ring false v }
  else if off = 0x128 then updPf s fun p => { p with ring := ringBase p.ring true v }
  else if off = 0x12C then updPf s fun p => { p with ring := ringCfg p.ring v 30 5 }
  else if off = 0x138 then updPf s fun p => { p with ring := { p.ring with rdLo := v } }
  else if off = 0x13C then pfRdWrite s v
  else s

end Sys2Proof.Machine
end

