-- ==== Sys2Proof/Machine/RegsPower.lean ====
section
/-!
DEFINITION. The registers of blocks PL and PWR (Tables 11.6 to 11.9, 12.5 to 12.8).
-/
namespace Sys2Proof.Machine

/-! ### PL -/

/-- The code of a session's state (Table 11.8). -/
def Sess.code : Sess → Nat
  | .absent => 0
  | .settling => 1
  | .reading => 2
  | .auth => 3
  | .opening => 4
  | .live => 5
  | .refused => 6

/-- PL_CTRL (Table 11.7). -/
def rdPlCtrl (p : Plate) : Word :=
  pack [(bit p.compa, 7), (bit p.compEn, 6), (bit p.fhold, 5), (bit p.reqv, 4), (bit p.csrc, 3), (bit p.fmp, 2), (bit p.deten, 1),
    (bit p.en, 0)]

/-- PL_STATUS (Table 11.8). -/
def rdPlStatus (p : Plate) : Word :=
  pack [(p.sess.code, 29), (p.pstate, 27), (p.gen, 25), (bit p.pldet, 24), (bit p.contact, 23), (bit (plateHold p), 22), (bit p.eolhold, 21),
    (bit (lifeHeld p && p.life ≤ p.cyc), 20), (bit (lifeHeld p && p.warn ≤ p.cyc), 19), (bit p.cntfix, 18), (bit p.cmdRej, 17),
    (bit (compOffered p), 16), (bit p.ovr, 15), (if p.sess == .refused then p.refuse else 0, 8), (min 255 p.pend, 0)]

/-- A register of block PL that no read snapshots. While PORN is low PL_STATUS stands at its reset value (Table 11.6). -/
def plRead (s : State) (p : Path) (off : Nat) : Word :=
  if off = 0x000 then rdPlCtrl s.pl
  else if off = 0x004 then (if s.fw.porn then rdPlStatus s.pl else 0)
  else if off = 0x008 then s.pl.sns
  else if off = 0x028 then word (s.path p).recIdx
  else if off = 0x02C then (if (s.path p).recIdx < 112 then wordAt s.pl.body (s.path p).recIdx else 0)
  else if off = 0x030 then word (min s.pl.lostcyc 0xFFFFFFFF)
  else 0

/-- A write to block PL. PL_CMD carries out CYCLE before REOPEN. -/
def plWrite (s : State) (p : Path) (off : Nat) (v : Word) : State :=
  if off = 0x000 then plCtrlWrite s p v
  else if off = 0x004 then updPl s fun l => { l with cntfix := l.cntfix && !flag v 18, cmdRej := l.cmdRej && !flag v 17 }
  else if off = 0x008 then updPl s fun l => { l with sns := v &&& 0xFFFF38FF }
  else if off = 0x00C then
    let s := if flag v 0 then hostCycle s else s
    if flag v 1 then reopenPlate s else s
  else if off = 0x028 then updPath s p fun k => { k with recIdx := field v 6 0 }
  else s

/-! ### PWR -/

/-- PWR_STATUS (Table 12.6). -/
def rdPwrStatus (s : State) : Word :=
  pack ([(bit s.pwr.vigil, 31), (s.pwr.wake, 28), (bit s.pwr.vigRej, 27), (bit s.pwr.regflt, 26), (bit s.pwr.regns, 25), (bit s.pwr.coreHot, 24),
    (bit s.pwr.twarnHit, 23)] ++ allBanks.flatMap fun b => [(bit s.banks[b].hot, 16 + b.val), (bit s.banks[b].budx, 12 + b.val)])

/-- The channel that a path addresses in an index register, if it exists. -/
def indexed (i : Nat) : Option Chan := if h : i < 68 then some ⟨i, h⟩ else none

/-- PWR_RAIL_CFG (Table 12.7). -/
def rdRailCfg (p : ChanPower) : Word := pack [(bit p.track, 31), (p.tlead, 20), (p.thold, 12), (p.margin, 4)]

/-- A register of the channel that PWR_CH_IDX addresses. -/
def chanPwrRead (s : State) (n : Chan) (off : Nat) : Word :=
  let c := s.chans[n]
  if off = 0x034 then rdRailCfg c.pwr
  else if off = 0x038 then pack [(bit c.force.rlate, 31), (bit c.pwr.budx, 30), (c.force.railP, 12), (c.force.railN, 0)]
  else if off = 0x03C then pack [(bit c.pwr.act, 31), (c.pwr.budget, 0)]
  else if off = 0x040 then word (min c.pwr.power 0xFFFFF)
  else 0

/-- PWR_TEMPk (Table 12.5). -/
def rdTemp (p : Power) (k : Nat) : Word :=
  match p.temps[k]? with
  | some (some t) => pack [(1, 31), (t.toNat, 0)]
  | _ => 0

/-- A bank's number from the offset of its register. -/
def bankAt (off : Nat) : Bank := ⟨off / 4 % 4, by omega⟩

/-- A register of block PWR that no read snapshots. -/
def pwrRead (s : State) (p : Path) (off : Nat) : Word :=
  let w := s.pwr
  if off = 0x000 then word (bit w.paceMan)
  else if off = 0x004 then rdPwrStatus s
  else if off = 0x008 then pack [(w.readVout, 16), (w.set, 0)]
  else if off = 0x00C then pack [(w.highest, 16), (w.lowest, 0)]
  else if off = 0x014 then pack [(bit w.wakeCmp, 2), (bit w.wakePlate, 1), (bit w.wakeTimer, 0)]
  else if 0x020 ≤ off && off < 0x02C then (w.wakeMask[(off - 0x020) / 4]?).getD 0
  else if off = 0x02C then word w.vdiv
  else if off = 0x030 then word (s.path p).chIdx
  else if 0x034 ≤ off && off < 0x044 then
    match indexed (s.path p).chIdx with
    | some n => chanPwrRead s n off
    | none => 0
  else if 0x050 ≤ off && off < 0x060 then let b := s.banks[bankAt off]; pack [(bit b.act, 31), (b.budget, 0)]
  else if 0x060 ≤ off && off < 0x070 then word (min s.banks[bankAt off].power 0x1FFFFF)
  else if off = 0x070 then pack [(w.tshut, 16), (w.twarn, 0)]
  else if 0x100 ≤ off && off < 0x1B0 then rdTemp w ((off - 0x100) / 4)
  else 0

/-- A write to a register of the channel that PWR_CH_IDX addresses. -/
def chanPwrWrite (s : State) (n : Chan) (off : Nat) (v : Word) : State :=
  let upd := fun f : ChanPower → ChanPower => updChan s n fun c => { c with pwr := f c.pwr }
  if off = 0x034 then
    upd fun p => { p with track := flag v 31, tlead := field v 27 20, thold := field v 19 12, margin := field v 11 4 }
  else if off = 0x038 then
    updForce (upd fun p => { p with budx := p.budx && !flag v 30 }) n fun f => { f with rlate := f.rlate && !flag v 31 }
  else if off = 0x03C then upd fun p => { p with act := flag v 31, budget := field v 19 0 }
  else s

/-- A write of PWR_STATUS: its W1C bits. -/
def pwrStatusWrite (s : State) (v : Word) : State :=
  let s := updPwr s fun p => { p with vigRej := p.vigRej && !flag v 27, regflt := p.regflt && !flag v 26 }
  allBanks.foldl (fun s b => updBank s b fun k => { k with budx := k.budx && !flag v (12 + b.val) }) s

/-- A write to block PWR. PWR_CMD carries out VIGIL before RUN. -/
def pwrWrite (s : State) (p : Path) (off : Nat) (v : Word) : State :=
  if off = 0x000 then updPwr s fun w => { w with paceMan := flag v 0 }
  else if off = 0x004 then pwrStatusWrite s v
  else if off = 0x008 then updPwr s fun w => paceWrite w (field v 15 0)
  else if off = 0x010 then
    let s := if flag v 0 then vigilCmd s else s
    if flag v 1 then wakeVigil s wakeHost else s
  else if off = 0x014 then updPwr s fun w => { w with wakeCmp := flag v 2, wakePlate := flag v 1, wakeTimer := flag v 0 }
  else if off = 0x018 then updPwr s fun w => { w with wakeT := setLow w.wakeT v }
  else if off = 0x01C then updPwr s fun w => { w with wakeT := setHigh w.wakeT v }
  else if 0x020 ≤ off && off < 0x02C then
    updPwr s fun w => { w with wakeMask := w.wakeMask.set ((off - 0x020) / 4) (if off = 0x028 then v &&& 0xF else v) }
  else if off = 0x02C then updPwr s fun w => { w with vdiv := field v 15 0 }
  else if off = 0x030 then updPath s p fun k => { k with chIdx := field v 6 0 }
  else if 0x034 ≤ off && off < 0x044 then
    match indexed (s.path p).chIdx with
    | some n => chanPwrWrite s n off v
    | none => s
  else if 0x050 ≤ off && off < 0x060 then updBank s (bankAt off) fun b => { b with act := flag v 31, budget := field v 20 0 }
  else if off = 0x070 then updPwr s fun w => { w with tshut := field v 23 16, twarn := field v 7 0 }
  else s

end Sys2Proof.Machine
end

