-- ==== Sys2Proof/Machine/RegsFirmware.lean ====
section
/-!
DEFINITION. The registers of block FW: firmware (Tables 15.9, 15.10, 9.14), calibration (Tables 13.7 to 13.9) and the mailbox with its ring
windows (Table 14.9).
-/
namespace Sys2Proof.Machine

/-! ### Firmware -/

/-- FW_STATUS (Table 15.10). -/
def rdFwStatus (f : Firmware) : Word :=
  pack [(bit f.ready, 31), (bit f.recovery, 30), (bit f.boarddef, 29), (bit f.runB, 28), (f.dir.stateA.code, 25), (f.dir.stateB.code, 22),
    (bit f.setrst, 21), (f.wrcause, 16), (f.wrcnt, 8)]

/-- The KIND of an update session (R453). -/
def UpdKind.code : UpdKind → Nat
  | .image => 1
  | .library => 2
  | .board => 3

/-- FW_UPD_STAT (Table 15.9). -/
def rdUpdStat (f : Firmware) : Word :=
  match f.update with
  | none => 0
  | some u =>
    pack [(pathCode f.recovery u.path, 30), (UpdKind.code u.kind, 28), (min 0xFFFFFF (u.ranges.foldl (fun a r => a + r.2) 0 / 1024), 0)]

/-- FW_TRIAL_S (Table 15.9): whole seconds since the TRIAL image began to run. -/
def rdTrialS (s : State) : Word :=
  match s.fw.trialStart with
  | some t => word (min 600 ((s.tb.now - t) / 1600000000))
  | none => 0

/-- FW_MP_LOAD (Table 9.14). -/
def rdMpLoad (f : Firmware) : Word := pack [(f.load1, 24), (f.load100, 16), (f.timeouts, 0)]

/-- A register of the firmware. -/
def fwRead (s : State) (off : Nat) : Word × State :=
  let f := s.fw
  if off = 0x000 then (rdFwStatus f, s)
  else if off = 0x004 then (f.version, s)
  else if off = 0x008 then (word f.svnCnt, s)
  else if off = 0x00C then (word f.svnImg, s)
  else if off = 0x010 then (word (bit f.autoconf), s)
  else if off = 0x014 then (rdUpdStat f, s)
  else if off = 0x018 then (word f.dir.libLen, s)
  else if off = 0x01C then (rdTrialS s, s)
  else if 0x020 ≤ off && off < 0x040 then (wordAt (digestBytes f.digest) ((off - 0x020) / 4), s)
  else if off = 0x040 then (rdMpLoad f, s)
  else (0, s)

/-! ### Calibration -/

/-- The code of a phase (Table 13.9). -/
def CalPhase.code : CalPhase → Nat
  | .idle => 0
  | .takeover => 1
  | .run => 2
  | .store => 3
  | .handback => 4
  | .relieved => 5

/-- CAL_CH_STAT (Table 13.9). -/
def rdCalStat (c : Calib) : Word :=
  pack [(CalPhase.code c.phase, 29), (bit c.nocal, 28), (bit c.cpschg, 27), (c.slot % 2, 26), (c.last, 16), (min 65535 c.failcnt, 0)]

/-- CAL_CH_RED (Table 13.7): redundant capacitors in use in the current and the voltage ADC, spare segments in use. -/
def rdCalRed (t : CalSet) : Word :=
  let used := fun lo => bit (t.adcred.toNat / 2 ^ lo % 8 != 0)
  pack [(used 6 + used 9, 10), (used 0 + used 3, 8), (t.segmap.countP (· != 0xFFFF), 0)]

/-- A field of the set in force of the channel that CAL_CH_IDX addresses; 0 where there is no channel or no set. -/
def calField (s : State) (p : Path) (f : CalSet → Nat) : Nat :=
  match indexed (s.path p).calIdx with
  | some n => ((setInForce s.chans[n].cal).map f).getD 0
  | none => 0

/-- A register of calibration that no read snapshots. -/
def calRead (s : State) (p : Path) (off : Nat) : Word :=
  if off = 0x104 then (match (s.path p).calStatus with | some c => pack [(1, 8), (c, 0)] | none => 0)
  else if off = 0x110 then word (s.path p).calIdx
  else if off = 0x114 then (match indexed (s.path p).calIdx with | some n => rdCalStat s.chans[n].cal | none => 0)
  else if off = 0x118 then word (calField s p (·.calcnt))
  else if off = 0x12C then word (calField s p fun t => (rdCalRed t).toNat)
  else 0

/-- What CAL_CMD asks (Table 13.8). -/
def calAsk : Nat → Option CalAsk
  | 1 => some .full
  | 2 => some .quick
  | 3 => some .relieve
  | 4 => some .ret
  | _ => none

/-- A write to calibration. -/
def calWrite (s : State) (p : Path) (off : Nat) (v : Word) : State :=
  if off = 0x100 then
    match calAsk (field v 15 12), indexed (field v 6 0) with
    | some a, some n => calCommand s p n a
    | _, _ => s
  else if off = 0x108 then { s with fw := { s.fw with calEpoch := setLow s.fw.calEpoch v } }
  else if off = 0x10C then { s with fw := { s.fw with calEpoch := setHigh s.fw.calEpoch v } }
  else if off = 0x110 then updPath s p fun k => { k with calIdx := field v 6 0 }
  else s

/-! ### The mailbox (R433) -/

/-- A register of the mailbox; the paths without one read 0. -/
def mbxRead (k : PathRegs) (off : Nat) : Word :=
  if off = 0x200 then k.cmdWr
  else if off = 0x204 then k.cmdRd
  else if off = 0x208 then k.rspWr
  else if off = 0x20C then k.rspRd
  else if off = 0x210 then word (bit k.rspirq)
  else if off = 0x214 then pack [(bit k.rej, 31)]
  else if 0xC000 ≤ off then memReadWord k.rspRing (off - 0xC000)
  else 0

/-- A write to the mailbox. -/
def mbxWrite (s : State) (p : Path) (off : Nat) (v : Word) : State :=
  if off = 0x200 then cmdWrWrite s p v
  else if off = 0x20C then rspRdWrite s p v
  else if off = 0x210 then updPath s p fun k => { k with rspirq := flag v 0 }
  else if off = 0x214 then updPath s p fun k => { k with rej := k.rej && !flag v 31 }
  else if 0x4000 ≤ off && off < 0xC000 then updPath s p fun k => { k with cmdRing := memWriteWord k.cmdRing (off - 0x4000) v }
  else s

/-- A register of block FW that no read snapshots. -/
def blockFwRead (s : State) (p : Path) (off : Nat) : Word × State :=
  if off < 0x100 then fwRead s off
  else if off < 0x200 then (calRead s p off, s)
  else (if hasMailbox p then mbxRead (s.path p) off else 0, s)

/-- A write to block FW. -/
def blockFwWrite (s : State) (p : Path) (off : Nat) (v : Word) : State :=
  if off < 0x100 then (if off = 0x010 then { s with fw := { s.fw with autoconf := flag v 0 } } else s)
  else if off < 0x200 then calWrite s p off v
  else if hasMailbox p then mbxWrite s p off v
  else s

end Sys2Proof.Machine
end

