-- ==== Sys2Proof/Machine/RegOps.lean ====
section
/-!
DEFINITION. The register space as a whole (R467 to R471): the 64-bit pairs with their snapshots, and one access on an access path.
-/
namespace Sys2Proof.Machine

/-! ### Pairs (R42) -/

/-- The present value of a pair. -/
def pairValue (s : State) (p : Path) : PairId → Nat
  | .tbNow => s.tb.now
  | .tbSyncCap => s.tb.syncCap
  | .frmNum => s.ht.num
  | .frmNext => s.ht.next
  | .ringWr d => s.rings[d].wr
  | .sigNext => s.pf.sigNext % 2 ^ 40
  | .sigBound => s.pf.bound
  | .proofBase => s.pf.ring.base
  | .proofWr => s.pf.ring.wr
  | .proofRd => s.pf.ring.rd / 2 ^ 32 * 2 ^ 32 + s.pf.ring.rdLo.toNat
  | .plCyc => s.pl.cyc
  | .plLife => s.pl.life
  | .plWarn => s.pl.warn
  | .wakeT => s.pwr.wakeT
  | .calTs => calField s p (·.tRun)
  | .calEp => calField s p (·.epochRun)
  | .calEpoch => s.fw.calEpoch
  | .prbsErr k => s.lanes[k].prbsErr
  | .prbsBits k => s.lanes[k].prbsBits

/-- The pair whose lower half lies at an address. -/
def pairAt (a : Nat) : Option PairId :=
  if a = 0x10008 then some .tbNow
  else if a = 0x10018 then some .tbSyncCap
  else if a = 0x50018 then some .frmNum
  else if a = 0x50020 then some .frmNext
  else if 0x30100 ≤ a && a < 0x30200 && a % 0x20 = 0x10 then some (.ringWr (ringAt (a - 0x30000)))
  else if a = 0x50110 then some .sigNext
  else if a = 0x50118 then some .sigBound
  else if a = 0x50124 then some .proofBase
  else if a = 0x50130 then some .proofWr
  else if a = 0x50138 then some .proofRd
  else if a = 0x60010 then some .plCyc
  else if a = 0x60018 then some .plLife
  else if a = 0x60020 then some .plWarn
  else if a = 0x70018 then some .wakeT
  else if a = 0x9011C then some .calTs
  else if a = 0x90124 then some .calEp
  else if a = 0x90108 then some .calEpoch
  else if 0x80000 ≤ a && a < 0x80200 && a % 0x40 = 0x14 then some (.prbsErr (laneAt (a - 0x80000)))
  else if 0x80000 ≤ a && a < 0x80200 && a % 0x40 = 0x1C then some (.prbsBits (laneAt (a - 0x80000)))
  else none

/-- The counters of a PRBS checker are brought up to date before they are read. -/
def bringUp (s : State) : PairId → State
  | .prbsErr k => countPrbs s k
  | .prbsBits k => countPrbs s k
  | _ => s

/-- The snapshot that a path holds of a pair. -/
def snapOf (k : PathRegs) (pair : PairId) : Option Nat := (k.snaps.find? fun x => x.1 == pair).map (·.2)

/-- A read of a pair's lower half: the whole pair is kept for the path. -/
def readLow (s : State) (p : Path) (pair : PairId) : Word × State :=
  let s := bringUp s pair
  let v := pairValue s p pair
  (low v, updPath s p fun k => { k with snaps := (pair, v) :: k.snaps.filter fun x => x.1 != pair })

/-- A read of a pair's upper half: that of the path's snapshot, or of the present value where the path has taken none. -/
def readHigh (s : State) (p : Path) (pair : PairId) : Word × State :=
  match snapOf (s.path p) pair with
  | some v => (high v, s)
  | none => let s := bringUp s pair; (high (pairValue s p pair), s)

/-- The pairs that software writes. -/
def pairWritable : PairId → Bool
  | .wakeT => true
  | .calEpoch => true
  | .proofBase => true
  | .proofRd => true
  | _ => false

/-- A path that writes half of a pair gives up its snapshot of it: the field reads back what was written (R469). -/
def dropSnap (s : State) (p : Path) (a : Nat) : State :=
  match (pairAt a).or (pairAt (a - 4)) with
  | some pair => if pairWritable pair then updPath s p fun k => { k with snaps := k.snaps.filter fun x => x.1 != pair } else s
  | none => s

/-! ### One access (R467, R468) -/

/-- The channel whose registers an address lies in. -/
def chanOfAddr (a : Nat) : Option Chan := if h : 0x100000 ≤ a ∧ (a - 0x100000) / 0x400 < 68 then some ⟨(a - 0x100000) / 0x400, h.2⟩ else none

/-- Whether an address can be reached at all: in recovery SYS_ID and block FW alone (R450). -/
def reachable (s : State) (a : Nat) : Bool := !s.fw.recovery || a = 0 || (0x90000 ≤ a && a < 0xA0000)

/-- A register that no read snapshots as part of a pair. -/
def readPlain (s : State) (p : Path) (a : Nat) : Word × State :=
  let off := a % 0x10000
  match a / 0x10000 with
  | 0 => (if off < 0xF000 then sysRead s off else if p == .pcie then msixRead s (off - 0xF000) else 0, s)
  | 1 => (tbRead s off, s)
  | 2 => (trRead s p off, s)
  | 3 => qRead s p off
  | 4 => mmuRead s p off
  | 5 => (if off < 0x100 then htRead s p off else pfRead s off, s)
  | 6 => (plRead s p off, s)
  | 7 => (pwrRead s p off, s)
  | 8 => (lnRead s off, s)
  | 9 => blockFwRead s p off
  | _ =>
    match chanOfAddr a with
    | some n => chanRead s p n ((a - 0x100000) % 0x400)
    | none => (0, s)

/-- One read of the register at an address on an access path. An address that no register occupies reads as 0. -/
def readReg (s : State) (p : Path) (a : Nat) : Word × State :=
  if !reachable s a || a % 4 != 0 then (0, s)
  else
    match pairAt a, pairAt (a - 4) with
    | some pair, _ => readLow s p pair
    | none, some pair => readHigh s p pair
    | none, none => readPlain s p a

/-- A write to the block that an address lies in. -/
def writePlain (s : State) (p : Path) (a : Nat) (v : Word) : State :=
  let off := a % 0x10000
  match a / 0x10000 with
  | 0 => if off < 0xF000 then sysWrite s off v else if p == .pcie then msixWrite s (off - 0xF000) v else s
  | 1 => tbWrite s off v
  | 2 => trWrite s p off v
  | 3 => qWrite s p off v
  | 4 => mmuWrite s off v
  | 5 => if off < 0x100 then htWrite s p off v else pfWrite s off v
  | 6 => plWrite s p off v
  | 7 => pwrWrite s p off v
  | 8 => lnWrite s p off v
  | 9 => blockFwWrite s p off v
  | _ =>
    match chanOfAddr a with
    | some n => chanWrite s n ((a - 0x100000) % 0x400) v
    | none => s

/-- One write of the register at an address on an access path. An address that no register occupies ignores it. -/
def writeReg (s : State) (p : Path) (a : Nat) (v : Word) : State :=
  if !reachable s a || a % 4 != 0 then s else dropSnap (writePlain s p a v) p a

/-! ### Several accesses, in ascending address order (R468) -/

/-- Read registers from an address on. -/
def readRegs (s : State) (p : Path) (a : Nat) : Nat → List Word × State
  | 0 => ([], s)
  | n + 1 =>
    let r := readReg s p a
    let t := readRegs r.2 p (a + 4) n
    (r.1 :: t.1, t.2)

/-- Write registers from an address on. -/
def writeRegs (s : State) (p : Path) (a : Nat) : List Word → State
  | [] => s
  | w :: ws => writeRegs (writeReg s p a w) p (a + 4) ws

/-- Whether ADDR and COUNT lie within the limits of Table 14.7. -/
def regRange (a n : Nat) : Bool := a % 4 = 0 && a < 0x400000 && 1 ≤ n && n ≤ 1024

end Sys2Proof.Machine
end

