-- ==== Sys2Proof/Machine/RegCommands.lean ====
section
/-!
DEFINITION. The commands that access registers: the host commands REG_READ and REG_WRITE, the transactions of the management SPI port, a
write of a register without a row of its own, and a read of the lower half of a 64-bit pair.
-/
namespace Sys2Proof.Machine

open Host

/-- REG_READ (R468, Table 14.7). -/
def execRegRead (h : Hdr) (addr count : Nat) (s : State) : Outcome State Fault Refusal :=
  .next (hostCommand s h 0x0010 8 false fun s =>
    if regRange addr count then let r := readRegs s h.path addr count; (some (stOk, r.1.flatMap wordBytes), r.2)
    else (some (stRange, []), s))

/-- REG_WRITE (R468, Table 14.7). -/
def execRegWrite (h : Hdr) (addr : Nat) (words : List Word) (s : State) : Outcome State Fault Refusal :=
  .next (hostCommand s h 0x0011 (8 + 4 * words.length) false fun s =>
    if regRange addr words.length then (some (stOk, []), writeRegs s h.path addr words) else (some (stRange, []), s))

/-- SPI_READ_TRANSACTION (R434): the words that the port returns. -/
def execSpiReadTransaction (addr count : Nat) (s : State) : Outcome State Fault Refusal :=
  .next (
    if addr % 4 = 0 && addr < 0x400000 then let r := readRegs s .spi addr count; returned r.2 .spi r.1
    else s)

/-- SPI_WRITE_TRANSACTION (R434). -/
def execSpiWriteTransaction (addr : Nat) (words : List Word) (s : State) : Outcome State Fault Refusal :=
  .next (if addr % 4 = 0 && addr < 0x400000 then writeRegs s .spi addr words else s)

/-- REGISTER_WRITE (R469). A write of PCIe whose byte enables do not cover the word is ignored whole (R468). -/
def execRegisterWrite (p : Path) (addr : Nat) (v : Word) (be : BitVec 4) (s : State) : Outcome State Fault Refusal :=
  .next (if p == .pcie && be != 0xF then s else writeReg s p addr v)

/-- Whether a pair lies in block FW, which recovery mode leaves accessible (R450). -/
def inBlockFw : PairId → Bool
  | .calTs | .calEp | .calEpoch => true
  | _ => false

/-- PAIR_SNAPSHOT_READ (R42), and the read of BAR2, which has no row of its own (R312, R423, assumption 83). -/
def execPairSnapshotRead (p : Path) (what : PathRead) (s : State) : Outcome State Fault Refusal :=
  .next (match what with
    | .pair k =>
      let t := let r := readLow s p k; returned r.2 p [r.1]
      if inBlockFw k then t else accessedRead s p t
    | .window o k ecc => if p == .pcie then let r := barRead s o k ecc; returned r.2 p r.1 else s)

end Sys2Proof.Machine
end

