-- ==== Sys2Proof/Machine/StartCommands.lean ====
section
/-!
DEFINITION. The commands of start-up and resets.
-/
namespace Sys2Proof.Machine

open Host

/-- POWER_ON_RESET (R443, R447, R334). -/
def execPowerOnReset (straps : Straps) (s : State) : Outcome State Fault Refusal := .next (powerOn s straps)

/-- PORN_LOW (R442). -/
def execPornLow (s : State) : Outcome State Fault Refusal := .next (holdReset s)

/-- FIRMWARE_START (R448). -/
def execFirmwareStart (s : State) : Outcome State Fault Refusal := .next (startFirmware s)

/-- HOST_READY (R448). -/
def execHostReady (regulatorLinear : Bool) (ddrMaGib ddrMbGib : Nat) (s : State) : Outcome State Fault Refusal :=
  .next (becomeReady s regulatorLinear ddrMaGib ddrMbGib)

/-- SIGNING_STATE_READY (R342). -/
def execSigningStateReady (s : State) : Outcome State Fault Refusal := .next (updPf s fun p => { p with ready := true })

/-- WRSTN_LOW (R442). -/
def execWrstnLow (s : State) : Outcome State Fault Refusal := .next (warmRestart s 1)

/-- MP_WATCHDOG_EXPIRY (R442). -/
def execMpWatchdogExpiry (s : State) : Outcome State Fault Refusal := .next (warmRestart s 3)

/-- WARM_RESTART_COMPLETE (R459). -/
def execWarmRestartComplete (adoptOk : Bool) (s : State) : Outcome State Fault Refusal := .next (restartDone s adoptOk)

end Sys2Proof.Machine
end

