-- ==== Sys2Proof/Machine/TimeCommands.lean ====
section
/-!
DEFINITION. The commands of the timebase.
-/
namespace Sys2Proof.Machine

open Host

/-- PLL_LOCK (R25). -/
def execPllLock (s : State) : Outcome State Fault Refusal := .next (firstLock s)

/-- REFCLK_LOSS (R27). -/
def execRefclkLoss (s : State) : Outcome State Fault Refusal := .next (loseRef s)

/-- PLL_RELOCK (R27, R493). -/
def execPllRelock (edgePhase : Nat) (s : State) : Outcome State Fault Refusal := .next (relock s edgePhase)

/-- SYNC_PULSE (R31): at the next REFCLK edge, unless a sample tick comes first. An edge in the last four ticks before a sample tick lies
behind that tick's capture instant (R30): the sample tick takes what stands before the pulse, unless a LOAD moves the counter away. -/
def execSyncPulse (s : State) : Outcome State Fault Refusal :=
  .next (
    let e := nextEdge s
    let t := nextSample s
    if !s.tb.lock || s.tb.freerun || t < e then s
    else if t < e + captureLead && e < t && !(s.tb.syncMode == 2 && !counterHeld s) then syncAt (sampleTick s t) e (counterHeld s)
    else syncAt s e (counterHeld s))

/-- SYNC_GEN (R34). -/
def execSyncGen (_p : Path) (s : State) : Outcome State Fault Refusal := .next (accessed s (genSync s))

/-- TB_ADJ (R32). -/
def execTbAdj (_p : Path) (v : Word) (s : State) : Outcome State Fault Refusal := .next (accessed s (adjustCounter s v))

/-- SKEW_START (R38). -/
def execSkewStart (_p : Path) (s : State) : Outcome State Fault Refusal := .next (accessed s (startSkew s))

/-- SKEW_PERIOD_EXPIRY (R38): every PERIOD milliseconds, unless PERIOD is 0. -/
def execSkewPeriodExpiry (s : State) : Outcome State Fault Refusal := .next (if s.tb.period == 0 then s else startSkew s)

/-- SKEW_MEASUREMENT_END (R36, R37): 4,096 exchanges are complete. -/
def execSkewMeasurementEnd (s : State) : Outcome State Fault Refusal :=
  .next (if s.tb.measuring && s.tb.exchanges ≥ 4096 then endSkew s else s)

/-- FINE_PHASE_STEP (R37). -/
def execFinePhaseStep (s : State) : Outcome State Fault Refusal := .next (fineStep s)

end Sys2Proof.Machine
end

