-- ==== Sys2Proof/Machine/TracerCommands.lean ====
section
/-!
DEFINITION. The commands of the comparators, the Tracer and the interrupt mapper.
-/
namespace Sys2Proof.Machine

open Host

/-- COMPARATOR_DECISION (R249): the output changes at a decision tick. -/
def execComparatorDecision (n : Chan) (c : Cmp) (tick : Nat) (dst : CmpState) (s : State) : Outcome State Fault Refusal :=
  .next (match reach s tick with
    | some t => cmpDecide t n c tick dst
    | none => s)

/-- A blank timer that has run down ends. -/
def endBlank (t : Option Nat) : Option Nat := if t = some 0 then none else t

/-- BLANK_EXPIRY (R252). -/
def execBlankExpiry (n : Chan) (c : Cmp) (kind : BlankKind) (s : State) : Outcome State Fault Refusal :=
  .next (updCmp s n c fun k =>
    match kind with
    | .change => { k with changeBlank := endBlank k.changeBlank }
    | .command => { k with commandBlank := endBlank k.commandBlank }
    | .mode => { k with modeBlank := endBlank k.modeBlank })

/-- COMPARATOR_LATCH_CLEAR (R251): a write of CMP_STATUS. -/
def execComparatorLatchClear (_p : Path) (n : Chan) (v : Word) (s : State) : Outcome State Fault Refusal := .next (accessed s (cmpStatusWrite s n v))

/-- SLOT_BOUNDARY (R257): the next one, unless a sample tick comes first or at the same tick. -/
def execSlotBoundary (s : State) : Outcome State Fault Refusal :=
  .next (if s.tb.lock && nextSlot s < nextSample s then slotTick s (nextSlot s) else s)

/-- DIRECT_FORWARD (R259). -/
def execDirectForward (tc : Fin 128) (s : State) : Outcome State Fault Refusal := .next (forwardDirect s tc)

/-- EVI_EDGE (R266): an edge that the pin's EDGE field selects raises source 312 + p, dated with its tick. -/
def execEviEdge (pin : Fin 8) (rising : Bool) (tick : Nat) (s : State) : Outcome State Fault Refusal :=
  .next (match reach s tick with
    | some t => if eviSelected t.tr.evi pin.val rising then raiseAt t (312 + pin.val) (some tick) else t
    | none => s)

/-- SOFTWARE_INJECT (R266). -/
def execSoftwareInject (_p : Path) (v : Word) (s : State) : Outcome State Fault Refusal := .next (accessed s (injectSources s v))

/-- TC_MERGE_WRITE (R261): the channel that the path's TR_TC_IDX addresses. -/
def execTcMergeWrite (p : Path) (v : Word) (s : State) : Outcome State Fault Refusal := .next (accessed s (writeMerge s p v))

/-- IM_ACK (R270). -/
def execImAck (_p : Path) (v : Word) (s : State) : Outcome State Fault Refusal := .next (accessed s (ackVector s (field v 5 0)))

end Sys2Proof.Machine
end

