-- ==== Sys2Proof/Machine/OwnerOps.lean ====
section
/-!
DEFINITION. The operations of the trust commands (Tables 10.10 and 10.11): ownership, calibration writes, pace bounds, debug access.
-/
namespace Sys2Proof.Machine

/-! ### Attestation (R352) -/

/-- ATTEST: the nonce presented is consumed; KEYEND when the device key has come to its end. -/
def attestOp (s : State) (p : Path) (nonce : Digest) (fails : Nat) : Option (Nat × List Byte) × State :=
  if nonceOf s.pf p != some nonce then (some (stBadNonce, []), s)
  else
    let s := consumeNonce s p nonce
    if s.pf.keyend then (some (stKeyEnd, []), s)
    else
      match attestRecord s nonce fails with
      | some r => (some (stOk, r.1), r.2)
      | none => (some (stKeyEnd, []), s)

/-! ### Ownership (R347, R349) -/

/-- The pace bounds as shipped, which hold while the device is unowned (R381); the pace stays within them. -/
def setBounds (s : State) (lo hi : Nat) : State :=
  { s with pwr := paceTo { s.pwr with lowest := lo, highest := hi } (paceGrid lo hi s.pwr.set) }

/-- ENROLL: the device becomes owned, and an attestation record over the same nonce is returned. -/
def enrollOp (s : State) (p : Path) (key : List Byte) (t : Token) (fails : Nat) : Option (Nat × List Byte) × State :=
  let r := useToken s p t opEnrol (some key) key
  if r.1 != stOk then statusOnly r
  else if r.2.pf.keyend then (some (stKeyEnd, []), r.2)
  else
    match attestRecord (updPf r.2 fun f => { f with owner := some key }) t.nonce fails with
    | some q => (some (stOk, q.1), q.2)
    | none => (some (stKeyEnd, []), r.2)

/-- The status of the ENROLL token that accompanies OWNER_TRANSFER. -/
def enrolStatus (t enrol : Token) (key : List Byte) : Nat :=
  if !tokenFormed enrol then stBadFormat
  else if enrol.nonce != t.nonce then stBadNonce
  else if enrol.op.toNat != opEnrol then stBadOp
  else tokenSigned enrol key key

/-- OWNER_TRANSFER. -/
def transferOp (s : State) (p : Path) (t : Token) (key : List Byte) (enrol : Token) : Option (Nat × List Byte) × State :=
  let r := useToken s p t opTransfer none key
  if r.1 != stOk then statusOnly r
  else
    let e := enrolStatus t enrol key
    if e != stOk then (some (e, []), r.2) else (some (stOk, leBytes 4 0), updPf r.2 fun f => { f with owner := some key })

/-- OWNER_RELEASE: unowned, and any debug unlock ends. -/
def releaseOwner (s : State) : State := setBounds (updPf s fun f => { f with owner := none, scopes := 0 }) 700 900

/-! ### Calibration writes (R406) -/

/-- The channels that a mask of 68 bits names. -/
def maskChans (m : Nat) : List Chan := allChans.filter fun n => m.testBit n.val

/-- The channels that a token names. -/
def tokenChans (t : Token) : List Chan := maskChans (t.param0.toNat + t.param1.toNat % 16 * 2 ^ 64)

/-- Entry i of a payload, of a size in bytes. -/
def entryBytes (arg : List Byte) (size i : Nat) : List Byte := (arg.drop (16 + size * i)).take size

/-- The safety record in an entry (Table 2.12); none for a reserved field that is not zero or an OPEN_DLY out of range. -/
def safetyOf (e : List Byte) : Option Safety :=
  let w0 := wordAt e 0
  let w1 := wordAt e 1
  let w2 := wordAt e 2
  let w3 := wordAt e 3
  let dly := field w3 9 0
  if field w0 31 20 != 0 || field w1 31 20 != 0 || flag w2 30 || field w3 31 10 != 0 || dly = 0 || dly > 1000 then none
  else
    some
      { park := sfield w0 19 0, fault := sfield w1 19 0, imm := flag w2 31, e := field w2 29 26, m := field w2 25 16, period := field w2 15 0
        openDly := dly }

/-- The twelve reference values in an entry; none when one lies outside its limits. -/
def refvOf (e : List Byte) : Option (List Int) :=
  let vs := (List.range 12).map fun k => (wordAt e k).toInt
  if vs.any (fun v => v < -500000 || 500000 < v) then none else some vs

/-- Whether reference values differ too much from the stored ones. -/
def refvDrifts (c : Calib) (vs : List Int) : Bool :=
  (vs.zip ((setInForce c).getD {}).refv).any fun p => (p.1 - p.2).natAbs > 50000

/-- The set that a write stores on a channel, and whether it is one of reference values. -/
def writtenSet (s : State) (n : Chan) (kind epoch : Nat) (e : List Byte) : Option CalSet :=
  let old := (setInForce s.chans[n].cal).getD {}
  if kind = 1 then (safetyOf e).map fun r => { old with safety := r }
  else (refvOf e).map fun vs =>
    { old with refv := vs, refvSet := true, epochRef := epoch, cpsId := s.chans[n].force.slot.ident.take 5 }

/-- The outcome of the checks of a payload, before anything is written (R406). -/
def calWriteCheck (s : State) (ns : List Chan) (arg : List Byte) : Nat :=
  let kind := recField arg 4 1
  let size := if kind = 1 then 16 else 48
  let force := recField arg 5 1 % 2 = 1
  let headerOk := recField arg 0 4 = 0x57433648 && (kind = 1 || kind = 2) && recField arg 5 1 < 2 && recField arg 6 2 = 0
  let entries := ns.zipIdx.map fun x => (x.1, entryBytes arg size x.2)
  if arg.length != 16 + size * ns.length then 0x19
  else if ns.any (calBusy s) then codeBusy
  else if !headerOk || entries.any (fun e => (writtenSet s e.1 kind 0 e.2).isNone) then 0x18
  else if kind = 2 && !force && entries.any (fun e => match refvOf e.2 with | some vs => refvDrifts s.chans[e.1].cal vs | none => false) then
    0x13
  else 0

/-- Store one channel's set of a write; the code of a store that fails twice stands in LAST and in the outcome. -/
def writeOne (kind epoch : Nat) (arg : List Byte) (fails : List Nat) (a : Nat × State) (x : Chan × Nat) : Nat × State :=
  let n := x.1
  let k := (fails[x.2]?).getD 0
  let ok := setWritten k
  match writtenSet a.2 n kind epoch (entryBytes arg (if kind = 1 then 16 else 48) x.2) with
  | none => a
  | some t =>
    let s := storeOn a.2 n t k
    let s := updCal s n fun c => { c with last := if ok then 0 else 0x16, cpschg := c.cpschg && !(ok && kind = 2) }
    (if ok then a.1 else 0x16, s)

/-- CAL_WRITE: the outcome and the state after it. -/
def calWriteOp (s : State) (ns : List Chan) (arg : List Byte) (fails : List Nat) : Nat × State :=
  let c := calWriteCheck s ns arg
  if c != 0 then (c, s) else ns.zipIdx.foldl (writeOne (recField arg 4 1) (recField arg 8 8) arg fails) (0, s)

/-! ### Pace bounds, debug access (R381, R351) -/

/-- POWER_BOUNDS. -/
def boundsOp (s : State) (param : Nat) : Nat × State :=
  let lo := param % 2 ^ 16
  let hi := param / 2 ^ 16 % 2 ^ 16
  if 700 ≤ lo && lo ≤ hi && hi ≤ 950 then (0, setBounds s lo hi) else (stRange, s)

/-- DEBUG_UNLOCK: the scopes of PARAM0; the scan chains act first as EXTEST does. -/
def debugOp (s : State) (scope : Nat) : Nat × State :=
  let s := if scope.testBit 2 then pinDrive s else s
  (0, updPf s fun f => { f with debug := true, scopes := f.scopes ||| BitVec.ofNat 3 scope })

end Sys2Proof.Machine
end

