-- ==== Sys2Proof/Machine/TrustCommands.lean ====
section
/-!
DEFINITION. The trust commands (Table 10.10) and boundary scan.
-/
namespace Sys2Proof.Machine

open Host

/-- CHALLENGE (R348). -/
def execChallenge (h : Hdr) (s : State) : Outcome State Fault Refusal :=
  .next (hostCommand s h 0x0030 0 true fun s => let r := issueNonce s h.path; (some (stOk, digestBytes r.1), r.2))

/-- GET_IDENTITY (R349). -/
def execGetIdentity (h : Hdr) (s : State) : Outcome State Fault Refusal :=
  .next (hostCommand s h 0x0031 0 true fun s => (some (stOk, padded deviceCertificate ++ padded Config.rootKey.toList), s))

/-- ATTEST (R352), once the signing state is ready (R342). -/
def execAttest (h : Hdr) (nonce : Digest) (fails : Nat) (s : State) : Outcome State Fault Refusal :=
  .next (if s.pf.ready then hostCommand s h 0x0032 32 false fun s => attestOp s h.path nonce fails else s)

/-- ENROLL (R347, R349), once the signing state is ready. -/
def execEnroll (h : Hdr) (key : List Byte) (token : Token) (fails : Nat) (s : State) : Outcome State Fault Refusal :=
  .next (if s.pf.ready then
      hostCommand s h 0x0033 ((padded key).length + (padded (zeros (tokenSize token))).length) false fun s =>
        enrollOp s h.path key token fails
    else s)

/-- OWNER_TRANSFER (R349). -/
def execOwnerTransfer (h : Hdr) (token : Token) (newKey : List Byte) (enrolToken : Token) (s : State) : Outcome State Fault Refusal :=
  .next (hostCommand s h 0x0034 (authoriseArgs token newKey + (padded (zeros (tokenSize enrolToken))).length) false fun s =>
    transferOp s h.path token newKey enrolToken)

/-- OWNER_RELEASE (R347). -/
def execOwnerRelease (h : Hdr) (token : Token) (arg : List Byte) (s : State) : Outcome State Fault Refusal :=
  .next (hostCommand s h 0x0034 (authoriseArgs token arg) false fun s =>
    authorise s h.path token opOwnerRelease arg fun s => (0, releaseOwner s))

/-- CAL_WRITE (R406). -/
def execCalWrite (h : Hdr) (token : Token) (arg : List Byte) (fails : List Nat) (s : State) : Outcome State Fault Refusal :=
  .next (hostCommand s h 0x0034 (authoriseArgs token arg) false fun s =>
    authorise s h.path token opCalWrite arg fun s => calWriteOp s (tokenChans token) arg fails)

/-- PLATE_LIFE (R372). -/
def execPlateLife (h : Hdr) (token : Token) (arg : List Byte) (s : State) : Outcome State Fault Refusal :=
  .next (hostCommand s h 0x0034 (authoriseArgs token arg) false fun s =>
    authorise s h.path token opPlateLife arg fun s => (0, overrideLife s arg token.param0.toNat))

/-- POWER_BOUNDS (R381). -/
def execPowerBounds (h : Hdr) (token : Token) (arg : List Byte) (s : State) : Outcome State Fault Refusal :=
  .next (hostCommand s h 0x0034 (authoriseArgs token arg) false fun s =>
    authorise s h.path token opPowerBounds arg fun s => boundsOp s token.param0.toNat)

/-- DEBUG_UNLOCK (R351). -/
def execDebugUnlock (h : Hdr) (token : Token) (arg : List Byte) (s : State) : Outcome State Fault Refusal :=
  .next (hostCommand s h 0x0034 (authoriseArgs token arg) false fun s =>
    authorise s h.path token opDebugUnlock arg fun s => debugOp s token.param0.toNat)

/-- JTAG_PIN_DRIVE_INSTRUCTION (R351). -/
def execJtagPinDriveInstruction (s : State) : Outcome State Fault Refusal := .next (pinDrive s)

end Sys2Proof.Machine
end

