-- ==== Sys2Proof/Machine/Dispatch.lean ====
section
/-!
DEFINITION. The dispatch: one arm for each command, each a direct call of its meaning.
-/
namespace Sys2Proof.Machine

open Host

def exec (i : Instr) (s : State) : Host.Outcome State Fault Refusal :=
  match i with
  | .powerOnReset straps => Sys2Proof.Machine.execPowerOnReset straps s
  | .pornLow => Sys2Proof.Machine.execPornLow s
  | .firmwareStart => Sys2Proof.Machine.execFirmwareStart s
  | .hostReady regulatorLinear ddrMaGib ddrMbGib => Sys2Proof.Machine.execHostReady regulatorLinear ddrMaGib ddrMbGib s
  | .signingStateReady => Sys2Proof.Machine.execSigningStateReady s
  | .wrstnLow => Sys2Proof.Machine.execWrstnLow s
  | .mpWatchdogExpiry => Sys2Proof.Machine.execMpWatchdogExpiry s
  | .warmRestartComplete adoptOk => Sys2Proof.Machine.execWarmRestartComplete adoptOk s
  | .pllLock => Sys2Proof.Machine.execPllLock s
  | .refclkLoss => Sys2Proof.Machine.execRefclkLoss s
  | .pllRelock edgePhase => Sys2Proof.Machine.execPllRelock edgePhase s
  | .syncPulse => Sys2Proof.Machine.execSyncPulse s
  | .syncGen p => Sys2Proof.Machine.execSyncGen p s
  | .tbAdj p v => Sys2Proof.Machine.execTbAdj p v s
  | .skewStart p => Sys2Proof.Machine.execSkewStart p s
  | .skewPeriodExpiry => Sys2Proof.Machine.execSkewPeriodExpiry s
  | .skewMeasurementEnd => Sys2Proof.Machine.execSkewMeasurementEnd s
  | .finePhaseStep => Sys2Proof.Machine.execFinePhaseStep s
  | .pairSnapshotRead p what => Sys2Proof.Machine.execPairSnapshotRead p what s
  | .sampleTick => Sys2Proof.Machine.execSampleTick s
  | .railFall n => Sys2Proof.Machine.execRailFall n s
  | .rawPairHandoff n v w vOut iOut clamping upper => Sys2Proof.Machine.execRawPairHandoff n v w vOut iOut clamping upper s
  | .autorangeDown n => Sys2Proof.Machine.execAutorangeDown n s
  | .packetAge n => Sys2Proof.Machine.execPacketAge n s
  | .stabilityAlarm n crossings => Sys2Proof.Machine.execStabilityAlarm n crossings s
  | .trimStep n => Sys2Proof.Machine.execTrimStep n s
  | .ldidPerturbCount n => Sys2Proof.Machine.execLdidPerturbCount n s
  | .ldidFitDone n => Sys2Proof.Machine.execLdidFitDone n s
  | .rangeSwitchMade n => Sys2Proof.Machine.execRangeSwitchMade n s
  | .rangeSwitchBroken n => Sys2Proof.Machine.execRangeSwitchBroken n s
  | .bridgeSettleEnd n => Sys2Proof.Machine.execBridgeSettleEnd n s
  | .leaveInertTimeout n => Sys2Proof.Machine.execLeaveInertTimeout n s
  | .relayMakeDone n made => Sys2Proof.Machine.execRelayMakeDone n made s
  | .relayBreakDone n => Sys2Proof.Machine.execRelayBreakDone n s
  | .safeStateRampEnd n => Sys2Proof.Machine.execSafeStateRampEnd n s
  | .fltAssert n => Sys2Proof.Machine.execFltAssert n s
  | .coreHandshakeLoss b => Sys2Proof.Machine.execCoreHandshakeLoss b s
  | .fltLatchClear p n fltHigh => Sys2Proof.Machine.execFltLatchClear p n fltHigh s
  | .disable p n => Sys2Proof.Machine.execDisable p n s
  | .bankSupplyValid b => Sys2Proof.Machine.execBankSupplyValid b s
  | .bankDieUp b => Sys2Proof.Machine.execBankDieUp b s
  | .bankSupplyFail b => Sys2Proof.Machine.execBankSupplyFail b s
  | .cpsFrame b => Sys2Proof.Machine.execCpsFrame b s
  | .cpsResponse b w => Sys2Proof.Machine.execCpsResponse b w s
  | .cpsLinkRestartRound b => Sys2Proof.Machine.execCpsLinkRestartRound b s
  | .nop n k => Sys2Proof.Machine.execNop n k s
  | .halt n k => Sys2Proof.Machine.execHalt n k s
  | .jmp n k => Sys2Proof.Machine.execJmp n k s
  | .jcc n k => Sys2Proof.Machine.execJcc n k s
  | .call n k => Sys2Proof.Machine.execCall n k s
  | .ret n k => Sys2Proof.Machine.execRet n k s
  | .loop n k => Sys2Proof.Machine.execLoop n k s
  | .endl n k => Sys2Proof.Machine.execEndl n k s
  | .yield n k => Sys2Proof.Machine.execYield n k s
  | .fence n k => Sys2Proof.Machine.execFence n k s
  | .fenceComplete n x => Sys2Proof.Machine.execFenceComplete n x s
  | .trap n k => Sys2Proof.Machine.execTrap n k s
  | .mov n k => Sys2Proof.Machine.execMov n k s
  | .ldi n k => Sys2Proof.Machine.execLdi n k s
  | .ldx n k => Sys2Proof.Machine.execLdx n k s
  | .add n k => Sys2Proof.Machine.execAdd n k s
  | .sub n k => Sys2Proof.Machine.execSub n k s
  | .mul n k => Sys2Proof.Machine.execMul n k s
  | .mac n k => Sys2Proof.Machine.execMac n k s
  | .and n k => Sys2Proof.Machine.execAnd n k s
  | .or n k => Sys2Proof.Machine.execOr n k s
  | .xor n k => Sys2Proof.Machine.execXor n k s
  | .shl n k => Sys2Proof.Machine.execShl n k s
  | .shr n k => Sys2Proof.Machine.execShr n k s
  | .asr n k => Sys2Proof.Machine.execAsr n k s
  | .cmp n k => Sys2Proof.Machine.execCmp n k s
  | .sat n k => Sys2Proof.Machine.execSat n k s
  | .abs n k => Sys2Proof.Machine.execAbs n k s
  | .ld n k => Sys2Proof.Machine.execLd n k s
  | .ldDataReturn n ecc => Sys2Proof.Machine.execLdDataReturn n ecc s
  | .st n k => Sys2Proof.Machine.execSt n k s
  | .programCacheFill n victim ecc => Sys2Proof.Machine.execProgramCacheFill n victim ecc s
  | .mode n k => Sys2Proof.Machine.execMode n k s
  | .range n k => Sys2Proof.Machine.execRange n k s
  | .level n k => Sys2Proof.Machine.execLevel n k s
  | .strobeSelect n k => Sys2Proof.Machine.execStrobeSelect n k s
  | .strobeFire n k => Sys2Proof.Machine.execStrobeFire n k s
  | .clamp n k => Sys2Proof.Machine.execClamp n k s
  | .slew n k => Sys2Proof.Machine.execSlew n k s
  | .ramp n k => Sys2Proof.Machine.execRamp n k s
  | .comps n k => Sys2Proof.Machine.execComps n k s
  | .connect n k => Sys2Proof.Machine.execConnect n k s
  | .isolate n k => Sys2Proof.Machine.execIsolate n k s
  | .measSmode n k => Sys2Proof.Machine.execMeasSmode n k s
  | .measCount n k => Sys2Proof.Machine.execMeasCount n k s
  | .aper n k => Sys2Proof.Machine.execAper n k s
  | .autor n k => Sys2Proof.Machine.execAutor n k s
  | .tag n k => Sys2Proof.Machine.execTag n k s
  | .pktClose n k => Sys2Proof.Machine.execPktClose n k s
  | .pktAge n k => Sys2Proof.Machine.execPktAge n k s
  | .play n k ecc => Sys2Proof.Machine.execPlay n k ecc s
  | .playFillComplete n ecc => Sys2Proof.Machine.execPlayFillComplete n ecc s
  | .armj n k ecc => Sys2Proof.Machine.execArmj n k ecc s
  | .jumpHeadCopyDone n x ecc => Sys2Proof.Machine.execJumpHeadCopyDone n x ecc s
  | .jseg n k ecc => Sys2Proof.Machine.execJseg n k ecc s
  | .sweep n k ecc => Sys2Proof.Machine.execSweep n k ecc s
  | .sweepFillComplete n ecc => Sys2Proof.Machine.execSweepFillComplete n ecc s
  | .sweepEntryStart n clamping => Sys2Proof.Machine.execSweepEntryStart n clamping s
  | .prefetchFill n ecc => Sys2Proof.Machine.execPrefetchFill n ecc s
  | .gen n k => Sys2Proof.Machine.execGen n k s
  | .gstop n k => Sys2Proof.Machine.execGstop n k s
  | .rate n k => Sys2Proof.Machine.execRate n k s
  | .wait n k => Sys2Proof.Machine.execWait n k s
  | .waitComplete n x => Sys2Proof.Machine.execWaitComplete n x s
  | .waitt n k => Sys2Proof.Machine.execWaitt n k s
  | .waittRelease n x => Sys2Proof.Machine.execWaittRelease n x s
  | .waitev n k => Sys2Proof.Machine.execWaitev n k s
  | .waitevTimeout n x => Sys2Proof.Machine.execWaitevTimeout n x s
  | .emit n k => Sys2Proof.Machine.execEmit n k s
  | .arm n k => Sys2Proof.Machine.execArm n k s
  | .blankLength n k => Sys2Proof.Machine.execBlankLength n k s
  | .blank n k => Sys2Proof.Machine.execBlank n k s
  | .syncf n k => Sys2Proof.Machine.execSyncf n k s
  | .mark n k => Sys2Proof.Machine.execMark n k s
  | .ldid n k => Sys2Proof.Machine.execLdid n k s
  | .cal n k => Sys2Proof.Machine.execCal n k s
  | .rds n k => Sys2Proof.Machine.execRds n k s
  | .rdt n k => Sys2Proof.Machine.execRdt n k s
  | .illegalOpcode n opcode k => Sys2Proof.Machine.execIllegalOpcode n opcode k s
  | .gvStart p n v => Sys2Proof.Machine.execGvStart p n v s
  | .gvHalt p n v => Sys2Proof.Machine.execGvHalt p n v s
  | .go p n v => Sys2Proof.Machine.execGo p n v s
  | .clearImm p n v => Sys2Proof.Machine.execClearImm p n v s
  | .gvImmWrite p n v => Sys2Proof.Machine.execGvImmWrite p n v s
  | .comparatorDecision n c tick dst => Sys2Proof.Machine.execComparatorDecision n c tick dst s
  | .blankExpiry n c kind => Sys2Proof.Machine.execBlankExpiry n c kind s
  | .comparatorLatchClear p n v => Sys2Proof.Machine.execComparatorLatchClear p n v s
  | .slotBoundary => Sys2Proof.Machine.execSlotBoundary s
  | .directForward tc => Sys2Proof.Machine.execDirectForward tc s
  | .eviEdge pin rising tick => Sys2Proof.Machine.execEviEdge pin rising tick s
  | .softwareInject p v => Sys2Proof.Machine.execSoftwareInject p v s
  | .tcMergeWrite p v => Sys2Proof.Machine.execTcMergeWrite p v s
  | .imAck p v => Sys2Proof.Machine.execImAck p v s
  | .framesEnable p v => Sys2Proof.Machine.execFramesEnable p v s
  | .framesDisable p v => Sys2Proof.Machine.execFramesDisable p v s
  | .snap p v => Sys2Proof.Machine.execSnap p v s
  | .frameBoundary => Sys2Proof.Machine.execFrameBoundary s
  | .hatchStart p => Sys2Proof.Machine.execHatchStart p s
  | .hatchStop p => Sys2Proof.Machine.execHatchStop p s
  | .hatchUnitCfgWrite p base v => Sys2Proof.Machine.execHatchUnitCfgWrite p base v s
  | .collStatClr p => Sys2Proof.Machine.execCollStatClr p s
  | .deviceUnitReady => Sys2Proof.Machine.execDeviceUnitReady s
  | .collectorSlotStore slot => Sys2Proof.Machine.execCollectorSlotStore slot s
  | .collectorTimeout => Sys2Proof.Machine.execCollectorTimeout s
  | .frameEmit => Sys2Proof.Machine.execFrameEmit s
  | .proofSeal => Sys2Proof.Machine.execProofSeal s
  | .proofSignStart fails => Sys2Proof.Machine.execProofSignStart fails s
  | .proofSigned => Sys2Proof.Machine.execProofSigned s
  | .proofWritten => Sys2Proof.Machine.execProofWritten s
  | .pfCtrlWrite p v => Sys2Proof.Machine.execPfCtrlWrite p v s
  | .proofRingEnable p v => Sys2Proof.Machine.execProofRingEnable p v s
  | .proofRingRdCommit p hi => Sys2Proof.Machine.execProofRingRdCommit p hi s
  | .nonceExpiry p => Sys2Proof.Machine.execNonceExpiry p s
  | .queueEnable p v => Sys2Proof.Machine.execQueueEnable p v s
  | .queueDisable p v => Sys2Proof.Machine.execQueueDisable p v s
  | .queueFlush p v => Sys2Proof.Machine.execQueueFlush p v s
  | .queueDropRem p v => Sys2Proof.Machine.execQueueDropRem p v s
  | .queueCfgWrite p v => Sys2Proof.Machine.execQueueCfgWrite p v s
  | .queuePeakRead p => Sys2Proof.Machine.execQueuePeakRead p s
  | .chResultPop p n ecc => Sys2Proof.Machine.execChResultPop p n ecc s
  | .chLatestSeqRead p n => Sys2Proof.Machine.execChLatestSeqRead p n s
  | .drainTransferStart d ecc => Sys2Proof.Machine.execDrainTransferStart d ecc s
  | .drainTransferEnd d => Sys2Proof.Machine.execDrainTransferEnd d s
  | .ringEnable p d v => Sys2Proof.Machine.execRingEnable p d v s
  | .ringDisable p d v => Sys2Proof.Machine.execRingDisable p d v s
  | .ringRdCommit p d hi => Sys2Proof.Machine.execRingRdCommit p d hi s
  | .patrolScrub p q cured found => Sys2Proof.Machine.execPatrolScrub p q cured found s
  | .sramRowRepair macro_ => Sys2Proof.Machine.execSramRowRepair macro_ s
  | .pageRetire pa => Sys2Proof.Machine.execPageRetire pa s
  | .demandFaultResolved => Sys2Proof.Machine.execDemandFaultResolved s
  | .mmuFlogPop p => Sys2Proof.Machine.execMmuFlogPop p s
  | .invalidationComplete => Sys2Proof.Machine.execInvalidationComplete s
  | .echo h bytes => Sys2Proof.Machine.execEcho h bytes s
  | .regRead h addr count => Sys2Proof.Machine.execRegRead h addr count s
  | .regWrite h addr words => Sys2Proof.Machine.execRegWrite h addr words s
  | .asidCreate h asid => Sys2Proof.Machine.execAsidCreate h asid s
  | .asidDestroy h asid => Sys2Proof.Machine.execAsidDestroy h asid s
  | .map h asid flags va pa len => Sys2Proof.Machine.execMap h asid flags va pa len s
  | .mapDz h asid flags va len => Sys2Proof.Machine.execMapDz h asid flags va len s
  | .unmap h asid va len => Sys2Proof.Machine.execUnmap h asid va len s
  | .protect h asid flags va len => Sys2Proof.Machine.execProtect h asid flags va len s
  | .poolAdd h pa pages => Sys2Proof.Machine.execPoolAdd h pa pages s
  | .cacheInv h asid va len => Sys2Proof.Machine.execCacheInv h asid va len s
  | .resume h n x action => Sys2Proof.Machine.execResume h n x action s
  | .challenge h => Sys2Proof.Machine.execChallenge h s
  | .getIdentity h => Sys2Proof.Machine.execGetIdentity h s
  | .attest h nonce fails => Sys2Proof.Machine.execAttest h nonce fails s
  | .enroll h key token fails => Sys2Proof.Machine.execEnroll h key token fails s
  | .ownerTransfer h token newKey enrolToken => Sys2Proof.Machine.execOwnerTransfer h token newKey enrolToken s
  | .ownerRelease h token arg => Sys2Proof.Machine.execOwnerRelease h token arg s
  | .calWrite h token arg fails => Sys2Proof.Machine.execCalWrite h token arg fails s
  | .plateLife h token arg => Sys2Proof.Machine.execPlateLife h token arg s
  | .powerBounds h token arg => Sys2Proof.Machine.execPowerBounds h token arg s
  | .debugUnlock h token arg => Sys2Proof.Machine.execDebugUnlock h token arg s
  | .jtagPinDriveInstruction => Sys2Proof.Machine.execJtagPinDriveInstruction s
  | .pldetFall => Sys2Proof.Machine.execPldetFall s
  | .pldetRise => Sys2Proof.Machine.execPldetRise s
  | .plateSettleEnd => Sys2Proof.Machine.execPlateSettleEnd s
  | .plateBusRetry acked => Sys2Proof.Machine.execPlateBusRetry acked s
  | .tokenAnswerTimeout => Sys2Proof.Machine.execTokenAnswerTimeout s
  | .plateRecordRead r => Sys2Proof.Machine.execPlateRecordRead r s
  | .tokenAuthAnswer signature => Sys2Proof.Machine.execTokenAuthAnswer signature s
  | .tokenOpenAnswer ok tn => Sys2Proof.Machine.execTokenOpenAnswer ok tn s
  | .tokenAdvanceAnswer ok => Sys2Proof.Machine.execTokenAdvanceAnswer ok s
  | .eepromCountWriteDone => Sys2Proof.Machine.execEepromCountWriteDone s
  | .plateContactCycle => Sys2Proof.Machine.execPlateContactCycle s
  | .cycle p => Sys2Proof.Machine.execCycle p s
  | .reopen p => Sys2Proof.Machine.execReopen p s
  | .regulatorStatusPoll failed fault => Sys2Proof.Machine.execRegulatorStatusPoll failed fault s
  | .pmalrtnAssert => Sys2Proof.Machine.execPmalrtnAssert s
  | .paceStep failed readVout => Sys2Proof.Machine.execPaceStep failed readVout s
  | .powerBudgetPeriod => Sys2Proof.Machine.execPowerBudgetPeriod s
  | .temperatureRead temps => Sys2Proof.Machine.execTemperatureRead temps s
  | .vigil p => Sys2Proof.Machine.execVigil p s
  | .run p => Sys2Proof.Machine.execRun p s
  | .vigilWakeTimer => Sys2Proof.Machine.execVigilWakeTimer s
  | .vigilDdrReady => Sys2Proof.Machine.execVigilDdrReady s
  | .runFull p n => Sys2Proof.Machine.execRunFull p n s
  | .runQuick p n => Sys2Proof.Machine.execRunQuick p n s
  | .relieve p n => Sys2Proof.Machine.execRelieve p n s
  | .returnDut p n => Sys2Proof.Machine.execReturnDut p n s
  | .calPrecheckEnd n raws => Sys2Proof.Machine.execCalPrecheckEnd n raws s
  | .calRunEnd n e => Sys2Proof.Machine.execCalRunEnd n e s
  | .reliefSwitchMade b => Sys2Proof.Machine.execReliefSwitchMade b s
  | .reliefRampEnd b => Sys2Proof.Machine.execReliefRampEnd b s
  | .reliefSwitchBroken b => Sys2Proof.Machine.execReliefSwitchBroken b s
  | .laneCfgWrite p onLane k v => Sys2Proof.Machine.execLaneCfgWrite p onLane k v s
  | .slip p k => Sys2Proof.Machine.execSlip p k s
  | .laneRestart p k => Sys2Proof.Machine.execLaneRestart p k s
  | .signalDetectRise k => Sys2Proof.Machine.execSignalDetectRise k s
  | .injGo p k => Sys2Proof.Machine.execInjGo p k s
  | .prbsClr p k => Sys2Proof.Machine.execPrbsClr p k s
  | .pcieReset => Sys2Proof.Machine.execPcieReset s
  | .ethernetLockRetry k locked negotiated => Sys2Proof.Machine.execEthernetLockRetry k locked negotiated s
  | .ethernetFrame k f len tags => Sys2Proof.Machine.execEthernetFrame k f len tags s
  | .sibiaTrain k sysid ack => Sys2Proof.Machine.execSibiaTrain k sysid ack s
  | .sibiaTrainTimeout k => Sys2Proof.Machine.execSibiaTrainTimeout k s
  | .sibiaLinkLoss k => Sys2Proof.Machine.execSibiaLinkLoss k s
  | .sibiaCalAsk k => Sys2Proof.Machine.execSibiaCalAsk k s
  | .sibiaCalReqSend k => Sys2Proof.Machine.execSibiaCalReqSend k s
  | .sibiaCalReq k seq t1 t2 t3 => Sys2Proof.Machine.execSibiaCalReq k seq t1 t2 t3 s
  | .sibiaCalRsp k seq t3 t4 => Sys2Proof.Machine.execSibiaCalRsp k seq t3 t4 s
  | .sibiaCalReport k seq t4 => Sys2Proof.Machine.execSibiaCalReport k seq t4 s
  | .sibiaCalExchangeTimeout k => Sys2Proof.Machine.execSibiaCalExchangeTimeout k s
  | .sibiaToken k mask a => Sys2Proof.Machine.execSibiaToken k mask a s
  | .sibiaSyncv k cap => Sys2Proof.Machine.execSibiaSyncv k cap s
  | .fwCmdWrWrite p v => Sys2Proof.Machine.execFwCmdWrWrite p v s
  | .fwRspRdWrite p v => Sys2Proof.Machine.execFwRspRdWrite p v s
  | .spiReadTransaction addr count => Sys2Proof.Machine.execSpiReadTransaction addr count s
  | .spiWriteTransaction addr words => Sys2Proof.Machine.execSpiWriteTransaction addr words s
  | .hhtOpen k host => Sys2Proof.Machine.execHhtOpen k host s
  | .hhtClose k host session => Sys2Proof.Machine.execHhtClose k host session s
  | .hhtKeepalive k host session => Sys2Proof.Machine.execHhtKeepalive k host session s
  | .hhtCmd k host session offset bytes => Sys2Proof.Machine.execHhtCmd k host session offset bytes s
  | .hhtRspack k host session offset => Sys2Proof.Machine.execHhtRspack k host session offset s
  | .hhtDack k host session stream offset => Sys2Proof.Machine.execHhtDack k host session stream offset s
  | .hhtDnak k host session stream offset => Sys2Proof.Machine.execHhtDnak k host session stream offset s
  | .hhtDataSend stream ecc => Sys2Proof.Machine.execHhtDataSend stream ecc s
  | .hhtSessionTimeout => Sys2Proof.Machine.execHhtSessionTimeout s
  | .hhtRspResend => Sys2Proof.Machine.execHhtRspResend s
  | .hhtDataResend stream => Sys2Proof.Machine.execHhtDataResend stream s
  | .hhtEventRepeat => Sys2Proof.Machine.execHhtEventRepeat s
  | .ptpEventMessage k kind sent tick domain time => Sys2Proof.Machine.execPtpEventMessage k kind sent tick domain time s
  | .ptpMappingUpdate tracked16s agree1us lost1000s => Sys2Proof.Machine.execPtpMappingUpdate tracked16s agree1us lost1000s s
  | .updOpen h kind slot digest token => Sys2Proof.Machine.execUpdOpen h kind slot digest token s
  | .updData h offset bytes => Sys2Proof.Machine.execUpdData h offset bytes s
  | .updFinish h recoveryHigh => Sys2Proof.Machine.execUpdFinish h recoveryHigh s
  | .updAbort h => Sys2Proof.Machine.execUpdAbort h s
  | .updSessionTimeout => Sys2Proof.Machine.execUpdSessionTimeout s
  | .fwActivate h => Sys2Proof.Machine.execFwActivate h s
  | .handoverPreloadDone => Sys2Proof.Machine.execHandoverPreloadDone s
  | .handoverImageStart adopted => Sys2Proof.Machine.execHandoverImageStart adopted s
  | .fwConfirm h => Sys2Proof.Machine.execFwConfirm h s
  | .trialAutoconfirm => Sys2Proof.Machine.execTrialAutoconfirm s
  | .fwRestart h => Sys2Proof.Machine.execFwRestart h s
  | .libActivate h => Sys2Proof.Machine.execLibActivate h s
  | .setSave h blob => Sys2Proof.Machine.execSetSave h blob s
  | .setDefaults h => Sys2Proof.Machine.execSetDefaults h s
  | .logRead h first count => Sys2Proof.Machine.execLogRead h first count s
  | .registerWrite p addr v be => Sys2Proof.Machine.execRegisterWrite p addr v be s
  | .stVisible n x => Sys2Proof.Machine.execStVisible n x s
  | .plsnsOpen => Sys2Proof.Machine.execPlsnsOpen s
  | .plateAttestationSigned fails => Sys2Proof.Machine.execPlateAttestationSigned fails s
  | .ethernetLinkLoss k => Sys2Proof.Machine.execEthernetLinkLoss k s
  | .pcieLinkUp speed width => Sys2Proof.Machine.execPcieLinkUp speed width s
  | .hdrlockGain k => Sys2Proof.Machine.execHdrlockGain k s
  | .hdrlockLoss k => Sys2Proof.Machine.execHdrlockLoss k s
  | .sibiaBadBlock k => Sys2Proof.Machine.execSibiaBadBlock k s
  | .lanePowerStateExit k => Sys2Proof.Machine.execLanePowerStateExit k s
  | .recoveryLaneAlternate => Sys2Proof.Machine.execRecoveryLaneAlternate s

end Sys2Proof.Machine
end

