-- ==== Sys2Proof/Safety.lean ====
section
/-!
DEFINITION. The terms in which statements speak of a run: when a Graver executes an instruction and where that leaves it, the
canonical form of the addressed memory, and a run that never stops.
-/
namespace Sys2Proof.Machine

/-- The Graver of channel n carries out this instruction for context x: its execution unit is free, the decision of R136 chooses x, and the
words at the program counter of x are those of the instruction. -/
abbrev Runs (s : State) (n : Chan) (x : Ctx) (op : BitVec 6) (k : Fields) : Prop :=
  s.chans[n].graver.busy = none ∧ chooseCtx s.chans[n].graver = some x
    ∧ fetch s n x = .words (baseWord op k) (if hasExt op k then k.ext else 0) ∧ (hasExt op k = false → k.ext = 0)

/-- The state once the decision of R136 has given the execution unit to context x. -/
def decided (s : State) (n : Chan) (x : Ctx) : State := updGraver s n fun g => afterDecision g x

/-- The state after an instruction that changes the executing context only and goes on behind itself: `settle` halts a context that a HALT
waits for or that has run past the immediate buffer (R146, R147). -/
def ran (s : State) (n : Chan) (x : Ctx) (ext : Bool) (f : Context → Context) : State :=
  settle (updCtx (decided s n x) n x fun c => { f c with pc := nextPc (f c).pc ext }) n x

/-- The state after an instruction with effects outside its context: `t` is what it makes of the decided state. -/
def ranTo (t : State) (n : Chan) (x : Ctx) (ext : Bool) : State :=
  settle (updCtx t n x fun c => { c with pc := nextPc c.pc ext }) n x

/-- The state after a taken branch. -/
def branched (t : State) (n : Chan) (x : Ctx) (target : Word) : State :=
  settle (updCtx t n x fun c => { c with pc := target }) n x

/-- A command completes in a state with the given property. -/
def Completes (c : Instr) (s : State) (p : State → Prop) : Prop := ∃ t, exec c s = .next t ∧ p t

/-- A host command is carried out when it is taken (R431): the MP takes commands, the deadline has not passed, the length holds the
arguments, and the part is not in recovery mode. -/
abbrev Accepted (s : State) (h : Hdr) (args : Nat) : Prop :=
  takesFrom s h.path = true ∧ (h.deadline = 0 ∨ s.tb.now ≤ h.deadline) ∧ badLength h args = false ∧ s.fw.recovery = false

/-- The state in which a host command has been answered: `t` is what its effect made of the state after the message was taken. -/
def answered (t : State) (s : State) (h : Hdr) (opcode status : Nat) (data : List Byte) : State :=
  respond t h.path ⟨opcode, status, h.tag, data⟩ s.tb.now

/-- A token that passes every check of R349 but that of its signature: well formed for this device, over the path's nonce, of the given
operation, by the given key and over the given argument. -/
abbrev Presents (s : State) (p : Path) (t : Token) (op : Nat) (key arg : List Byte) : Prop :=
  tokenFormed t = true ∧ nonceOf s.pf p = some t.nonce ∧ t.op.toNat = op ∧ t.signer = keyDigest key
    ∧ t.argDigest = Config.shake256 ([0x51] ++ arg)

/-- The addressed memories of the machine are in canonical form. -/
def State.memoryForm (s : State) : Bool :=
  Memory.wf s.mm.mem && Memory.wf s.fw.slotA && Memory.wf s.fw.slotB && Memory.wf s.fw.boardFlash && Memory.wf s.fw.object
    && s.fw.libs.all Memory.wf && s.paths.all fun r => Memory.wf r.cmdRing && Memory.wf r.rspRing

/-- A run that stops nowhere. -/
def State.safe (s : State) : Prop := ∀ k, ∃ t, Host.Core.run Sys2Proof.core k s = .next t

end Sys2Proof.Machine
end

