-- ==== Sys2Proof/WellFormed.lean ====
section
/-!
DEFINITION. Which commands are well formed: the instruction word of a Graver command is the one its mnemonic names, and every operand
lies within the width that its message, block or register has. A command that is not well formed cannot arrive; the machine does not
rely on the check.
-/
namespace Sys2Proof

/-- A number that fits w bits. -/
def fitsBits (w n : Nat) : Bool := n < 2 ^ w

/-- A count of the timestamp counter (R25). -/
def tickOk (t : Nat) : Bool := fitsBits 64 t

/-- A host command header (Table 14.5): a path of the host's, LENGTH in 32 bits, DEADLINE in 64. -/
def Hdr.wf (h : Hdr) : Bool := h.path != .mp && fitsBits 32 h.len && fitsBits 64 h.deadline

/-- The form selectors of the mnemonics that share an opcode (Tables 5.5, 5.7 to 5.10): TYPE of a shift, FIRE of STROBE, CL of CONNECT
and ISOLATE, FORM of MEAS and PKT, STOP of GEN, L of BLANK, the table bit of RDS and RDT; an illegal opcode is unassigned or has a
reserved form. -/
def formOk : Instr → Bool
  | .shl _ k => immField k 11 10 = 0
  | .shr _ k => immField k 11 10 = 1
  | .asr _ k => immField k 11 10 = 2
  | .strobeSelect _ k => !immBit k 12
  | .strobeFire _ k => immBit k 12
  | .connect _ k => immBit k 0
  | .isolate _ k => !immBit k 0
  | .measSmode _ k => immField k 13 12 = 0
  | .measCount _ k => immField k 13 12 = 1 || immField k 13 12 = 2
  | .pktClose _ k => !immBit k 12
  | .pktAge _ k => immBit k 12
  | .gen _ k => !immBit k 13
  | .gstop _ k => immBit k 13
  | .blankLength _ k => immBit k 13
  | .blank _ k => !immBit k 13
  | .rds _ k => !immBit k 13
  | .rdt _ k => immBit k 13
  | .illegalOpcode _ op k => unassigned op || reservedForm op k
  | _ => true

/-- An instruction command that its words can spell: its form selector is that of its mnemonic, and a form without an extension word
carries none. -/
def krytgerWf (i : Instr) : Bool :=
  formOk i && (match instrParts i with | some (op, _, k) => hasExt op k || k.ext == 0 | none => false)

/-- What is read on the plate bus (Tables 11.1 to 11.3): a body of 448 bytes or none, and slots with 64-bit fields. -/
def PlateRead.wf (r : PlateRead) : Bool :=
  (r.body.length = 448 || r.body.isEmpty) && r.slots.length ≤ 16 && r.slots.all (fun k => fitsBits 64 k.1 && fitsBits 32 k.2.1)
    && fitsBits 64 r.counter && fitsBits 32 r.authsLeft

/-- The results of a calibration run (Table 13.4, R403): 1,024 segments, 32 spares, six capacitors of each ADC, 16 trims, 12 residuals. -/
def CalResult.wf (r : CalResult) : Bool :=
  r.widths.length = 1024 && r.spareWidths.length = 32 && r.voltageCaps.length = 6 && r.currentCaps.length = 6 && r.trims.length = 16
    && r.coef.length = 12

/-- What a calibration run reports. -/
def RunEvent.wf : RunEvent → Bool
  | .phaseEnd => true
  | .results r => r.wf
  | .stored _ => true

/-- Whether a command is well formed. -/
def Instr.wf : Instr → Bool
  | .powerOnReset _ => true
  | .pornLow => true
  | .firmwareStart => true
  | .hostReady _ a b => a ≤ 1024 && b ≤ 1024
  | .signingStateReady => true
  | .wrstnLow => true
  | .mpWatchdogExpiry => true
  | .warmRestartComplete _ => true
  | .pllLock => true
  | .refclkLoss => true
  | .pllRelock e => e < 160
  | .syncPulse => true
  | .syncGen _ => true
  | .tbAdj _ _ => true
  | .skewStart _ => true
  | .skewPeriodExpiry => true
  | .skewMeasurementEnd => true
  | .finePhaseStep => true
  | .pairSnapshotRead p w => match w with | .pair _ => true | .window o k _ => p == .pcie && o % 4 = 0 && o + 4 * k ≤ 2 ^ 36
  | .sampleTick => true
  | .railFall _ => true
  | .rawPairHandoff .. => true
  | .autorangeDown _ => true
  | .packetAge _ => true
  | .stabilityAlarm _ c => c.length ≤ 15
  | .trimStep _ => true
  | .ldidPerturbCount _ => true
  | .ldidFitDone _ => true
  | .rangeSwitchMade _ => true
  | .rangeSwitchBroken _ => true
  | .bridgeSettleEnd _ => true
  | .leaveInertTimeout _ => true
  | .relayMakeDone _ _ => true
  | .relayBreakDone _ => true
  | .safeStateRampEnd _ => true
  | .fltAssert _ => true
  | .coreHandshakeLoss _ => true
  | .fltLatchClear _ _ _ => true
  | .disable _ _ => true
  | .bankSupplyValid _ => true
  | .bankDieUp _ => true
  | .bankSupplyFail _ => true
  | .cpsFrame _ => true
  | .cpsResponse _ _ => true
  | .cpsLinkRestartRound _ => true
  | .nop n k => krytgerWf (.nop n k)
  | .halt n k => krytgerWf (.halt n k)
  | .jmp n k => krytgerWf (.jmp n k)
  | .jcc n k => krytgerWf (.jcc n k)
  | .call n k => krytgerWf (.call n k)
  | .ret n k => krytgerWf (.ret n k)
  | .loop n k => krytgerWf (.loop n k)
  | .endl n k => krytgerWf (.endl n k)
  | .yield n k => krytgerWf (.yield n k)
  | .fence n k => krytgerWf (.fence n k)
  | .fenceComplete _ _ => true
  | .trap n k => krytgerWf (.trap n k)
  | .mov n k => krytgerWf (.mov n k)
  | .ldi n k => krytgerWf (.ldi n k)
  | .ldx n k => krytgerWf (.ldx n k)
  | .add n k => krytgerWf (.add n k)
  | .sub n k => krytgerWf (.sub n k)
  | .mul n k => krytgerWf (.mul n k)
  | .mac n k => krytgerWf (.mac n k)
  | .and n k => krytgerWf (.and n k)
  | .or n k => krytgerWf (.or n k)
  | .xor n k => krytgerWf (.xor n k)
  | .shl n k => krytgerWf (.shl n k)
  | .shr n k => krytgerWf (.shr n k)
  | .asr n k => krytgerWf (.asr n k)
  | .cmp n k => krytgerWf (.cmp n k)
  | .sat n k => krytgerWf (.sat n k)
  | .abs n k => krytgerWf (.abs n k)
  | .ld n k => krytgerWf (.ld n k)
  | .ldDataReturn _ _ => true
  | .st n k => krytgerWf (.st n k)
  | .programCacheFill _ _ _ => true
  | .mode n k => krytgerWf (.mode n k)
  | .range n k => krytgerWf (.range n k)
  | .level n k => krytgerWf (.level n k)
  | .strobeSelect n k => krytgerWf (.strobeSelect n k)
  | .strobeFire n k => krytgerWf (.strobeFire n k)
  | .clamp n k => krytgerWf (.clamp n k)
  | .slew n k => krytgerWf (.slew n k)
  | .ramp n k => krytgerWf (.ramp n k)
  | .comps n k => krytgerWf (.comps n k)
  | .connect n k => krytgerWf (.connect n k)
  | .isolate n k => krytgerWf (.isolate n k)
  | .measSmode n k => krytgerWf (.measSmode n k)
  | .measCount n k => krytgerWf (.measCount n k)
  | .aper n k => krytgerWf (.aper n k)
  | .autor n k => krytgerWf (.autor n k)
  | .tag n k => krytgerWf (.tag n k)
  | .pktClose n k => krytgerWf (.pktClose n k)
  | .pktAge n k => krytgerWf (.pktAge n k)
  | .play n k e => krytgerWf (.play n k e)
  | .playFillComplete _ _ => true
  | .armj n k e => krytgerWf (.armj n k e)
  | .jumpHeadCopyDone _ _ _ => true
  | .jseg n k e => krytgerWf (.jseg n k e)
  | .sweep n k e => krytgerWf (.sweep n k e)
  | .sweepFillComplete _ _ => true
  | .sweepEntryStart _ _ => true
  | .prefetchFill _ _ => true
  | .gen n k => krytgerWf (.gen n k)
  | .gstop n k => krytgerWf (.gstop n k)
  | .rate n k => krytgerWf (.rate n k)
  | .wait n k => krytgerWf (.wait n k)
  | .waitComplete _ _ => true
  | .waitt n k => krytgerWf (.waitt n k)
  | .waittRelease _ _ => true
  | .waitev n k => krytgerWf (.waitev n k)
  | .waitevTimeout _ _ => true
  | .emit n k => krytgerWf (.emit n k)
  | .arm n k => krytgerWf (.arm n k)
  | .blankLength n k => krytgerWf (.blankLength n k)
  | .blank n k => krytgerWf (.blank n k)
  | .syncf n k => krytgerWf (.syncf n k)
  | .mark n k => krytgerWf (.mark n k)
  | .ldid n k => krytgerWf (.ldid n k)
  | .cal n k => krytgerWf (.cal n k)
  | .rds n k => krytgerWf (.rds n k)
  | .rdt n k => krytgerWf (.rdt n k)
  | .illegalOpcode n op k => krytgerWf (.illegalOpcode n op k)
  | .gvStart _ _ v => v.toNat % 16 = 1
  | .gvHalt _ _ v => v.toNat % 16 = 2
  | .go _ _ v => v.toNat % 16 = 3
  | .clearImm _ _ v => v.toNat % 16 = 4
  | .gvImmWrite _ _ _ => true
  | .comparatorDecision _ _ t _ => tickOk t
  | .blankExpiry _ _ _ => true
  | .comparatorLatchClear _ _ _ => true
  | .slotBoundary => true
  | .directForward _ => true
  | .eviEdge _ _ t => tickOk t
  | .softwareInject _ _ => true
  | .tcMergeWrite _ _ => true
  | .imAck _ _ => true
  | .framesEnable _ v => v.getLsbD 0
  | .framesDisable _ v => !v.getLsbD 0
  | .snap _ v => v.getLsbD 2
  | .frameBoundary => true
  | .hatchStart _ => true
  | .hatchStop _ => true
  | .hatchUnitCfgWrite _ _ _ => true
  | .collStatClr _ => true
  | .deviceUnitReady => true
  | .collectorSlotStore _ => true
  | .collectorTimeout => true
  | .frameEmit => true
  | .proofSeal => true
  | .proofSignStart _ => true
  | .proofSigned => true
  | .proofWritten => true
  | .pfCtrlWrite _ _ => true
  | .proofRingEnable _ v => v.getLsbD 31
  | .proofRingRdCommit _ _ => true
  | .nonceExpiry p => p != .mp
  | .queueEnable _ v => v.toNat % 16 = 1
  | .queueDisable _ v => v.toNat % 16 = 2
  | .queueFlush _ v => v.toNat % 16 = 3
  | .queueDropRem _ v => v.toNat % 16 = 4
  | .queueCfgWrite _ _ => true
  | .queuePeakRead _ => true
  | .chResultPop _ _ _ => true
  | .chLatestSeqRead _ _ => true
  | .drainTransferStart _ _ => true
  | .drainTransferEnd _ => true
  | .ringEnable _ _ v => v.getLsbD 31
  | .ringDisable _ _ v => !v.getLsbD 31
  | .ringRdCommit _ _ _ => true
  | .patrolScrub p _ _ _ => match p with | .page pa => pa % 4096 = 0 && fitsBits 48 pa | .row k _ => k < 384
  | .sramRowRepair _ => true
  | .pageRetire pa => pa % 4096 = 0 && fitsBits 48 pa
  | .demandFaultResolved => true
  | .mmuFlogPop _ => true
  | .invalidationComplete => true
  | .echo h bs => h.wf && bs.length < 2 ^ 32
  | .regRead h a n => h.wf && fitsBits 32 a && fitsBits 32 n
  | .regWrite h a ws => h.wf && fitsBits 32 a && fitsBits 32 ws.length
  | .asidCreate h a => h.wf && fitsBits 32 a
  | .asidDestroy h a => h.wf && fitsBits 32 a
  | .map h a _ va pa len => h.wf && fitsBits 32 a && fitsBits 64 va && fitsBits 64 pa && fitsBits 64 len
  | .mapDz h a _ va len => h.wf && fitsBits 32 a && fitsBits 64 va && fitsBits 64 len
  | .unmap h a va len => h.wf && fitsBits 32 a && fitsBits 64 va && fitsBits 64 len
  | .protect h a _ va len => h.wf && fitsBits 32 a && fitsBits 64 va && fitsBits 64 len
  | .poolAdd h pa pages => h.wf && fitsBits 64 pa && fitsBits 64 pages
  | .cacheInv h a va len => h.wf && fitsBits 32 a && fitsBits 64 va && fitsBits 64 len
  | .resume h _ _ _ => h.wf
  | .challenge h => h.wf
  | .getIdentity h => h.wf
  | .attest h _ _ => h.wf
  | .enroll h key _ _ => h.wf && key.length = 68
  | .ownerTransfer h _ key _ => h.wf && key.length = 68
  | .ownerRelease h _ _ => h.wf
  | .calWrite h _ _ _ => h.wf
  | .plateLife h _ _ => h.wf
  | .powerBounds h _ _ => h.wf
  | .debugUnlock h _ _ => h.wf
  | .jtagPinDriveInstruction => true
  | .pldetFall => true
  | .pldetRise => true
  | .plateSettleEnd => true
  | .plateBusRetry _ => true
  | .tokenAnswerTimeout => true
  | .plateRecordRead r => r.wf
  | .tokenAuthAnswer _ => true
  | .tokenOpenAnswer _ _ => true
  | .tokenAdvanceAnswer _ => true
  | .eepromCountWriteDone => true
  | .plateContactCycle => true
  | .cycle _ => true
  | .reopen _ => true
  | .regulatorStatusPoll _ _ => true
  | .pmalrtnAssert => true
  | .paceStep _ v => fitsBits 16 v
  | .powerBudgetPeriod => true
  | .temperatureRead ts => ts.length = 44
  | .vigil _ => true
  | .run _ => true
  | .vigilWakeTimer => true
  | .vigilDdrReady => true
  | .runFull _ _ => true
  | .runQuick _ _ => true
  | .relieve _ _ => true
  | .returnDut _ _ => true
  | .calPrecheckEnd _ raws => raws.length = 2000
  | .calRunEnd _ e => e.wf
  | .reliefSwitchMade _ => true
  | .reliefRampEnd _ => true
  | .reliefSwitchBroken _ => true
  | .laneCfgWrite _ _ _ _ => true
  | .slip _ _ => true
  | .laneRestart _ _ => true
  | .signalDetectRise _ => true
  | .injGo _ _ => true
  | .prbsClr _ _ => true
  | .pcieReset => true
  | .ethernetLockRetry _ _ _ => true
  | .ethernetFrame _ _ n _ => 64 ≤ n
  | .sibiaTrain k _ _ => k.val ≥ 4
  | .sibiaTrainTimeout k => k.val ≥ 4
  | .sibiaLinkLoss k => k.val ≥ 4
  | .sibiaCalAsk k => k.val ≥ 4
  | .sibiaCalReqSend k => k.val ≥ 4
  | .sibiaCalReq k _ _ _ _ => k.val ≥ 4
  | .sibiaCalRsp k _ _ _ => k.val ≥ 4
  | .sibiaCalReport k _ _ => k.val ≥ 4
  | .sibiaCalExchangeTimeout k => k.val ≥ 4
  | .sibiaToken k _ _ => k.val ≥ 4
  | .sibiaSyncv k _ => k.val ≥ 4
  | .fwCmdWrWrite _ _ => true
  | .fwRspRdWrite _ _ => true
  | .spiReadTransaction a _ => fitsBits 24 a
  | .spiWriteTransaction a _ => fitsBits 24 a
  | .hhtOpen _ _ => true
  | .hhtClose _ _ _ => true
  | .hhtKeepalive _ _ _ => true
  | .hhtCmd _ _ _ o bytes => fitsBits 32 o && fitsBits 16 bytes.length
  | .hhtRspack _ _ _ o => fitsBits 32 o
  | .hhtDack _ _ _ _ o => fitsBits 64 o
  | .hhtDnak _ _ _ _ o => fitsBits 64 o
  | .hhtDataSend _ _ => true
  | .hhtSessionTimeout => true
  | .hhtRspResend => true
  | .hhtDataResend _ => true
  | .hhtEventRepeat => true
  | .ptpEventMessage _ _ _ t _ time => tickOk t && fitsBits 78 time
  | .ptpMappingUpdate _ _ _ => true
  | .updOpen h _ _ _ _ => h.wf
  | .updData h o bs => h.wf && fitsBits 32 o && fitsBits 32 bs.length
  | .updFinish h _ => h.wf
  | .updAbort h => h.wf
  | .updSessionTimeout => true
  | .fwActivate h => h.wf
  | .handoverPreloadDone => true
  | .handoverImageStart _ => true
  | .fwConfirm h => h.wf
  | .trialAutoconfirm => true
  | .fwRestart h => h.wf
  | .libActivate h => h.wf
  | .setSave h _ => h.wf
  | .setDefaults h => h.wf
  | .logRead h f n => h.wf && fitsBits 32 f && fitsBits 32 n
  | .registerWrite _ a _ _ => fitsBits 22 a && a % 4 = 0
  | .stVisible _ _ => true
  | .plsnsOpen => true
  | .plateAttestationSigned _ => true
  | .ethernetLinkLoss _ => true
  | .pcieLinkUp s w => 1 ≤ s && s ≤ 3 && (w = 1 || w = 2 || w = 4)
  | .hdrlockGain _ => true
  | .hdrlockLoss _ => true
  | .sibiaBadBlock k => k.val ≥ 4
  | .lanePowerStateExit _ => true
  | .recoveryLaneAlternate => true

end Sys2Proof
end

