-- ==== Sys2Proof/Certificates/Slice0/Obligations.lean ====
section
/-!
DEFINITION. The statements for the provers. A statement about an instruction of a Graver speaks of a Graver that carries it out (`Runs`);
`ran`, `ranTo` and `branched` say where that leaves the executing context (Safety.lean), and an equation of states is also the frame:
what it does not name is as before.
-/
open Sys2Proof Sys2Proof.Machine

/-! ### The queue, reset -/

/-- A step takes the command at the front of the queue and carries it out with the queue's rest; with no command waiting the block idles
(assumption 2: the model's choice). -/
def Obligations.StepRunsTheFrontCommand : Prop :=
  (∀ (c : Instr) (s : State), step { s with pending := c :: s.pending } = exec c s)
    ∧ ∀ s : State, s.pending = [] → step s = .next s

/-! ### Krytger: control -/

/-- R160, R165: NOP only advances the program counter, RET branches to g15 & ~3, where that lies within the immediate buffer or the context runs
from its window. R161, R167, R169, R133: HALT halts its context behind itself with its supplier stopped, YIELD stands aside for n decisions with
0 acting as 1, TRAP suspends with its code, an unassigned opcode or a reserved form suspends with ILLEGAL. -/
def Obligations.ControlInstructions : Prop :=
  (∀ (s : State) (n : Chan) (x : Ctx) (k : Fields), k.a = 0 → k.b = 0 → k.c = 0 → k.imm = 0 →
      (Runs s n x 0x00 k → exec (.nop n k) s = .next (ran s n x false id))
      ∧ (Runs s n x 0x05 k →
          (inImm s.chans[n].graver x = false ∨ (gr (s.context n x) 15 &&& ~~~3).toNat / 4 < s.chans[n].graver.imm.length) →
          exec (.ret n k) s = .next (branched (decided s n x) n x (gr (s.context n x) 15 &&& ~~~3))))
  ∧ (∀ (s : State) (n : Chan) (x : Ctx) (k : Fields),
      (Runs s n x 0x01 k → k.a = 0 → k.b = 0 → k.c = 0 → k.imm = 0 →
        Completes (.halt n k) s fun t =>
          (t.context n x).state = .halted ∧ (t.context n x).pc = (s.context n x).pc + 4 ∧ (t.context n x).supplier = .none
            ∧ (t.context n x).g = (s.context n x).g ∧ (x = 2 → t.chans[n].graver.immBusy = false)
            ∧ t.chans[n].force = s.chans[n].force ∧ t.queues = s.queues ∧ t.mm.mem = s.mm.mem)
      ∧ (Runs s n x 0x08 k → k.a = 0 → k.b = 0 → k.c = 0 →
          exec (.yield n k) s = .next (ran s n x false fun c => { c with yields := max k.imm.toNat 1 }))
      ∧ (Runs s n x 0x0A k → k.a = 0 → k.b = 0 → k.c = 0 → k.imm.toNat < 256 →
          exec (.trap n k) s = .next (suspend (decided s n x) n x (.trap (BitVec.ofNat 8 k.imm.toNat))))
      ∧ ∀ op : BitVec 6, unassigned op || reservedForm op k → Runs s n x op k →
          exec (.illegalOpcode n op k) s = .next (suspend (decided s n x) n x .illegal))

/-- R132, R147, R162 to R164: JMP, CALL and JCC. A relative branch counts words from the branch instruction; in the immediate buffer its target
must be a loaded word, else the fetch faults; a register-indirect branch leaves the buffer for the window. CALL writes the address behind itself
into g15, then branches. JCC branches where the condition of Table 4.3 holds, and else goes on. R127, R166: LOOP takes its count from a register
or the extension word and either enters the loop, with the start behind itself and the end at the ENDL, or passes the ENDL when the count is 0;
ENDL counts down and branches to the start while the counter is not 0. -/
def Obligations.BranchesAndLoops : Prop :=
  (∀ (s : State) (n : Chan) (x : Ctx) (k : Fields),
      let pc := (s.context n x).pc
      let rel := fun (words : Word) (t : State) =>
        if inImm s.chans[n].graver x ∧ s.chans[n].graver.imm.length ≤ (pc + 4 * words).toNat / 4 then suspendImm (decided s n x) n x
        else branched t n x (pc + 4 * words)
      let reg := fun t : State =>
        branched (updGraver t n fun g => { g with immBusy := if x = 2 then false else g.immBusy }) n x
          ((gr (t.context n x) k.a &&& ~~~3) + 4 * k.ext)
      let linked := updCtx (decided s n x) n x fun c => setGr c 15 (c.pc + 8)
      (Runs s n x 0x02 k → k.c = 0 → k.imm = 0 →
        (k.a = 0 → k.b = 0 → exec (.jmp n k) s = .next (rel k.ext (decided s n x)))
          ∧ (k.b = 1 → exec (.jmp n k) s = .next (reg (decided s n x))))
      ∧ (Runs s n x 0x04 k → k.c = 0 → k.imm = 0 →
        (k.a = 0 → k.b = 0 → exec (.call n k) s = .next (rel k.ext linked))
          ∧ (k.b = 1 → exec (.call n k) s = .next (reg linked)))
      ∧ (Runs s n x 0x03 k → k.b = 0 → (k.c = 0xF ∨ k.a = 0) → ∀ b, condition s n (s.context n x) k.c k.a = some b →
          exec (.jcc n k) s = .next (if b then rel (k.imm.signExtend 32) (decided s n x) else ran s n x false id)))
  ∧ (∀ (s : State) (n : Chan) (x : Ctx) (k : Fields), k.b = 0 → k.c.toNat < 4 →
      let pc := (s.context n x).pc
      let l := (s.context n x).lc[counterOf k]
      (∀ (ext : Bool) (off : Nat), Runs s n x 0x06 k → immBit k 13 = ext → (ext = true → k.a = 0) → immField k 12 0 = off → off ≠ 0 →
        let count := if ext then k.ext else gr (s.context n x) k.a
        let loaded := fun c : Context =>
          { c with lc := c.lc.set (counterOf k) ⟨count, if ext then pc + 8 else pc + 4, pc + 4 * word off⟩ }
        (count ≠ 0 → exec (.loop n k) s = .next (ran s n x ext loaded))
          ∧ (count = 0 → inImm s.chans[n].graver x = false →
              exec (.loop n k) s = .next (branched (updCtx (decided s n x) n x loaded) n x (pc + 4 * word (off + 1)))))
      ∧ (Runs s n x 0x07 k → k.a = 0 → k.imm = 0 →
          let counted := fun c : Context => { c with lc := c.lc.set (counterOf k) { l with count := if l.count = 0 then 0 else l.count - 1 } }
          (l.count = 0 ∨ l.count = 1 → exec (.endl n k) s = .next (ran s n x false counted))
            ∧ (l.count ≠ 0 → l.count ≠ 1 →
                exec (.endl n k) s = .next (branched (updCtx (decided s n x) n x counted) n x l.start))))

/-! ### Krytger: integer and memory -/

/-- R171: MOV, LDI and LDX load a register and write no flags. -/
def Obligations.RegisterLoads : Prop :=
  ∀ (s : State) (n : Chan) (x : Ctx) (k : Fields),
    (Runs s n x 0x0C k → k.c = 0 → k.imm = 0 →
      exec (.mov n k) s = .next (ran s n x false fun c => setGr c k.a (gr c k.b)))
    ∧ (Runs s n x 0x0D k → k.b = 0 → k.c = 0 →
        exec (.ldi n k) s = .next (ran s n x false fun c => setGr c k.a (k.imm.signExtend 32)))
    ∧ (Runs s n x 0x0E k → k.b = 0 → k.c = 0 → k.imm = 0 →
        exec (.ldx n k) s = .next (ran s n x true fun c => setGr c k.a k.ext))

/-- R172 with the operands of Table 5.4: ADD, SUB and CMP compute the sum or difference and set all four flags; C of a difference is 1 when there
is no borrow; CMP writes no register, and its A field must be 0, else it is ILLEGAL. After these flags HS and LO compare unsigned values, GE, LT, GT
and LE signed values. -/
def Obligations.AddSubCompare : Prop :=
  (∀ (s : State) (n : Chan) (x : Ctx) (k : Fields) (b : Word), op2 (s.context n x) k = some b →
    (Runs s n x 0x0F k → exec (.add n k) s = .next (ran s n x (immBit k 13) fun c =>
      let a := gr c k.b
      setGr { c with z := a + b == 0, n := (a + b).msb, c := decide (2 ^ 32 ≤ a.toNat + b.toNat)
                     v := a.toInt + b.toInt != (a + b).toInt } k.a (a + b)))
    ∧ (Runs s n x 0x10 k → exec (.sub n k) s = .next (ran s n x (immBit k 13) fun c =>
        let a := gr c k.b
        setGr { c with z := a - b == 0, n := (a - b).msb, c := decide (b.toNat ≤ a.toNat)
                       v := a.toInt - b.toInt != (a - b).toInt } k.a (a - b)))
    ∧ (Runs s n x 0x17 k → k.a = 0 → exec (.cmp n k) s = .next (ran s n x (immBit k 13) fun c =>
        let a := gr c k.b
        { c with z := a - b == 0, n := (a - b).msb, c := decide (b.toNat ≤ a.toNat), v := a.toInt - b.toInt != (a - b).toInt }))
    ∧ (Runs s n x 0x17 k → k.a ≠ 0 → exec (.cmp n k) s = .next (suspend (decided s n x) n x .illegal)))
  ∧ ∀ (s : State) (n : Chan) (k : Context) (a b : Word) (r : BitVec 4),
      let f := { k with z := a - b == 0, n := (a - b).msb, c := decide (b.toNat ≤ a.toNat), v := a.toInt - b.toInt != (a - b).toInt }
      condition s n f 0x2 r = some (decide (b.toNat ≤ a.toNat)) ∧ condition s n f 0x3 r = some (decide (a.toNat < b.toNat))
        ∧ condition s n f 0xA r = some (decide (b.toInt ≤ a.toInt)) ∧ condition s n f 0xB r = some (decide (a.toInt < b.toInt))
        ∧ condition s n f 0xC r = some (decide (b.toInt < a.toInt)) ∧ condition s n f 0xD r = some (decide (a.toInt ≤ b.toInt))

/-- R173: MUL and MAC give the low 32 bits of the exact signed result; V tells that the exact product or sum does not fit in 32 bits; C is
unchanged. -/
def Obligations.MultiplyAccumulate : Prop :=
  ∀ (s : State) (n : Chan) (x : Ctx) (k : Fields) (b : Word), op2 (s.context n x) k = some b →
    let a := (gr (s.context n x) k.b).toInt
    let acc := (gr (s.context n x) k.a).toInt
    let inside := fun v : Int => decide (-2147483648 ≤ v ∧ v ≤ 2147483647)
    (Runs s n x 0x11 k → exec (.mul n k) s = .next (ran s n x (immBit k 13) fun c =>
      let r := BitVec.ofInt 32 (a * b.toInt)
      setGr { c with z := r == 0, n := r.msb, v := !inside (a * b.toInt) } k.a r))
    ∧ (Runs s n x 0x12 k → exec (.mac n k) s = .next (ran s n x (immBit k 13) fun c =>
        let r := BitVec.ofInt 32 (acc + a * b.toInt)
        setGr { c with z := r == 0, n := r.msb, v := !inside (a * b.toInt) || !inside (acc + a * b.toInt) } k.a r))

/-- R174: AND, OR and XOR work bitwise, set Z and N and leave C and V. -/
def Obligations.BitwiseLogic : Prop :=
  ∀ (s : State) (n : Chan) (x : Ctx) (k : Fields) (b : Word), op2 (s.context n x) k = some b →
    let done := fun r : Word => ran s n x (immBit k 13) fun c => setGr { c with z := r == 0, n := r.msb } k.a r
    (Runs s n x 0x13 k → exec (.and n k) s = .next (done (gr (s.context n x) k.b &&& b)))
    ∧ (Runs s n x 0x14 k → exec (.or n k) s = .next (done (gr (s.context n x) k.b ||| b)))
    ∧ (Runs s n x 0x15 k → exec (.xor n k) s = .next (done (gr (s.context n x) k.b ^^^ b)))

/-- R175: the shifts, by a register or an immediate amount of 0 to 31; C takes the last bit shifted out and keeps its value for an amount of 0. -/
def Obligations.Shifts : Prop :=
  ∀ (s : State) (n : Chan) (x : Ctx) (k : Fields) (a : Nat), Runs s n x 0x16 k → immBit k 13 = false → immField k 9 5 = 0 →
    (immBit k 12 = true → k.c = 0 ∧ a = immField k 4 0) → (immBit k 12 = false → immField k 4 0 = 0 ∧ a = (gr (s.context n x) k.c).toNat % 32) →
    let v := gr (s.context n x) k.b
    let done := fun (r : Word) (last : Bool) => ran s n x false fun c =>
      setGr { c with z := r == 0, n := r.msb, c := if a = 0 then c.c else last } k.a r
    (immField k 11 10 = 0 → exec (.shl n k) s = .next (done (BitVec.ofNat 32 (v.toNat * 2 ^ a)) (v.getLsbD (32 - a))))
    ∧ (immField k 11 10 = 1 → exec (.shr n k) s = .next (done (BitVec.ofNat 32 (v.toNat / 2 ^ a)) (v.getLsbD (a - 1))))
    ∧ (immField k 11 10 = 2 → exec (.asr n k) s = .next (done (BitVec.ofInt 32 (v.toInt / 2 ^ a)) (v.getLsbD (a - 1))))

/-- R176, R177: SAT limits to the signed range of w bits and sets V when it limits, and a width of 0 or above 32 is ILLEGAL; ABS gives the magnitude, and 0x8000_0000 gives 0x7FFF_FFFF
with V = 1. -/
def Obligations.SatAndAbs : Prop :=
  ∀ (s : State) (n : Chan) (x : Ctx) (k : Fields), k.c = 0 →
    let v := (gr (s.context n x) k.b).toInt
    (Runs s n x 0x18 k → 1 ≤ k.imm.toNat → k.imm.toNat ≤ 32 →
      exec (.sat n k) s = .next (ran s n x false fun c =>
        let r := BitVec.ofInt 32 (max (-(2 ^ (k.imm.toNat - 1))) (min (2 ^ (k.imm.toNat - 1) - 1) v))
        setGr { c with z := r == 0, n := r.msb, v := decide (v < -(2 ^ (k.imm.toNat - 1)) ∨ 2 ^ (k.imm.toNat - 1) ≤ v) } k.a r))
    ∧ (Runs s n x 0x19 k → k.imm = 0 →
        exec (.abs n k) s = .next (ran s n x false fun c =>
          let r := BitVec.ofNat 32 (min v.natAbs 2147483647)
          setGr { c with z := r == 0, n := false, v := decide (v = -2147483648) } k.a r))
    ∧ (Runs s n x 0x18 k → (k.imm = 0 ∨ 32 < k.imm.toNat) → exec (.sat n k) s = .next (suspend (decided s n x) n x .illegal))

/-- R178, R152, R316, R317, R320: the address of LD and ST is g[b] plus the offset without its two low bits, in the window, and its translation enters
the IOTLB. LD, once its page translates for reading, takes the newest outstanding store of its own context to that place, else reads memory and
holds the execution unit until the data arrive; ST goes out once its address translates for writing and stalls behind eight outstanding stores; an
address that does not translate suspends with XLATE_DATA. -/
def Obligations.LoadsAndStores : Prop :=
  ∀ (s : State) (n : Chan) (x : Ctx) (k : Fields) (a : Word), k.c = 0 →
    (immBit k 13 = true → k.imm = 0x2000 ∧ a = (gr (s.context n x) k.b + k.ext) &&& ~~~3) →
    (immBit k 13 = false → a = (gr (s.context n x) k.b + (k.imm.extractLsb' 0 13).signExtend 32) &&& ~~~3) →
    let g := s.chans[n].graver
    let own := (s.context n x).stores
    let va := windowVa g x a
    let d := cacheXlate (decided s n x) (windowAsid g x) va
    (Runs s n x 0x1A k → ∀ pa, translate s.mm (windowAsid g x) va .r = .ok pa → ∀ st, own.reverse.find? (fun st => st.pa == pa) = some st →
      exec (.ld n k) s = .next (ranTo (updCtx d n x fun c => setGr c k.a st.data) n x (immBit k 13)))
    ∧ (Runs s n x 0x1A k → ∀ pa, translate s.mm (windowAsid g x) va .r = .ok pa → own.all (fun st => st.pa != pa) = true →
        (paExternal pa && ddrAsleep s) = false →
        exec (.ld n k) s = .next (updGraver d n fun g => { g with busy := some (x, .load k.a va pa), busyExt := immBit k 13 }))
    ∧ (Runs s n x 0x1A k → ∀ r l, translate s.mm (windowAsid g x) va .r = .fault r l →
        exec (.ld n k) s = .next (suspendXlate (decided s n x) n x false false false va (.fault r l)))
    ∧ (Runs s n x 0x1B k → own.length < 8 → ∀ pa, translate s.mm (windowAsid g x) va .w = .ok pa →
        exec (.st n k) s = .next (ranTo (updCtx d n x fun c => { c with stores := own ++ [⟨windowAsid g x, va, pa, gr c k.a⟩] }) n x (immBit k 13)))
    ∧ (Runs s n x 0x1B k → 8 ≤ own.length → ∀ pa, translate s.mm (windowAsid g x) va .w = .ok pa →
        exec (.st n k) s = .next (updGraver d n fun g =>
          { g with busy := some (x, .store ⟨windowAsid g x, va, pa, gr (s.context n x) k.a⟩), busyExt := immBit k 13 }))
    ∧ (Runs s n x 0x1B k → ∀ r l, translate s.mm (windowAsid g x) va .w = .fault r l →
        exec (.st n k) s = .next (suspendXlate (decided s n x) n x false true false va (.fault r l)))

/-- R130, R152, R178, R294, R315: the data of an outstanding LD go into its register and the instruction completes; the oldest outstanding store of a
context lands at its physical address, or in the spare of a page retired since it was translated, and no other byte of memory changes; a missed line of
16 words enters the program cache of the bank, and the context that missed keeps the execution unit. -/
def Obligations.MemoryTransfers : Prop :=
  ∀ (s : State) (n : Chan) (x : Ctx),
    (∀ (dest : BitVec 4) (va pa : Nat), s.chans[n].graver.busy = some (x, .load dest va pa) → (paExternal pa && ddrAsleep s) = false →
      exec (.ldDataReturn n .clean) s = .next (finishBusy (updCtx s n x fun c => setGr c dest (memReadWord s.mm.mem (retiredTo s.mm pa))) n x))
    ∧ (∀ (st : Store) (rest : List Store), (s.context n x).stores = st :: rest →
        (paExternal st.pa && ddrAsleep s) = false → s.chans[n].graver.busy = none →
        let pa := retiredTo s.mm st.pa
        ∃ t, exec (.stVisible n x) s = .next t ∧ t.context n x = { s.context n x with stores := rest }
          ∧ (Memory.wf s.mm.mem = true → memReadWord t.mm.mem pa = st.data)
          ∧ ∀ q, q < pa ∨ pa + 4 ≤ q → memRead t.mm.mem q = memRead s.mm.mem q)
    ∧ (∀ (va pa victim : Nat) (split : Bool), s.chans[n].graver.busy = some (x, .fetch) → fetch s n x = .miss va split →
        translate s.mm (windowAsid s.chans[n].graver x) va .x = .ok pa → (paExternal pa && ddrAsleep s) = false →
        (s.banks[bankOf n]).lines.length < cacheLines →
        exec (.programCacheFill n victim .clean) s = .next (settle (updGraver (updBank (cacheXlate s (windowAsid s.chans[n].graver x) va) (bankOf n) fun b =>
          { b with lines := b.lines ++ [(BitVec.ofNat 4 (windowAsid s.chans[n].graver x), va / 64,
              (List.range 16).map fun i => memReadWord s.mm.mem (pa / 64 * 64 + 4 * i))] }) n fun g => { g with busy := none, granted := some x }) n x))

/-! ### Krytger: waiting -/

/-- R168, R199 to R201, R205: an instruction that waits completes at once where what it waits for already holds, and else leaves its context
WAITING for it behind itself. R168, R199 to R201: a waiting context continues READY when its FENCE conditions hold, its count of sample ticks has
run out, the counter has reached its tick (R30: no later than four ticks before the next sample tick, which else comes first, assumption 17), or its
timeout has passed, which writes 0xFFFF_FFFF. -/
def Obligations.WaitingInstructions : Prop :=
  (∀ (s : State) (n : Chan) (x : Ctx) (k : Fields),
      let c := s.context n x
      let waiting := fun w : Waiting => ran s n x false fun c => { c with state := .waiting w }
      (Runs s n x 0x09 k → k.a = 0 → k.b = 0 → k.c = 0 → 0 < k.imm.toNat → k.imm.toNat < 4 →
        exec (.fence n k) s = .next (if fenceHolds (decided s n x) n x (immBit k 0) (immBit k 1) false then ran s n x false id
          else waiting (.fence (immBit k 0) (immBit k 1) (immBit k 1 && s.chans[n].force.safe.isSome))))
      ∧ (Runs s n x 0x34 k → k.b = 0 → k.c = 0 → (immBit k 13 = true → k.imm = 0x2000) → (immBit k 13 = false → k.a = 0) →
          let count := if immBit k 13 then (gr c k.a).toNat else k.imm.toNat
          exec (.wait n k) s = .next (if count = 0 then ran s n x false id else waiting (.wait count)))
      ∧ (Runs s n x 0x35 k → k.c = 0 → k.imm = 0 →
          let t := (gr c k.b).toNat * 2 ^ 32 + (gr c k.a).toNat
          exec (.waitt n k) s = .next (if t ≤ s.tb.now then ran s n x false id else waiting (.waitt t)))
      ∧ (Runs s n x 0x36 k → k.c = 0 → k.imm.toNat % 8192 < 16 → k.imm.toNat % 16 ≠ 0 → (immBit k 13 = false → k.b = 0) →
          let mask := BitVec.ofNat 4 k.imm.toNat
          (pendingInput s n mask = none → immBit k 13 = true → gr c k.b = 0 →
            exec (.waitev n k) s = .next (ran s n x false fun c => setGr c k.a 0xFFFFFFFF))
          ∧ (pendingInput s n mask = none → (immBit k 13 = true → gr c k.b ≠ 0) →
              exec (.waitev n k) s = .next (waiting (.waitev k.a mask (if immBit k 13 then some (gr c k.b).toNat else none))))
          ∧ ∀ i, pendingInput s n mask = some i →
              exec (.waitev n k) s = .next (ranTo (updCtx (consumeInput (decided s n x) n i) n x fun c => setGr c k.a (word i.val)) n x false))
      ∧ (Runs s n x 0x3A k → k.a = 0 → k.b = 0 → k.c = 0 → k.imm = 0 →
          exec (.syncf n k) s = .next (if s.ht.en then waiting .syncf else ran s n x false id)))
  ∧ (∀ (s : State) (n : Chan) (x : Ctx), (s.context n x).haltReq = false → inImm s.chans[n].graver x = false →
      let c := s.context n x
      let ready := fun t : State => updCtx t n x fun k => { k with state := .ready }
      (∀ mem out safe, c.state = .waiting (.fence mem out safe) → fenceHolds s n x mem out safe = true → exec (.fenceComplete n x) s = .next (ready s))
      ∧ (c.state = .waiting (.wait 0) → exec (.waitComplete n x) s = .next (ready s))
      ∧ (∀ t, c.state = .waiting (.waitt t) → s.tb.now < t →
          (t + 4 ≤ nextSample s → exec (.waittRelease n x) s = .next (ready { s with tb := { s.tb with now := t } }))
          ∧ (nextSample s < t + 4 → exec (.waittRelease n x) s = .next s))
      ∧ (∀ reg mask, c.state = .waiting (.waitev reg mask (some 0)) →
          exec (.waitevTimeout n x) s = .next (ready (updCtx s n x fun k => setGr k reg 0xFFFFFFFF))))

/-! ### Krytger: output -/

/-- R144, R145: the instructions of the output class end in PRIV for an observe-only context, and on a relieved relief channel for every context
but 3, without any other effect. -/
def Obligations.OutputNeedsPrivilege : Prop :=
  ∀ (s : State) (n : Chan) (x : Ctx) (k : Fields),
    ((s.context n x).obs = true ∨ (s.chans[n].force.relieved = true ∧ isRelief n = true ∧ x ≠ 3)) →
    let priv : Host.Outcome State Fault Refusal := .next (suspend (decided s n x) n x .priv)
    k.b = 0 → k.c = 0 →
    (Runs s n x 0x22 k → k.imm = 0 → exec (.level n k) s = priv)
    ∧ (Runs s n x 0x20 k → k.a = 0 → k.imm.toNat < 4 → exec (.mode n k) s = priv)
    ∧ (Runs s n x 0x24 k → k.imm = 0 → exec (.clamp n k) s = priv)
    ∧ (Runs s n x 0x25 k → k.imm = 0 → exec (.slew n k) s = priv)
    ∧ (Runs s n x 0x27 k → k.a = 0 → k.imm.toNat < 16 → exec (.comps n k) s = priv)
    ∧ (Runs s n x 0x33 k → k.imm = 0 → exec (.rate n k) s = priv)

/-- R179, R180, R92, R76: MODE and RANGE write the intent of their context. The owner's MODE to an active mode withdraws a request for INERT, its
MODE INERT asks for the order of R49; a MODE taken while the slot is held is remembered as such; MODE completes without effect while FLT_LATCH and the other conditions block it, and on a slot that cannot
leave INERT, where it is a safe-state trigger: that of any context, by the model's reading of R92 (assumption 13). The owner's RANGE withdraws a
waiting automatic request; which ranges the codes of the intent then belong to is the model's reading (assumption 12). -/
def Obligations.ModeAndRange : Prop :=
  ∀ (s : State) (n : Chan) (x : Ctx) (k : Fields), (s.context n x).obs = false → (s.chans[n].force.relieved && isRelief n && x != 3) = false →
    k.a = 0 → k.b = 0 → k.c = 0 →
    let d := decided s n x
    let owns := ownerOf s.chans[n] = some x
    let r := (s.context n x).intent.ranges
    let f := s.chans[n].force
    (Runs s n x 0x20 k → ∀ m, k.imm.toNat < 4 → m = modeOf k.imm.toNat → (m = .inert ∨ modeBlocked s n = false) →
      let u := updCtx d n x fun c => { c with intent := c.intent.withMode m, modeHeld := decide (m ≠ .inert) && slotHeld f }
      (cannotLeave f m r = false → ¬owns → exec (.mode n k) s = .next (ranTo u n x false))
        ∧ (cannotLeave f m r = false → owns → m = .inert → exec (.mode n k) s = .next (ranTo (requestInert u n (some x)) n x false))
        ∧ (cannotLeave f m r = false → owns → m ≠ .inert →
            exec (.mode n k) s = .next (ranTo (updForce u n fun f => { f with inertReq := false, parkCtx := none }) n x false))
        ∧ (cannotLeave f m r = true → exec (.mode n k) s = .next (ranTo (safeTrigger d n 2) n x false)))
    ∧ (Runs s n x 0x20 k → 0 < k.imm.toNat → k.imm.toNat < 4 → modeBlocked s n = true → exec (.mode n k) s = .next (ran s n x false id))
    ∧ (Runs s n x 0x21 k → ∀ (i v : Nat) (keepI keepV : Bool), i ≤ 8 → v ≤ 2 → (keepI = true → i = 0) → (keepV = true → v = 0) →
        k.imm = BitVec.ofNat 14 (256 * i + 16 * v + 2 * keepI.toNat + keepV.toNat) →
        (slotHeld f = true ∨ ((keepI || (identWord f 11).testBit i) = true ∧ (keepV || (identWord f 11).testBit (9 + v)) = true)) →
        let new : Ranges := ⟨if keepV then r.v else v, if keepI then r.i else i⟩
        (¬owns → exec (.range n k) s =
          .next (ranTo (updIntent d n x fun t => { t with ranges := new, levelIn := new, clampsIn := new }) n x false))
          ∧ (owns → exec (.range n k) s =
              .next (ranTo (updForce (updIntent d n x fun t => { t with ranges := new }) n fun f => { f with waitingAuto := none }) n x false)))

/-- R181, R182, R53, Table 4.6: LEVEL stages a code, from the extension word or from a register limited to the code range; STROBE selects a
source, fires a group for the coming sample tick, or fires the channel for the owner and transfers its own staged code for another context. -/
def Obligations.LevelAndStrobe : Prop :=
  ∀ (s : State) (n : Chan) (x : Ctx) (k : Fields), (s.context n x).obs = false → (s.chans[n].force.relieved && isRelief n && x != 3) = false →
    k.b = 0 → k.c = 0 →
    let d := decided s n x
    let owns := ownerOf s.chans[n] = some x
    (Runs s n x 0x22 k → ∀ (ext : Bool) (code : Int), k.imm = (if ext then 0x2000 else 0) → (ext = true → k.a = 0) →
      (ext = true → code = k.ext.toInt ∧ -524288 ≤ code ∧ code ≤ 524287) →
      (ext = false → code = max (-524288) (min 524287 (gr (s.context n x) k.a).toInt)) →
      exec (.level n k) s = .next (ranTo (updIntent d n x fun i => { i with staged := some code }) n x ext))
    ∧ (k.a = 0 → Runs s n x 0x23 k →
      (k.imm.toNat ≤ 1 ∨ (8 ≤ k.imm.toNat ∧ k.imm.toNat < 16) →
        exec (.strobeSelect n k) s = .next (ranTo (updIntent d n x fun i => { i with strobe := BitVec.ofNat 4 k.imm.toNat }) n x false))
      ∧ (k.imm = 0x1001 → owns → exec (.strobeFire n k) s = .next (ranTo (updForce d n fun f => { f with strobed := true }) n x false))
      ∧ (k.imm = 0x1001 → ¬owns → exec (.strobeFire n k) s = .next (ran s n x false fun c => { c with intent := strobeIntent c.intent }))
      ∧ ∀ g, g < 8 → k.imm = BitVec.ofNat 14 (0x1008 + g) →
          exec (.strobeFire n k) s = .next (ranTo { d with tr := { d.tr with groupStrobes := d.tr.groupStrobes ||| (1#8 <<< g) } } n x false))

/-- R183 to R187, R57, R62, R78: CLAMP takes a pair whose difference is at least 256 and else sets CLAMP_REJ for the owner; SLEW and RAMP take a
representable step; COMPS takes COMP alone or the settings of its extension word; the owner's CONNECT raises OEN_n on a channel out of INERT or on
its way to the mode of the intent, and does nothing in INERT, on the way there or while FLT_LATCH is 1; its ISOLATE lowers it. That the way to an
active mode counts as out of INERT, and which ranges the codes of RANGE and CLAMP belong to, is the model's reading (assumptions 12 and 85). -/
def Obligations.ClampSlewCompRelay : Prop :=
  ∀ (s : State) (n : Chan) (x : Ctx) (k : Fields) (ext : Bool),
    (s.context n x).obs = false → (s.chans[n].force.relieved && isRelief n && x != 3) = false →
    immBit k 13 = ext → k.c = 0 →
    let d := decided s n x
    let owns := ownerOf s.chans[n] = some x
    let write := fun f : Intent → Intent => ranTo (updIntent d n x f) n x ext
    let a := gr (s.context n x) k.a
    let b := gr (s.context n x) k.b
    let w := if ext then k.ext else a
    let f := s.chans[n].force
    let direct := f.mode == .inert || f.switching || f.seq == .entering .parking
    (Runs s n x 0x24 k → (ext = true → k.a = 0) → k.b = 0 → k.imm.toNat % 8192 = 0 →
      ∀ hi lo : Int, hi = (w.extractLsb' 16 16).toInt → lo = (w.extractLsb' 0 16).toInt →
      (256 ≤ hi - lo → ¬owns → exec (.clamp n k) s = .next (write fun i => { i with clamps := ⟨hi, lo⟩, clampsIn := i.ranges }))
      ∧ (256 ≤ hi - lo → owns → exec (.clamp n k) s = .next (ranTo (updForce (updIntent d n x fun i =>
          { i with clamps := ⟨hi, lo⟩, clampsIn := if direct then i.ranges else f.ranges }) n fun f => { f with satHi := false, satLo := false }) n x ext))
      ∧ (hi - lo < 256 → owns → exec (.clamp n k) s = .next (ranTo (updForce d n fun f => { f with clampRej := true }) n x ext))
      ∧ (hi - lo < 256 → ¬owns → exec (.clamp n k) s = .next (ran s n x ext id)))
    ∧ (Runs s n x 0x25 k → ∀ e m step period,
        (ext = false → k.imm = 0 ∧ step = a.toNat ∧ period = max 1 (min b.toNat 65535)) →
        (ext = true → k.a = 0 ∧ k.b = 0 ∧ k.imm.toNat % 8192 < 16 ∧ step = k.ext.toNat % 65536 * 2 ^ (k.imm.toNat % 16)
          ∧ period = k.ext.toNat / 65536 ∧ 1 ≤ period) →
        slewOf step = (e, m) → exec (.slew n k) s = .next (write fun i => { i with slew := ⟨e, m, period⟩ }))
    ∧ (Runs s n x 0x26 k → (ext = true → k.a = 0) → k.imm.toNat % 8192 = 0 → ∀ (code : Int) (dist e m : Nat),
        (ext = true → code = k.ext.toInt ∧ -524288 ≤ code ∧ code ≤ 524287) →
        (ext = false → code = max (-524288) (min 524287 a.toInt)) →
        dist = (code - (s.context n x).intent.level).natAbs →
        slewAbove (if b = 0 then 524288 else (dist + b.toNat - 1) / b.toNat) = (e, m) →
        exec (.ramp n k) s = .next (write fun i => { i with slew := ⟨e, m, 1⟩, staged := some code }))
    ∧ (Runs s n x 0x27 k → k.a = 0 → k.b = 0 →
        (k.imm.toNat < 16 → exec (.comps n k) s = .next (write fun i => { i with comp := { i.comp with comp := k.imm.toNat } }))
        ∧ (k.imm = 0x2000 → (k.ext.extractLsb' 16 14 : BitVec 14) = 0 → exec (.comps n k) s = .next (write fun i => { i with comp :=
            { trimEn := k.ext.getLsbD 31, swAuto := k.ext.getLsbD 30, autoSteps := i.comp.autoSteps
              compMax := k.ext.toNat / 4096 % 16, swThr := k.ext.toNat / 256 % 16, swWin := k.ext.toNat / 16 % 16, comp := k.ext.toNat % 16 } })))
    ∧ (Runs s n x 0x28 k → k.a = 0 → k.b = 0 → owns →
        (k.imm = 1 → f.fltLatch = false → f.oen = false →
          (f.seq = .idle ∧ (f.mode ≠ .inert ∨ ((s.context n x).intent.mode ≠ .inert ∧ slotHeld f = false)) ∨ ∃ p, f.seq = .leaving p) →
          exec (.connect n k) s = .next (ranTo (updForce d n fun f => { f with oen := true, relay := .making }) n x ext))
        ∧ (k.imm = 1 → ((f.fltLatch = true ∨ f.oen = true) ∨ (∃ p, f.seq = .entering p)
              ∨ (f.seq = .idle ∧ f.mode = .inert ∧ ((s.context n x).intent.mode = .inert ∨ slotHeld f = true))) →
          exec (.connect n k) s = .next (ran s n x ext id))
        ∧ (k.imm = 0 → exec (.isolate n k) s = .next (ranTo (updForce d n oenLow) n x ext)))

/-- R57: the step that SLEW takes is representable and the largest that is not above the request, where the request lies within 1 to 524,288. -/
def Obligations.SlewStepRoundsDown : Prop :=
  ∀ req : Nat, 1 ≤ req → req ≤ 524288 →
    (slewOf req).1 ≤ 10 ∧ 1 ≤ (slewOf req).2 ∧ (slewOf req).2 ≤ 1023 ∧ (slewOf req).2 * 2 ^ (slewOf req).1 ≤ req
      ∧ ∀ e m, e ≤ 10 → m ≤ 1023 → m * 2 ^ e ≤ req → m * 2 ^ e ≤ (slewOf req).2 * 2 ^ (slewOf req).1

/-! ### Krytger: measurement, marks and events -/

/-- R108, R188 to R190, R192: MEAS, APER, AUTOR and PKT write settings of the channel, which apply at the next sample tick; a count form waits
for its results, and completes at once for a count of 0 or in OFF; the close form asks for CLOSED at the next sample tick. -/
def Obligations.MeasurementSettings : Prop :=
  ∀ (s : State) (n : Chan) (x : Ctx) (k : Fields), k.b = 0 → k.c = 0 →
    let d := decided s n x
    let next := s.chans[n].meas.next.getD s.chans[n].meas.cfg
    let set := fun (ext : Bool) (c : MeasCfg) => ranTo (updMeas d n fun m => { m with next := some c }) n x ext
    (Runs s n x 0x29 k → k.a = 0 → k.imm.toNat < 4 →
      exec (.measSmode n k) s = .next (set false { next with smode := smodeOf k.imm.toNat }))
    ∧ (Runs s n x 0x29 k → ∀ count, (k.a = 0 ∧ count < 4096 ∧ k.imm = BitVec.ofNat 14 (0x1000 + count))
          ∨ (k.imm = 0x2000 ∧ count = (gr (s.context n x) k.a).toNat) →
        exec (.measCount n k) s = .next (if count = 0 ∨ next.smode = .off then ran s n x false id
          else ran s n x false fun c => { c with state := .waiting (.meas count true none) }))
    ∧ (Runs s n x 0x2A k → ∀ w ext, (ext = true ∧ k.a = 0 ∧ k.imm = 0x2000 ∧ w = k.ext ∧ k.ext.toNat < 2 ^ 24)
          ∨ (ext = false ∧ k.imm = 0 ∧ w = gr (s.context n x) k.a) → aperReserved w = false →
        exec (.aper n k) s = .next (set ext (aperCfg w next)))
    ∧ (Runs s n x 0x2B k → k.a = 0 →
        (k.imm.toNat < 2 → exec (.autor n k) s = .next (set false { next with auto := immBit k 0 }))
        ∧ ∀ (en : Bool) (hi lo time : Nat), hi ≤ 8 → lo ≤ hi → time < 65536 → (en = true → time ≠ 0) → k.imm = 0x2000 →
            k.ext = BitVec.ofNat 32 (2 ^ 31 * en.toNat + 2 ^ 20 * hi + 2 ^ 16 * lo + time) →
            exec (.autor n k) s = .next (set true { next with auto := en, hi := hi, lo := lo, d := time }))
    ∧ (Runs s n x 0x2D k → k.a = 0 →
        (k.imm = 0 → exec (.pktClose n k) s = .next (ranTo (askClose d n (nextSample s) 0) n x false))
        ∧ ∀ age, 1 ≤ age → age ≤ 1000 → k.imm = BitVec.ofNat 14 (0x1000 + age) →
            exec (.pktAge n k) s = .next (set false { next with ageMs := age }))

/-- R117, R191, R202 to R204, R206, R252: in CONT and TRIG, TAG and MARK date a word of their own for the next sample tick, MARK drives its
marker lines there, EMIT raises source 4n + 3 with an EVENT word at the present tick; ARM and BLANK write the comparators of the channel. -/
def Obligations.MarksEventsComparators : Prop :=
  ∀ (s : State) (n : Chan) (x : Ctx) (k : Fields), k.b = 0 → k.c = 0 →
    let d := decided s n x
    let dated := fun (t : State) (w : Word) =>
      if streaming (s.chans[n].meas.next.getD s.chans[n].meas.cfg).smode && !s.pwr.vigil && !calOwns s.chans[n] then
        updMeas t n fun m => { m with dated := m.dated ++ [⟨nextSample s, 8300, w⟩] }
      else t
    let sel := fun (i : Nat) (f : Comparator → Comparator) =>
      let t := if i = 1 ∨ i = 3 then updCmp d n .a f else d
      if i = 2 ∨ i = 3 then updCmp t n .b f else t
    (Runs s n x 0x2C k → k.imm.toNat < 8 →
      exec (.tag n k) s = .next (ranTo (dated d (resultWord 4 k.imm.toNat ((gr (s.context n x) k.a).toNat % 2 ^ 24))) n x false))
    ∧ (Runs s n x 0x3B k → k.a = 0 → ∀ (ext : Bool) (v lines : Nat), v < 8 → lines < 16 → (ext = true → k.ext.toNat < 2 ^ 24) →
        k.imm = BitVec.ofNat 14 (8192 * ext.toNat + 16 * lines + v) →
        exec (.mark n k) s = .next (ranTo (updChan (dated d (resultWord 4 (8 + v) (if ext then k.ext.toNat else 0))) n fun c =>
          { c with markNext := c.markNext ++ [(nextSample s, BitVec.ofNat 4 lines)] }) n x ext))
    ∧ (Runs s n x 0x37 k → k.a = 0 → k.imm.toNat < 16 →
        exec (.emit n k) s = .next (ranTo (raise (eventWord d n s.tb.now 5 (4 * n.val + 3) k.imm.toNat) (4 * n.val + 3)) n x false))
    ∧ (Runs s n x 0x38 k → ∀ (ext wb : Bool) (w : Word), k.imm = BitVec.ofNat 14 (8192 * ext.toNat + wb.toNat) →
        w = (if ext then k.ext else gr (s.context n x) k.a) → (ext = true → k.a = 0) → cmpValid w = true →
        exec (.arm n k) s = .next (ranTo (updCmp d n (if wb then .b else .a) fun c => { c with next := some w }) n x ext))
    ∧ (Runs s n x 0x39 k → ∀ i, 1 ≤ i → i ≤ 3 →
        (k.a = 0 → k.imm = BitVec.ofNat 14 (0x2000 + i) → k.ext.toNat < 65536 →
          exec (.blankLength n k) s = .next (ranTo (sel i fun c => { c with blankLen := k.ext.toNat }) n x true))
        ∧ (k.imm = BitVec.ofNat 14 i →
            exec (.blank n k) s = .next (ranTo (sel i fun c =>
              { c with commandNext := some (min (gr (s.context n x) k.a).toNat 65535) }) n x false)))

/-! ### Krytger: sequencing and special instructions -/

/-- R193 to R195, R197, R198, R216, R220, R226, R227, R320: PLAY reads its descriptor and holds the execution unit until the first samples are present;
then the playback starts at the next sample tick, UR is cleared, and with WT the context waits for its end; an uncorrectable memory error in the
descriptor suspends with XLATE_DATA and reason ECC. ARMJ arms a target; JSEG while a playback or sweep runs records a jump request for the armed
target, without one starts it, and has no effect with nothing armed; GEN, GSTOP and RATE set the supplier of the next sample tick. -/
def Obligations.PlayArmGenerate : Prop :=
  ∀ (s : State) (n : Chan) (x : Ctx) (k : Fields), (s.context n x).obs = false → (s.chans[n].force.relieved && isRelief n && x != 3) = false →
    ddrAsleep s = false →
    let d := decided s n x
    let c := s.context n x
    let a := (if immBit k 13 then k.ext else gr c k.a) &&& ~~~15
    let operand := k.b = 0 ∧ k.c = 0 ∧ (immBit k 13 = true → k.a = 0)
    let asid := windowAsid s.chans[n].graver x
    let va := fun a : Word => windowVa s.chans[n].graver x a
    let r := cacheXlate d asid (va a)
    (Runs s n x 0x2E k → operand → k.imm.toNat % 8192 < 2 → ∀ q, readDesc s n x a = (.good q, none) →
      exec (.play n k .clean) s = .next (updGraver r n fun g => { g with busy := some (x, .playFill a.toNat q (immBit k 0)), busyExt := immBit k 13 }))
    ∧ (Runs s n x 0x2E k → operand → k.imm.toNat % 8192 < 2 → readDesc s n x a = (.bad, none) →
        exec (.play n k .clean) s = .next (suspend d n x .illegal))
    ∧ (Runs s n x 0x2E k → operand → k.imm.toNat % 8192 < 2 → ∀ q, readDesc s n x a = (q, none) →
        exec (.play n k .uncorrectable) s = .next (suspendXlate (eccMetAt d n x (va a) .uncorrectable) n x false false false (va a) eccFault))
    ∧ (∀ (addr : Nat) (q : Desc) (wt : Bool), s.chans[n].graver.busy = some (x, .playFill addr q wt) → ownerOf s.chans[n] = some x →
        ∀ ws, readBlock s n x (segmentBlock q 0) = (ws, none) →
        exec (.playFillComplete n .clean) s = .next (finishBusy (updCtx (updGraver (cacheWindow s n x (segmentBlock q 0)) n fun g =>
            { g with buf := ws, bufOwner := some x, sweptList := none, prefetchStalled := false, prefetchEcc := false }) n x fun c =>
          { c with startNext := some (.play { addr := addr, desc := q, passes := if q.loops = 0 then none else some q.loops })
                   stopGen := false, jumpReq := none, ur := false, state := if wt then .waiting .play else c.state }) n x))
    ∧ (Runs s n x 0x2F k → operand → k.imm.toNat % 8192 = 0 → ∀ q, readDesc s n x a = (.good q, none) →
        exec (.armj n k .clean) s = .next (ranTo (updCtx r n x fun c => { c with armed := some ⟨a.toNat, q, false, false⟩ }) n x (immBit k 13)))
    ∧ (Runs s n x 0x30 k → k.a = 0 → k.b = 0 → k.c = 0 → k.imm = 0 →
        (c.armed = none → exec (.jseg n k .clean) s = .next (ran s n x false id))
        ∧ (supplierRuns c = false → ∀ t q, c.armed = some t → readDesc s n x (word t.addr) = (.good q, none) →
            exec (.jseg n k .clean) s = .next (ranTo (startArmed (cacheXlate d asid (va (word t.addr))) n x t.addr q) n x false))
        ∧ (supplierRuns c = true → ∀ t, c.armed = some t → c.jumpReq = none →
            exec (.jseg n k .clean) s = .next (ran s n x false fun c => { c with jumpReq := some ⟨nextSample s, requestLate c, false⟩ })))
    ∧ (Runs s n x 0x32 k → ∀ shape p, shape ≤ 4 → p < 1024 → k.imm = BitVec.ofNat 14 (1024 * shape + p) →
        exec (.gen n k) s = .next (ran s n x false fun c => { c with
          lfsr := if 3 ≤ shape ∧ gr c k.a ≠ 0 then gr c k.a else c.lfsr
          startNext := some (.gen { shape := shape, offset := (gr c k.c).toInt, amp := min ((gr c k.b).toNat % 2 ^ 20) 524287
                                    phase := BitVec.ofNat 32 (p * 2 ^ 22), inc := gr c k.a })
          stopGen := false, jumpReq := none, ur := false }))
    ∧ (Runs s n x 0x32 k → k.a = 0 → k.b = 0 → k.c = 0 → k.imm = 0x2000 → c.startNext = none →
        exec (.gstop n k) s = .next (ran s n x false fun c => { c with stopGen := true }))
    ∧ (Runs s n x 0x33 k → operand → k.imm.toNat % 8192 = 0 →
        exec (.rate n k) s = .next (ran s n x (immBit k 13) fun c => { c with rate := if immBit k 13 then k.ext else gr c k.a }))

/-- R196, R234 to R236, R218, R194: SWEEP of 0 entries completes at once with UR cleared; otherwise it checks the first entry and holds the
execution unit until the first entries are present, or completes at once where its list still stands in the buffers. A jump head, a prefetch block
and a sweep entry that is due, with the report of the clamp detector for its tick, follow for the context in control. -/
def Obligations.SweepsAndFills : Prop :=
  ∀ (s : State) (n : Chan) (x : Ctx) (k : Fields),
    let d := decided s n x
    let c := s.context n x
    let a := (if immBit k 13 then k.ext else gr c k.a) &&& ~~~7
    let count := (gr c k.b).toNat
    let e := fun pa : Nat => decodeEntry (memReadWord s.mm.mem pa) (memReadWord s.mm.mem (pa + 4))
    let owns := ownerOf s.chans[n] = some x
    let cached := fun (t : State) (va : Nat) => cacheXlate t (windowAsid s.chans[n].graver x) va
    let fetches := ddrAsleep s = false ∧ s.chans[n].graver.prefetchStalled = false ∧ s.chans[n].graver.prefetchEcc = false
    (c.obs = false → (s.chans[n].force.relieved && isRelief n && x != 3) = false → ddrAsleep s = false →
      Runs s n x 0x31 k → k.c = 0 → (immBit k 13 = true → k.a = 0) → k.imm.toNat % 8192 < 2 →
      (count = 0 → exec (.sweep n k .clean) s = .next (ran s n x (immBit k 13) fun c => { c with ur := false }))
      ∧ (count ≠ 0 → (¬owns ∨ listPresent s.chans[n].graver x a.toNat count = false) → ∀ va pa q, windowRead s n x a = (va, .ok pa) → e pa = some q →
          exec (.sweep n k .clean) s = .next (updGraver (cached d va) n fun g =>
            { g with busy := some (x, .sweepFill a.toNat count (immBit k 0)), busyExt := immBit k 13 }))
      ∧ (count ≠ 0 → owns → listPresent s.chans[n].graver x a.toNat count = true → ∀ q, heldEntry s.chans[n].graver a.toNat = some q →
          exec (.sweep n k .clean) s = .next (ranTo (updCtx (updGraver d n fun g => { g with bufOwner := some x, prefetchEcc := false }) n x fun c =>
            { c with startNext := some (.sweep { list := a.toNat, count := count }), stopGen := false, jumpReq := none, ur := false
                     state := if immBit k 0 then .waiting .sweep else c.state }) n x (immBit k 13)))
      ∧ (count ≠ 0 → ¬owns → ∀ va pa, windowRead s n x a = (va, .ok pa) → e pa = none → exec (.sweep n k .clean) s = .next (suspend d n x .illegal)))
    ∧ (∀ (list count : Nat) (wt : Bool), s.chans[n].graver.busy = some (x, .sweepFill list count wt) → owns → ddrAsleep s = false →
        ∀ ws, readBlock s n x (entryBlock { list := list, count := count } 0) = (ws, none) →
        Completes (.sweepFillComplete n .clean) s fun t =>
          t.chans[n].graver.busy = none ∧ t.chans[n].graver.buf = ws ∧ t.chans[n].graver.bufOwner = some x
            ∧ (c.haltReq = false → inImm s.chans[n].graver x = false →
                (t.context n x).startNext = some (.sweep { list := list, count := count }) ∧ (t.context n x).ur = false))
    ∧ (∀ (arm : Armed) (ws : List (Nat × Word)), fetches → c.armed = some arm → arm.headDone = false → readBlock s n x (headAddrs arm.desc) = (ws, none) →
        Completes (.jumpHeadCopyDone n x .clean) s fun t =>
          t.chans[n].graver.head = ws ∧ (t.context n x).armed = some { arm with headHeld := true, headDone := true } ∧ t.mm = s.mm ∧ t.queues = s.queues)
    ∧ (owns → c.startNext = none → ∀ (w : Sweep) (q : Entry), c.supplier = .sweep w → w.staged = none → w.entry = none → w.hold = none →
        w.index < w.count → entryPresent s.chans[n].graver x w w.index = true → entryWords s.chans[n].graver x w w.index = some q →
        ∀ clamping, exec (.sweepEntryStart n clamping) s = .next (updCtx s n x fun c => { c with supplier := .sweep { w with staged := some (q, clamping) } }))
    ∧ (owns → s.chans[n].graver.bufOwner = some x → fetches → ∀ (p : Playback) (q : Desc) (i : Nat),
        c.supplier = .play p → nextFetch s.chans[n].graver x p = .block q i →
        ∀ ws, readBlock s n x (segmentBlock q i) = (ws, none) → ws ≠ [] →
        exec (.prefetchFill n .clean) s = .next (updGraver (cacheWindow s n x (segmentBlock q i)) n fun g =>
          { g with buf := bufInsert (g.buf.filter fun e => !(ws.any fun b => b.1 == e.1)) ws, sweptList := none }))

/-- R207 to R210: LDID is refused with its STAT, else it holds the execution unit; CAL belongs to context 3 and returns the refusal code of its
request; RDS reads a register without clearing it, its selector 9 snapshots the latest values for the context; RDT reads the counter, pops a
capture, or reads the instant of the last result, with 0xFFFF_FFFF twice where there is none. -/
def Obligations.SpecialInstructions : Prop :=
  ∀ (s : State) (n : Chan) (x : Ctx) (k : Fields),
    let d := decided s n x
    (Runs s n x 0x3C k → k.b = 0 → k.c = 0 → k.imm = 0 → ownerOf s.chans[n] = some x → (s.context n x).obs = false →
      (s.chans[n].force.relieved && isRelief n && x != 3) = false →
      (∀ stat, ldidStat s.chans[n].force = some stat →
        exec (.ldid n k) s = .next (ran s n x false fun c => setGr c k.a (BitVec.ofNat 32 (stat * 2 ^ 24))))
      ∧ (ldidStat s.chans[n].force = none →
          exec (.ldid n k) s = .next (updGraver (updForce d n fun f => { f with ldid := some ⟨0, 0, [], false⟩ }) n fun g =>
            { g with busy := some (x, .ldid k.a), busyExt := false })))
    ∧ (Runs s n x 0x3D k → k.b = 0 → k.c = 0 → k.imm.toNat < 2 →
        (x ≠ 3 → exec (.cal n k) s = .next (suspend d n x .priv))
        ∧ (x = 3 → ddrAsleep s = false → ∀ code t, calRequest d n (if k.imm = 0 then .full else .quick) = (code, t) →
            exec (.cal n k) s = .next (ranTo (updCtx t n x fun c => setGr c k.a (word code)) n x false)))
    ∧ (Runs s n x 0x3E k → k.b = 0 → k.c = 0 →
        (k.imm = 0x000E → exec (.rds n k) s = .next (ran s n x false fun c => setGr c k.a (wordI c.intent.level)))
        ∧ (k.imm = 0x0009 → exec (.rds n k) s =
            .next (ranTo (updCtx (snapLatest d n (ctxPath x)) n x fun c => setGr c k.a s.chans[n].meas.latest.seq) n x false))
        ∧ (k.imm = 0x000A → exec (.rds n k) s = .next (ran s n x false fun c => setGr c k.a s.chans[n].meas.snaps[ctxPath x].v)))
    ∧ (Runs s n x 0x3E k → k.c = 0 →
        (k.imm = 0x2000 → exec (.rdt n k) s = .next (ran s n x false fun c =>
          setGr (setGr c k.a (word s.tb.now)) k.b (word (s.tb.now / 2 ^ 32))))
        ∧ (k.imm = 0x2001 → ∀ t rest, s.chans[n].cmpA.fifo = t :: rest →
            exec (.rdt n k) s = .next (ranTo (updCtx (updCmp d n .a fun c => { c with fifo := rest }) n x fun c =>
              setGr (setGr c k.a (word t)) k.b (word (t / 2 ^ 32))) n x false))
        ∧ (k.imm = 0x2003 → s.chans[n].meas.lastResult = none →
            exec (.rdt n k) s = .next (ran s n x false fun c => setGr (setGr c k.a 0xFFFFFFFF) k.b 0xFFFFFFFF))
        ∧ (k.imm = 0x2003 → ∀ t, s.chans[n].meas.lastResult = some t →
            exec (.rdt n k) s = .next (ran s n x false fun c => setGr (setGr c k.a (word t)) k.b (word (t / 2 ^ 32)))))

/-- R142, R146, R147: START gives a HALTED context cleared registers, counters and flags, its vector and the intent in force; HALT takes an
instruction boundary; GO starts context 2 from the immediate buffer; CLEAR_IMM empties it; GV_IMM appends a word, up to 16, and is refused while
the buffer executes. -/
def Obligations.GraverControl : Prop :=
  ∀ (s : State) (p : Path) (n : Chan) (x : Ctx) (v : Word), s.fw.recovery = false →
    let g := s.chans[n].graver
    let fields := fun g : Graver => { g with
      wbase := v.extractLsb' 16 16, asid := v.extractLsb' 12 4, obsNext := v.getLsbD 11, ctxSel := v.extractLsb' 8 2 }
    let started := fun (pc : Nat) (c : Context) => { c with
      g := Vector.replicate 16 0, lc := Vector.replicate 4 {}, z := false, n := false, c := false, v := false, pc := BitVec.ofNat 32 pc
      state := .ready, obs := v.getLsbD 11, intent := { s.chans[n].force.applied with staged := none }, supplier := .none
      startNext := none, stopGen := false, rate := 0, armed := none, jumpReq := none, haltReq := false, yields := 0, modeHeld := false }
    (ctrlRefused g v = false → v.toNat % 16 = 1 → v.toNat / 256 % 4 = x.val → g.ctx[x].state = .halted →
      exec (.gvStart p n v) s = .next (updCtx (updGraver s n fields) n x (started (64 * n.val + 16 * x.val))))
    ∧ (ctrlRefused g v = true → v.toNat % 16 = 1 → exec (.gvStart p n v) s = .next (updGraver s n fun g => { g with ctrlRej := true }))
    ∧ (ctrlRefused g v = false → v.toNat % 16 = 2 → v.toNat / 256 % 4 = x.val → g.busy = none →
        exec (.gvHalt p n v) s = .next (haltCtx (updGraver s n fields) n x))
    ∧ (ctrlRefused g v = false → v.toNat % 16 = 3 → g.ctx[(2 : Ctx)].state = .halted → g.imm ≠ [] →
        exec (.go p n v) s = .next (updGraver (updCtx (updGraver s n fields) n 2 (started 0)) n fun g => { g with immBusy := true }))
    ∧ (ctrlRefused g v = false → v.toNat % 16 = 4 → g.immBusy = false →
        exec (.clearImm p n v) s = .next (updGraver s n fun g => { fields g with imm := [] }))
    ∧ (g.immBusy = false → g.imm.length < 16 →
        exec (.gvImmWrite p n v) s = .next (updGraver s n fun g => { g with imm := g.imm ++ [v] }))
    ∧ (g.immBusy = false → 16 ≤ g.imm.length → exec (.gvImmWrite p n v) s = .next (updGraver s n fun g => { g with immOvf := true }))
    ∧ (g.immBusy = true → exec (.gvImmWrite p n v) s = .next (updGraver s n fun g => { g with immRej := true }))

/-! ### Comparators and the Tracer -/

/-- R244, R249 to R252: a decision of an enabled comparator that no blank holds takes one of the changes of Table 7.1; an excursion captures its
tick while fewer than four are held, and sets its latch; one dated before the last sample tick is judged by what the comparator stood at before it, and
leaves a state that the tick itself set; a blank that has run down ends; a write of CMP_STATUS clears what it names, and a
cleared latch then holds whether the comparator is in its state. -/
def Obligations.ComparatorDecisions : Prop :=
  ∀ (s : State) (n : Chan) (c : Cmp) (dst : CmpState) (tick : Nat), tick ≤ s.tb.now →
    let k := cmpOf s.chans[n] c
    ((k.was = none ∨ s.tb.lastSample.any (tick < ·) = false) → cmpBlanked k = false → k.cfg.getLsbD 2 = true → cmpChange k.state dst = true →
      s.pwr.vigil = false →
      Completes (.comparatorDecision n c tick dst) s fun t =>
        let k' := cmpOf t.chans[n] c
        k'.state = dst ∧ k'.cfg = k.cfg
          ∧ k'.latAbove = (k.latAbove || decide (dst = .above)) ∧ k'.latBelow = (k.latBelow || decide (dst = .below))
          ∧ (dst = .inside → k'.fifo = k.fifo ∧ t.tr = s.tr)
          ∧ (dst ≠ .inside → dst ≠ .unresolved → k'.fifo = (if k.fifo.length < 4 then k.fifo ++ [tick] else k.fifo)
              ∧ k'.ovf = (k.ovf || decide (4 ≤ k.fifo.length)))
          ∧ t.mm = s.mm ∧ t.queues = s.queues ∧ t.chans[n].force = s.chans[n].force)
    ∧ (∀ w, k.was = some w → s.tb.lastSample.any (tick < ·) = true → w.blanked = false → w.cfg.getLsbD 2 = true → cmpChange w.state dst = true →
        s.pwr.vigil = false → Completes (.comparatorDecision n c tick dst) s fun t =>
          (cmpOf t.chans[n] c).state = (if w.kept then dst else k.state) ∧ t.mm = s.mm ∧ t.queues = s.queues)
    ∧ (k.changeBlank = some 0 → exec (.blankExpiry n c .change) s = .next (updCmp s n c fun k => { k with changeBlank := none }))
    ∧ (k.commandBlank = some 0 → exec (.blankExpiry n c .command) s = .next (updCmp s n c fun k => { k with commandBlank := none }))
    ∧ (k.modeBlank = some 0 → exec (.blankExpiry n c .mode) s = .next (updCmp s n c fun k => { k with modeBlank := none }))
    ∧ ∀ (p : Path) (v : Word), s.fw.recovery = false → exec (.comparatorLatchClear p n v) s = .next (
        let clear := fun (b : Nat) (k : Comparator) => { k with
          latAbove := if v.getLsbD (b + 1) then decide (k.state = .above) else k.latAbove
          latBelow := if v.getLsbD (b + 2) then decide (k.state = .below) else k.latBelow
          sat := k.sat && !v.getLsbD (b + 7), ovf := k.ovf && !v.getLsbD (b + 6) }
        updChan s n fun c => { c with cmpA := clear 0 c.cmpA, cmpB := clear 16 c.cmpB })

/-- R30, R257, R259, R261, R266, R270: a slot boundary brings the counter to its tick and takes what was due there: the rest waits for the boundary
whose capture instant it came before; a DIRECT channel forwards its oldest token and counts it; an
edge that a pin's EDGE field selects raises source 312 + p, a software injection source 304 + k; a write of 0 clears MERGE; an acknowledgement
frees its vector where no source of it is pending. R269, R270: an enabled source that is not pending becomes pending, and its vector is sent unless an unacknowledged message of
that vector is out; the message waits while its MSI-X entry masks it or MSI-X is not enabled; a source that is pending or not enabled changes nothing. -/
def Obligations.TracerAndInterrupts : Prop :=
  (∀ (s : State) (p : Path) (v : Word),
      (s.tb.lock = true → nextSlot s < nextSample s → Completes .slotBoundary s fun t =>
        let slot := nextSlot s / 16
        t.tb = { s.tb with now := nextSlot s, lastSlot := some (nextSlot s) } ∧ t.tr.grpWrite = s.tr.grpWrite.filter (fun w => slot < w.2)
          ∧ t.tr.grpTokens = s.tr.grpTokens.filter (fun k => slot < k.2) ∧ t.tr.timedTokens = s.tr.timedTokens.filter (fun k => slot < k.2)
          ∧ t.tr.ingress = s.tr.ingress.filter (fun i => slot < i.slot))
      ∧ (∀ (tc : Fin 128) (raised : Nat) (rest : List Nat), s.tr.tc[tc].queue = raised :: rest →
          Completes (.directForward tc) s fun t =>
            t.tr.tc[tc] = { s.tr.tc[tc] with queue := rest, flag := true, count := (s.tr.tc[tc].count + 1) % 65536 }
              ∧ t.tb = s.tb ∧ t.queues = s.queues)
      ∧ (∀ (pin : Fin 8) (rising : Bool) (tick : Nat), tick ≤ s.tb.now →
          (eviSelected s.tr.evi pin.val rising = true → exec (.eviEdge pin rising tick) s = .next (raiseAt s (312 + pin.val) (some tick)))
          ∧ (eviSelected s.tr.evi pin.val rising = false → exec (.eviEdge pin rising tick) s = .next s))
      ∧ (∀ k, k < 16 → v = BitVec.ofNat 32 (2 ^ k) → s.fw.recovery = false → exec (.softwareInject p v) s = .next (raise s (304 + k)))
      ∧ (v.toNat % 65536 = 0 → s.fw.recovery = false → exec (.tcMergeWrite p v) s = .next (
          let i : Fin 128 := pathTc s p
          { s with tr := { s.tr with tc := s.tr.tc.set i { s.tr.tc[i] with merge := 0 } } }))
      ∧ ((s.tr.im.any fun e => e.pend && e.vector.toNat == v.toNat % 64) = false → s.fw.recovery = false →
          exec (.imAck p v) s = .next { s with
            tr := { s.tr with unacked := s.tr.unacked.filter (· != v.toNat % 64) }
            hht := { s.hht with events := s.hht.events.filter fun e => e.1 != v.toNat % 64 } }))
  ∧ (∀ (s : State) (src : Fin 320),
      let e := s.tr.im[src]
      let v := e.vector.toNat
      (e.en = true → e.pend = false → s.tr.unacked.contains v = false → vectorMasked s.tr v = false → s.tr.msixEn = true →
        (raiseIm s src.val).tr = { s.tr with im := s.tr.im.set src { e with pend := true }, unacked := s.tr.unacked ++ [v], sent := s.tr.sent ++ [v] })
      ∧ (e.en = true → e.pend = false → s.tr.unacked.contains v = false → vectorMasked s.tr v = true ∨ s.tr.msixEn = false → s.tr.masked.contains v = false →
        (raiseIm s src.val).tr = { s.tr with im := s.tr.im.set src { e with pend := true }, unacked := s.tr.unacked ++ [v], masked := s.tr.masked ++ [v] })
      ∧ (e.en = true → e.pend = false → s.tr.unacked.contains v = true →
          raiseIm s src.val = { s with tr := { s.tr with im := s.tr.im.set src { e with pend := true } } })
      ∧ (e.en = false ∨ e.pend = true → raiseIm s src.val = s))

/-! ### Frames, Hatch units and the collector -/

/-- R272, R273, R276, R283, R286: EN = 1 with a grid inside its limits arms the frames, in AT mode at the first boundary of the grid that is not
before the next sample tick; a grid outside its limits is refused; EN = 1 while an EN = 0 has yet to apply begins the frames again behind their final
boundary; EN = 0 ends a running grid at the next sample tick; SNAP is taken while frames are disabled and refused while they are enabled; start and stop of the gates apply at the next sample tick, the stop prevailing. -/
def Obligations.FrameControl : Prop :=
  ∀ (s : State) (p : Path) (v : Word), s.fw.recovery = false →
    let token := v.getLsbD 1
    let idle := s.ht.en = false ∧ s.ht.armed = false ∧ s.ht.run = false ∧ s.pf.keyend = false
    let k := if nextSample s ≤ s.ht.start then 0 else (nextSample s - s.ht.start + s.ht.len - 1) / s.ht.len
    (idle → v.getLsbD 0 = true → v.getLsbD 2 = false →
      (gridOk s.ht token = true → exec (.framesEnable p v) s = .next { s with ht := { s.ht with
        en := true, armed := true, disarm := false, again := false, token := token, num := if token then 0 else k
        next := if token then 0 else s.ht.start + k * s.ht.len } })
      ∧ (gridOk s.ht token = false → exec (.framesEnable p v) s = .next { s with ht := { s.ht with frmRej := true } }))
    ∧ (s.ht.en = false → s.ht.run = true → s.pf.keyend = false → v.getLsbD 0 = true → v.getLsbD 2 = false → token = s.ht.token →
        (gridOk s.ht token = true → s.ht.armed = false → exec (.framesEnable p v) s = .next { s with ht := { s.ht with en := true, again := true } })
        ∧ (gridOk s.ht token = false → exec (.framesEnable p v) s = .next { s with ht := { s.ht with frmRej := true } }))
    ∧ (s.ht.en = true → s.ht.armed = false → s.ht.again = false → v.getLsbD 0 = false → token = s.ht.token → v.getLsbD 2 = false →
        exec (.framesDisable p v) s = .next { s with ht := { s.ht with
          en := false, endAt := some (nextSample s), cut := decide (nextSample s < s.ht.next), next := min s.ht.next (nextSample s) } })
    ∧ (idle → v.toNat % 8 = 4 → s.ht.token = false → exec (.snap p v) s = .next { s with ht := { s.ht with snapReq := true } })
    ∧ (s.ht.en = true → v.getLsbD 0 = true → v.getLsbD 2 = true → token = s.ht.token →
        exec (.snap p v) s = .next { s with ht := { s.ht with snapRej := true } })
    ∧ exec (.hatchStart p) s = .next { s with ht := { s.ht with gateReq := (true, s.ht.gateReq.2) } }
    ∧ exec (.hatchStop p) s = .next { s with ht := { s.ht with gateReq := (s.ht.gateReq.1, true) } }

/-- R275 to R277, R284, R285, R287, Table 8.10: the first boundary starts frame NUM without a record, a later one ends its frame, which the
collector then holds with 76 empty slots; a changed unit configuration is staged for the next boundary and one with a range that does not exist
is refused; device units become ready, and what was delayed past the boundary counts to the following frame; an empty slot becomes absent at the
timeout, and a clear zeroes the counts. R287, R288: a slot that is
ready for the frame whose boundary closed its records is stored there and its units give up their closed buffers; the oldest frame leaves the
collector once none of its slots is empty. -/
def Obligations.BoundariesAndCollector : Prop :=
  (∀ (s : State) (p : Path) (v : Word) (u : Fin 144),
      let tick := s.ht.next
      let k := s.ht.units[u]
      (boundaryDue s tick = true → tick ≤ nextSample s → s.ht.armed = true → Completes .frameBoundary s fun t =>
        t.tb.now = max s.tb.now tick ∧ t.ht.armed = false ∧ t.ht.run = true ∧ t.ht.frameStart = tick ∧ t.ht.next = tick + s.ht.len
          ∧ t.ht.num = s.ht.num ∧ t.ht.held = s.ht.held)
      ∧ (boundaryDue s tick = true → tick ≤ nextSample s → s.ht.armed = false → s.ht.endAt = none → Completes .frameBoundary s fun t =>
          t.ht.num = s.ht.num + 1 ∧ t.ht.run = s.ht.run ∧ t.ht.frameStart = tick ∧ t.ht.next = tick + s.ht.len
            ∧ ∃ f, t.ht.held = s.ht.held ++ [f] ∧ f.number = s.ht.num ∧ f.start = s.ht.frameStart ∧ f.boundary = tick
              ∧ f.slots = Vector.replicate 76 .empty)
      ∧ ((s.path p).unitIdx = u.val → s.fw.recovery = false → unitRangeOk u (v.toNat / 2 ^ 16 % 16) = false →
          exec (.hatchUnitCfgWrite p false v) s = .next { s with ht := { s.ht with units := s.ht.units.set u { k with cfgRej := true } } })
      ∧ ((s.path p).unitIdx = u.val → s.fw.recovery = false → k.staged = none → k.cfg.base ≠ (v.extractLsb' 0 24).toInt →
          exec (.hatchUnitCfgWrite p true v) s = .next { s with ht := { s.ht with
            units := s.ht.units.set u { k with staged := some { k.cfg with base := (v.extractLsb' 0 24).toInt } } } })
      ∧ (s.fw.recovery = false → exec (.collStatClr p) s = .next { s with ht := { s.ht with incomplete := 0, late := 0, latemeas := 0 } })
      ∧ (∀ (f : HeldFrame) (rest : List HeldFrame), s.ht.held = f :: rest → f.deviceReady = false →
          exec .deviceUnitReady s = .next { s with ht := { arriveDelayed f.boundary s.ht with held := { f with deviceReady := true } :: rest } })
      ∧ (∀ (f : HeldFrame) (rest : List HeldFrame), s.ht.held = f :: rest → f.slots.any (· == .empty) = true →
          Completes .collectorTimeout s fun t => ∃ f', t.ht.held = f' :: rest ∧ f'.number = f.number ∧ f'.slots.any (· == .empty) = false
            ∧ ∀ slot : Fin 76, f.slots[slot] ≠ .empty → f'.slots[slot] = f.slots[slot]))
  ∧ (∀ s : State,
      (∀ (slot : Fin 76) (f : HeldFrame) (rest : List HeldFrame), s.ht.held = f :: rest → f.slots[slot] = .empty → slotReady s slot f = true →
        (∀ u ∈ slotUnits slot, s.ht.units[u].closed.isSome = true ∧ s.ht.units[u].closedAt = f.boundary) →
        Completes (.collectorSlotStore slot) s fun t =>
          (∀ u ∈ slotUnits slot, t.ht.units[u].closed = none) ∧ ∃ ws bufs, t.ht.held = { f with slots := f.slots.set slot (.stored ws bufs) } :: rest
            ∧ bufs.length = (slotUnits slot).length ∧ t.queues = s.queues ∧ t.chans = s.chans)
      ∧ (∀ (f : HeldFrame) (rest : List HeldFrame), s.ht.held = f :: rest → f.slots.any (· == .empty) = false →
          Completes .frameEmit s fun t =>
            t.ht = { s.ht with held := rest, incomplete := if absentCount f = 0 then s.ht.incomplete else min 255 (s.ht.incomplete + 1) }
              ∧ t.pf.summaryHead = Config.shake256 ([0x21] ++ digestBytes s.pf.summaryHead ++ chainBytes (summaryPackets f).flatten)
              ∧ t.mm = s.mm ∧ t.chans = s.chans))

/-! ### Proofs -/

/-- R333, R339 to R341, R344, R348, Table 10.4: PF_CTRL is taken while frames are disabled and refused while they are enabled; a Proof is sealed
while fewer than eight are held, is signed with the next index of the device key, and is written; a read pointer outside the ring's data is
refused; a nonce that expires is gone. -/
def Obligations.ProofSequence : Prop :=
  ∀ (s : State) (p : Path) (v : Word),
    ((s.ht.en || s.ht.armed || s.ht.run) = false → s.fw.recovery = false →
      exec (.pfCtrlWrite p v) s = .next { s with pf := { s.pf with en := v.getLsbD 31, frames := v.toNat % 65536 } })
    ∧ ((s.ht.en || s.ht.armed || s.ht.run) = true → s.fw.recovery = false → exec (.pfCtrlWrite p v) s = .next { s with pf := { s.pf with ctrlRej := true } })
    ∧ (∀ (w : Interval) (e : EndState) (rest : List Interval), s.pf.ended = w :: rest → w.atEnd = some e → w.handed = true → s.pf.held.length < 8 →
        Completes .proofSeal s fun t => ∃ q, t.pf.held = s.pf.held ++ [q] ∧ q.interval = w ∧ q.seq = s.pf.proofSeq ∧ q.signed = false
          ∧ q.sigIndex = none ∧ t.pf.proofSeq = s.pf.proofSeq + 1 ∧ t.pf.ended = rest ∧ t.ht = s.ht ∧ t.mm = s.mm)
    ∧ (∀ (q : Proof) (rest : List Proof) (fails : Nat), s.pf.held = q :: rest → q.sigIndex = none → s.pf.signing = false → s.pf.ready = true →
        mpStopped s = false → faultWork s = false → s.pf.sigNext + 17 < 2 ^ 40 → s.pf.sigNext < s.pf.bound →
        Completes (.proofSignStart fails) s fun t => t.pf.signing = true ∧ t.pf.sigNext = s.pf.sigNext + 1 ∧ t.pf.bound = s.pf.bound
          ∧ t.pf.held = { q with prevDigest := prevDigest s.pf, sigIndex := some s.pf.sigNext } :: rest ∧ t.mm = s.mm)
    ∧ (∀ (q : Proof) (rest : List Proof), s.pf.held = q :: rest → q.sigIndex.isSome = true → q.signed = false → s.pf.signing = true →
        Completes .proofSigned s fun t => t.pf.signing = false ∧ t.pf.held = { q with signed := true } :: rest ∧ t.mm = s.mm)
    ∧ (∀ (q : Proof) (rest : List Proof) (pas : List Nat), s.pf.held = q :: rest → q.signed = true → s.pf.ring.en = true → s.pf.ring.fault = false →
        ddrAsleep s = false → mpStopped s = false → faultWork s = false → s.pf.ring.lacks 23808 = false → ringPas s.mm s.pf.ring 5952 s.pf.ring.wr [] = .inl pas →
        Completes .proofWritten s fun t => t.pf.held = rest ∧ t.pf.ring.wr = s.pf.ring.wr + 23808 ∧ t.pf.seq = s.pf.seq + 1
          ∧ (Memory.wf s.mm.mem = true → Memory.wf t.mm.mem = true) ∧ ∀ a, (∀ pa ∈ pas, a < pa ∨ pa + 4 ≤ a) → memRead t.mm.mem a = memRead s.mm.mem a)
    ∧ (v.getLsbD 31 = true → s.fw.recovery = false → s.pf.ring.en = false → ringRefused { s.pf.ring with asid := v.extractLsb' 24 4, log2size := v.toNat % 32 } 30 = false →
        Completes (.proofRingEnable p v) s fun t => t.pf.ring.en = true ∧ t.pf.ring.wr = 0 ∧ t.pf.ring.rd = 0 ∧ t.chans = s.chans ∧ t.mm = s.mm)
    ∧ (s.hht.stream.getLsbD 8 = false → s.fw.recovery = false → ∀ rd, rd = v.toNat * 2 ^ 32 + s.pf.ring.rdLo.toNat → s.pf.ring.rd ≤ rd → rd ≤ s.pf.ring.wr → rd % 4 = 0 →
        exec (.proofRingRdCommit p v) s = .next { s with pf := { s.pf with ring := { s.pf.ring with rd := rd } } })
    ∧ (let kept := s.pf.nonces.filter fun k => k.1 != p || decide (k.2.2 ≤ s.tb.now ∧ s.tb.now < k.2.2 + 96000000000)
       exec (.nonceExpiry p) s = .next { s with pf := { s.pf with nonces := kept } })

/-! ### Queues and rings -/

/-- R296 to R298, R302, R305 to R307: commands and configuration of the queue that the path addresses. ENABLE of a DISABLED queue empties the
open packet and clears DROP; DISABLE of an empty queue disables it; FLUSH discards and counts the committed words; DROP_REM discards the rest of
the packet that the path reads; a configuration is taken in DISABLED where it overlaps no other queue and is refused otherwise; reading the peak
returns it and restarts it from the occupancy. -/
def Obligations.QueueCommands : Prop :=
  ∀ (s : State) (p : Path) (v : Word) (q : Fin 256), (s.path p).qIdx = q.val → queueWritable p q = true → s.fw.recovery = false →
    let k := s.queues[q]
    let told := fun k : Queue => { k with wmie := v.getLsbD 12, drn := v.getLsbD 11, eng := v.toNat / 256 % 8 }
    (v.toNat % 16 = 1 → k.state = .disabled → exec (.queueEnable p v) s =
      .next { s with queues := s.queues.set q { told k with state := .enabled, discarding := true, drop := false, p := 0, opened := [] } })
    ∧ (v.toNat % 16 = 2 → k.state = .enabled → k.committed = [] → k.opened = [] → k.p = 0 →
        Completes (.queueDisable p v) s fun t => t.queues[q].state = .disabled ∧ t.queues[q].committed = [] ∧ t.tr = s.tr
          ∧ ∀ r : Fin 256, r ≠ q → t.queues[r] = s.queues[r])
    ∧ (v.toNat % 16 = 3 → k.state = .enabled → k.draining = 0 → k.headPartial = false → k.hwm = 0 →
        Completes (.queueFlush p v) s fun t => t.queues[q].committed = [] ∧ t.queues[q].state = .enabled
          ∧ t.queues[q].discnt = min (2 ^ 32 - 1) (k.discnt + k.committed.length) ∧ t.queues[q].opened = k.opened)
    ∧ (v.toNat % 16 = 4 → k.state = .enabled → k.midPaths.contains p = true → k.hwm = 0 →
        Completes (.queueDropRem p v) s fun t => t.queues[q].committed = (splitUnit k.committed).2
          ∧ t.queues[q].midPaths = [] ∧ t.queues[q].headPartial = false ∧ t.chans = s.chans)
    ∧ (let size := v.toNat / 2 ^ 16 % 2 ^ 15
       let base := v.toNat % 2 ^ 14
       (k.state = .disabled → overlapsQueue s q base size = false → base + size ≤ 16384 → 5 ≤ size →
          exec (.queueCfgWrite p v) s = .next { s with queues := s.queues.set q { k with base := base, size := size } })
       ∧ (k.state ≠ .disabled ∨ overlapsQueue s q base size = true ∨ 16384 < base + size →
          exec (.queueCfgWrite p v) s = .next { s with queues := s.queues.set q { k with cfgRej := true } }))
    ∧ exec (.queuePeakRead p) s = .next (updPath { s with queues := s.queues.set q { k with peak := k.committed.length + k.opened.length } } p
        fun r => { r with readLog := [BitVec.ofNat 32 k.peak] })

/-- R121 to R123, R302: a pop of a result queue that no engine drains returns the word in front and removes it, NOTVALID with the queue's number
where it is empty or DISABLED; a read of SEQ returns it and keeps the latest values for the path. -/
def Obligations.ResultReads : Prop :=
  ∀ (s : State) (p : Path) (n : Chan), s.fw.recovery = false →
    let q := resultQueue n
    let k := s.queues[q]
    (∀ (w : Word) (ws : List Word), k.state = .enabled → k.drn = false → k.draining = 0 → k.committed = w :: ws → k.hwm = 0 → endsUnit w = false →
      Completes (.chResultPop p n .clean) s fun t =>
        (t.path p).readLog = [w] ∧ t.queues[q].committed = ws ∧ t.queues[q].headPartial = true ∧ t.chans = s.chans ∧ t.mm = s.mm
          ∧ ∀ r : Fin 256, r ≠ q → t.queues[r] = s.queues[r])
    ∧ (∀ ecc, k.state = .disabled → exec (.chResultPop p n ecc) s = .next (updPath s p fun r => { r with readLog := [BitVec.ofNat 32 (2 * 2 ^ 24 + n.val)] }))
    ∧ (∀ ecc, k.state = .enabled → k.drn = false → k.draining = 0 → k.committed = [] →
        exec (.chResultPop p n ecc) s = .next (updPath s p fun r => { r with readLog := [BitVec.ofNat 32 n.val] }))
    ∧ exec (.chLatestSeqRead p n) s = .next (updPath (updMeas s n fun m =>
          { m with snaps := m.snaps.set (pathSnap p) m.latest }) p fun r => { r with readLog := [s.chans[n].meas.latest.seq] })

/-- R21, R303, R308, R310, R311, R319: an engine that is on, idle and has room takes the packet in front of its lowest ready queue that need not give
way to one refused before; at the end of the
transfer its words stand in the ring, WR has advanced by their bytes and the packet has left the queue; EN is refused outside the limits of a
ring; RD moves forward within the data or is refused. -/
def Obligations.DrainEngines : Prop :=
  ∀ (s : State) (p : Path) (d : Ring) (v : Word),
    let r := s.rings[d]
    (∀ (q : Fin 256) (pas : List Nat), r.en = true → r.stopping = false → r.transfer = none → r.fault = false → r.trig = false → ddrAsleep s = false →
      nextQueue s d = some q →
      let ws := ringWords q.val (splitUnit s.queues[q].committed).1
      r.lacks (4 * ws.length) = false → ringPas s.mm r ws.length r.wr [] = .inl pas →
      exec (.drainTransferStart d .clean) s = .next (updQueue (updRing (cacheXlates s r.asid.toNat ((List.range ws.length).map fun i => r.va (r.wr + 4 * i))) d fun r =>
        { r with fault := false, transfer := some ⟨q.val, ws, pas, s.tb.now⟩, owed := servedQueue (readyQueues s d) q r.owed }) q fun k => { k with draining := (splitUnit k.committed).1.length }))
    ∧ (∀ t : Transfer, r.transfer = some t → t.queue < 256 → Completes (.drainTransferEnd d) s fun u =>
        u.rings[d].wr = r.wr + 4 * t.words.length ∧ u.rings[d].transfer = none ∧ u.mm.mem = storeWords s.mm.mem ((t.pas.map (retiredTo s.mm)).zip t.words)
          ∧ u.chans = s.chans ∧ ∀ e : Ring, e ≠ d → u.rings[e] = s.rings[e])
    ∧ (v.getLsbD 31 = true → s.fw.recovery = false → r.en = false → ringRefused { r with asid := v.extractLsb' 24 4, log2size := v.toNat % 64 } 33 = false →
        Completes (.ringEnable p d v) s fun t => t.rings[d].en = true ∧ t.rings[d].wr = 0 ∧ t.rings[d].rd = 0 ∧ t.rings[d].trig = v.getLsbD 30
          ∧ t.queues = s.queues ∧ ∀ e : Ring, e ≠ d → t.rings[e] = s.rings[e])
    ∧ (v.getLsbD 31 = true → s.fw.recovery = false → r.en = false → v.extractLsb' 24 4 = (0 : BitVec 4) → Completes (.ringEnable p d v) s fun t => t.rings[d].en = false)
    ∧ (v.getLsbD 31 = false → s.fw.recovery = false → r.en = true → r.transfer = none → Completes (.ringDisable p d v) s fun t => t.rings[d].en = false ∧ t.rings[d].wr = r.wr)
    ∧ (s.hht.stream.getLsbD d.val = false → s.fw.recovery = false → ∀ rd, rd = v.toNat * 2 ^ 32 + r.rdLo.toNat →
        (r.rd ≤ rd → rd ≤ r.wr → rd % 4 = 0 → exec (.ringRdCommit p d v) s = .next { s with rings := s.rings.set d { r with rd := rd } })
        ∧ (rd < r.rd ∨ r.wr < rd ∨ rd % 4 ≠ 0 → exec (.ringRdCommit p d v) s = .next { s with rings := s.rings.set d { r with rdRej := true } }))

/-- R299 to R301: a push never fills a queue beyond its capacity, and keeps what is committed: committed words are only added behind. -/
def Obligations.PushesKeepCapacity : Prop :=
  ∀ (s : State) (q : Fin 256) (w : Word) (hdr : Bool),
    (s.queues[q].occ ≤ s.queues[q].capacity → (pushWord s q w hdr).queues[q].occ ≤ (pushWord s q w hdr).queues[q].capacity)
      ∧ (∃ more, (pushWord s q w hdr).queues[q].committed = s.queues[q].committed ++ more ∧ more.length ≤ 1)
      ∧ ∀ r : Fin 256, r ≠ q → (pushWord s q w hdr).queues[r] = s.queues[r]

/-! ### External memory and address translation -/

/-- R294, R295, R314, R315, R317, R319, R322, R323, Table 9.12: the scrubber counts corrected errors (source 300) and uncorrectable ones (source 301) by
their place, and an uncorrectable error of a row calls for the MP unless a rewrite cures it; a page with the second corrected error within 24 hours waits for its retirement. The MP takes the place that has waited longest, while
nothing of a higher class waits: a row goes into a spare of its macro, of which there are four; a retired page's bytes stand in its spare, every
other page keeps its own. A pop returns the oldest fault record word by word, 0 from an empty log; an invalidation for which no access is held
advances INV_SEQ. The MP resolves the oldest demand fault of a context with a zeroed page of the pool, which then stands in the mapping, and the
context runs again. -/
def Obligations.MemoryUpkeep : Prop :=
  (∀ (s : State) (p : Path),
      let free := mpStopped s = false ∧ faultWork s = false ∧ proofWork s = false ∧ hostWork s = false
      (∀ (place : ErrPlace) (q : Option (Fin 256)) (cured : Bool), exec (.patrolScrub place q cured .clean) s = .next s
        ∧ exec (.patrolScrub place q cured .corrected) s =
            .next (mpAtOnce (raise { s with mm := noteError place false s.tb.now { s.mm with eccCe := true } } 300))
        ∧ ∀ pa k row, exec (.patrolScrub (.page pa) none cured .uncorrectable) s =
              .next (mpAtOnce (raise { s with mm := noteError (.page pa) true s.tb.now { s.mm with eccUe := true } } 301))
            ∧ exec (.patrolScrub (.row k row) none false .uncorrectable) s =
              .next (mpAtOnce (raise { s with mm := noteError (.row k row) true s.tb.now { s.mm with eccUe := true } } 301))
            ∧ exec (.patrolScrub (.row k row) none true .uncorrectable) s =
              .next (mpAtOnce (raise { s with mm := { s.mm with eccUe := true } } 301)))
      ∧ (∀ (pa before : Nat) (q : Option (Fin 256)) (cured : Bool), s.mm.errs = [(.page pa, before)] → s.tb.now < before + dayTicks → s.mm.house = [] →
          Completes (.patrolScrub (.page pa) q cured .corrected) s fun t => t.mm.house = [(.page pa, s.tb.now)])
      ∧ (∀ (k : Fin 384) (row since : Nat) (rest : List (ErrPlace × Nat)), free → s.mm.house = (.row k.val row, since) :: rest →
          (s.mm.spares = [] → Completes (.sramRowRepair k) s fun t =>
            t.mm = { s.mm with house := rest, spares := [(k.val, 1)], rowrep := s.mm.rowrep + 1 } ∧ t.chans = s.chans ∧ t.queues = s.queues)
          ∧ (∀ others, s.mm.spares = (k.val, 4) :: others → Completes (.sramRowRepair k) s fun t =>
              t.mm = { s.mm with house := rest, spareOut := true } ∧ t.chans = s.chans ∧ t.queues = s.queues))
      ∧ (∀ (pa since : Nat) (rest : List (ErrPlace × Nat)), free → s.mm.house = (.page pa, since) :: rest →
          paExternal pa = true → ddrAsleep s = false → paExists s.mm pa = true → s.mm.retired = [] → pa % 4096 = 0 → 0x40000000 ≤ pa → Memory.wf s.mm.mem = true →
          Completes (.pageRetire pa) s fun t => t.mm.retired = [(pa, 0x3FFFF000)] ∧ t.mm.house = rest
            ∧ (∀ i, i < 4096 → memRead t.mm.mem (retiredTo t.mm (pa + i)) = memRead s.mm.mem (pa + i))
            ∧ ∀ a, (a < 0x3FFFF000 ∨ 0x40000000 ≤ a) → memRead t.mm.mem a = memRead s.mm.mem a)
      ∧ (∀ (r : List Word) (rest : List (List Word)), s.mm.flog = r :: rest → s.fw.recovery = false →
          exec (.mmuFlogPop p) s = .next (updPath { s with mm := { s.mm with flog := rest } } p fun k => { k with flog := r.drop 1, readLog := [r.headD 0] }))
      ∧ (s.mm.flog = [] → s.fw.recovery = false → exec (.mmuFlogPop p) s = .next (updPath s p fun k => { k with readLog := [0] }))
      ∧ (∀ i rest, s.mm.invPending = i :: rest → i.who = none → invHeld s i = false →
          exec .invalidationComplete s = .next { s with mm := { s.mm with invPending := rest, invSeq := (s.mm.invSeq + 1) % 2 ^ 32 } }))
  ∧ (∀ (s : State) (n : Chan) (x : Ctx) (c : Cause) (asid va since pa page : Nat) (wr split : Bool) (k : Nat) (pool : List (Nat × Nat)) (e : Mapping),
      s.mm.demand = [⟨.context n x, asid, va, since, wr, split⟩] → mpStopped s = false → retiredTo s.mm pa = page → findMapping s.mm.maps asid va = some e → e.pa = none →
      s.mm.pool = (pa, k) :: pool → (s.context n x).state = .suspended c true → (s.context n x).haltReq = false →
      inImm s.chans[n].graver x = false → s.mm.waits = [] → Memory.wf s.mm.mem = true →
      Completes .demandFaultResolved s fun t =>
        (t.context n x).state = .ready ∧ t.mm.demand = [] ∧ (∀ i, i < 4096 → memRead t.mm.mem (page + i) = 0)
          ∧ (∀ a, a < page ∨ page + 4096 ≤ a → memRead t.mm.mem a = memRead s.mm.mem a) ∧ (t.context n x).pc = (s.context n x).pc)

/-! ### The command path and the host commands -/

/-- R318, R323, R432, Tables 9.9 and 14.8: the host commands on address spaces, mappings and the pool that succeed, taken in the order of R432 while the MP
has no work of a higher class. UNMAP, PROTECT and ASID_DESTROY empty the IOTLB of their range and are answered once their invalidation is complete. -/
def Obligations.MappingCommands : Prop :=
  ∀ (s : State) (h : Hdr) (asid va pa len : Nat) (flags : Word),
    let u := takeMessage s h
    let wait := fun opcode : Nat => some (h.path, h.tag, opcode, s.tb.now)
    let live := 1 ≤ asid ∧ asid ≤ 15 ∧ s.mm.asids.contains asid = true
    (Accepted s h 4 → 1 ≤ asid → asid ≤ 15 → s.mm.asids.contains asid = false →
      exec (.asidCreate h asid) s = .next (answered { u with mm := { s.mm with asids := s.mm.asids ++ [asid] } } s h 0x20 0 []))
    ∧ (Accepted s h 4 → live → asidUsed u asid = false → Completes (.asidDestroy h asid) s fun t =>
        t.mm.asids = s.mm.asids.filter (· != asid) ∧ t.mm.maps = changeMappings s.mm.maps asid 0 (2 ^ 48) (fun _ => none)
          ∧ t.mm.invPending = s.mm.invPending ++ [⟨wait 0x21, asid, 0, 2 ^ 48, none⟩] ∧ t.mm.mem = s.mm.mem)
    ∧ (Accepted s h 32 → live → flagsReserved flags = false → vaOk va len (pageOf flags) = true → pa % pageOf flags = 0 →
        rangeMappable s.mm pa len = true → anyMapped s.mm asid va len = false → len ≠ 0 → s.mm.waits = [] →
        exec (.map h asid flags va pa len) s = .next (answered { u with mm := { s.mm with
          maps := s.mm.maps ++ [⟨asid, va, len, pageOf flags, some pa, flag flags 4, flag flags 5, flag flags 6⟩]
          tables := s.mm.tables ++ [(asid, va, len, pageOf flags)] } } s h 0x22 0 []))
    ∧ (Accepted s h 24 → live → vaOk va len 4096 = true →
        anyMapped s.mm asid va len = false → len ≠ 0 → s.mm.waits = [] →
        exec (.mapDz h asid flags va len) s = .next (answered { u with mm := { s.mm with
          maps := s.mm.maps ++ [⟨asid, va, len, 4096, none, flag flags 4, flag flags 5, false⟩]
          tables := s.mm.tables ++ [(asid, va, len, 4096)] } } s h 0x23 0 []))
    ∧ (Accepted s h 24 → exec (.unmap h asid va len) s = .next { dropXlates u asid va len with mm := { s.mm with
        maps := changeMappings s.mm.maps asid va len (fun _ => none), invPending := s.mm.invPending ++ [⟨wait 0x24, asid, va, len, none⟩] } })
    ∧ (Accepted s h 24 → flagsReserved flags = false → len ≤ mappedBytes s.mm asid va len → s.mm.waits = [] →
        exec (.protect h asid flags va len) s = .next { dropXlates u asid va len with mm := { s.mm with
          maps := changeMappings s.mm.maps asid va len fun e => some { e with r := flag flags 4, w := flag flags 5, x := flag flags 6 }
          invPending := s.mm.invPending ++ [⟨wait 0x25, asid, va, len, none⟩] } })
    ∧ (Accepted s h 16 → ∀ pages, pages ≠ 0 → pa % 4096 = 0 → rangeMappable s.mm pa (4096 * pages) = true →
        exec (.poolAdd h pa pages) s = .next (answered { u with mm := { s.mm with pool := s.mm.pool ++ [(pa, pages)] } } s h 0x26 0 []))

/-- R130, R149, R431, R468, Table 14.7: ECHO returns its bytes, REG_READ and REG_WRITE access registers in ascending order, CACHE_INV removes the
program cache lines of the range in every bank, RESUME RETRY lets a SUSPENDED context run again and answers STATE for one that is not SUSPENDED;
a command whose deadline has passed is answered TIMEOUT and counted, one whose length cannot hold its arguments BADLEN. -/
def Obligations.HostCommands : Prop :=
  ∀ (s : State) (h : Hdr) (addr : Nat),
    let u := takeMessage s h
    (∀ bytes : List Byte, Accepted s h bytes.length → exec (.echo h bytes) s = .next (answered u s h 0x01 0 bytes))
    ∧ (∀ count, Accepted s h 8 → addr % 4 = 0 → addr < 0x400000 → 1 ≤ count → count ≤ 1024 → ∀ ws t, readRegs u h.path addr count = (ws, t) →
        exec (.regRead h addr count) s = .next (answered t s h 0x10 0 (ws.flatMap wordBytes)))
    ∧ (∀ words : List Word, Accepted s h (8 + 4 * words.length) → addr % 4 = 0 → addr < 0x400000 → 1 ≤ words.length → words.length ≤ 1024 →
        exec (.regWrite h addr words) s = .next (answered (writeRegs u h.path addr words) s h 0x11 0 []))
    ∧ (∀ asid va len, Accepted s h 24 → exec (.cacheInv h asid va len) s = .next (answered { u with banks := s.banks.map fun b =>
        { b with lines := b.lines.filter fun l => !(l.1.toNat == asid && rangesMeet (64 * l.2.1) 64 va len) } } s h 0x27 0 []))
    ∧ (∀ (n : Chan) (x : Ctx), Accepted s h 12 →
        (∀ c r, (s.context n x).state = .suspended c r → s.mm.waits = [] → (s.context n x).haltReq = false → inImm s.chans[n].graver x = false →
          exec (.resume h n x .retry) s = .next (answered (updCtx { u with mm := { s.mm with
            demand := s.mm.demand.filter fun d => d.who != .context n x } } n x fun k => { k with state := .ready }) s h 0x28 0 []))
        ∧ ((s.context n x).state = .ready → ∀ a, exec (.resume h n x a) s = .next (answered u s h 0x28 9 [])))
    ∧ (takesFrom s h.path = true → h.deadline ≠ 0 → h.deadline < s.tb.now → ∀ bytes,
        exec (.echo h bytes) s = .next (answered { u with fw := { u.fw with timeouts := min 65535 (u.fw.timeouts + 1) } } s h 0x01 3 []))
    ∧ (takesFrom s h.path = true → h.deadline = 0 → ∀ bytes : List Byte, h.len < 24 + bytes.length → exec (.echo h bytes) s = .next (answered u s h 0x01 2 []))

/-- R42, R434, R467 to R471: a register that keeps what is written reads it back; an address off a multiple of 4 reads as 0 and ignores writes;
SYS_ID ignores writes; a PCIe write that does not cover the word is ignored whole; the management SPI port reads and writes on its own path; a read of the lower half of a 64-bit pair keeps the whole pair
for its path, so that the upper half read later on that path belongs to the same value. R312, R423: a read of the ring window BAR2 at
d × 8 GiB + y gives the word at byte y mod 2^LOG2SIZE of ring d, or all ones with BAR2FLT at a translation fault or an uncorrectable memory error (assumption 83: it stands under
the row of the pair reads, having none of its own). R450: in recovery mode a write of a register outside block FW is ignored, and a read of one returns zero and has no
effect: the commands that stand for one register, on any path. -/
def Obligations.RegisterAccess : Prop :=
  (∀ (s : State) (p : Path) (v : Word),
    (s.fw.recovery = false →
      exec (.registerWrite p 0x20 v 0xF) s = .next { s with fw := { s.fw with scratch := v } } ∧ (readReg { s with fw := { s.fw with scratch := v } } p 0x20).1 = v)
    ∧ (∀ a, a % 4 ≠ 0 → exec (.registerWrite p a v 0xF) s = .next s ∧ readReg s p a = (0, s))
    ∧ exec (.registerWrite p 0 v 0xF) s = .next s
    ∧ (∀ (a : Nat) (be : BitVec 4), be ≠ 0xF → exec (.registerWrite .pcie a v be) s = .next s)
    ∧ (s.fw.recovery = false → exec (.spiWriteTransaction 0x20 [v]) s = .next { s with fw := { s.fw with scratch := v } })
    ∧ (s.fw.recovery = false → exec (.spiReadTransaction 0x20 1) s = .next (updPath s .spi fun k => { k with readLog := [s.fw.scratch] }))
    ∧ (s.fw.recovery = false → Completes (.pairSnapshotRead p (.pair .tbNow)) s fun t =>
        (t.path p).readLog = [BitVec.ofNat 32 s.tb.now]
          ∧ ∀ now, (readReg { t with tb := { t.tb with now := now } } p 0x1000C).1 = BitVec.ofNat 32 (s.tb.now / 2 ^ 32))
    ∧ (∀ (d : Ring) (y : Nat), y < 2 ^ 33 → ddrAsleep s = false →
        let r := s.rings[d]
        let va := r.base + y % 2 ^ r.log2size
        let found := translate s.mm r.asid.toNat va .r
        let read := fun ecc : EccResult => exec (.pairSnapshotRead .pcie (.window (d.val * 2 ^ 33 + y) 1 ecc)) s
        let ones := fun t : State => updPath { t with fw := { t.fw with bar2flt := true } } .pcie fun k => { k with readLog := [BitVec.allOnes 32] }
        (∀ pa, r.asid ≠ 0 → found = .ok pa →
          read .clean = .next (updPath (cacheXlate s r.asid.toNat va) .pcie fun k => { k with readLog := [memReadWord s.mm.mem pa] })
            ∧ read .uncorrectable = .next (ones (eccMet (cacheXlate s r.asid.toNat va) pa .uncorrectable)))
        ∧ (∀ ecc, r.asid = 0 ∨ (∀ pa, found ≠ .ok pa) → read ecc = .next (ones s))))
  ∧ ∀ (s : State) (p : Path) (n : Chan) (k : Lane) (d : Ring) (v : Word),
      s.fw.recovery = true →
      (∀ c ∈ [Instr.syncGen p, .tbAdj p v, .skewStart p, .fltLatchClear p n true, .fltLatchClear p n false, .disable p n, .gvStart p n v, .gvHalt p n v,
          .go p n v, .clearImm p n v, .gvImmWrite p n v, .comparatorLatchClear p n v, .softwareInject p v, .tcMergeWrite p v, .imAck p v,
          .framesEnable p v, .framesDisable p v, .snap p v, .hatchStart p, .hatchStop p, .hatchUnitCfgWrite p true v, .hatchUnitCfgWrite p false v,
          .collStatClr p, .pfCtrlWrite p v, .proofRingEnable p v, .proofRingRdCommit p v, .queueEnable p v, .queueDisable p v, .queueFlush p v,
          .queueDropRem p v, .queueCfgWrite p v, .ringEnable p d v, .ringDisable p d v, .ringRdCommit p d v, .vigil p, .run p, .cycle p, .reopen p,
          .laneCfgWrite p none k v, .laneCfgWrite p (some k) k v, .slip p k, .laneRestart p k, .injGo p k, .prbsClr p k], exec c s = .next s)
      ∧ (∀ c ∈ [Instr.queuePeakRead p, .chResultPop p n .clean, .chLatestSeqRead p n, .mmuFlogPop p, .pairSnapshotRead p (.pair .tbNow),
          .pairSnapshotRead p (.pair (.ringWr d)), .pairSnapshotRead p (.pair .wakeT)], exec c s = .next (updPath s p fun m => { m with readLog := [0] }))
      ∧ (∀ a : Nat, a ≠ 0 → ¬(0x90000 ≤ a ∧ a < 0xA0000) → exec (.registerWrite p a v 0xF) s = .next s ∧ readReg s p a = (0, s)
          ∧ (a % 4 = 0 → a < 0x400000 → exec (.spiReadTransaction a 1) s = .next (updPath s .spi fun m => { m with readLog := [0] })
              ∧ exec (.spiWriteTransaction a [v]) s = .next s))

/-! ### Trust -/

/-- R348, R349, R352, Tables 10.10 and 10.12: CHALLENGE answers a fresh nonce that replaces the path's; GET_IDENTITY answers the certificate and
the root key; ATTEST consumes the path's nonce and signs a record with the next index of the device key; ENROLL under the new key's own signature
makes the device owned. -/
def Obligations.NoncesAndAttestation : Prop :=
  ∀ (s : State) (h : Hdr) (nonce : Digest) (key : List Byte) (t : Token) (fails : Nat),
    let u := takeMessage s h
    let rest := s.pf.nonces.filter fun k => k.1 != h.path
    let taken := fun (pf : Trust) => { u with pf := { pf with nonces := rest, sigNext := pf.sigNext + 1 } }
    let signable := s.pf.ready = true ∧ s.pf.keyend = false ∧ s.pf.sigNext < s.pf.bound ∧ s.pf.sigNext + 17 < 2 ^ 40
    let record := fun (v : State) (n : Digest) =>
      attestBody v n s.pf.sigNext ++ deviceSignature s.pf.sigNext (attestBody v n s.pf.sigNext)
    (Accepted s h 0 → exec (.challenge h) s = .next (answered { u with pf := { s.pf with
      draws := s.pf.draws + 1, nonces := rest ++ [(h.path, Config.entropy s.pf.draws, s.tb.now)] } } s h 0x30 0 (digestBytes (Config.entropy s.pf.draws))))
    ∧ (Accepted s h 0 → exec (.getIdentity h) s = .next (answered u s h 0x31 0 (padded deviceCertificate ++ padded Config.rootKey.toList)))
    ∧ (Accepted s h 32 → signable → nonceOf s.pf h.path = some nonce →
        exec (.attest h nonce fails) s = .next (answered (taken s.pf) s h 0x32 0 (record { u with pf := { s.pf with nonces := rest } } nonce)))
    ∧ (∀ args, args = (padded key).length + (padded (zeros (tokenSize t))).length → Accepted s h args → signable → s.pf.owner = none →
        Presents s h.path t 0x0001 key key →
        let owned := { s.pf with owner := some key }
        exec (.enroll h key t fails) s = .next (
          if verify ownerSets key (tokenBytes t) t.signature then
            answered (taken owned) s h 0x33 0 (record { u with pf := { owned with nonces := rest } } t.nonce)
          else answered { u with pf := { s.pf with nonces := rest } } s h 0x33 0x16 []))

/-- R347, R349, R351, R372, R381, R406, Tables 10.10 and 10.11: an AUTHORISE with a token of the owner's consumes the path's nonce; where the
signature verifies it takes effect and answers its outcome, else it answers BADSIG with no other effect. R349: OWNER_TRANSFER needs the owner's
token for the new key and, over the same nonce, an ENROLL token that the new key itself signed; the new key then owns the device. -/
def Obligations.OwnerOperations : Prop :=
  (∀ (s : State) (h : Hdr) (t : Token) (key arg : List Byte), s.pf.owner = some key → Accepted s h (authoriseArgs t arg) →
      let c : State := { takeMessage s h with pf := { s.pf with nonces := s.pf.nonces.filter fun k => k.1 != h.path } }
      let done := fun (outcome : Nat) (v : State) =>
        if verify ownerSets key (tokenBytes t) t.signature then answered v s h 0x34 0 (leBytes 4 outcome) else answered c s h 0x34 0x16 []
      (Presents s h.path t 0x0003 key arg →
        exec (.ownerRelease h t arg) s = .next (done 0 (setBounds { c with pf := { c.pf with owner := none, scopes := 0 } } 700 900)))
      ∧ (Presents s h.path t 0x0011 key arg → ∀ (fails : List Nat) o v, calWriteOp c (tokenChans t) arg fails = (o, v) →
          exec (.calWrite h t arg fails) s = .next (done o v))
      ∧ (Presents s h.path t 0x0012 key arg → exec (.plateLife h t arg) s = .next (done 0 (overrideLife c arg t.param0.toNat)))
      ∧ (Presents s h.path t 0x0013 key arg →
          let lo := t.param0.toNat % 65536
          let hi := t.param0.toNat / 65536 % 65536
          (700 ≤ lo → lo ≤ hi → hi ≤ 950 → exec (.powerBounds h t arg) s = .next (done 0 (setBounds c lo hi)))
          ∧ (lo < 700 ∨ hi < lo ∨ 950 < hi → exec (.powerBounds h t arg) s = .next (done 5 c)))
      ∧ (Presents s h.path t 0x0020 key arg → t.param0.getLsbD 2 = false →
          exec (.debugUnlock h t arg) s = .next (done 0 { c with pf := { c.pf with debug := true, scopes := c.pf.scopes ||| t.param0.extractLsb' 0 3 } })))
  ∧ (∀ (s : State) (h : Hdr) (t e : Token) (key newKey : List Byte), s.pf.owner = some key →
      Accepted s h (authoriseArgs t newKey + (padded (zeros (tokenSize e))).length) → Presents s h.path t 0x0002 key newKey →
      Presents s h.path e 0x0001 newKey newKey →
      let c : State := { takeMessage s h with pf := { s.pf with nonces := s.pf.nonces.filter fun k => k.1 != h.path } }
      exec (.ownerTransfer h t newKey e) s = .next (
        if verify ownerSets key (tokenBytes t) t.signature && verify ownerSets newKey (tokenBytes e) e.signature then
          answered { c with pf := { c.pf with owner := some newKey } } s h 0x34 0 [0, 0, 0, 0]
        else answered c s h 0x34 0x16 []))

/-! ### Plates -/

/-- R355 to R357, R363, R367, R373, R375, Tables 11.4 and 11.5: a Plate that leaves takes every channel to its safe state and ends its session;
one that arrives raises source 280 and starts to settle where EN is 1; a bus without an answer refuses the Plate with 0x01 after its retries.
R368 to R370: a contact cycle is the change of PLSNS from OPEN where CSRC selects it, and CYCLE where CSRC selects the host; each raises source
281; before LIVE it waits in PEND, and in LIVE an EEPROM's count rises and is stored. -/
def Obligations.PlatePresenceAndCycles : Prop :=
  (∀ (s : State) (p : Path), s.pwr.vigil = false →
      (s.pl.pldet = true → s.pl.deten = true → Completes .pldetFall s fun t =>
        t.pl.pldet = false ∧ t.pl.sess = .absent ∧ (∀ n : Chan, t.chans[n].force.fltLatch = true) ∧ t.mm.mem = s.mm.mem)
      ∧ (s.pl.pldet = false → s.pl.deten = true → s.pl.sess = .absent → exec .pldetRise s = .next (raise { s with pl :=
          { s.pl with pldet := true, sess := if s.pl.en then .settling else .absent } } 280))
      ∧ (s.pl.sess = .settling → Completes .plateSettleEnd s fun t => t.pl.sess = .reading ∧ t.pl.body = [] ∧ t.pl.cyc = 0 ∧ t.tr = s.tr)
      ∧ (transferring s.pl = true → exec (.plateBusRetry true) s = .next { s with pl := { s.pl with busTry := 0 } })
      ∧ (transferring s.pl = true → s.pl.busTry = 0 → exec (.plateBusRetry false) s = .next { s with pl := { s.pl with busTry := 1 } })
      ∧ (s.pl.sess = .auth → Completes .tokenAnswerTimeout s fun t => t.pl.sess = .refused ∧ t.pl.refuse = 1 ∧ t.pl.pstate = 3)
      ∧ (s.pl.sess = .live ∨ s.pl.sess = .refused → s.fw.recovery = false → Completes (.reopen p) s fun t => t.pl.sess = .reading ∧ t.pl.refuse = 0)
      ∧ (s.pl.sess ≠ .live → s.pl.sess ≠ .refused → s.fw.recovery = false → exec (.reopen p) s = .next { s with pl := { s.pl with cmdRej := true } }))
  ∧ (∀ (s : State) (p : Path), s.pwr.vigil = false →
      let pended := fun pl : Plate => { pl with pend := pl.pend + 1 }
      exec .plsnsOpen s = .next { s with pl := { s.pl with contact := false } }
      ∧ (s.pl.contact = true → exec .plateContactCycle s = .next s)
      ∧ (s.pl.contact = false → s.pl.csrc = true → exec .plateContactCycle s = .next { s with pl := { s.pl with contact := true } })
      ∧ (s.pl.contact = false → s.pl.csrc = false → s.pl.sess = .reading → s.pl.pend < 255 → Completes .plateContactCycle s fun t =>
          t = { raise s 281 with pl := pended { s.pl with contact := true } })
      ∧ (s.pl.csrc = true → s.fw.recovery = false → s.pl.sess = .reading → s.pl.pend < 255 → exec (.cycle p) s = .next { raise s 281 with pl := pended s.pl })
      ∧ (s.pl.csrc = false → s.fw.recovery = false → exec (.cycle p) s = .next { s with pl := { s.pl with cmdRej := true } })
      ∧ (s.pl.csrc = true → s.fw.recovery = false → s.pl.sess = .live → s.pl.gen ≠ 3 → s.pl.writing = none →
          Completes (.cycle p) s fun t => t.pl.cyc = s.pl.cyc + 1 ∧ t.pl.writing = some (s.pl.cyc + 1)
            ∧ t.pl.slotOut.1 = 0x3E00 + 32 * ((s.pl.slotSeq + 1) % 16) ∧ t.mm = s.mm ∧ t.queues = s.queues))

/-- R358 to R366, R368 to R370: what a session reads and what a token answers. A record that passes opens a session of an EEPROM with its count
where the device remembers no other; a token proves its key, gets an attestation in the OPEN frame, once the MP has no work of a higher class, and
confirms its advances, each of which sends the next; a count in progress is written, and one that waits goes into the slot after it. -/
def Obligations.PlateSessions : Prop :=
  ∀ (s : State) (r : PlateRead) (sig : List Byte) (fails : Nat),
    (s.pl.sess = .reading → r.answers = false → Completes (.plateRecordRead r) s fun t => t.pl.sess = .refused ∧ t.pl.refuse = 1)
    ∧ (s.pl.sess = .reading → r.answers = true → r.token = false → recRefusal s.pf s.pl.reqv false r.body r.signature = 0 → s.pl.pend = 0 →
        s.pl.memory = [] → ∀ count seq check, r.slots = [(count, seq, check)] → serialBytes check = counterCheck (plateSerial r.body) count seq →
        Completes (.plateRecordRead r) s fun t => t.pl.sess = .live ∧ t.pl.cyc = count ∧ t.pl.body = r.body ∧ t.pl.pstate = recState s.pf r.body)
    ∧ (s.pl.sess = .auth → s.pf.keyend = false → Completes (.tokenAuthAnswer sig) s fun t =>
        if verify [plateSet] ((s.pl.body.drop 0x158).take 68) (authMessage s.pl) sig then
          t.pl.sess = .opening ∧ t.pl.secret = some (Config.entropy s.pf.draws) ∧ t.pl.attested = false
        else t.pl.sess = .refused ∧ t.pl.refuse = 6)
    ∧ (s.pl.sess = .opening → s.pl.attested = false → s.pf.sigNext < s.pf.bound → s.pf.sigNext + 17 < 2 ^ 40 →
        takesCommands s = true →
        let body := attestBody s (openNonce s.pl) s.pf.sigNext
        exec (.plateAttestationSigned fails) s = .next { offerDevice s 0 s.pl.askedAt s.tb.now with
          pl := { s.pl with
            attested := true
            frame := tokenFrame 0x04
              (digestBytes (openAnchor s.pl) ++ leBytes 4 65536 ++ deviceCertificate ++ (body ++ deviceSignature s.pf.sigNext body)) }
          pf := { s.pf with sigNext := s.pf.sigNext + 1 } })
    ∧ (s.pl.sess = .opening → s.pl.attested = true → s.pl.pend = 0 →
        ∀ tn : Digest, Completes (.tokenOpenAnswer true tn) s (fun t => t.pl.sess = .live ∧ t.pl.cyc = s.pl.cyc ∧ t.pl.tokenNonce = tn)
          ∧ Completes (.tokenOpenAnswer false tn) s (fun t => t.pl.sess = .refused ∧ t.pl.refuse = 8))
    ∧ (s.pl.sess = .live → s.pl.advancing = true → s.pl.advances + 1 < 65536 →
        exec (.tokenAdvanceAnswer true) s = .next { s with pl := advance { s.pl with
          cyc := s.pl.cyc + 1, unconfirmed := s.pl.unconfirmed - 1, advances := s.pl.advances + 1, advFails := 0, advancing := false } })
    ∧ (∀ c, s.pl.writing = some c →
        let done := { s.pl with slotSeq := s.pl.slotSeq + 1, writing := none, writeNext := false }
        (s.pl.writeNext = false → exec .eepromCountWriteDone s = .next { s with pl := done })
          ∧ (s.pl.writeNext = true → exec .eepromCountWriteDone s = .next { s with pl := writeCount done s.pl.cyc }))

/-! ### Power -/

/-- R381 to R383: a status of the core regulator that reports a fault, the third failed transaction in a row, of a poll or of a pace step, and PMALRTN each set REGFLT and raise source 287;
the pace rises by 10 mV under load within its bounds and below TWARN, and falls by 10 mV at rest (R325, R326: the load is that of the milliseconds
before). R390 to R393: the power of each channel over the millisecond is
computed and its sums start anew; temperatures are recorded; VIGIL is refused where something runs and otherwise entered, with the pace kept for
the return; RUN and the wake timer leave it with their causes; external memory is usable again from t2. -/
def Obligations.PowerAndVigil : Prop :=
  (∀ (s : State),
      exec (.regulatorStatusPoll false false) s = .next { s with pwr := { s.pwr with pmbusFails := 0 } }
      ∧ exec (.regulatorStatusPoll false true) s = .next (raise { s with pwr := { s.pwr with pmbusFails := 0, regflt := true } } 287)
      ∧ (∀ fault, s.pwr.pmbusFails < 2 →
          exec (.regulatorStatusPoll true fault) s = .next { s with pwr := { s.pwr with pmbusFails := s.pwr.pmbusFails + 1 } }
            ∧ ∀ v, exec (.paceStep true v) s = .next { s with pwr := { s.pwr with pmbusFails := s.pwr.pmbusFails + 1 } })
      ∧ (∀ fault, s.pwr.pmbusFails = 2 →
          exec (.regulatorStatusPoll true fault) s = .next (raise { s with pwr := { s.pwr with pmbusFails := 0, regflt := true } } 287)
            ∧ ∀ v, exec (.paceStep true v) s = .next (raise { s with pwr := { s.pwr with pmbusFails := 0, regflt := true } } 287))
      ∧ exec .pmalrtnAssert s = .next (raise { s with pwr := { s.pwr with regflt := true } } 287)
      ∧ ∀ v : Nat, s.pwr.paceMan = false → s.pwr.vigil = false → s.pwr.regns = false → s.pwr.regflt = false →
          s.pwr.set ≤ v + 10 → v ≤ s.pwr.set + 10 →
          let busy := mpSaturated s.fw = true ∨ ∃ t, s.pwr.lastStall = some t ∧ s.tb.now < t + 1600000
          (busy → anyAt (coreTemps s.pwr) s.pwr.twarn = false → s.pwr.set + 10 ≤ s.pwr.highest →
            exec (.paceStep false v) s = .next { s with pwr := { s.pwr with pmbusFails := 0, readVout := v, set := s.pwr.set + 10 } })
          ∧ (busy → (anyAt (coreTemps s.pwr) s.pwr.twarn = true ∨ s.pwr.highest < s.pwr.set + 10) →
              exec (.paceStep false v) s = .next { s with pwr := { s.pwr with pmbusFails := 0, readVout := v } })
          ∧ (mpSaturated s.fw = false → s.fw.load100 < 40 → (∀ t, s.pwr.lastStall = some t → t + 160000000 ≤ s.tb.now) →
              s.pwr.lowest + 10 ≤ s.pwr.set → exec (.paceStep false v) s = .next { s with pwr := { s.pwr with pmbusFails := 0, readVout := v, set := s.pwr.set - 10 } }))
  ∧ (∀ (s : State) (p : Path),
      let t := s.tb.now / 1600000 * 1600000
      (s.pwr.period < t → s.chans.any (fun c => c.meas.convs.any fun k => decide (k.tick < t)) = false → Completes .powerBudgetPeriod s fun u =>
        u.pwr.period = t ∧ u.fw.loads = (u.fw.load1 :: s.fw.loads).take 100 ∧ u.fw.load100 = u.fw.loads.sum / 100 ∧ u.fw.load1 ≤ 100 ∧ ∀ n : Chan, u.chans[n].pwr.power = chanPower s.chans[n].pwr ∧ u.chans[n].pwr.samples = 0 ∧ u.chans[n].pwr.sum = 0)
      ∧ (∀ temps : List (BitVec 16), temps.length = 44 → Completes (.temperatureRead temps) s fun u => u.pwr.temps = temps.map some)
      ∧ (s.pwr.vigil = false → s.fw.recovery = false → vigilRefused s = true → exec (.vigil p) s = .next { s with pwr := { s.pwr with vigRej := true } })
      ∧ (s.pwr.vigil = false → s.fw.recovery = false → vigilRefused s = false → Completes (.vigil p) s fun u =>
          u.pwr.vigil = true ∧ u.pwr.ddrReady = false ∧ u.pwr.paceBefore = s.pwr.set ∧ u.mm = s.mm ∧ u.queues = s.queues)
      ∧ (s.pwr.vigil = true → s.fw.recovery = false → s.pwr.regns = false → s.pwr.regflt = false → Completes (.run p) s fun u =>
          u.pwr = { s.pwr with set := s.pwr.paceBefore, vigil := false, wake := 3, ddrReady := false } ∧ u.mm = s.mm ∧ u.tb = s.tb)
      ∧ (s.pwr.vigil = true → s.pwr.wakeTimer = true → s.tb.now < s.pwr.wakeT → s.pwr.wakeT + 4 ≤ nextSample s → Completes .vigilWakeTimer s fun u =>
          u.tb = { s.tb with now := s.pwr.wakeT } ∧ u.pwr.vigil = false ∧ u.pwr.wake = 4)
      ∧ (s.pwr.vigil = false → exec .vigilDdrReady s = .next { s with pwr := { s.pwr with ddrReady := true } }))

/-! ### Calibration and relief -/

/-- R397 to R399, R411, R412: a request that is refused changes nothing but its path's status; an accepted run of a channel at rest starts at
once, an accepted RELIEVE begins a takeover with the intent in force captured, an accepted RETURN a handback. -/
def Obligations.CalibrationRequests : Prop :=
  ∀ (s : State) (p : Path) (n : Chan), s.pwr.vigil = false →
    let status := fun (code : Nat) (t : State) => updPath t p fun k => { k with calStatus := some code }
    (∀ code, code ≠ 0 →
      (calRefusal s n .full = code → exec (.runFull p n) s = .next (status code s))
      ∧ (calRefusal s n .quick = code → exec (.runQuick p n) s = .next (status code s))
      ∧ (calRefusal s n .relieve = code → exec (.relieve p n) s = .next (status code s))
      ∧ (calRefusal s n .ret = code → exec (.returnDut p n) s = .next (status code s)))
    ∧ (calRefusal s n .full = 0 → needsRelief s n .full = false → Completes (.runFull p n) s fun t =>
        (t.path p).calStatus = some 0 ∧ t.chans[n].cal = { s.chans[n].cal with full := true, handback := false, phase := .run, step := .precheck, epoch := s.fw.calEpoch })
    ∧ (calRefusal s n .quick = 0 → needsRelief s n .quick = false → Completes (.runQuick p n) s fun t =>
        (t.path p).calStatus = some 0 ∧ t.chans[n].cal = { s.chans[n].cal with full := false, handback := false, phase := .run, step := .precheck, epoch := s.fw.calEpoch })
    ∧ (calRefusal s n .relieve = 0 → Completes (.relieve p n) s fun t =>
        (t.path p).calStatus = some 0 ∧ t.chans[n].cal.phase = .takeover
          ∧ t.reliefs[bankOf n] = some { slot := slotOf n, phase := .bringUp, captured := { s.chans[n].force.applied with staged := none }
                                         rampTick := 0, rampLevel := 0, forRun := false })
    ∧ (∀ r, calRefusal s n .ret = 0 → s.reliefs[bankOf n] = some r → chanAt (bankOf n) r.slot = n → modeBlocked s n = false →
        Completes (.returnDut p n) s fun t =>
          (t.path p).calStatus = some 0 ∧ t.chans[n].cal.phase = .handback ∧ t.reliefs[bankOf n] = some { r with phase := .backUp })

/-- R401 to R404, R408, R411, R412, Tables 13.3, 13.5 and 13.6: a pre-check whose mean of 2,000 raw samples exceeds 5 mV or 50 nA ends the run with 0x10,
else its phases follow each other; results outside a limit end it with the limit's code, and the set that passes is written into the other slot, where
it takes effect after a read-back has passed, with SEQ and CALCNT one higher; two failed read-backs end the run with 0x16 and leave that slot invalid;
the switches and ramps of a relief carry it from phase to phase. -/
def Obligations.CalibrationRunsAndReliefs : Prop :=
  ∀ (s : State) (n : Chan) (b : Bank),
    let c := s.chans[n].cal
    let ended := fun (code : Nat) (t : State) =>
      t.chans[n].cal.last = code ∧ t.chans[n].cal.phase = (if s.chans[n].force.relieved then .relieved else .idle)
    (∀ raws : List (Int × Int), raws.length = 2000 → c.phase = .run → c.step = .precheck →
        let beyond := 2000 * 5000 * 2 ^ 23 < (raws.map Prod.fst).sum.natAbs * 2500000 ∨ 2000 * 50 * 2 ^ 23 < (raws.map Prod.snd).sum.natAbs * 1000
        (¬beyond → exec (.calPrecheckEnd n raws) s = .next (updCal s n fun c => { c with step := .adc }))
          ∧ (beyond → c.handback = false → Completes (.calPrecheckEnd n raws) s fun t => ended 0x10 t
              ∧ t.chans[n].cal.slots = (if c.storing.isSome then c.slots.set (1 - c.slot) none else c.slots)))
    ∧ (c.phase = .run → exec (.calRunEnd n .phaseEnd) s = .next (updCal s n fun c => { c with step := nextStep c.full c.step }))
    ∧ (∀ r : CalResult, c.phase = .run → c.step = .check →
        (runCheck c r = 0 → exec (.calRunEnd n (.results r)) s =
          .next (updCal s n fun c => { c with phase := .store, storing := some (runSet c r s.tb.now) }))
        ∧ (runCheck c r ≠ 0 → c.handback = false → Completes (.calRunEnd n (.results r)) s (ended (runCheck c r))))
    ∧ (∀ (new : CalSet) (fails : Nat), c.phase = .store → c.storing = some new → c.handback = false → c.slot < 2 → c.slots.length = 2 →
        (fails < 2 → Completes (.calRunEnd n (.stored fails)) s fun t => ended 0 t ∧ t.chans[n].cal.slot = 1 - c.slot
          ∧ setInForce t.chans[n].cal = some { new with seq := topSeq c + 1, calcnt := ((setInForce c).getD {}).calcnt + 1 })
        ∧ (2 ≤ fails → Completes (.calRunEnd n (.stored fails)) s fun t => ended 0x16 t ∧ t.chans[n].cal.slot = c.slot
            ∧ setInForce t.chans[n].cal = setInForce c ∧ t.chans[n].cal.slots[1 - c.slot]? = some none))
    ∧ (∀ r : Relief, s.reliefs[b] = some r → r.slot < 16 →
        (r.phase = .switching → switchesDone s b r = true → s.chans[chanAt b r.slot].force.fltLatch = false → r.captured.mode = .meas →
          Completes (.reliefSwitchMade b) s fun t => t.reliefs[b] = some { r with phase := .isolating }
            ∧ t.chans[chanAt b r.slot].force.relieved = true ∧ t.chans[chanAt b 16].force.relieved = true
            ∧ t.chans[chanAt b r.slot].force.oen = false)
        ∧ (r.phase = .ramp → 400 ≤ r.rampTick → Completes (.reliefRampEnd b) s fun t => t.reliefs[b] = some { r with phase := .isolating }
            ∧ t.chans[chanAt b r.slot].force.oen = false)
        ∧ (r.phase = .backRamp → 400 ≤ r.rampTick → Completes (.reliefRampEnd b) s fun t => t.reliefs[b] = some { r with phase := .toMode })
        ∧ (r.phase = .releasing → switchesDone s b r = true → Completes (.reliefSwitchBroken b) s fun t => t.reliefs[b] = none
            ∧ t.chans[chanAt b r.slot].force.relieved = false ∧ t.chans[chanAt b 16].force.relieved = false
            ∧ t.chans[chanAt b r.slot].cal.phase = .idle))


/-! ### Start-up and resets -/

/-- R332 to R334, R336, R442, R443, R447, Table 15.1: PORN low resets the device, with every channel at its FAULT code under FCAUSE 6, no owner lost and
no index used; its rise starts from the reset values and from the current index slot, of which it writes the next with the next boot count and a new
block reserved: the next index is the old bound. R297, R342, R442, R448, R449,
R455, R457, R459: the chosen image starts, with the security version counter never lower than before; the firmware becomes host-ready with the
board record, or its defaults, and the queues of the channels, the summaries and the hosts as they were; signing state ready; an MP warm restart counts, records its cause, or 4 where it falls back from a trial, and
leaves memory, timebase, queues and force paths alone; after it the host sessions have ended unless the new firmware adopts them, and in recovery mode in any
case. -/
def Obligations.ResetsAndStarts : Prop :=
  (∀ (s : State) (straps : Straps),
      let c := (newestSlot s.pf.slots).getD ⟨s.pf.slotSeq, s.pf.bound, s.pf.bootCnt, 0⟩
      (s.fw.porn = true → exec (.powerOnReset straps) s = .next s)
      ∧ (s.fw.porn = false → Completes (.powerOnReset straps) s fun t =>
          t.fw.porn = true ∧ t.fw.straps = straps ∧ t.pf.bootCnt = c.boot + 1 ∧ t.pf.sigNext = c.bound
            ∧ t.pf.bound = min (2 ^ 40) (c.bound + 16384) ∧ t.pf.slotSeq = c.seq + 1 ∧ t.pf.owner = s.pf.owner
            ∧ (∀ i : Fin 64, i.val = (c.seq + 1) % 64 →
                t.pf.slots[i] = some ⟨c.seq + 1, t.pf.bound, c.boot + 1, slotCheck (c.seq + 1) t.pf.bound (c.boot + 1)⟩) ∧ t.tb = State.reset.tb ∧ t.queues = State.reset.queues
            ∧ t.mm.mem = [] ∧ t.pending = s.pending
            ∧ ∀ n : Chan, t.chans[n].force.mode = .inert ∧ t.chans[n].force.fltLatch = false ∧ t.chans[n].force.oen = false
                ∧ t.chans[n].force.dac = t.chans[n].force.safety.park ∧ t.chans[n].graver = {})
      ∧ Completes .pornLow s fun t =>
          t.fw.porn = false ∧ t.pf.owner = s.pf.owner ∧ t.pf.bound = s.pf.bound ∧ t.pf.bootCnt = s.pf.bootCnt ∧ t.mm.mem = []
            ∧ t.tb = State.reset.tb ∧ t.pending = s.pending
            ∧ ∀ n : Chan, t.chans[n].force.fltLatch = true ∧ t.chans[n].force.fcause = 6 ∧ t.chans[n].force.oen = false
                ∧ t.chans[n].force.dac = t.chans[n].force.safety.fault)
  ∧ (∀ s : State,
      (s.fw.porn = true → s.fw.chosen = true → s.fw.running = false → Completes .firmwareStart s fun t =>
        t = { s with fw := t.fw } ∧ t.fw.running = true ∧ t.fw.chosen = false ∧ s.fw.svnCnt ≤ t.fw.svnCnt
          ∧ t.fw.version = word (flashField (s.fw.slot s.fw.runB) 8 4))
      ∧ (∀ (linear : Bool) (ma mb : Nat), s.fw.running = true → s.fw.ready = false → s.fw.restarting = false →
          Completes (.hostReady linear ma mb) s fun t =>
            t.fw.ready = true ∧ t.pwr.regns = !linear ∧ t.fw.board = readBoard s.fw.boardFlash ∧ t.fw.boarddef = (readBoard s.fw.boardFlash).isNone
              ∧ t.tb.now = s.tb.now ∧ ∀ q : Fin 256, q.val < 69 → t.queues[q] = s.queues[q])
      ∧ exec .signingStateReady s = .next { s with pf := { s.pf with ready := true } }
      ∧ (let restarts := fun (cause : Nat) (t : State) =>
           t.fw.restarting = true ∧ t.fw.wrcnt = min 255 (s.fw.wrcnt + 1)
             ∧ t.fw.wrcause = (if ((s.fw.running = true ∨ s.fw.chosen = true) ∧ s.fw.dir.state s.fw.runB = .trial) ∨ s.fw.dir.journal = true then 4 else cause)
             ∧ t.mm.mem = s.mm.mem ∧ t.tb = s.tb ∧ t.queues = s.queues
             ∧ ∀ n : Chan, t.chans[n].force = s.chans[n].force ∧ t.chans[n].graver = s.chans[n].graver ∧ t.chans[n].meas = s.chans[n].meas
         (s.fw.porn = true → Completes .wrstnLow s (restarts 1) ∧ Completes .mpWatchdogExpiry s (restarts 3))
         ∧ (s.fw.porn = false → exec .wrstnLow s = .next s ∧ exec .mpWatchdogExpiry s = .next s))
      ∧ (∀ adopt, s.fw.restarting = true → Completes (.warmRestartComplete adopt) s fun t =>
          t.fw.restarting = false ∧ t.mm.mem = s.mm.mem ∧ t.queues = s.queues
            ∧ (adopt = false ∨ t.fw.recovery = true → t.hht.live = false ∧ t.fw.update = none)
            ∧ (adopt = true → t.fw.recovery = false → t.fw.update = s.fw.update))
      ∧ ∀ adopt, s.fw.restarting = false → exec (.warmRestartComplete adopt) s = .next s)

/-! ### The timebase -/

/-- R25, R27, R31, R32, R34, R39, R40: the first lock starts the counter at 0; a lost reference makes the device free-running, in holdover and
not aligned; a relock ends the free run; a SYNC pulse is captured at its REFCLK edge and counted, verified against SYNC_VAL, or loads it where no
channel and no frame holds the counter; R30: an edge in the last four ticks before a sample tick comes after it; TB_ADJ moves the counter under
the same condition and is refused otherwise; SYNC_GEN starts a pulse on SYNCO beside one that still runs; the pulses and every duration
that is being measured keep their distance from now when the counter moves (assumption 87, the model's choice). R35 to R38, R428: a
measurement starts with an ASK block towards the reference, on a device that is not the reference itself; 4,096 exchanges end it with their mean
offset and the whole ticks of the correction; the fine phase moves by one step after 1,024 sample ticks. -/
def Obligations.TimebaseCommands : Prop :=
  (∀ (s : State) (p : Path) (v : Word),
      (s.tb.lock = false → exec .pllLock s = .next { s with tb := { s.tb with
        lock := true, now := 0, lastSample := none, lastSlot := none, edgePhase := 0 } })
      ∧ (s.tb.lock = true → exec .pllLock s = .next s)
      ∧ (s.tb.lock = true → s.tb.freerun = false → Completes .refclkLoss s fun t =>
          t.tb = { s.tb with reflost := true, freerun := true, aligned := false, syncoPulses := [], holdover := true }
            ∧ t.chans = s.chans ∧ t.mm = s.mm ∧ t.queues = s.queues)
      ∧ (s.tb.lock = false ∨ s.tb.freerun = true → exec .refclkLoss s = .next s ∧ exec .syncPulse s = .next s ∧ exec (.syncGen p) s = .next s)
      ∧ (∀ phase, s.tb.freerun = true → Completes (.pllRelock phase) s fun t =>
          t.tb = { s.tb with freerun := false, edgePhase := phase % refPeriod s, holdover := s.tb.holdover && s.tb.skewEn } ∧ t.chans = s.chans)
      ∧ (s.tb.lock = true → s.tb.freerun = false → nextEdge s ≤ nextSample s →
          let seen := { s.tb with now := nextEdge s, syncCap := nextEdge s, syncCount := (s.tb.syncCount + 1) % 65536, syncSeen := true }
          let loaded := { seen with
            now := s.tb.syncVal, lastSample := none, lastSlot := none, edgePhase := s.tb.syncVal % refPeriod s, syncMode := 1
            syncoPulses := s.tb.syncoPulses.map fun q => q + (s.tb.syncVal : Int) - (nextEdge s : Int) }
          (s.tb.syncMode = 2 → counterHeld s = false → Completes .syncPulse s fun t =>
              t.tb = loaded ∧ t.mm = shiftMem (nextEdge s) s.tb.syncVal s.mm ∧ ∀ n : Chan, t.chans[n] = shiftChan (nextEdge s) s.tb.syncVal s.chans[n])
          ∧ (nextEdge s + 4 ≤ nextSample s ∨ nextEdge s = nextSample s → (s.tb.syncMode = 2 → counterHeld s = true) →
              Completes .syncPulse s fun t => t.chans = s.chans ∧ t.mm = s.mm
                ∧ (s.tb.syncMode ≠ 1 → s.tb.syncMode ≠ 2 → t.tb = seen)
                ∧ (s.tb.syncMode = 1 → t.tb = { seen with syncMismatch := s.tb.syncMismatch || decide (nextEdge s ≠ s.tb.syncVal) })
                ∧ (s.tb.syncMode = 2 → t.tb = { seen with loadRefused := true, syncMode := 1 }))
          ∧ (nextEdge s < nextSample s → nextSample s < nextEdge s + 4 → s.tb.syncMode = 0 → Completes .syncPulse s fun t =>
              t.tb = { seen with now := nextSample s, lastSample := some (nextSample s), fine := t.tb.fine, fineTicks := t.tb.fineTicks }))
      ∧ (nextSample s < nextEdge s → exec .syncPulse s = .next s)
      ∧ (s.tb.freerun = false → s.tb.syncoEn = true → s.tb.lock = true → s.fw.recovery = false → exec (.syncGen p) s = .next { s with tb := { s.tb with
          syncoPulses := (s.tb.syncoPulses.filter fun q => decide ((s.tb.now : Int) < q + 2 * refPeriod s))
            ++ [((if nextEdge s = s.tb.now then s.tb.now + refPeriod s else nextEdge s : Nat) : Int)] } })
      ∧ (s.tb.syncoEn = false → exec (.syncGen p) s = .next s)
      ∧ (counterHeld s = true → s.fw.recovery = false → exec (.tbAdj p v) s = .next { s with tb := { s.tb with loadRefused := true } })
      ∧ (counterHeld s = false → s.fw.recovery = false →
          let moved := ((s.tb.now + v.toInt) % 2 ^ 64).toNat
          Completes (.tbAdj p v) s fun t =>
            t.tb = { s.tb with
              now := moved, lastSample := none, lastSlot := none
              edgePhase := (((s.tb.edgePhase : Int) + v.toInt) % refPeriod s).toNat
              syncoPulses := s.tb.syncoPulses.map fun q => q + (moved : Int) - (s.tb.now : Int) }
            ∧ t.mm = shiftMem s.tb.now moved s.mm ∧ ∀ n : Chan, t.chans[n] = shiftChan s.tb.now moved s.chans[n]))
  ∧ (∀ (s : State) (p : Path),
      let measures := s.tb.skewEn = true ∧ s.tb.timingRef = false ∧ sibiaLane s (skewLane s) = true
      (measures → s.fw.recovery = false → exec (.skewStart p) s = .next (sendBlock { s with tb := { s.tb with
          measuring := true, exchanges := 0, dropped := 0, sumOfs := 0, exchange := none } } (skewLane s) (calBlock 0 0 0)))
      ∧ (¬measures → exec (.skewStart p) s = .next s)
      ∧ (s.tb.period ≠ 0 → s.fw.recovery = false → exec .skewPeriodExpiry s = exec (.skewStart p) s)
      ∧ (s.tb.period = 0 → exec .skewPeriodExpiry s = .next s)
      ∧ (s.tb.measuring = true → 4096 ≤ s.tb.exchanges → Completes .skewMeasurementEnd s fun t =>
          let whole := wholeTicks (roundDiv s.tb.sumOfs 8192)
          t.tb.measuring = false ∧ t.tb.ofs = roundDiv s.tb.sumOfs 8192 ∧ t.tb.ofsValid = true
            ∧ (whole = 0 ∨ counterHeld s = true → t.mm = s.mm ∧ t.chans = s.chans)
            ∧ (whole = 0 → t.tb.now = s.tb.now ∧ t.tb.phaseTarget = (roundDiv s.tb.sumOfs 8192).toNat)
            ∧ (whole ≠ 0 → counterHeld s = true → t.tb.now = s.tb.now ∧ t.tb.aligned = false)
            ∧ (whole ≠ 0 → counterHeld s = false →
                let moved := ((s.tb.now + whole) % 2 ^ 64).toNat
                t.tb.now = moved ∧ t.mm = shiftMem s.tb.now moved s.mm ∧ ∀ n : Chan, t.chans[n] = shiftChan s.tb.now moved s.chans[n]))
      ∧ (s.tb.measuring = false ∨ s.tb.exchanges < 4096 → exec .skewMeasurementEnd s = .next s)
      ∧ (1024 ≤ s.tb.fineTicks →
          (s.tb.fine < s.tb.phaseTarget → exec .finePhaseStep s = .next { s with tb := { s.tb with fine := s.tb.fine + 1, fineTicks := 0 } })
          ∧ (s.tb.phaseTarget < s.tb.fine → exec .finePhaseStep s = .next { s with tb := { s.tb with fine := s.tb.fine - 1, fineTicks := 0 } })
          ∧ (s.tb.fine = s.tb.phaseTarget → exec .finePhaseStep s = .next { s with tb := { s.tb with fineTicks := 0 } }))
      ∧ (s.tb.fineTicks < 1024 → exec .finePhaseStep s = .next s))

/-! ### Channels -/

/-- R26, R27, R68 to R70, R98, R105, R107, R119, R387: before the lock a sample tick does nothing, after it the counter stands at the sample tick; a
raw pair crosses calibrated; ranging downwards asks for the next lower range, or waits with it during a bridged change; a packet older than its
limit closes with status AGE; the stability watch sets OSC and steps COMP up; the trim loop moves its DAC towards a smaller error by at most one
within 12 bits, every 1,024 sample ticks that it runs; LDID ends a phase after 32 sample ticks and writes its result word; a rail code falls to
what the last THOLD required. -/
def Obligations.SampleWorld : Prop :=
  ∀ (s : State) (n : Chan),
    let c := s.chans[n]
    let f := c.force
    (s.tb.lock = false → exec .sampleTick s = .next s)
    ∧ (s.tb.lock = true → Completes .sampleTick s fun t => t.tb = { s.tb with
        now := nextSample s, lastSample := some (nextSample s), fine := t.tb.fine, fineTicks := t.tb.fineTicks })
    ∧ (∀ (v i : BitVec 20) (vo io cl up : Bool),
        (c.meas.convs = [] → exec (.rawPairHandoff n v i vo io cl up) s = .next s)
        ∧ ∀ k rest, c.meas.convs = k :: rest → boundaryDue s k.tick = false → Completes (.rawPairHandoff n v i vo io cl up) s fun t =>
            t.chans[n].meas.extV = calibrated c.cal k.ranges.v v ∧ t.chans[n].meas.extI = calibrated c.cal (3 + k.ranges.i) i
              ∧ t.chans[n].meas.extRanges = k.ranges ∧ t.chans[n].meas.convs = rest ∧ t.tb = s.tb)
    ∧ (c.meas.cfg.d ≤ c.meas.downCount → c.meas.cfg.auto = true → f.mode ≠ .inert → f.ldid = none →
        f.seq ≠ .entering .parking → f.safe = none → ∀ w,
        autoTarget c false = some w → clampsFit f (withRange f.ranges w) = true →
        (∀ b, f.bridge = some b → exec (.autorangeDown n) s = .next (updApplied (updForce s n fun f => { f with waitingAuto := some w }) n
          fun i => { i with ranges := b.goal }))
        ∧ (f.bridge = none → f.applied.ranges = f.ranges → exec (.autorangeDown n) s = .next (updApplied s n fun i =>
          { i with ranges := withRange f.ranges w })))
    ∧ (∀ (q : Packet) (last : Nat), c.meas.packet = some q → c.meas.convs ≠ [] → s.tb.lastSample = some last →
        let t := (q.first + c.meas.cfg.ageMs * 1600000 + 799) / 800 * 800
        (t ≤ last → exec (.packetAge n) s = .next (updMeas s n fun m => { m with closes := m.closes ++ [(t, 2)] }))
        ∧ (last < t → exec (.packetAge n) s = .next s))
    ∧ (∀ xs : List Nat, f.mode ≠ .inert → f.comp.swWin ≠ 0 → 16 * f.comp.swWin ≤ f.swTicks → xs.length = f.comp.swWin → (∀ x ∈ xs, 4 * (f.comp.swThr + 1) ≤ x) →
        Completes (.stabilityAlarm n xs) s fun t => t.chans[n].force.osc = true
          ∧ t.chans[n].force.applied.comp.comp =
              f.applied.comp.comp + (if f.comp.swAuto = true ∧ f.comp.comp < f.comp.compMax ∧ f.applied.comp.comp < f.comp.compMax then 1 else 0))
    ∧ (trimRuns c = true → 1024 ≤ f.trimTicks →
        (0 < trimError c → exec (.trimStep n) s = .next (updForce s n fun f =>
          { f with trim := max (-2048) (min 2047 (f.trim + 1)), trimTicks := 0 }))
        ∧ (trimError c < 0 → exec (.trimStep n) s = .next (updForce s n fun f =>
          { f with trim := max (-2048) (min 2047 (f.trim - 1)), trimTicks := 0 }))
        ∧ (trimError c = 0 → exec (.trimStep n) s = .next (updForce s n fun f =>
          { f with trim := max (-2048) (min 2047 f.trim), trimTicks := 0 })))
    ∧ (trimRuns c = false ∨ f.trimTicks < 1024 → exec (.trimStep n) s = .next s)
    ∧ (∀ l, f.ldid = some l →
        (l.phase = 1 ∨ l.phase = 2 → l.ticks = 32 →
          exec (.ldidPerturbCount n) s = .next (updForce s n fun f => { f with ldid := some { l with phase := l.phase + 1, ticks := 0 } }))
        ∧ ∀ x dest, l.phase = 3 → c.graver.busy = some (x, .ldid dest) → exec (.ldidFitDone n) s =
            .next (finishBusy (updCtx (updForce s n fun f => { f with ldid := none }) n x fun k => setGr k dest (ldidWord l)) n x))
    ∧ ∀ t, s.tb.lastSample = some t → Completes (.railFall n) s fun u =>
        u.chans[n].force.railP = min f.railP (heldCodes c t).1 ∧ u.chans[n].force.railN = min f.railN (heldCodes c t).2
          ∧ u.chans[n].force.dac = f.dac ∧ u.mm = s.mm ∧ u.queues = s.queues

/-- R47, R73, R76, R77, R105, Tables 2.4 and 2.11: the instants of a bridged change follow one another once the switches answer: made, the change waits
for the sample tick of t2, broken, for that of t4; 16 sample ticks later it ends with RANGING cleared, and an automatic request that waited goes into
the intent where its clamps still fit; a channel that leaves INERT is enabled once its elements are made, and takes the safe state with FCAUSE 3 when
RAILOK does not come. -/
def Obligations.RangeSequences : Prop :=
  ∀ (s : State) (n : Chan),
    let f := s.chans[n].force
    (∀ b, f.bridge = some b → b.phase = .closing → cpsPending s n [opCloseI, opCloseV] = false →
      exec (.rangeSwitchMade n) s = .next (updForce s n fun f => { f with bridge := some { b with ready := true } }))
    ∧ (f.bridge = none → f.seq = .leaving .switches → cpsPending s n [opCloseI, opCloseV] = false →
        exec (.rangeSwitchMade n) s = .next (updForce (cpsFor s n opEnable 1) n fun f => { f with seq := .leaving .enabling }))
    ∧ (cpsPending s n [opCloseI, opCloseV] = true → exec (.rangeSwitchMade n) s = .next s)
    ∧ (∀ b, f.bridge = some b → b.phase = .opening → cpsPending s n [opOpenI, opOpenV] = false →
        exec (.rangeSwitchBroken n) s = .next (updForce s n fun f => { f with bridge := some { b with ready := true } }))
    ∧ (∀ b, f.bridge = some b → b.phase = .settling → 15 ≤ b.ticks →
        let ended := updMeas (updForce s n fun f => { f with bridge := none }) n fun m => { m with downCount := 0 }
        (f.waitingAuto = none ∨ f.applied.ranges ≠ f.ranges → exec (.bridgeSettleEnd n) s = .next ended)
        ∧ ∀ w, f.waitingAuto = some w → f.applied.ranges = f.ranges →
          let taken := updForce ended n fun f => { f with waitingAuto := none }
          (∀ r, waitingRanges f w = some r → exec (.bridgeSettleEnd n) s = .next (updApplied taken n fun i => { i with ranges := r }))
          ∧ (waitingRanges f w = none → exec (.bridgeSettleEnd n) s = .next taken))
    ∧ (∀ b, f.bridge = some b → b.phase = .settling → b.ticks < 15 → exec (.bridgeSettleEnd n) s = .next s)
    ∧ (f.seq = .leaving .rails → exec (.leaveInertTimeout n) s = .next (safeTrigger s n 3))
    ∧ (f.seq ≠ .leaving .rails → exec (.leaveInertTimeout n) s = .next s)

/-- R49, R59, R78, R83, R84, R86, Tables 2.13 and 2.14: relays make and break; a safe state that has run its course opens the relay; FLT_n low latches
FCAUSE 1 with every intent INERT and the relay open, the DAC to move to FAULT from the next sample tick on, and changes nothing on a channel latched at
an earlier tick but the level and the note that it is present; a latch clears only where no trigger is present, and the DAC is then to move to PARK; DISABLE latches FCAUSE 7 and asks
for SMODE OFF. -/
def Obligations.SafeStates : Prop :=
  ∀ (s : State) (p : Path) (n : Chan),
    let f := s.chans[n].force
    (f.relay = .making → mainRelief s n .connecting = none →
        exec (.relayMakeDone n true) s = .next (updForce s n fun f => { f with relay := .closed })
        ∧ exec (.relayMakeDone n false) s = .next s)
    ∧ (∀ made, f.relay ≠ .making → exec (.relayMakeDone n made) s = .next s)
    ∧ (f.breakRuns = true → f.relay = .breaking → mainRelief s n .isolating = none → f.seq ≠ .entering .relay →
        exec (.relayBreakDone n) s = .next (updForce s n fun f => { f with breakRuns := false, relay := .open_ }))
    ∧ (f.breakRuns = true → f.relay = .breaking → mainRelief s n .isolating = none → f.seq = .entering .relay →
        Completes (.relayBreakDone n) s fun t =>
          t.chans[n].force.relay = .open_ ∧ t.chans[n].force.seq = .entering .parking ∧ t.chans[n].force.cpsen = false)
    ∧ (f.breakRuns = false → exec (.relayBreakDone n) s = .next s)
    ∧ (∀ q, f.safe = some q → q.opened = false → Completes (.safeStateRampEnd n) s fun t =>
        t.chans[n].force.safe = some { q with opened := true } ∧ t.chans[n].force.oen = false ∧ t.chans[n].force.cpsen = false
          ∧ t.chans[n].force.fltLatch = f.fltLatch ∧ t.mm = s.mm)
    ∧ (f.fltLatch = true → f.safe = none → exec (.fltAssert n) s = .next (updForce s n fun f => { f with fltLow := true }))
    ∧ (f.fltLatch = true → f.safe.isSome = true → f.fltAt ≠ s.tb.now →
        exec (.fltAssert n) s = .next (updForce s n fun f => { f with fltLow := true, causes := f.causes ++ [1] }))
    ∧ (∀ q, f.fltLatch = true → f.safe = some q → f.fltAt = s.tb.now → 1 ≤ f.fcause → Completes (.fltAssert n) s fun t =>
        t.chans[n].force.fcause = 1 ∧ t.chans[n].force.causes = f.causes ++ [1] ∧ t.chans[n].force.safe = some ⟨1, f.safety.fault, true, q.imm⟩
          ∧ (q.opened = false → t.chans[n].force.oen = false ∧ t.chans[n].force.cpsen = false) ∧ t.chans[n].force.dac = f.dac ∧ t.mm = s.mm)
    ∧ (f.fltLatch = false → Completes (.fltAssert n) s fun t =>
        t.chans[n].force.fltLatch = true ∧ t.chans[n].force.fcause = 1 ∧ t.chans[n].force.oen = false
          ∧ t.chans[n].force.safe = some ⟨1, f.safety.fault, true, false⟩ ∧ t.chans[n].force.dac = f.dac ∧ t.chans[n].force.bridge = none
          ∧ (∀ x : Ctx, (t.context n x).intent.mode = .inert) ∧ t.queues = s.queues)
    ∧ (∀ high, s.fw.recovery = false → f.fltLatch = true → triggerPresent (updForce s n fun f => { f with fltLow := !high }) n = false →
        exec (.fltLatchClear p n high) s = .next (updForce s n fun f => { f with
          fltLow := !high, fltLatch := false, fcause := 0, causes := []
          safe := some ⟨7, f.safety.park, match f.safe with | some q => q.opened | none => true, false⟩ }))
    ∧ (∀ high, s.fw.recovery = false → triggerPresent (updForce s n fun f => { f with fltLow := !high }) n = true →
        exec (.fltLatchClear p n high) s = .next (updForce s n fun f => { f with fltLow := !high }))
    ∧ (∀ high, s.fw.recovery = false → f.fltLatch = false → exec (.fltLatchClear p n high) s = .next (updForce s n fun f => { f with fltLow := !high }))
    ∧ (s.fw.recovery = false → Completes (.disable p n) s fun t =>
        t.chans[n].force.fltLatch = true ∧ (f.fltLatch = false → t.chans[n].force.fcause = 7)
          ∧ (f.fltLatch = true → f.fcause ≤ 7 → t.chans[n].force.fcause = f.fcause)
          ∧ (∃ m, t.chans[n].meas.next = some m ∧ m.smode = .off) ∧ t.chans[n].meas.closes = s.chans[n].meas.closes ++ [(nextSample s, 5)])

/-- R81 to R83, R88 to R92, R473, R482, Table 2.13: supplies come and go, bank dies come up once PORN is high; a bank whose link or supplies fail takes every one of its
channels to the safe state; one command word at a time waits for its response; a response that answers nothing changes nothing, one that fails
its checks repeats its command; a restart round begins at slot 0. -/
def Obligations.BankDiesAndCps : Prop :=
  ∀ (s : State) (b : Bank) (w : Word),
    let k := s.banks[b]
    exec (.bankSupplyValid b) s = .next (updBank s b fun k => { k with supplies := true })
    ∧ (k.supplies = true → k.up = false → s.fw.porn = true → k.linkUp = true ∨ k.linkDown = true → exec (.bankDieUp b) s = .next (updBank s b fun k =>
        { k with up := true, supplyLost := false }))
    ∧ (k.supplies = true → k.up = false → s.fw.porn = true → k.linkUp = false → k.linkDown = false → Completes (.bankDieUp b) s fun t =>
        t.banks[b].up = true ∧ t.banks[b].linkUp = true ∧ t.mm = s.mm
          ∧ ∀ slot, slot < 17 → t.chans[chanAt b slot].force.dac = s.chans[chanAt b slot].force.safety.park
              ∧ t.chans[chanAt b slot].force.slot.reading = some 0 ∧ t.chans[chanAt b slot].force.slot.ident = [])
    ∧ (k.supplies = false ∨ k.up = true ∨ s.fw.porn = false → exec (.bankDieUp b) s = .next s)
    ∧ (k.up = true → Completes (.coreHandshakeLoss b) s fun t =>
        t.banks[b].up = false ∧ t.banks[b].linkErr = true ∧ t.banks[b].downs = min 63 (k.downs + 1)
          ∧ ∀ slot, slot < 17 → t.chans[chanAt b slot].force.fltLatch = true ∧ t.chans[chanAt b slot].meas.convs = [])
    ∧ (k.up = false → exec (.coreHandshakeLoss b) s = .next s)
    ∧ (k.supplies = true → Completes (.bankSupplyFail b) s fun t =>
        t.banks[b].supplies = false ∧ t.banks[b].up = false ∧ t.banks[b].linkUp = false ∧ t.banks[b].sent = []
          ∧ ∀ slot, slot < 17 → t.chans[chanAt b slot].force.fltLatch = true)
    ∧ (k.supplies = false → exec (.bankSupplyFail b) s = .next s)
    ∧ (k.linkUp = true → k.linkDown = false → k.sent = [] → ∀ c : CpsCmd, k.queue = [c] → c.op ≠ 0 → c.slot ≠ 31 → k.sincePoll < 3 →
        exec (.cpsFrame b) s = .next (updBank s b fun k =>
          { k with queue := [], sincePoll := k.sincePoll + 1, word := cpsWord c, sent := [c] }))
    ∧ (k.sent = [] → exec (.cpsResponse b w) s = .next s)
    ∧ (∀ c rest, k.sent = c :: rest → c.restart = false → k.linkDown = false → answers c w = false → c.op ≠ 0 → c.tries < 2 → k.failedPolls < 8 →
        exec (.cpsResponse b w) s = .next (updBank s b fun k => { k with sent := rest, queue := { c with tries := c.tries + 1 } :: k.queue }))
    ∧ (k.linkDown = true → exec (.cpsLinkRestartRound b) s = .next (updBank s b fun k => { k with restartSlot := some 0, restartOk := true }))
    ∧ (k.linkDown = false → exec (.cpsLinkRestartRound b) s = .next s)

/-! ### Serial lanes -/

/-- R415, R419 to R422, R424, R425, R450: a write of LN_CFG that may not be is refused; SLIP, error injection and clearing of the counters act on
the lanes they belong to; locks and link states follow their events; a host port answers what it
answers and the other frames are dropped and counted; an instruction that drives pins
by JTAG latches every channel under FCAUSE 7, ends the frames and sets DEBUG. -/
def Obligations.LanesAndLinks : Prop :=
  ∀ (s : State) (p : Path) (k : Lane) (v : Word),
    let l := s.lanes[k]
    let put := fun f : LaneState → LaneState => ({ s with lanes := s.lanes.set k (f s.lanes[k]) } : State)
    (∀ on, s.fw.recovery = false → cfgRefused s p on k v = true → exec (.laneCfgWrite p on k v) s = .next (put fun l => { l with cfgRej := true }))
    ∧ (∀ on, s.fw.recovery = false → cfgRefused s p on k v = false → Completes (.laneCfgWrite p on k v) s fun t =>
        t.lanes[k].en = v.getLsbD 31 ∧ t.lanes[k].proto = v.toNat / 2 ^ 24 % 16 ∧ t.lanes[k].lps = v.toNat / 2 ^ 16 % 4
          ∧ (v.getLsbD 31 = false → t.lanes[k].lstate = .off) ∧ t.chans = s.chans ∧ ∀ j : Lane, j ≠ k → t.lanes[j] = s.lanes[j])
    ∧ (s.fw.recovery = false → l.en = true → l.proto = 6 ∨ l.proto = 7 → exec (.slip p k) s = .next (put fun l => { l with slip := (l.slip + 1) % 66 }))
    ∧ (l.en = false → exec (.slip p k) s = .next s)
    ∧ (s.fw.recovery = false → l.en = true → l.proto = 7 → l.prbs.getLsbD 31 = true → ∀ n : Nat,
        (l.prbs.toNat / 2 ^ 24 % 4 = 1 ∧ n = 1) ∨ (l.prbs.toNat / 2 ^ 24 % 4 = 2 ∧ n = max 1 (l.prbs.toNat / 2 ^ 16 % 256)) →
        (l.nelb = false ∨ l.hdrlock = false ∨ l.prbs.getLsbD 30 = false →
          exec (.injGo p k) s = .next (put fun l => { l with injected := l.injected + n }))
        ∧ (l.nelb = true → l.hdrlock = true → l.prbs.getLsbD 30 = true → n < 64 → exec (.injGo p k) s = .next (put fun l =>
            { l with injected := l.injected + n, prbsErr := min (2 ^ 48 - 1) (l.prbsErr + n) })))
    ∧ (s.fw.recovery = false → exec (.prbsClr p k) s = .next (put fun l => { l with prbsErr := 0, prbsBits := 0 }))
    ∧ (l.en = true → l.proto ≠ 0 → l.proto ≠ 6 → l.proto ≠ 7 → l.pstate = 0 → exec (.hdrlockGain k) s = .next (put fun l => { l with hdrlock := true }))
    ∧ (l.hdrlock = true → l.proto ≠ 6 → l.proto ≠ 7 → exec (.hdrlockLoss k) s = .next (put fun l => { l with hdrlock := false, lockloss := true }))
    ∧ (l.hdrlock = false → exec (.hdrlockLoss k) s = .next s)
    ∧ (l.pstate = 2 → l.hostp = false → exec (.signalDetectRise k) s = .next s)
    ∧ (s.pwr.vigil = false → (l.pstate ≠ 2 ∨ l.hostp = true) → (l.en = false ∨ l.proto ≠ 6 ∨ l.lstate ≠ .down ∨ l.pstate ≠ 0) →
        exec (.signalDetectRise k) s = .next (put fun l => { l with sigdet := true }))
    ∧ (∀ negotiated, isEther l.proto = true → l.en = true → l.pstate = 0 → l.lstate = .down → negotiated = true ∨ l.proto ≠ 2 →
      Completes (.ethernetLockRetry k true negotiated) s fun t =>
        t.lanes[k].lstate = .up ∧ t.lanes[k].hdrlock = true ∧ t.tb = s.tb ∧ t.chans = s.chans)
    ∧ (∀ negotiated, exec (.ethernetLockRetry k false negotiated) s = .next s)
    ∧ (l.proto = 2 → exec (.ethernetLockRetry k true false) s = .next s)
    ∧ (isEther l.proto = true → l.lstate = .up → Completes (.ethernetLinkLoss k) s fun t =>
        t.lanes[k].lstate = .down ∧ t.lanes[k].lockloss = true ∧ t.lanes[k].downs = min 65535 (l.downs + 1) ∧ t.tb = s.tb)
    ∧ (∀ len tags : Nat, etherUp s k = true → mpStopped s = false →
        let dropped : State := { s with hht := { s.hht with drop := min (2 ^ 32 - 1) (s.hht.drop + 1) } }
        (∀ f, 9216 < len ∨ 1 < tags → exec (.ethernetFrame k f len tags) s = .next dropped)
        ∧ (len ≤ 9216 → tags ≤ 1 →
          (∀ f : EtherFrame, f ∈ [EtherFrame.arp, .icmpEcho, .icmp6Echo, .neighbour] → exec (.ethernetFrame k f len tags) s =
            .next (if l.hostp = true then put fun l => { l with answers := l.answers ++ [f] } else dropped))
          ∧ exec (.ethernetFrame k .hht len tags) s = .next (if l.hostp = true ∧ s.hht.en = true then s else dropped)
          ∧ exec (.ethernetFrame k .hhtBad len tags) s = .next dropped ∧ exec (.ethernetFrame k .other len tags) s = .next dropped
          ∧ exec (.ethernetFrame k .ptp len tags) s = .next s ∧ exec (.ethernetFrame k .pause len tags) s = .next s))
    ∧ (l.pstate ≠ l.lps → s.pwr.vigil = false → Completes (.lanePowerStateExit k) s fun t => t.lanes[k].pstate = l.lps
        ∧ (l.lps ≠ 0 → t = put fun l => { l with pstate := l.lps }))
    ∧ (l.pstate = l.lps ∨ s.pwr.vigil = true → exec (.lanePowerStateExit k) s = .next s)
    ∧ Completes .pcieReset s (fun t => t.path .pcie = {} ∧ t.fw.ltssm = 0 ∧ t.mm.mem = s.mm.mem ∧ t.queues = s.queues
        ∧ t.tr.msixEn = false ∧ ∀ j : Lane, t.lanes[j].proto = 1 → t.lanes[j].lstate ≠ .up)
    ∧ (∀ speed width, l.en = true → l.proto = 1 → l.pstate = 0 → k.val < (pcieAgreed s.fw speed width).2 →
        Completes (.pcieLinkUp speed width) s fun t =>
          t.lanes[k].lstate = .up ∧ (t.fw.pcieSpeed, t.fw.pcieWidth) = pcieAgreed s.fw speed width ∧ t.fw.pcieSpeed ≤ speed
            ∧ t.fw.pcieWidth ≤ width ∧ t.fw.ltssm = 1 ∧ t.tr.msixEn = true ∧ t.chans = s.chans)
    ∧ (s.fw.recovery = true → s.lanes[(0 : Lane)].lstate ≠ .up → exec .recoveryLaneAlternate s = .next (updLane s 0 fun l =>
        { l with proto := if l.proto = 2 then 3 else 2 }))
    ∧ (s.fw.recovery = false ∨ s.lanes[(0 : Lane)].lstate = .up → exec .recoveryLaneAlternate s = .next s)
    ∧ Completes .jtagPinDriveInstruction s fun t => t.pf.debug = true ∧ t.ht.en = false
        ∧ ∀ n : Chan, t.chans[n].force.fltLatch = true
          ∧ (s.chans[n].force.fltLatch = false → t.chans[n].force.fcause = 7)
          ∧ (s.chans[n].force.fltLatch = true → s.chans[n].force.fcause ≤ 7 → t.chans[n].force.fcause = s.chans[n].force.fcause)

/-- R41, R268, R426 to R430, Table 14.4: training ends UP once ACK has gone both ways, its own system ID fails an attempt and is recorded, and
the third failed attempt leaves the lane DOWN; a link that is lost trains again; CAL blocks of a skew measurement answer one another by SEQ; a
SYNCV block that differs from the capture is recorded. -/
def Obligations.SibiaLinks : Prop :=
  ∀ (s : State) (p : Path) (k : Lane) (seq : BitVec 6),
    let l := s.lanes[k]
    let put := fun (t : State) (f : LaneState → LaneState) => ({ t with lanes := t.lanes.set k (f t.lanes[k]) } : State)
    let training := l.proto = 6 ∧ l.lstate = .training
    let up := sibiaLane s k = true
    (training → l.hdrlock = true → ∀ id, id ≠ s.fw.straps.sysid → Completes (.sibiaTrain k id true) s fun t => t.lanes[k].lstate = .up ∧ t.lanes[k].gotAck = true)
    ∧ (training → l.gotAck = false → l.sentAck = true → ∀ id, id ≠ s.fw.straps.sysid → exec (.sibiaTrain k id false) s = .next s)
    ∧ (training → l.hdrlock = false → ∀ id ack, exec (.sibiaTrain k id ack) s = .next s)
    ∧ (training → l.hdrlock = true → Completes (.sibiaTrain k s.fw.straps.sysid false) s fun t => t.tb.dupId = true ∧ t.lanes[k].dupid = true ∧ t.lanes[k].lstate ≠ .up)
    ∧ (training → l.attempt = 2 → Completes (.sibiaTrainTimeout k) s fun t => t.lanes[k].lstate = .down)
    ∧ (training → l.attempt = 1 → l.hdrlock = true → exec (.sibiaTrainTimeout k) s = .next (sendBlock (put s fun l =>
        { l with attempt := 2, sentAck := false, gotAck := false, sought := true }) k (trainBlock s.fw.straps.sysid.toNat (k.val - 4) false)))
    ∧ (training → l.attempt = 1 → l.hdrlock = false → exec (.sibiaTrainTimeout k) s = .next (put s fun l =>
        { l with attempt := 2, sentAck := false, gotAck := false, sought := false }))
    ∧ (training → l.hdrlock = false → l.sought = false → l.en = true → l.pstate = 0 → exec (.hdrlockGain k) s = .next (sendBlock (put s fun l =>
        { l with hdrlock := true, sought := true }) k (trainBlock s.fw.straps.sysid.toNat (k.val - 4) false)))
    ∧ (up → Completes (.sibiaLinkLoss k) s fun t => t.lanes[k].lstate = .training ∧ t.lanes[k].attempt = 0 ∧ t.lanes[k].downs = min 65535 (l.downs + 1))
    ∧ (s.fw.recovery = false → l.en = true → l.proto = 6 → l.lstate = .down → l.pstate = 0 → Completes (.laneRestart p k) s fun t =>
        t.lanes[k].lstate = .training ∧ t.lanes[k].attempt = 0 ∧ t.chans = s.chans)
    ∧ (l.en = true → l.proto = 6 → exec (.sibiaBadBlock k) s = .next (put s fun l => { l with badblk := min 63 (l.badblk + 1) }))
    ∧ (up → exec (.sibiaCalAsk k) s = .next (put s fun l => { l with calSeq := some (0, 4096), calSent := none }))
    ∧ (up → ∀ c left, l.calSeq = some (c, left) → left ≠ 0 → l.calSent = none → exec (.sibiaCalReqSend k) s = .next (sendBlock (put s fun l =>
        { l with calSent := some c, calSeq := some ((c + 1) % 64, left - 1) }) k (calBlock 1 c (16 * s.tb.now + s.tb.fine))))
    ∧ (up → s.tb.measuring = true → skewLane s = k → ∀ t1 t2 t3 t4 : BitVec 40,
        exec (.sibiaCalReq k seq t1 t2 t3) s = .next (sendBlock
          { s with tb := { s.tb with exchange := some (seq.toNat, t1.toNat, t2.toNat, t3.toNat) } } k (calBlock 2 seq.toNat t3.toNat))
        ∧ (s.tb.exchange = some (seq.toNat, t1.toNat, t2.toNat, t3.toNat) → exec (.sibiaCalReport k seq t4) s = .next { s with tb := { s.tb with
            exchange := none, exchanges := s.tb.exchanges + 1
            sumOfs := s.tb.sumOfs + ((t2 - t1).toInt - (t4 - t3).toInt - 2 * s.tb.asym) } }))
    ∧ (up → l.calSent = some seq.toNat → ∀ t3 t4 : BitVec 40, exec (.sibiaCalRsp k seq t3 t4) s = .next (sendBlock (put s fun l =>
        { l with calSent := none }) k (calBlock 3 seq.toNat t4.toNat)))
    ∧ (l.calSent = none → s.tb.measuring = true → skewLane s = k → s.tb.dropped < 64 → exec (.sibiaCalExchangeTimeout k) s =
        .next { s with tb := { s.tb with exchange := none, dropped := s.tb.dropped + 1 } })
    ∧ (up → ∀ cap : BitVec 48, exec (.sibiaSyncv k cap) s = .next (if cap.toNat = s.tb.syncCap % 2 ^ 48 then s else put s fun l => { l with syncdiff := true }))
    ∧ ∀ (mask : BitVec 16) (a : BitVec 32), up → Completes (.sibiaToken k mask a) s fun t =>
        t.tb = s.tb ∧ t.lanes[k] = l ∧ t.chans = s.chans ∧ s.tr.remote.length ≤ t.tr.remote.length

/-- R268, R427, Table 14.4: a TOKEN block that arrives on a Sibia lane that is UP is taken by the RECEIVE and RELAY channels of that lane among those
that MASK names and that pass tokens: each holds a token for slot A + LAT, where A is the full number nearest to the present slot and LAT at least 8,
or, once that slot has begun, for the next slot boundary, with the late tokens counted; the RELAY channels put their tokens into one TOKEN block with
the same acceptance slot on every other Sibia lane that is UP. On a lane that is not UP nothing is taken. A block joins its lane behind those that were
ready at an earlier tick, and before those of its own tick that come after it in the order TOKEN, CAL, SYNCV, TRAIN; after 2,047 blocks one FILLER goes first. -/
def Obligations.SibiaTokens : Prop :=
  (∀ (s : State) (k : Lane) (mask : BitVec 16) (a : BitVec 32),
    let slot := fullSlot (s.tb.now / 16) a.toNat
    let taken := (List.finRange 128).filter fun c => decide (112 ≤ c.val) && mask.getLsbD (c.val - 112)
      && decide (2 ≤ s.tr.tc[c].rmode.toNat) && decide (s.tr.tc[c].rlane.toNat + 4 = k.val) && passes s.tr c
    let relayed := taken.filter fun c => s.tr.tc[c].rmode == 3
    let due := slot + max 8 s.tr.lat
    let next := nextSlot s / 16
    let received : State := { s with tr := { s.tr with
      remote := s.tr.remote ++ taken.map fun c => ⟨c.val, max due next, s.tb.now⟩
      late := s.tr.late || (decide (due < next) && !taken.isEmpty)
      lateCount := if due < next then min 65535 (s.tr.lateCount + taken.length) else s.tr.lateCount } }
    (sibiaLane s k = false → exec (.sibiaToken k mask a) s = .next s)
    ∧ (sibiaLane s k = true → relayed = [] → exec (.sibiaToken k mask a) s = .next received)
    ∧ (sibiaLane s k = true → relayed ≠ [] → ∃ m, (∀ i, m.testBit i = true ↔ ∃ c ∈ relayed, c.val = 112 + i)
        ∧ exec (.sibiaToken k mask a) s = .next { received with
          lanes := Vector.ofFn fun j : Lane =>
            if sibiaLane s j = true ∧ j ≠ k then txBlock s.tb.now (tokenBlock m slot) s.lanes[j] else s.lanes[j] }))
  ∧ (∀ now a : Nat, ∀ b, b = fullSlot now a → a < 2 ^ 32 → b % 2 ^ 32 = a ∧ (b ≤ now + 2 ^ 31 ∨ b < 2 ^ 32) ∧ now ≤ b + 2 ^ 31)
  ∧ ∀ (now : Nat) (b : BitVec 64) (l : LaneState),
      (l.readyAt ≠ some now → l.unfilled < 2047 → txBlock now b l =
        { l with out := l.out ++ [b], fresh := 1, readyAt := some now, unfilled := l.unfilled + 1 })
      ∧ (l.readyAt ≠ some now → l.unfilled = 2047 → txBlock now b l =
        { l with out := l.out ++ [fillerBlock, b], fresh := 1, readyAt := some now, unfilled := 1 })
      ∧ (∀ kept ahead behind : List (BitVec 64), l.readyAt = some now → l.unfilled < 2047 → l.out = kept ++ ahead ++ behind →
          l.fresh = (ahead ++ behind).length → (∀ x ∈ ahead, blockRank x ≤ blockRank b) → (∀ x ∈ behind.head?, blockRank b < blockRank x) →
          txBlock now b l = { l with out := kept ++ ahead ++ [b] ++ behind, fresh := l.fresh + 1, unfilled := l.unfilled + 1 })

/-! ### The mailbox, the host transport and IEEE 1588 -/

/-- R433 to R440: the mailbox counts; a session begins with OPEN, is answered while it lives, ends with CLOSE or its timeout, and a datagram
outside it is dropped and counted; CMD is taken at the expected offset within the window; RSPACK, DACK and DNAK move what is kept for them; data
go out in order, at most to the window; events repeat until they are acknowledged. -/
def Obligations.HostTransport : Prop :=
  ∀ (s : State) (p : Path) (v : Word) (k : Lane) (session : Word) (host : HostAddr),
    let m := s.path p
    let h := s.path .hht
    let send := fun (t : State) (d : HhtOut) => ({ t with hht := { t.hht with out := t.hht.out ++ [d] } } : State)
    let live := hhtPort s k = true ∧ s.hht.en = true ∧ s.hht.live = true ∧ s.hht.lane = k.val ∧ s.hht.host = host ∧ s.hht.session = session
    let ended := fun t : State => t.hht.live = false ∧ t.hht.session = 0 ∧ t.hht.events = [] ∧ (t.path .hht).unposted = [] ∧ t.rings = s.rings
      ∧ t.mm.mem = s.mm.mem
    ((p = .pcie ∨ p = .spi) → v.toNat % 4 = 0 → ahead m.cmdWr m.cmdRd ≤ ahead v m.cmdRd → ahead v m.cmdRd ≤ 32768 → v ≠ m.cmdWr →
      let t := updPath s p fun m => { m with cmdWr := v, offers := m.offers ++ [(v.toNat, s.tb.now)] }
      (takesFrom t p = false ∨ unknownNext t p = false → exec (.fwCmdWrWrite p v) s = .next t)
        ∧ (takesFrom t p = true → unknownNext t p = true → unknownNext (answerUnknown t p) p = false →
          exec (.fwCmdWrWrite p v) s = .next (answerUnknown t p)))
    ∧ ((p = .pcie ∨ p = .spi) → (headField m 0x10 8 = 0 ∨ s.tb.now ≤ headField m 0x10 8) → m.unposted = [] → 16 ≤ rspRoom m →
        ((answerUnknown s p).path p).rsps = m.rsps ++ [⟨headField m 0 2, 1, word (headField m 8 4), []⟩]
          ∧ ((answerUnknown s p).path p).cmdRd = m.cmdRd + word (headField m 4 4))
    ∧ ((p = .pcie ∨ p = .spi) → (v.toNat % 4 ≠ 0 ∨ 32768 < ahead v m.cmdRd) → exec (.fwCmdWrWrite p v) s = .next (updPath s p fun m => { m with rej := true }))
    ∧ ((p = .pcie ∨ p = .spi) → ahead v m.rspRd ≤ ahead m.rspWr m.rspRd → m.unposted = [] →
        exec (.fwRspRdWrite p v) s = .next (updPath s p fun m => { m with rspRd := v }))
    ∧ ((p = .pcie ∨ p = .spi) → ahead m.rspWr m.rspRd < ahead v m.rspRd → exec (.fwRspRdWrite p v) s = .next (updPath s p fun m => { m with rej := true }))
    ∧ (hhtPort s k = true → s.hht.en = true → s.hht.live = false → Completes (.hhtOpen k host) s fun t =>
        t.hht.live = true ∧ t.hht.lane = k.val ∧ t.hht.host = host ∧ t.hht.session = Config.freeWord s.free ∧ t.hht.out = s.hht.out ++ [.opened 0 (Config.freeWord s.free) Config.hhtSmax]
          ∧ t.mm = s.mm ∧ ∀ d : Ring, t.rings[d] = { s.rings[d] with sentTo := s.rings[d].rd, maxSent := s.rings[d].rd })
    ∧ (hhtPort s k = true → s.hht.en = true → s.hht.live = true → s.hht.host ≠ host → exec (.hhtOpen k host) s = .next (send s (.opened 1 0 Config.hhtSmax)))
    ∧ (hhtPort s k = true → (s.hht.live = false ∨ s.hht.session ≠ session ∨ s.hht.host ≠ host) →
        exec (.hhtKeepalive k host session) s = .next { s with hht := { s.hht with drop := min (2 ^ 32 - 1) (s.hht.drop + 1) } })
    ∧ (live → exec (.hhtKeepalive k host session) s = .next (send s .alive))
    ∧ (live → Completes (.hhtClose k host session) s ended)
    ∧ (s.hht.live = true → Completes .hhtSessionTimeout s ended)
    ∧ (live → ∀ bytes : List Byte, bytes.length ≤ 32768 - ahead h.cmdWr h.cmdRd →
        let end_ := h.cmdWr + word bytes.length
        let t := updPath s .hht fun m => { m with
          cmdWr := end_, offers := m.offers ++ [(end_.toNat, s.tb.now)], cmdRing := ringStore m.cmdRing 32768 m.cmdWr.toNat bytes }
        (takesFrom t .hht = false ∨ unknownNext t .hht = false → exec (.hhtCmd k host session h.cmdWr.toNat bytes) s =
            .next (send t (.ack end_.toNat (32768 - ahead end_ h.cmdRd))))
          ∧ (takesFrom t .hht = true → unknownNext t .hht = true → unknownNext (answerUnknown t .hht) .hht = false →
            exec (.hhtCmd k host session h.cmdWr.toNat bytes) s =
              .next (let u := answerUnknown t .hht; send u (.ack (u.path .hht).cmdWr.toNat (cmdRoom (u.path .hht))))))
    ∧ (live → ∀ offset, ∀ bytes : List Byte, (offset ≠ h.cmdWr.toNat ∨ 32768 - ahead h.cmdWr h.cmdRd < bytes.length) →
        exec (.hhtCmd k host session offset bytes) s = .next (send s (.ack h.cmdWr.toNat (32768 - ahead h.cmdWr h.cmdRd))))
    ∧ (live → ∀ offset, offset < 2 ^ 32 → ahead (word offset) h.rspRd ≤ ahead h.rspWr h.rspRd → h.unposted = [] →
        exec (.hhtRspack k host session offset) s = .next (updPath s .hht fun m => { m with rspRd := word offset }))
    ∧ (live → ∀ i : Fin 9, s.hht.stream.getLsbD i.val = true → ∀ offset,
        let r := streamRing s i
        (r.rd < offset → offset ≤ r.maxSent → offset % 4 = 0 → exec (.hhtDack k host session i offset) s =
          .next (updStream s i fun r => { r with rd := offset, rdLo := word offset, sentTo := max r.sentTo offset }))
        ∧ (r.rd ≤ offset → offset ≤ r.maxSent → exec (.hhtDnak k host session i offset) s = .next (updStream s i fun r => { r with sentTo := offset }))
        ∧ (offset < r.rd ∨ r.maxSent < offset → exec (.hhtDnak k host session i offset) s =
          .next { s with hht := { s.hht with ign := min 65535 (s.hht.ign + 1) } }))
    ∧ (∀ i : Fin 9, s.hht.live = true → s.hht.stream.getLsbD i.val = true →
        let r := streamRing s i
        let len := min Config.hhtSmax (min (r.wr - r.sentTo) (r.rd + s.hht.win - r.sentTo)) / 4 * 4
        (∀ ecc, exec (.hhtDataSend i ecc) s = .next (
          if len = 0 ∨ streamNext s i = false then s
          else
            let t := streamEcc s r ecc
            let n := serveStream (readyStreams s) i t.hht
            updStream { t with hht := { n with
              out := n.out ++ [.data i.val r.sentTo len], retx := if r.sentTo < r.maxSent then min 65535 (n.retx + 1) else n.retx } } i
              fun r => { r with sentTo := r.sentTo + len, maxSent := max r.maxSent (r.sentTo + len) }))
        ∧ (s.hht.owed = [] → (streamNext s i = true ↔ i.val ∈ readyStreams s ∧ ∀ j ∈ readyStreams s, i.val ≤ j))
        ∧ (r.rd < r.maxSent → exec (.hhtDataResend i) s = .next (updStream s i fun r => { r with sentTo := r.rd })))
    ∧ (s.hht.live = true → h.rspRd ≠ h.rspWr → exec .hhtRspResend s = .next (send s (.rsp h.rspRd.toNat (ahead h.rspWr h.rspRd))))
    ∧ (s.hht.live = true → s.hht.evtEn = true → exec .hhtEventRepeat s =
        .next { s with hht := { s.hht with out := s.hht.out ++ s.hht.events.map fun e => .event e.1 e.2 } })
    ∧ (∀ kind tick domain time, etherUp s k = true →
        exec (.ptpEventMessage k kind true tick domain time) s = .next (updLane s k fun l =>
          { l with ptpLog := l.ptpLog ++ [⟨kind, true, tick + Config.laneLatency l.proto true, domain, time⟩] })
        ∧ exec (.ptpEventMessage k kind false tick domain time) s = .next (updLane s k fun l =>
          { l with ptpLog := l.ptpLog ++ [⟨kind, false, tick - Config.laneLatency l.proto false, domain, time⟩] }))
    ∧ (∀ kind sent tick domain time, etherUp s k = false → exec (.ptpEventMessage k kind sent tick domain time) s = .next s)
    ∧ (∀ (f : Firmware) (l : LaneState) (sync req : PtpStamp) (ns : Nat), ptpPeer f = false →
        lastStamp l.ptpLog (ptpDomain f) .sync false = some sync → lastStamp l.ptpLog (ptpDomain f) .delayReq true = some req →
        (ns : Int) * 16 = 16 * sync.time + (8 * ((req.time : Int) - sync.time) - 5 * ((req.tick : Int) - sync.tick)) →
        laneMapping f l = some (sync.tick, ns / 1000000000, ns % 1000000000))
    ∧ ∀ lost, s.fw.ready = true → mpStopped s = false →
        let maps := fun (state : Nat) (tai : Nat × Nat × Nat) => ({ s with fw := { s.fw with ptpState := state, tai := tai } } : State)
        (∀ m, ptpMapping s = some m → exec (.ptpMappingUpdate true true lost) s = .next (maps 1 m))
        ∧ (ptpMapping s = none → exec (.ptpMappingUpdate true true lost) s = .next (maps 0 (0, 0, 0)))
        ∧ exec (.ptpMappingUpdate true false lost) s = .next (maps 0 (0, 0, 0))
        ∧ ∀ agree, exec (.ptpMappingUpdate false agree lost) s =
            .next (if s.fw.ptpState ≠ 0 ∧ lost = false then maps 2 s.fw.tai else maps 0 (0, 0, 0))

/-! ### Firmware and updates -/

/-- R408, R445, R451 to R462, Table 15.6, Table 15.7: sessions of an update open, write, finish and end; an activation preloads, writes its journal
and starts the new image as TRIAL, or falls back; confirming a TRIAL slot leaves one CONFIRMED slot; the library, the settings, the security version
counter and the log. A write of the directory, the settings or the counter takes effect once its read-back has passed; that it is answered with STATE
where it does not, and what then stands, is the model's reading (assumption 134). -/
def Obligations.FirmwareUpdates : Prop :=
  ∀ (s : State) (h : Hdr) (slot : Bool) (digest : Digest),
    let c := takeMessage s h
    let touched := fun u : Update => { u with lastCmd := s.tb.now }
    let file := fun (t : State) (f : Firmware) => ({ t with fw := f } : State)
    let mine := fun u : Update => s.fw.update = some u ∧ u.path = h.path
    let trial := fun b : Bool => s.fw.dir.state b = .trial ∧ (b = true → s.fw.dir.stateA ≠ .trial)
    let passes := Config.readback s.fw.writes
    let same := fun t : State => t.fw.dir = s.fw.dir
    (Accepted s h 36 → s.fw.update = none → s.pf.owner = none → exec (.updOpen h .board slot digest none) s =
      .next (answered (file c { c.fw with
        object := []
        update := some ⟨h.path, if h.path = .hht then s.hht.host else ⟨0, 0⟩, .board, targetSlot s.fw slot, digest, s.tb.now, [], false, 0, (otherHalf s.fw).val⟩ })
        s h 0x40 0 []))
    ∧ (Accepted s h 36 → ∀ u, s.fw.update = some u → u.path ≠ h.path → Completes (.updOpen h .board slot digest none) s fun t => t.fw.update = some u)
    ∧ (∀ u offset, ∀ bytes : List Byte, Accepted s h (8 + bytes.length) → mine u → u.kind = .board → u.finished = false → bytes.length % 4 = 0 →
        offset + bytes.length ≤ 0x20000 → exec (.updData h offset bytes) s = .next (answered (file c { c.fw with
          boardFlash := memWriteBytes s.fw.boardFlash offset bytes
          update := some { touched u with ranges := u.ranges ++ [(offset, bytes.length)] } }) s h 0x41 0 []))
    ∧ (∀ u high, Accepted s h 0 → mine u →
        (u.finished = true → exec (.updFinish h high) s = .next (answered (file c { c.fw with update := some (touched u) }) s h 0x42 9 []))
        ∧ (u.finished = false → u.kind = .board → covers u 0 (flashField s.fw.boardFlash 8 4 + 32) = true → exec (.updFinish h high) s = .next (
            if boardValid s.fw.boardFlash = true ∧ boardDigest s.fw.boardFlash = u.digest then answered (file c { c.fw with
              update := some { touched u with finished := true } }) s h 0x42 0 []
            else answered (file c { c.fw with update := some (touched u) }) s h 0x42 0x17 []))
        ∧ (u.finished = false → u.kind = .board → covers u 0 (flashField s.fw.boardFlash 8 4 + 32) = false →
            exec (.updFinish h high) s = .next (answered (file c { c.fw with update := some (touched u) }) s h 0x42 0x17 []))
        ∧ exec (.updAbort h) s = .next (answered (file c { c.fw with update := none, object := [] }) s h 0x43 0 [])
        ∧ (u.kind = .image → u.finished = true → s.mm.maGib ≠ 0 → imageHfmtMin (s.fw.slot u.slotB) ≤ imageHfmt (s.fw.slot s.fw.runB) →
            s.fw.dir.state u.slotB = .valid → s.fw.dir.state s.fw.runB ≠ .trial → s.fw.svnCnt ≤ imageSvn (s.fw.slot u.slotB) →
            exec (.fwActivate h) s = .next (answered (file c { c.fw with handover := .preload u.slotB, update := some (touched u) }) s h 0x44 0 []))
        ∧ (u.kind = .library → u.finished = true → Completes (.libActivate h) s fun t =>
            if passes then
              t.fw.dir.libHalf = u.libHalf ∧ t.fw.dir.libLen = u.libLen ∧ t.fw.dir.libDigest = u.digest ∧ t.fw.dir.seq = s.fw.dir.seq + 1
                ∧ ∀ a, (a < 0x800000C00000 ∨ 0x800001000000 ≤ a) → (u.libLen ≤ 0x400000 → memRead t.mm.mem a = memRead s.mm.mem a)
            else same t ∧ t.mm.mem = s.mm.mem))
    ∧ (Accepted s h 0 → s.fw.update = none → exec (.updAbort h) s = .next (answered c s h 0x43 9 []))
    ∧ (s.fw.update.isSome = true → exec .updSessionTimeout s = .next { s with fw := { s.fw with update := none, object := [] } })
    ∧ (∀ b, s.fw.handover = .preload b → exec .handoverPreloadDone s = .next (
        if imageVerified s.fw.svnCnt (s.fw.slot b) then
          (if passes then file (restartRuns s) { writeDir s.fw fun d => { d with journal := true, jslotB := b } with handover := .pause b }
            else file s { writeDir s.fw fun d => { d with journal := true, jslotB := b } with handover := .none })
        else file s { writeDir s.fw (setSlot b .invalid 0) with handover := .none }))
    ∧ (∀ b, s.fw.handover = .pause b → s.fw.porn = true →
        let fallen := fun t : State => t.fw.handover = .none ∧ t.fw.restarting = true ∧ t.mm.mem = s.mm.mem
        Completes (.handoverImageStart true) s (fun t =>
          if passes then t.fw.handover = .none ∧ t.fw.runB = b ∧ t.fw.dir.state b = .trial ∧ t.fw.dir.journal = false ∧ t.fw.trialStart = some s.tb.now
            ∧ t.fw.version = word (imageVersion (s.fw.slot b)) ∧ t.chans = s.chans ∧ t.mm = s.mm ∧ t.queues = s.queues
          else fallen t)
        ∧ Completes (.handoverImageStart false) s fallen)
    ∧ (∀ b, trial b → Accepted s h 0 → Completes (.fwConfirm h) s fun t =>
        if passes then t.fw.dir.state b = .confirmed ∧ t.fw.dir.state (!b) ≠ .confirmed ∧ s.fw.svnCnt ≤ t.fw.svnCnt ∧ t.fw.trialStart = none
        else same t ∧ t.fw.svnCnt = s.fw.svnCnt)
    ∧ (s.fw.autoconf = true → s.fw.running = true → s.fw.restarting = false → s.fw.trialStart.isSome = true → s.fw.dir.state s.fw.runB = .trial →
        Completes .trialAutoconfirm s fun t => t = { s with fw := t.fw }
          ∧ if passes then t.fw.dir.state s.fw.runB = .confirmed ∧ t.fw.dir.state (!s.fw.runB) ≠ .confirmed else same t)
    ∧ (Accepted s h 0 → s.fw.porn = true → Completes (.fwRestart h) s fun t =>
        t.fw.restarting = true ∧ t.fw.wrcnt = min 255 (s.fw.wrcnt + 1) ∧ t.mm.mem = s.mm.mem ∧ t.queues = s.queues)
    ∧ (∀ blob : List Byte, Accepted s h blob.length → exec (.setSave h blob) s = .next (answered (file c
        (saveSettings c.fw (imageSetFmt (s.fw.slot s.fw.runB)) blob)) s h 0x48 (if passes then 0 else 9) []))
    ∧ (Accepted s h 0 → exec (.setDefaults h) s = .next (answered (file c
        (saveSettings c.fw (imageSetFmt (s.fw.slot s.fw.runB)) [])) s h 0x49 (if passes then 0 else 9) []))
    ∧ (∀ fmt (blob : List Byte),
        let t := saveSettings s.fw fmt blob
        if passes then t.settings = blob ∧ newestHalf t = some (
          match newestHalf s.fw with
          | some a => (1 - a.1, ⟨a.2.seq + 1, fmt, blob⟩)
          | none => (0, ⟨1, fmt, blob⟩))
        else t.settings = s.fw.settings ∧ newestHalf t = newestHalf s.fw)
    ∧ (∀ v : Nat,
        (writeSvn s.fw v).svnCnt = (if passes || Config.readback (s.fw.writes + 1) then v else s.fw.svnCnt)
          ∧ (writeSvn s.fw v).svnSlots[s.fw.svnSlot] = s.fw.svnSlots[s.fw.svnSlot])
    ∧ ∀ first count, Accepted s h 8 → 1 ≤ count → count ≤ 256 → exec (.logRead h first count) s = .next (answered c s h 0x4A 0
        (((s.fw.log.drop first).take count).flatMap fun e => Config.logEntry e.1 e.2))

/-! ### Reset, words, and what every command keeps -/

/-- Tables 2.26 to 2.28, 3.16, 4.8, 8.8, 9.2, 14.13, 15.1: the values that the tables give for reset: every channel INERT with its output relay
open, SINC3 of 2,000 samples and stream mode OFF, every context HALTED, every queue disabled with the default regions of Table 9.2, frames
disabled, lanes OFF, no counter running and nothing queued. -/
def Obligations.ResetState : Prop :=
  let s := State.reset
  s.pending = [] ∧ s.tb.lock = false ∧ s.tb.now = 0 ∧ s.ht.en = false ∧ s.pf.en = false ∧ s.hht.live = false ∧ s.fw.porn = false
    ∧ s.mm.mem = [] ∧ s.memoryForm = true
    ∧ (∀ n : Chan, s.chans[n].force.mode = .inert ∧ s.chans[n].force.oen = false ∧ s.chans[n].meas.cfg.smode = .off
        ∧ s.chans[n].meas.cfg.filt = .sinc3 ∧ s.chans[n].meas.cfg.n = 2000 ∧ s.chans[n].meas.latest.v = BitVec.ofNat 32 n.val)
    ∧ (∀ (n : Chan) (x : Ctx), (s.context n x).state = .halted ∧ (s.context n x).pc = 0)
    ∧ (∀ q : Fin 256, s.queues[q].state = .disabled ∧ (q.val < 68 → s.queues[q].base = 228 * q.val ∧ s.queues[q].size = 228)
        ∧ (q.val = 68 → s.queues[q].base = 15504 ∧ s.queues[q].size = 256) ∧ (68 < q.val → s.queues[q].size = 0))
    ∧ (∀ k : Lane, s.lanes[k].lstate = .off) ∧ (∀ k : Fin 128, s.tr.tc[k].en = false) ∧ ∀ b : Bank, s.banks[b].up = false

/-- Table 5.12 and the encodings of chapter 5: words written out field by field spell the instructions they stand for. -/
def Obligations.TableWordsDecode : Prop :=
  let none_ : Fields := ⟨0, 0, 0, 0, 0⟩
  ∀ (n : Chan) (e : Word) (r : EccResult),
    decodeWord n 0x84000400 e r = .range n { none_ with imm := 0x0400 }
    ∧ decodeWord n 0x90002000 0x4000C000 r = .clamp n { none_ with imm := 0x2000, ext := 0x4000C000 }
    ∧ decodeWord n 0x80000001 e r = .mode n { none_ with imm := 1 }
    ∧ decodeWord n 0x24000002 e r = .fence n { none_ with imm := 2 }
    ∧ decodeWord n 0xA0000001 e r = .connect n { none_ with imm := 1 }
    ∧ decodeWord n 0x34400190 e r = .ldi n { none_ with a := 1, imm := 400 }
    ∧ decodeWord n 0x98042000 0x00033333 r = .ramp n { none_ with b := 1, imm := 0x2000, ext := 0x33333 }
    ∧ decodeWord n 0x04000000 e r = .halt n none_
    ∧ decodeWord n 0x2C000000 e r = .illegalOpcode n 0x0B none_

/-- R131, R156, Table 4.2, Table 5.1: for every well-formed instruction command the words that encode it spell it again, with every operand; and
every pair of words spells a well-formed instruction command that encodes to the same words, where the second word counts only for an instruction
that carries an extension word. What the ECC finds in the memory an instruction reads is no part of its words. -/
def Obligations.InstructionWordsRoundTrip : Prop :=
  (∀ (i : Instr) (op : BitVec 6) (n : Chan) (k : Fields), instrParts i = some (op, n, k) → i.wf = true →
    ∃ w e, encodeWord i = some (w, e) ∧ decodeWord n w e (instrRead i) = i)
  ∧ ∀ (n : Chan) (w e : Word) (r : EccResult), (decodeWord n w e r).wf = true
      ∧ encodeWord (decodeWord n w e r) = some (w, if hasExt (wordOp w) (wordFields w 0) then e else 0)

/-- R155 to R159: an instruction of the control-free integer class (MOV, LDI, LDX, ADD to XOR, the shifts, CMP, SAT, ABS) that a context carries
out changes no other channel, no other context's registers, no register of its own but g[a], no memory, no queue and no output, whether it
completes or is suspended as ILLEGAL. -/
def Obligations.IntegerFrame : Prop :=
  ∀ (s : State) (n : Chan) (x : Ctx) (k : Fields) (i : Instr) (op : BitVec 6),
    i ∈ [Instr.mov n k, .ldi n k, .ldx n k, .add n k, .sub n k, .mul n k, .mac n k, .and n k, .or n k, .xor n k, .shl n k, .shr n k, .asr n k,
      .cmp n k, .sat n k, .abs n k] →
    instrParts i = some (op, n, k) → Runs s n x op k →
    Completes i s fun t =>
      (∀ m : Chan, m ≠ n → t.chans[m] = s.chans[m]) ∧ t.chans[n].force = s.chans[n].force ∧ t.chans[n].meas = s.chans[n].meas
        ∧ (∀ y : Ctx, y ≠ x → (t.context n y).g = (s.context n y).g)
        ∧ (∀ r : BitVec 4, r ≠ k.a → gr (t.context n x) r = gr (s.context n x) r) ∧ (i = .cmp n k → (t.context n x).g = (s.context n x).g)
        ∧ (t.context n x).lc = (s.context n x).lc
        ∧ t.mm.mem = s.mm.mem ∧ t.queues = s.queues ∧ t.tb = s.tb ∧ t.lanes = s.lanes ∧ t.fw = s.fw ∧ t.pf = s.pf

/-- The block's promise to its sender: every command is taken, in the order of the queue, and a command's own effect never changes what waits
behind it. -/
def Obligations.QueueIsTakenInOrder : Prop :=
  ∀ s : State, ∃ t, step s = .next t ∧ t.pending = s.pending.tail

/-- Every step keeps the canonical form of the addressed memories: external memory, the flash slots, the board record, the libraries, the object
of an update, and the rings of the command paths. -/
def Obligations.StepsKeepMemoryForm : Prop :=
  ∀ s t : State, s.memoryForm = true → step s = .next t → t.memoryForm = true
end

