-- ==== Sys2Proof/Laws/State.lean ====
section
/-!
SUPPORT. What each update of a part of the state leaves and what it writes: one lemma for each update and field.
-/
namespace Sys2Proof.Machine

variable (s : State)

/-! ### updChan -/

@[simp] theorem updChan_pending (n : Chan) (f : Channel → Channel) : (updChan s n f).pending = s.pending := rfl
@[simp] theorem updChan_tb (n : Chan) (f : Channel → Channel) : (updChan s n f).tb = s.tb := rfl
@[simp] theorem updChan_banks (n : Chan) (f : Channel → Channel) : (updChan s n f).banks = s.banks := rfl
@[simp] theorem updChan_reliefs (n : Chan) (f : Channel → Channel) : (updChan s n f).reliefs = s.reliefs := rfl
@[simp] theorem updChan_mrk (n : Chan) (f : Channel → Channel) : (updChan s n f).mrk = s.mrk := rfl
@[simp] theorem updChan_tr (n : Chan) (f : Channel → Channel) : (updChan s n f).tr = s.tr := rfl
@[simp] theorem updChan_ht (n : Chan) (f : Channel → Channel) : (updChan s n f).ht = s.ht := rfl
@[simp] theorem updChan_queues (n : Chan) (f : Channel → Channel) : (updChan s n f).queues = s.queues := rfl
@[simp] theorem updChan_rings (n : Chan) (f : Channel → Channel) : (updChan s n f).rings = s.rings := rfl
@[simp] theorem updChan_mm (n : Chan) (f : Channel → Channel) : (updChan s n f).mm = s.mm := rfl
@[simp] theorem updChan_pf (n : Chan) (f : Channel → Channel) : (updChan s n f).pf = s.pf := rfl
@[simp] theorem updChan_pl (n : Chan) (f : Channel → Channel) : (updChan s n f).pl = s.pl := rfl
@[simp] theorem updChan_pwr (n : Chan) (f : Channel → Channel) : (updChan s n f).pwr = s.pwr := rfl
@[simp] theorem updChan_lanes (n : Chan) (f : Channel → Channel) : (updChan s n f).lanes = s.lanes := rfl
@[simp] theorem updChan_hht (n : Chan) (f : Channel → Channel) : (updChan s n f).hht = s.hht := rfl
@[simp] theorem updChan_fw (n : Chan) (f : Channel → Channel) : (updChan s n f).fw = s.fw := rfl
@[simp] theorem updChan_paths (n : Chan) (f : Channel → Channel) : (updChan s n f).paths = s.paths := rfl
@[simp] theorem updChan_free (n : Chan) (f : Channel → Channel) : (updChan s n f).free = s.free := rfl

/-! ### updForce -/

@[simp] theorem updForce_pending (n : Chan) (f : Force → Force) : (updForce s n f).pending = s.pending := rfl
@[simp] theorem updForce_tb (n : Chan) (f : Force → Force) : (updForce s n f).tb = s.tb := rfl
@[simp] theorem updForce_banks (n : Chan) (f : Force → Force) : (updForce s n f).banks = s.banks := rfl
@[simp] theorem updForce_reliefs (n : Chan) (f : Force → Force) : (updForce s n f).reliefs = s.reliefs := rfl
@[simp] theorem updForce_mrk (n : Chan) (f : Force → Force) : (updForce s n f).mrk = s.mrk := rfl
@[simp] theorem updForce_tr (n : Chan) (f : Force → Force) : (updForce s n f).tr = s.tr := rfl
@[simp] theorem updForce_ht (n : Chan) (f : Force → Force) : (updForce s n f).ht = s.ht := rfl
@[simp] theorem updForce_queues (n : Chan) (f : Force → Force) : (updForce s n f).queues = s.queues := rfl
@[simp] theorem updForce_rings (n : Chan) (f : Force → Force) : (updForce s n f).rings = s.rings := rfl
@[simp] theorem updForce_mm (n : Chan) (f : Force → Force) : (updForce s n f).mm = s.mm := rfl
@[simp] theorem updForce_pf (n : Chan) (f : Force → Force) : (updForce s n f).pf = s.pf := rfl
@[simp] theorem updForce_pl (n : Chan) (f : Force → Force) : (updForce s n f).pl = s.pl := rfl
@[simp] theorem updForce_pwr (n : Chan) (f : Force → Force) : (updForce s n f).pwr = s.pwr := rfl
@[simp] theorem updForce_lanes (n : Chan) (f : Force → Force) : (updForce s n f).lanes = s.lanes := rfl
@[simp] theorem updForce_hht (n : Chan) (f : Force → Force) : (updForce s n f).hht = s.hht := rfl
@[simp] theorem updForce_fw (n : Chan) (f : Force → Force) : (updForce s n f).fw = s.fw := rfl
@[simp] theorem updForce_paths (n : Chan) (f : Force → Force) : (updForce s n f).paths = s.paths := rfl
@[simp] theorem updForce_free (n : Chan) (f : Force → Force) : (updForce s n f).free = s.free := rfl

/-! ### updMeas -/

@[simp] theorem updMeas_pending (n : Chan) (f : Measure → Measure) : (updMeas s n f).pending = s.pending := rfl
@[simp] theorem updMeas_tb (n : Chan) (f : Measure → Measure) : (updMeas s n f).tb = s.tb := rfl
@[simp] theorem updMeas_banks (n : Chan) (f : Measure → Measure) : (updMeas s n f).banks = s.banks := rfl
@[simp] theorem updMeas_reliefs (n : Chan) (f : Measure → Measure) : (updMeas s n f).reliefs = s.reliefs := rfl
@[simp] theorem updMeas_mrk (n : Chan) (f : Measure → Measure) : (updMeas s n f).mrk = s.mrk := rfl
@[simp] theorem updMeas_tr (n : Chan) (f : Measure → Measure) : (updMeas s n f).tr = s.tr := rfl
@[simp] theorem updMeas_ht (n : Chan) (f : Measure → Measure) : (updMeas s n f).ht = s.ht := rfl
@[simp] theorem updMeas_queues (n : Chan) (f : Measure → Measure) : (updMeas s n f).queues = s.queues := rfl
@[simp] theorem updMeas_rings (n : Chan) (f : Measure → Measure) : (updMeas s n f).rings = s.rings := rfl
@[simp] theorem updMeas_mm (n : Chan) (f : Measure → Measure) : (updMeas s n f).mm = s.mm := rfl
@[simp] theorem updMeas_pf (n : Chan) (f : Measure → Measure) : (updMeas s n f).pf = s.pf := rfl
@[simp] theorem updMeas_pl (n : Chan) (f : Measure → Measure) : (updMeas s n f).pl = s.pl := rfl
@[simp] theorem updMeas_pwr (n : Chan) (f : Measure → Measure) : (updMeas s n f).pwr = s.pwr := rfl
@[simp] theorem updMeas_lanes (n : Chan) (f : Measure → Measure) : (updMeas s n f).lanes = s.lanes := rfl
@[simp] theorem updMeas_hht (n : Chan) (f : Measure → Measure) : (updMeas s n f).hht = s.hht := rfl
@[simp] theorem updMeas_fw (n : Chan) (f : Measure → Measure) : (updMeas s n f).fw = s.fw := rfl
@[simp] theorem updMeas_paths (n : Chan) (f : Measure → Measure) : (updMeas s n f).paths = s.paths := rfl
@[simp] theorem updMeas_free (n : Chan) (f : Measure → Measure) : (updMeas s n f).free = s.free := rfl

/-! ### updGraver -/

@[simp] theorem updGraver_pending (n : Chan) (f : Graver → Graver) : (updGraver s n f).pending = s.pending := rfl
@[simp] theorem updGraver_tb (n : Chan) (f : Graver → Graver) : (updGraver s n f).tb = s.tb := rfl
@[simp] theorem updGraver_banks (n : Chan) (f : Graver → Graver) : (updGraver s n f).banks = s.banks := rfl
@[simp] theorem updGraver_reliefs (n : Chan) (f : Graver → Graver) : (updGraver s n f).reliefs = s.reliefs := rfl
@[simp] theorem updGraver_mrk (n : Chan) (f : Graver → Graver) : (updGraver s n f).mrk = s.mrk := rfl
@[simp] theorem updGraver_tr (n : Chan) (f : Graver → Graver) : (updGraver s n f).tr = s.tr := rfl
@[simp] theorem updGraver_ht (n : Chan) (f : Graver → Graver) : (updGraver s n f).ht = s.ht := rfl
@[simp] theorem updGraver_queues (n : Chan) (f : Graver → Graver) : (updGraver s n f).queues = s.queues := rfl
@[simp] theorem updGraver_rings (n : Chan) (f : Graver → Graver) : (updGraver s n f).rings = s.rings := rfl
@[simp] theorem updGraver_mm (n : Chan) (f : Graver → Graver) : (updGraver s n f).mm = s.mm := rfl
@[simp] theorem updGraver_pf (n : Chan) (f : Graver → Graver) : (updGraver s n f).pf = s.pf := rfl
@[simp] theorem updGraver_pl (n : Chan) (f : Graver → Graver) : (updGraver s n f).pl = s.pl := rfl
@[simp] theorem updGraver_pwr (n : Chan) (f : Graver → Graver) : (updGraver s n f).pwr = s.pwr := rfl
@[simp] theorem updGraver_lanes (n : Chan) (f : Graver → Graver) : (updGraver s n f).lanes = s.lanes := rfl
@[simp] theorem updGraver_hht (n : Chan) (f : Graver → Graver) : (updGraver s n f).hht = s.hht := rfl
@[simp] theorem updGraver_fw (n : Chan) (f : Graver → Graver) : (updGraver s n f).fw = s.fw := rfl
@[simp] theorem updGraver_paths (n : Chan) (f : Graver → Graver) : (updGraver s n f).paths = s.paths := rfl
@[simp] theorem updGraver_free (n : Chan) (f : Graver → Graver) : (updGraver s n f).free = s.free := rfl

/-! ### updCtx -/

@[simp] theorem updCtx_pending (n : Chan) (x : Ctx) (f : Context → Context) : (updCtx s n x f).pending = s.pending := rfl
@[simp] theorem updCtx_tb (n : Chan) (x : Ctx) (f : Context → Context) : (updCtx s n x f).tb = s.tb := rfl
@[simp] theorem updCtx_banks (n : Chan) (x : Ctx) (f : Context → Context) : (updCtx s n x f).banks = s.banks := rfl
@[simp] theorem updCtx_reliefs (n : Chan) (x : Ctx) (f : Context → Context) : (updCtx s n x f).reliefs = s.reliefs := rfl
@[simp] theorem updCtx_mrk (n : Chan) (x : Ctx) (f : Context → Context) : (updCtx s n x f).mrk = s.mrk := rfl
@[simp] theorem updCtx_tr (n : Chan) (x : Ctx) (f : Context → Context) : (updCtx s n x f).tr = s.tr := rfl
@[simp] theorem updCtx_ht (n : Chan) (x : Ctx) (f : Context → Context) : (updCtx s n x f).ht = s.ht := rfl
@[simp] theorem updCtx_queues (n : Chan) (x : Ctx) (f : Context → Context) : (updCtx s n x f).queues = s.queues := rfl
@[simp] theorem updCtx_rings (n : Chan) (x : Ctx) (f : Context → Context) : (updCtx s n x f).rings = s.rings := rfl
@[simp] theorem updCtx_mm (n : Chan) (x : Ctx) (f : Context → Context) : (updCtx s n x f).mm = s.mm := rfl
@[simp] theorem updCtx_pf (n : Chan) (x : Ctx) (f : Context → Context) : (updCtx s n x f).pf = s.pf := rfl
@[simp] theorem updCtx_pl (n : Chan) (x : Ctx) (f : Context → Context) : (updCtx s n x f).pl = s.pl := rfl
@[simp] theorem updCtx_pwr (n : Chan) (x : Ctx) (f : Context → Context) : (updCtx s n x f).pwr = s.pwr := rfl
@[simp] theorem updCtx_lanes (n : Chan) (x : Ctx) (f : Context → Context) : (updCtx s n x f).lanes = s.lanes := rfl
@[simp] theorem updCtx_hht (n : Chan) (x : Ctx) (f : Context → Context) : (updCtx s n x f).hht = s.hht := rfl
@[simp] theorem updCtx_fw (n : Chan) (x : Ctx) (f : Context → Context) : (updCtx s n x f).fw = s.fw := rfl
@[simp] theorem updCtx_paths (n : Chan) (x : Ctx) (f : Context → Context) : (updCtx s n x f).paths = s.paths := rfl
@[simp] theorem updCtx_free (n : Chan) (x : Ctx) (f : Context → Context) : (updCtx s n x f).free = s.free := rfl

/-! ### updCmp -/

@[simp] theorem updCmp_pending (n : Chan) (c : Cmp) (f : Comparator → Comparator) : (updCmp s n c f).pending = s.pending := rfl
@[simp] theorem updCmp_tb (n : Chan) (c : Cmp) (f : Comparator → Comparator) : (updCmp s n c f).tb = s.tb := rfl
@[simp] theorem updCmp_banks (n : Chan) (c : Cmp) (f : Comparator → Comparator) : (updCmp s n c f).banks = s.banks := rfl
@[simp] theorem updCmp_reliefs (n : Chan) (c : Cmp) (f : Comparator → Comparator) : (updCmp s n c f).reliefs = s.reliefs := rfl
@[simp] theorem updCmp_mrk (n : Chan) (c : Cmp) (f : Comparator → Comparator) : (updCmp s n c f).mrk = s.mrk := rfl
@[simp] theorem updCmp_tr (n : Chan) (c : Cmp) (f : Comparator → Comparator) : (updCmp s n c f).tr = s.tr := rfl
@[simp] theorem updCmp_ht (n : Chan) (c : Cmp) (f : Comparator → Comparator) : (updCmp s n c f).ht = s.ht := rfl
@[simp] theorem updCmp_queues (n : Chan) (c : Cmp) (f : Comparator → Comparator) : (updCmp s n c f).queues = s.queues := rfl
@[simp] theorem updCmp_rings (n : Chan) (c : Cmp) (f : Comparator → Comparator) : (updCmp s n c f).rings = s.rings := rfl
@[simp] theorem updCmp_mm (n : Chan) (c : Cmp) (f : Comparator → Comparator) : (updCmp s n c f).mm = s.mm := rfl
@[simp] theorem updCmp_pf (n : Chan) (c : Cmp) (f : Comparator → Comparator) : (updCmp s n c f).pf = s.pf := rfl
@[simp] theorem updCmp_pl (n : Chan) (c : Cmp) (f : Comparator → Comparator) : (updCmp s n c f).pl = s.pl := rfl
@[simp] theorem updCmp_pwr (n : Chan) (c : Cmp) (f : Comparator → Comparator) : (updCmp s n c f).pwr = s.pwr := rfl
@[simp] theorem updCmp_lanes (n : Chan) (c : Cmp) (f : Comparator → Comparator) : (updCmp s n c f).lanes = s.lanes := rfl
@[simp] theorem updCmp_hht (n : Chan) (c : Cmp) (f : Comparator → Comparator) : (updCmp s n c f).hht = s.hht := rfl
@[simp] theorem updCmp_fw (n : Chan) (c : Cmp) (f : Comparator → Comparator) : (updCmp s n c f).fw = s.fw := rfl
@[simp] theorem updCmp_paths (n : Chan) (c : Cmp) (f : Comparator → Comparator) : (updCmp s n c f).paths = s.paths := rfl
@[simp] theorem updCmp_free (n : Chan) (c : Cmp) (f : Comparator → Comparator) : (updCmp s n c f).free = s.free := rfl

/-! ### updCal -/

@[simp] theorem updCal_pending (n : Chan) (f : Calib → Calib) : (updCal s n f).pending = s.pending := rfl
@[simp] theorem updCal_tb (n : Chan) (f : Calib → Calib) : (updCal s n f).tb = s.tb := rfl
@[simp] theorem updCal_banks (n : Chan) (f : Calib → Calib) : (updCal s n f).banks = s.banks := rfl
@[simp] theorem updCal_reliefs (n : Chan) (f : Calib → Calib) : (updCal s n f).reliefs = s.reliefs := rfl
@[simp] theorem updCal_mrk (n : Chan) (f : Calib → Calib) : (updCal s n f).mrk = s.mrk := rfl
@[simp] theorem updCal_tr (n : Chan) (f : Calib → Calib) : (updCal s n f).tr = s.tr := rfl
@[simp] theorem updCal_ht (n : Chan) (f : Calib → Calib) : (updCal s n f).ht = s.ht := rfl
@[simp] theorem updCal_queues (n : Chan) (f : Calib → Calib) : (updCal s n f).queues = s.queues := rfl
@[simp] theorem updCal_rings (n : Chan) (f : Calib → Calib) : (updCal s n f).rings = s.rings := rfl
@[simp] theorem updCal_mm (n : Chan) (f : Calib → Calib) : (updCal s n f).mm = s.mm := rfl
@[simp] theorem updCal_pf (n : Chan) (f : Calib → Calib) : (updCal s n f).pf = s.pf := rfl
@[simp] theorem updCal_pl (n : Chan) (f : Calib → Calib) : (updCal s n f).pl = s.pl := rfl
@[simp] theorem updCal_pwr (n : Chan) (f : Calib → Calib) : (updCal s n f).pwr = s.pwr := rfl
@[simp] theorem updCal_lanes (n : Chan) (f : Calib → Calib) : (updCal s n f).lanes = s.lanes := rfl
@[simp] theorem updCal_hht (n : Chan) (f : Calib → Calib) : (updCal s n f).hht = s.hht := rfl
@[simp] theorem updCal_fw (n : Chan) (f : Calib → Calib) : (updCal s n f).fw = s.fw := rfl
@[simp] theorem updCal_paths (n : Chan) (f : Calib → Calib) : (updCal s n f).paths = s.paths := rfl
@[simp] theorem updCal_free (n : Chan) (f : Calib → Calib) : (updCal s n f).free = s.free := rfl

/-! ### updSlot -/

@[simp] theorem updSlot_pending (n : Chan) (f : Slot → Slot) : (updSlot s n f).pending = s.pending := rfl
@[simp] theorem updSlot_tb (n : Chan) (f : Slot → Slot) : (updSlot s n f).tb = s.tb := rfl
@[simp] theorem updSlot_banks (n : Chan) (f : Slot → Slot) : (updSlot s n f).banks = s.banks := rfl
@[simp] theorem updSlot_reliefs (n : Chan) (f : Slot → Slot) : (updSlot s n f).reliefs = s.reliefs := rfl
@[simp] theorem updSlot_mrk (n : Chan) (f : Slot → Slot) : (updSlot s n f).mrk = s.mrk := rfl
@[simp] theorem updSlot_tr (n : Chan) (f : Slot → Slot) : (updSlot s n f).tr = s.tr := rfl
@[simp] theorem updSlot_ht (n : Chan) (f : Slot → Slot) : (updSlot s n f).ht = s.ht := rfl
@[simp] theorem updSlot_queues (n : Chan) (f : Slot → Slot) : (updSlot s n f).queues = s.queues := rfl
@[simp] theorem updSlot_rings (n : Chan) (f : Slot → Slot) : (updSlot s n f).rings = s.rings := rfl
@[simp] theorem updSlot_mm (n : Chan) (f : Slot → Slot) : (updSlot s n f).mm = s.mm := rfl
@[simp] theorem updSlot_pf (n : Chan) (f : Slot → Slot) : (updSlot s n f).pf = s.pf := rfl
@[simp] theorem updSlot_pl (n : Chan) (f : Slot → Slot) : (updSlot s n f).pl = s.pl := rfl
@[simp] theorem updSlot_pwr (n : Chan) (f : Slot → Slot) : (updSlot s n f).pwr = s.pwr := rfl
@[simp] theorem updSlot_lanes (n : Chan) (f : Slot → Slot) : (updSlot s n f).lanes = s.lanes := rfl
@[simp] theorem updSlot_hht (n : Chan) (f : Slot → Slot) : (updSlot s n f).hht = s.hht := rfl
@[simp] theorem updSlot_fw (n : Chan) (f : Slot → Slot) : (updSlot s n f).fw = s.fw := rfl
@[simp] theorem updSlot_paths (n : Chan) (f : Slot → Slot) : (updSlot s n f).paths = s.paths := rfl
@[simp] theorem updSlot_free (n : Chan) (f : Slot → Slot) : (updSlot s n f).free = s.free := rfl

/-! ### updBank -/

@[simp] theorem updBank_pending (b : Bank) (f : BankState → BankState) : (updBank s b f).pending = s.pending := rfl
@[simp] theorem updBank_tb (b : Bank) (f : BankState → BankState) : (updBank s b f).tb = s.tb := rfl
@[simp] theorem updBank_chans (b : Bank) (f : BankState → BankState) : (updBank s b f).chans = s.chans := rfl
@[simp] theorem updBank_reliefs (b : Bank) (f : BankState → BankState) : (updBank s b f).reliefs = s.reliefs := rfl
@[simp] theorem updBank_mrk (b : Bank) (f : BankState → BankState) : (updBank s b f).mrk = s.mrk := rfl
@[simp] theorem updBank_tr (b : Bank) (f : BankState → BankState) : (updBank s b f).tr = s.tr := rfl
@[simp] theorem updBank_ht (b : Bank) (f : BankState → BankState) : (updBank s b f).ht = s.ht := rfl
@[simp] theorem updBank_queues (b : Bank) (f : BankState → BankState) : (updBank s b f).queues = s.queues := rfl
@[simp] theorem updBank_rings (b : Bank) (f : BankState → BankState) : (updBank s b f).rings = s.rings := rfl
@[simp] theorem updBank_mm (b : Bank) (f : BankState → BankState) : (updBank s b f).mm = s.mm := rfl
@[simp] theorem updBank_pf (b : Bank) (f : BankState → BankState) : (updBank s b f).pf = s.pf := rfl
@[simp] theorem updBank_pl (b : Bank) (f : BankState → BankState) : (updBank s b f).pl = s.pl := rfl
@[simp] theorem updBank_pwr (b : Bank) (f : BankState → BankState) : (updBank s b f).pwr = s.pwr := rfl
@[simp] theorem updBank_lanes (b : Bank) (f : BankState → BankState) : (updBank s b f).lanes = s.lanes := rfl
@[simp] theorem updBank_hht (b : Bank) (f : BankState → BankState) : (updBank s b f).hht = s.hht := rfl
@[simp] theorem updBank_fw (b : Bank) (f : BankState → BankState) : (updBank s b f).fw = s.fw := rfl
@[simp] theorem updBank_paths (b : Bank) (f : BankState → BankState) : (updBank s b f).paths = s.paths := rfl
@[simp] theorem updBank_free (b : Bank) (f : BankState → BankState) : (updBank s b f).free = s.free := rfl

/-! ### updLane -/

@[simp] theorem updLane_pending (k : Lane) (f : LaneState → LaneState) : (updLane s k f).pending = s.pending := rfl
@[simp] theorem updLane_tb (k : Lane) (f : LaneState → LaneState) : (updLane s k f).tb = s.tb := rfl
@[simp] theorem updLane_chans (k : Lane) (f : LaneState → LaneState) : (updLane s k f).chans = s.chans := rfl
@[simp] theorem updLane_banks (k : Lane) (f : LaneState → LaneState) : (updLane s k f).banks = s.banks := rfl
@[simp] theorem updLane_reliefs (k : Lane) (f : LaneState → LaneState) : (updLane s k f).reliefs = s.reliefs := rfl
@[simp] theorem updLane_mrk (k : Lane) (f : LaneState → LaneState) : (updLane s k f).mrk = s.mrk := rfl
@[simp] theorem updLane_tr (k : Lane) (f : LaneState → LaneState) : (updLane s k f).tr = s.tr := rfl
@[simp] theorem updLane_ht (k : Lane) (f : LaneState → LaneState) : (updLane s k f).ht = s.ht := rfl
@[simp] theorem updLane_queues (k : Lane) (f : LaneState → LaneState) : (updLane s k f).queues = s.queues := rfl
@[simp] theorem updLane_rings (k : Lane) (f : LaneState → LaneState) : (updLane s k f).rings = s.rings := rfl
@[simp] theorem updLane_mm (k : Lane) (f : LaneState → LaneState) : (updLane s k f).mm = s.mm := rfl
@[simp] theorem updLane_pf (k : Lane) (f : LaneState → LaneState) : (updLane s k f).pf = s.pf := rfl
@[simp] theorem updLane_pl (k : Lane) (f : LaneState → LaneState) : (updLane s k f).pl = s.pl := rfl
@[simp] theorem updLane_pwr (k : Lane) (f : LaneState → LaneState) : (updLane s k f).pwr = s.pwr := rfl
@[simp] theorem updLane_hht (k : Lane) (f : LaneState → LaneState) : (updLane s k f).hht = s.hht := rfl
@[simp] theorem updLane_fw (k : Lane) (f : LaneState → LaneState) : (updLane s k f).fw = s.fw := rfl
@[simp] theorem updLane_paths (k : Lane) (f : LaneState → LaneState) : (updLane s k f).paths = s.paths := rfl
@[simp] theorem updLane_free (k : Lane) (f : LaneState → LaneState) : (updLane s k f).free = s.free := rfl

/-! ### updRing -/

@[simp] theorem updRing_pending (d : Ring) (f : RingState → RingState) : (updRing s d f).pending = s.pending := rfl
@[simp] theorem updRing_tb (d : Ring) (f : RingState → RingState) : (updRing s d f).tb = s.tb := rfl
@[simp] theorem updRing_chans (d : Ring) (f : RingState → RingState) : (updRing s d f).chans = s.chans := rfl
@[simp] theorem updRing_banks (d : Ring) (f : RingState → RingState) : (updRing s d f).banks = s.banks := rfl
@[simp] theorem updRing_reliefs (d : Ring) (f : RingState → RingState) : (updRing s d f).reliefs = s.reliefs := rfl
@[simp] theorem updRing_mrk (d : Ring) (f : RingState → RingState) : (updRing s d f).mrk = s.mrk := rfl
@[simp] theorem updRing_tr (d : Ring) (f : RingState → RingState) : (updRing s d f).tr = s.tr := rfl
@[simp] theorem updRing_ht (d : Ring) (f : RingState → RingState) : (updRing s d f).ht = s.ht := rfl
@[simp] theorem updRing_queues (d : Ring) (f : RingState → RingState) : (updRing s d f).queues = s.queues := rfl
@[simp] theorem updRing_mm (d : Ring) (f : RingState → RingState) : (updRing s d f).mm = s.mm := rfl
@[simp] theorem updRing_pf (d : Ring) (f : RingState → RingState) : (updRing s d f).pf = s.pf := rfl
@[simp] theorem updRing_pl (d : Ring) (f : RingState → RingState) : (updRing s d f).pl = s.pl := rfl
@[simp] theorem updRing_pwr (d : Ring) (f : RingState → RingState) : (updRing s d f).pwr = s.pwr := rfl
@[simp] theorem updRing_lanes (d : Ring) (f : RingState → RingState) : (updRing s d f).lanes = s.lanes := rfl
@[simp] theorem updRing_hht (d : Ring) (f : RingState → RingState) : (updRing s d f).hht = s.hht := rfl
@[simp] theorem updRing_fw (d : Ring) (f : RingState → RingState) : (updRing s d f).fw = s.fw := rfl
@[simp] theorem updRing_paths (d : Ring) (f : RingState → RingState) : (updRing s d f).paths = s.paths := rfl
@[simp] theorem updRing_free (d : Ring) (f : RingState → RingState) : (updRing s d f).free = s.free := rfl

/-! ### updQueue -/

@[simp] theorem updQueue_pending (q : Fin 256) (f : Queue → Queue) : (updQueue s q f).pending = s.pending := rfl
@[simp] theorem updQueue_tb (q : Fin 256) (f : Queue → Queue) : (updQueue s q f).tb = s.tb := rfl
@[simp] theorem updQueue_chans (q : Fin 256) (f : Queue → Queue) : (updQueue s q f).chans = s.chans := rfl
@[simp] theorem updQueue_banks (q : Fin 256) (f : Queue → Queue) : (updQueue s q f).banks = s.banks := rfl
@[simp] theorem updQueue_reliefs (q : Fin 256) (f : Queue → Queue) : (updQueue s q f).reliefs = s.reliefs := rfl
@[simp] theorem updQueue_mrk (q : Fin 256) (f : Queue → Queue) : (updQueue s q f).mrk = s.mrk := rfl
@[simp] theorem updQueue_tr (q : Fin 256) (f : Queue → Queue) : (updQueue s q f).tr = s.tr := rfl
@[simp] theorem updQueue_ht (q : Fin 256) (f : Queue → Queue) : (updQueue s q f).ht = s.ht := rfl
@[simp] theorem updQueue_rings (q : Fin 256) (f : Queue → Queue) : (updQueue s q f).rings = s.rings := rfl
@[simp] theorem updQueue_mm (q : Fin 256) (f : Queue → Queue) : (updQueue s q f).mm = s.mm := rfl
@[simp] theorem updQueue_pf (q : Fin 256) (f : Queue → Queue) : (updQueue s q f).pf = s.pf := rfl
@[simp] theorem updQueue_pl (q : Fin 256) (f : Queue → Queue) : (updQueue s q f).pl = s.pl := rfl
@[simp] theorem updQueue_pwr (q : Fin 256) (f : Queue → Queue) : (updQueue s q f).pwr = s.pwr := rfl
@[simp] theorem updQueue_lanes (q : Fin 256) (f : Queue → Queue) : (updQueue s q f).lanes = s.lanes := rfl
@[simp] theorem updQueue_hht (q : Fin 256) (f : Queue → Queue) : (updQueue s q f).hht = s.hht := rfl
@[simp] theorem updQueue_fw (q : Fin 256) (f : Queue → Queue) : (updQueue s q f).fw = s.fw := rfl
@[simp] theorem updQueue_paths (q : Fin 256) (f : Queue → Queue) : (updQueue s q f).paths = s.paths := rfl
@[simp] theorem updQueue_free (q : Fin 256) (f : Queue → Queue) : (updQueue s q f).free = s.free := rfl

/-! ### updPath -/

@[simp] theorem updPath_pending (p : Path) (f : PathRegs → PathRegs) : (updPath s p f).pending = s.pending := rfl
@[simp] theorem updPath_tb (p : Path) (f : PathRegs → PathRegs) : (updPath s p f).tb = s.tb := rfl
@[simp] theorem updPath_chans (p : Path) (f : PathRegs → PathRegs) : (updPath s p f).chans = s.chans := rfl
@[simp] theorem updPath_banks (p : Path) (f : PathRegs → PathRegs) : (updPath s p f).banks = s.banks := rfl
@[simp] theorem updPath_reliefs (p : Path) (f : PathRegs → PathRegs) : (updPath s p f).reliefs = s.reliefs := rfl
@[simp] theorem updPath_mrk (p : Path) (f : PathRegs → PathRegs) : (updPath s p f).mrk = s.mrk := rfl
@[simp] theorem updPath_tr (p : Path) (f : PathRegs → PathRegs) : (updPath s p f).tr = s.tr := rfl
@[simp] theorem updPath_ht (p : Path) (f : PathRegs → PathRegs) : (updPath s p f).ht = s.ht := rfl
@[simp] theorem updPath_queues (p : Path) (f : PathRegs → PathRegs) : (updPath s p f).queues = s.queues := rfl
@[simp] theorem updPath_rings (p : Path) (f : PathRegs → PathRegs) : (updPath s p f).rings = s.rings := rfl
@[simp] theorem updPath_mm (p : Path) (f : PathRegs → PathRegs) : (updPath s p f).mm = s.mm := rfl
@[simp] theorem updPath_pf (p : Path) (f : PathRegs → PathRegs) : (updPath s p f).pf = s.pf := rfl
@[simp] theorem updPath_pl (p : Path) (f : PathRegs → PathRegs) : (updPath s p f).pl = s.pl := rfl
@[simp] theorem updPath_pwr (p : Path) (f : PathRegs → PathRegs) : (updPath s p f).pwr = s.pwr := rfl
@[simp] theorem updPath_lanes (p : Path) (f : PathRegs → PathRegs) : (updPath s p f).lanes = s.lanes := rfl
@[simp] theorem updPath_hht (p : Path) (f : PathRegs → PathRegs) : (updPath s p f).hht = s.hht := rfl
@[simp] theorem updPath_fw (p : Path) (f : PathRegs → PathRegs) : (updPath s p f).fw = s.fw := rfl
@[simp] theorem updPath_free (p : Path) (f : PathRegs → PathRegs) : (updPath s p f).free = s.free := rfl

/-! ### updTb -/

@[simp] theorem updTb_pending (f : Timebase → Timebase) : (updTb s f).pending = s.pending := rfl
@[simp] theorem updTb_chans (f : Timebase → Timebase) : (updTb s f).chans = s.chans := rfl
@[simp] theorem updTb_banks (f : Timebase → Timebase) : (updTb s f).banks = s.banks := rfl
@[simp] theorem updTb_reliefs (f : Timebase → Timebase) : (updTb s f).reliefs = s.reliefs := rfl
@[simp] theorem updTb_mrk (f : Timebase → Timebase) : (updTb s f).mrk = s.mrk := rfl
@[simp] theorem updTb_tr (f : Timebase → Timebase) : (updTb s f).tr = s.tr := rfl
@[simp] theorem updTb_ht (f : Timebase → Timebase) : (updTb s f).ht = s.ht := rfl
@[simp] theorem updTb_queues (f : Timebase → Timebase) : (updTb s f).queues = s.queues := rfl
@[simp] theorem updTb_rings (f : Timebase → Timebase) : (updTb s f).rings = s.rings := rfl
@[simp] theorem updTb_mm (f : Timebase → Timebase) : (updTb s f).mm = s.mm := rfl
@[simp] theorem updTb_pf (f : Timebase → Timebase) : (updTb s f).pf = s.pf := rfl
@[simp] theorem updTb_pl (f : Timebase → Timebase) : (updTb s f).pl = s.pl := rfl
@[simp] theorem updTb_pwr (f : Timebase → Timebase) : (updTb s f).pwr = s.pwr := rfl
@[simp] theorem updTb_lanes (f : Timebase → Timebase) : (updTb s f).lanes = s.lanes := rfl
@[simp] theorem updTb_hht (f : Timebase → Timebase) : (updTb s f).hht = s.hht := rfl
@[simp] theorem updTb_fw (f : Timebase → Timebase) : (updTb s f).fw = s.fw := rfl
@[simp] theorem updTb_paths (f : Timebase → Timebase) : (updTb s f).paths = s.paths := rfl
@[simp] theorem updTb_free (f : Timebase → Timebase) : (updTb s f).free = s.free := rfl

/-! ### updTr -/

@[simp] theorem updTr_pending (f : Tracer → Tracer) : (updTr s f).pending = s.pending := rfl
@[simp] theorem updTr_tb (f : Tracer → Tracer) : (updTr s f).tb = s.tb := rfl
@[simp] theorem updTr_chans (f : Tracer → Tracer) : (updTr s f).chans = s.chans := rfl
@[simp] theorem updTr_banks (f : Tracer → Tracer) : (updTr s f).banks = s.banks := rfl
@[simp] theorem updTr_reliefs (f : Tracer → Tracer) : (updTr s f).reliefs = s.reliefs := rfl
@[simp] theorem updTr_mrk (f : Tracer → Tracer) : (updTr s f).mrk = s.mrk := rfl
@[simp] theorem updTr_ht (f : Tracer → Tracer) : (updTr s f).ht = s.ht := rfl
@[simp] theorem updTr_queues (f : Tracer → Tracer) : (updTr s f).queues = s.queues := rfl
@[simp] theorem updTr_rings (f : Tracer → Tracer) : (updTr s f).rings = s.rings := rfl
@[simp] theorem updTr_mm (f : Tracer → Tracer) : (updTr s f).mm = s.mm := rfl
@[simp] theorem updTr_pf (f : Tracer → Tracer) : (updTr s f).pf = s.pf := rfl
@[simp] theorem updTr_pl (f : Tracer → Tracer) : (updTr s f).pl = s.pl := rfl
@[simp] theorem updTr_pwr (f : Tracer → Tracer) : (updTr s f).pwr = s.pwr := rfl
@[simp] theorem updTr_lanes (f : Tracer → Tracer) : (updTr s f).lanes = s.lanes := rfl
@[simp] theorem updTr_hht (f : Tracer → Tracer) : (updTr s f).hht = s.hht := rfl
@[simp] theorem updTr_fw (f : Tracer → Tracer) : (updTr s f).fw = s.fw := rfl
@[simp] theorem updTr_paths (f : Tracer → Tracer) : (updTr s f).paths = s.paths := rfl
@[simp] theorem updTr_free (f : Tracer → Tracer) : (updTr s f).free = s.free := rfl

/-! ### updTc -/

@[simp] theorem updTc_pending (k : Fin 128) (f : TracerChan → TracerChan) : (updTc s k f).pending = s.pending := rfl
@[simp] theorem updTc_tb (k : Fin 128) (f : TracerChan → TracerChan) : (updTc s k f).tb = s.tb := rfl
@[simp] theorem updTc_chans (k : Fin 128) (f : TracerChan → TracerChan) : (updTc s k f).chans = s.chans := rfl
@[simp] theorem updTc_banks (k : Fin 128) (f : TracerChan → TracerChan) : (updTc s k f).banks = s.banks := rfl
@[simp] theorem updTc_reliefs (k : Fin 128) (f : TracerChan → TracerChan) : (updTc s k f).reliefs = s.reliefs := rfl
@[simp] theorem updTc_mrk (k : Fin 128) (f : TracerChan → TracerChan) : (updTc s k f).mrk = s.mrk := rfl
@[simp] theorem updTc_ht (k : Fin 128) (f : TracerChan → TracerChan) : (updTc s k f).ht = s.ht := rfl
@[simp] theorem updTc_queues (k : Fin 128) (f : TracerChan → TracerChan) : (updTc s k f).queues = s.queues := rfl
@[simp] theorem updTc_rings (k : Fin 128) (f : TracerChan → TracerChan) : (updTc s k f).rings = s.rings := rfl
@[simp] theorem updTc_mm (k : Fin 128) (f : TracerChan → TracerChan) : (updTc s k f).mm = s.mm := rfl
@[simp] theorem updTc_pf (k : Fin 128) (f : TracerChan → TracerChan) : (updTc s k f).pf = s.pf := rfl
@[simp] theorem updTc_pl (k : Fin 128) (f : TracerChan → TracerChan) : (updTc s k f).pl = s.pl := rfl
@[simp] theorem updTc_pwr (k : Fin 128) (f : TracerChan → TracerChan) : (updTc s k f).pwr = s.pwr := rfl
@[simp] theorem updTc_lanes (k : Fin 128) (f : TracerChan → TracerChan) : (updTc s k f).lanes = s.lanes := rfl
@[simp] theorem updTc_hht (k : Fin 128) (f : TracerChan → TracerChan) : (updTc s k f).hht = s.hht := rfl
@[simp] theorem updTc_fw (k : Fin 128) (f : TracerChan → TracerChan) : (updTc s k f).fw = s.fw := rfl
@[simp] theorem updTc_paths (k : Fin 128) (f : TracerChan → TracerChan) : (updTc s k f).paths = s.paths := rfl
@[simp] theorem updTc_free (k : Fin 128) (f : TracerChan → TracerChan) : (updTc s k f).free = s.free := rfl

/-! ### updCons -/

@[simp] theorem updCons_pending (i : Fin 551) (f : Consumer → Consumer) : (updCons s i f).pending = s.pending := rfl
@[simp] theorem updCons_tb (i : Fin 551) (f : Consumer → Consumer) : (updCons s i f).tb = s.tb := rfl
@[simp] theorem updCons_chans (i : Fin 551) (f : Consumer → Consumer) : (updCons s i f).chans = s.chans := rfl
@[simp] theorem updCons_banks (i : Fin 551) (f : Consumer → Consumer) : (updCons s i f).banks = s.banks := rfl
@[simp] theorem updCons_reliefs (i : Fin 551) (f : Consumer → Consumer) : (updCons s i f).reliefs = s.reliefs := rfl
@[simp] theorem updCons_mrk (i : Fin 551) (f : Consumer → Consumer) : (updCons s i f).mrk = s.mrk := rfl
@[simp] theorem updCons_ht (i : Fin 551) (f : Consumer → Consumer) : (updCons s i f).ht = s.ht := rfl
@[simp] theorem updCons_queues (i : Fin 551) (f : Consumer → Consumer) : (updCons s i f).queues = s.queues := rfl
@[simp] theorem updCons_rings (i : Fin 551) (f : Consumer → Consumer) : (updCons s i f).rings = s.rings := rfl
@[simp] theorem updCons_mm (i : Fin 551) (f : Consumer → Consumer) : (updCons s i f).mm = s.mm := rfl
@[simp] theorem updCons_pf (i : Fin 551) (f : Consumer → Consumer) : (updCons s i f).pf = s.pf := rfl
@[simp] theorem updCons_pl (i : Fin 551) (f : Consumer → Consumer) : (updCons s i f).pl = s.pl := rfl
@[simp] theorem updCons_pwr (i : Fin 551) (f : Consumer → Consumer) : (updCons s i f).pwr = s.pwr := rfl
@[simp] theorem updCons_lanes (i : Fin 551) (f : Consumer → Consumer) : (updCons s i f).lanes = s.lanes := rfl
@[simp] theorem updCons_hht (i : Fin 551) (f : Consumer → Consumer) : (updCons s i f).hht = s.hht := rfl
@[simp] theorem updCons_fw (i : Fin 551) (f : Consumer → Consumer) : (updCons s i f).fw = s.fw := rfl
@[simp] theorem updCons_paths (i : Fin 551) (f : Consumer → Consumer) : (updCons s i f).paths = s.paths := rfl
@[simp] theorem updCons_free (i : Fin 551) (f : Consumer → Consumer) : (updCons s i f).free = s.free := rfl

/-! ### updHt -/

@[simp] theorem updHt_pending (f : Frames → Frames) : (updHt s f).pending = s.pending := rfl
@[simp] theorem updHt_tb (f : Frames → Frames) : (updHt s f).tb = s.tb := rfl
@[simp] theorem updHt_chans (f : Frames → Frames) : (updHt s f).chans = s.chans := rfl
@[simp] theorem updHt_banks (f : Frames → Frames) : (updHt s f).banks = s.banks := rfl
@[simp] theorem updHt_reliefs (f : Frames → Frames) : (updHt s f).reliefs = s.reliefs := rfl
@[simp] theorem updHt_mrk (f : Frames → Frames) : (updHt s f).mrk = s.mrk := rfl
@[simp] theorem updHt_tr (f : Frames → Frames) : (updHt s f).tr = s.tr := rfl
@[simp] theorem updHt_queues (f : Frames → Frames) : (updHt s f).queues = s.queues := rfl
@[simp] theorem updHt_rings (f : Frames → Frames) : (updHt s f).rings = s.rings := rfl
@[simp] theorem updHt_mm (f : Frames → Frames) : (updHt s f).mm = s.mm := rfl
@[simp] theorem updHt_pf (f : Frames → Frames) : (updHt s f).pf = s.pf := rfl
@[simp] theorem updHt_pl (f : Frames → Frames) : (updHt s f).pl = s.pl := rfl
@[simp] theorem updHt_pwr (f : Frames → Frames) : (updHt s f).pwr = s.pwr := rfl
@[simp] theorem updHt_lanes (f : Frames → Frames) : (updHt s f).lanes = s.lanes := rfl
@[simp] theorem updHt_hht (f : Frames → Frames) : (updHt s f).hht = s.hht := rfl
@[simp] theorem updHt_fw (f : Frames → Frames) : (updHt s f).fw = s.fw := rfl
@[simp] theorem updHt_paths (f : Frames → Frames) : (updHt s f).paths = s.paths := rfl
@[simp] theorem updHt_free (f : Frames → Frames) : (updHt s f).free = s.free := rfl

/-! ### updUnit -/

@[simp] theorem updUnit_pending (u : Fin 144) (f : HatchUnit → HatchUnit) : (updUnit s u f).pending = s.pending := rfl
@[simp] theorem updUnit_tb (u : Fin 144) (f : HatchUnit → HatchUnit) : (updUnit s u f).tb = s.tb := rfl
@[simp] theorem updUnit_chans (u : Fin 144) (f : HatchUnit → HatchUnit) : (updUnit s u f).chans = s.chans := rfl
@[simp] theorem updUnit_banks (u : Fin 144) (f : HatchUnit → HatchUnit) : (updUnit s u f).banks = s.banks := rfl
@[simp] theorem updUnit_reliefs (u : Fin 144) (f : HatchUnit → HatchUnit) : (updUnit s u f).reliefs = s.reliefs := rfl
@[simp] theorem updUnit_mrk (u : Fin 144) (f : HatchUnit → HatchUnit) : (updUnit s u f).mrk = s.mrk := rfl
@[simp] theorem updUnit_tr (u : Fin 144) (f : HatchUnit → HatchUnit) : (updUnit s u f).tr = s.tr := rfl
@[simp] theorem updUnit_queues (u : Fin 144) (f : HatchUnit → HatchUnit) : (updUnit s u f).queues = s.queues := rfl
@[simp] theorem updUnit_rings (u : Fin 144) (f : HatchUnit → HatchUnit) : (updUnit s u f).rings = s.rings := rfl
@[simp] theorem updUnit_mm (u : Fin 144) (f : HatchUnit → HatchUnit) : (updUnit s u f).mm = s.mm := rfl
@[simp] theorem updUnit_pf (u : Fin 144) (f : HatchUnit → HatchUnit) : (updUnit s u f).pf = s.pf := rfl
@[simp] theorem updUnit_pl (u : Fin 144) (f : HatchUnit → HatchUnit) : (updUnit s u f).pl = s.pl := rfl
@[simp] theorem updUnit_pwr (u : Fin 144) (f : HatchUnit → HatchUnit) : (updUnit s u f).pwr = s.pwr := rfl
@[simp] theorem updUnit_lanes (u : Fin 144) (f : HatchUnit → HatchUnit) : (updUnit s u f).lanes = s.lanes := rfl
@[simp] theorem updUnit_hht (u : Fin 144) (f : HatchUnit → HatchUnit) : (updUnit s u f).hht = s.hht := rfl
@[simp] theorem updUnit_fw (u : Fin 144) (f : HatchUnit → HatchUnit) : (updUnit s u f).fw = s.fw := rfl
@[simp] theorem updUnit_paths (u : Fin 144) (f : HatchUnit → HatchUnit) : (updUnit s u f).paths = s.paths := rfl
@[simp] theorem updUnit_free (u : Fin 144) (f : HatchUnit → HatchUnit) : (updUnit s u f).free = s.free := rfl

/-! ### updMm -/

@[simp] theorem updMm_pending (f : Memory → Memory) : (updMm s f).pending = s.pending := rfl
@[simp] theorem updMm_tb (f : Memory → Memory) : (updMm s f).tb = s.tb := rfl
@[simp] theorem updMm_chans (f : Memory → Memory) : (updMm s f).chans = s.chans := rfl
@[simp] theorem updMm_banks (f : Memory → Memory) : (updMm s f).banks = s.banks := rfl
@[simp] theorem updMm_reliefs (f : Memory → Memory) : (updMm s f).reliefs = s.reliefs := rfl
@[simp] theorem updMm_mrk (f : Memory → Memory) : (updMm s f).mrk = s.mrk := rfl
@[simp] theorem updMm_tr (f : Memory → Memory) : (updMm s f).tr = s.tr := rfl
@[simp] theorem updMm_ht (f : Memory → Memory) : (updMm s f).ht = s.ht := rfl
@[simp] theorem updMm_queues (f : Memory → Memory) : (updMm s f).queues = s.queues := rfl
@[simp] theorem updMm_rings (f : Memory → Memory) : (updMm s f).rings = s.rings := rfl
@[simp] theorem updMm_pf (f : Memory → Memory) : (updMm s f).pf = s.pf := rfl
@[simp] theorem updMm_pl (f : Memory → Memory) : (updMm s f).pl = s.pl := rfl
@[simp] theorem updMm_pwr (f : Memory → Memory) : (updMm s f).pwr = s.pwr := rfl
@[simp] theorem updMm_lanes (f : Memory → Memory) : (updMm s f).lanes = s.lanes := rfl
@[simp] theorem updMm_hht (f : Memory → Memory) : (updMm s f).hht = s.hht := rfl
@[simp] theorem updMm_fw (f : Memory → Memory) : (updMm s f).fw = s.fw := rfl
@[simp] theorem updMm_paths (f : Memory → Memory) : (updMm s f).paths = s.paths := rfl
@[simp] theorem updMm_free (f : Memory → Memory) : (updMm s f).free = s.free := rfl

/-! ### updPf -/

@[simp] theorem updPf_pending (f : Trust → Trust) : (updPf s f).pending = s.pending := rfl
@[simp] theorem updPf_tb (f : Trust → Trust) : (updPf s f).tb = s.tb := rfl
@[simp] theorem updPf_chans (f : Trust → Trust) : (updPf s f).chans = s.chans := rfl
@[simp] theorem updPf_banks (f : Trust → Trust) : (updPf s f).banks = s.banks := rfl
@[simp] theorem updPf_reliefs (f : Trust → Trust) : (updPf s f).reliefs = s.reliefs := rfl
@[simp] theorem updPf_mrk (f : Trust → Trust) : (updPf s f).mrk = s.mrk := rfl
@[simp] theorem updPf_tr (f : Trust → Trust) : (updPf s f).tr = s.tr := rfl
@[simp] theorem updPf_ht (f : Trust → Trust) : (updPf s f).ht = s.ht := rfl
@[simp] theorem updPf_queues (f : Trust → Trust) : (updPf s f).queues = s.queues := rfl
@[simp] theorem updPf_rings (f : Trust → Trust) : (updPf s f).rings = s.rings := rfl
@[simp] theorem updPf_mm (f : Trust → Trust) : (updPf s f).mm = s.mm := rfl
@[simp] theorem updPf_pl (f : Trust → Trust) : (updPf s f).pl = s.pl := rfl
@[simp] theorem updPf_pwr (f : Trust → Trust) : (updPf s f).pwr = s.pwr := rfl
@[simp] theorem updPf_lanes (f : Trust → Trust) : (updPf s f).lanes = s.lanes := rfl
@[simp] theorem updPf_hht (f : Trust → Trust) : (updPf s f).hht = s.hht := rfl
@[simp] theorem updPf_fw (f : Trust → Trust) : (updPf s f).fw = s.fw := rfl
@[simp] theorem updPf_paths (f : Trust → Trust) : (updPf s f).paths = s.paths := rfl
@[simp] theorem updPf_free (f : Trust → Trust) : (updPf s f).free = s.free := rfl

/-! ### updPl -/

@[simp] theorem updPl_pending (f : Plate → Plate) : (updPl s f).pending = s.pending := rfl
@[simp] theorem updPl_tb (f : Plate → Plate) : (updPl s f).tb = s.tb := rfl
@[simp] theorem updPl_chans (f : Plate → Plate) : (updPl s f).chans = s.chans := rfl
@[simp] theorem updPl_banks (f : Plate → Plate) : (updPl s f).banks = s.banks := rfl
@[simp] theorem updPl_reliefs (f : Plate → Plate) : (updPl s f).reliefs = s.reliefs := rfl
@[simp] theorem updPl_mrk (f : Plate → Plate) : (updPl s f).mrk = s.mrk := rfl
@[simp] theorem updPl_tr (f : Plate → Plate) : (updPl s f).tr = s.tr := rfl
@[simp] theorem updPl_ht (f : Plate → Plate) : (updPl s f).ht = s.ht := rfl
@[simp] theorem updPl_queues (f : Plate → Plate) : (updPl s f).queues = s.queues := rfl
@[simp] theorem updPl_rings (f : Plate → Plate) : (updPl s f).rings = s.rings := rfl
@[simp] theorem updPl_mm (f : Plate → Plate) : (updPl s f).mm = s.mm := rfl
@[simp] theorem updPl_pf (f : Plate → Plate) : (updPl s f).pf = s.pf := rfl
@[simp] theorem updPl_pwr (f : Plate → Plate) : (updPl s f).pwr = s.pwr := rfl
@[simp] theorem updPl_lanes (f : Plate → Plate) : (updPl s f).lanes = s.lanes := rfl
@[simp] theorem updPl_hht (f : Plate → Plate) : (updPl s f).hht = s.hht := rfl
@[simp] theorem updPl_fw (f : Plate → Plate) : (updPl s f).fw = s.fw := rfl
@[simp] theorem updPl_paths (f : Plate → Plate) : (updPl s f).paths = s.paths := rfl
@[simp] theorem updPl_free (f : Plate → Plate) : (updPl s f).free = s.free := rfl

/-! ### updPwr -/

@[simp] theorem updPwr_pending (f : Power → Power) : (updPwr s f).pending = s.pending := rfl
@[simp] theorem updPwr_tb (f : Power → Power) : (updPwr s f).tb = s.tb := rfl
@[simp] theorem updPwr_chans (f : Power → Power) : (updPwr s f).chans = s.chans := rfl
@[simp] theorem updPwr_banks (f : Power → Power) : (updPwr s f).banks = s.banks := rfl
@[simp] theorem updPwr_reliefs (f : Power → Power) : (updPwr s f).reliefs = s.reliefs := rfl
@[simp] theorem updPwr_mrk (f : Power → Power) : (updPwr s f).mrk = s.mrk := rfl
@[simp] theorem updPwr_tr (f : Power → Power) : (updPwr s f).tr = s.tr := rfl
@[simp] theorem updPwr_ht (f : Power → Power) : (updPwr s f).ht = s.ht := rfl
@[simp] theorem updPwr_queues (f : Power → Power) : (updPwr s f).queues = s.queues := rfl
@[simp] theorem updPwr_rings (f : Power → Power) : (updPwr s f).rings = s.rings := rfl
@[simp] theorem updPwr_mm (f : Power → Power) : (updPwr s f).mm = s.mm := rfl
@[simp] theorem updPwr_pf (f : Power → Power) : (updPwr s f).pf = s.pf := rfl
@[simp] theorem updPwr_pl (f : Power → Power) : (updPwr s f).pl = s.pl := rfl
@[simp] theorem updPwr_lanes (f : Power → Power) : (updPwr s f).lanes = s.lanes := rfl
@[simp] theorem updPwr_hht (f : Power → Power) : (updPwr s f).hht = s.hht := rfl
@[simp] theorem updPwr_fw (f : Power → Power) : (updPwr s f).fw = s.fw := rfl
@[simp] theorem updPwr_paths (f : Power → Power) : (updPwr s f).paths = s.paths := rfl
@[simp] theorem updPwr_free (f : Power → Power) : (updPwr s f).free = s.free := rfl

/-! ### updHht -/

@[simp] theorem updHht_pending (f : Hht → Hht) : (updHht s f).pending = s.pending := rfl
@[simp] theorem updHht_tb (f : Hht → Hht) : (updHht s f).tb = s.tb := rfl
@[simp] theorem updHht_chans (f : Hht → Hht) : (updHht s f).chans = s.chans := rfl
@[simp] theorem updHht_banks (f : Hht → Hht) : (updHht s f).banks = s.banks := rfl
@[simp] theorem updHht_reliefs (f : Hht → Hht) : (updHht s f).reliefs = s.reliefs := rfl
@[simp] theorem updHht_mrk (f : Hht → Hht) : (updHht s f).mrk = s.mrk := rfl
@[simp] theorem updHht_tr (f : Hht → Hht) : (updHht s f).tr = s.tr := rfl
@[simp] theorem updHht_ht (f : Hht → Hht) : (updHht s f).ht = s.ht := rfl
@[simp] theorem updHht_queues (f : Hht → Hht) : (updHht s f).queues = s.queues := rfl
@[simp] theorem updHht_rings (f : Hht → Hht) : (updHht s f).rings = s.rings := rfl
@[simp] theorem updHht_mm (f : Hht → Hht) : (updHht s f).mm = s.mm := rfl
@[simp] theorem updHht_pf (f : Hht → Hht) : (updHht s f).pf = s.pf := rfl
@[simp] theorem updHht_pl (f : Hht → Hht) : (updHht s f).pl = s.pl := rfl
@[simp] theorem updHht_pwr (f : Hht → Hht) : (updHht s f).pwr = s.pwr := rfl
@[simp] theorem updHht_lanes (f : Hht → Hht) : (updHht s f).lanes = s.lanes := rfl
@[simp] theorem updHht_fw (f : Hht → Hht) : (updHht s f).fw = s.fw := rfl
@[simp] theorem updHht_paths (f : Hht → Hht) : (updHht s f).paths = s.paths := rfl
@[simp] theorem updHht_free (f : Hht → Hht) : (updHht s f).free = s.free := rfl

/-! ### updFw -/

@[simp] theorem updFw_pending (f : Firmware → Firmware) : (updFw s f).pending = s.pending := rfl
@[simp] theorem updFw_tb (f : Firmware → Firmware) : (updFw s f).tb = s.tb := rfl
@[simp] theorem updFw_chans (f : Firmware → Firmware) : (updFw s f).chans = s.chans := rfl
@[simp] theorem updFw_banks (f : Firmware → Firmware) : (updFw s f).banks = s.banks := rfl
@[simp] theorem updFw_reliefs (f : Firmware → Firmware) : (updFw s f).reliefs = s.reliefs := rfl
@[simp] theorem updFw_mrk (f : Firmware → Firmware) : (updFw s f).mrk = s.mrk := rfl
@[simp] theorem updFw_tr (f : Firmware → Firmware) : (updFw s f).tr = s.tr := rfl
@[simp] theorem updFw_ht (f : Firmware → Firmware) : (updFw s f).ht = s.ht := rfl
@[simp] theorem updFw_queues (f : Firmware → Firmware) : (updFw s f).queues = s.queues := rfl
@[simp] theorem updFw_rings (f : Firmware → Firmware) : (updFw s f).rings = s.rings := rfl
@[simp] theorem updFw_mm (f : Firmware → Firmware) : (updFw s f).mm = s.mm := rfl
@[simp] theorem updFw_pf (f : Firmware → Firmware) : (updFw s f).pf = s.pf := rfl
@[simp] theorem updFw_pl (f : Firmware → Firmware) : (updFw s f).pl = s.pl := rfl
@[simp] theorem updFw_pwr (f : Firmware → Firmware) : (updFw s f).pwr = s.pwr := rfl
@[simp] theorem updFw_lanes (f : Firmware → Firmware) : (updFw s f).lanes = s.lanes := rfl
@[simp] theorem updFw_hht (f : Firmware → Firmware) : (updFw s f).hht = s.hht := rfl
@[simp] theorem updFw_paths (f : Firmware → Firmware) : (updFw s f).paths = s.paths := rfl
@[simp] theorem updFw_free (f : Firmware → Firmware) : (updFw s f).free = s.free := rfl

/-! ### What an update writes -/

@[simp] theorem updTb_tb (f : Timebase → Timebase) : (updTb s f).tb = f s.tb := rfl
@[simp] theorem updTr_tr (f : Tracer → Tracer) : (updTr s f).tr = f s.tr := rfl
@[simp] theorem updHt_ht (f : Frames → Frames) : (updHt s f).ht = f s.ht := rfl
@[simp] theorem updMm_mm (f : Memory → Memory) : (updMm s f).mm = f s.mm := rfl
@[simp] theorem updPf_pf (f : Trust → Trust) : (updPf s f).pf = f s.pf := rfl
@[simp] theorem updPl_pl (f : Plate → Plate) : (updPl s f).pl = f s.pl := rfl
@[simp] theorem updPwr_pwr (f : Power → Power) : (updPwr s f).pwr = f s.pwr := rfl
@[simp] theorem updHht_hht (f : Hht → Hht) : (updHht s f).hht = f s.hht := rfl
@[simp] theorem updFw_fw (f : Firmware → Firmware) : (updFw s f).fw = f s.fw := rfl

@[simp] theorem updChan_chans_self (n : Chan) (f : Channel → Channel) : (updChan s n f).chans[n.val] = f s.chans[n.val] := by
  simp [updChan]

theorem updChan_chans_ne (n m : Chan) (f : Channel → Channel) (h : n ≠ m) : (updChan s n f).chans[m.val] = s.chans[m.val] := by
  have : n.val ≠ m.val := fun e => h (Fin.ext e)
  simp [updChan, this]

@[simp] theorem updForce_force (n : Chan) (f : Force → Force) : (updForce s n f).chans[n.val].force = f s.chans[n.val].force := by
  simp [updForce]

@[simp] theorem updMeas_meas (n : Chan) (f : Measure → Measure) : (updMeas s n f).chans[n.val].meas = f s.chans[n.val].meas := by
  simp [updMeas]

@[simp] theorem updGraver_graver (n : Chan) (f : Graver → Graver) : (updGraver s n f).chans[n.val].graver = f s.chans[n.val].graver := by
  simp [updGraver]

theorem updGraver_chans_ne (n m : Chan) (f : Graver → Graver) (h : n ≠ m) : (updGraver s n f).chans[m.val] = s.chans[m.val] :=
  updChan_chans_ne s n m _ h

@[simp] theorem updCtx_graver (n : Chan) (x : Ctx) (f : Context → Context) :
    (updCtx s n x f).chans[n.val].graver =
      { s.chans[n.val].graver with ctx := s.chans[n.val].graver.ctx.set x (f s.chans[n.val].graver.ctx[x.val]) } := by
  simp [updCtx]

theorem updCtx_ctx_self (n : Chan) (x : Ctx) (f : Context → Context) :
    (updCtx s n x f).chans[n.val].graver.ctx[x.val] = f s.chans[n.val].graver.ctx[x.val] := by simp

theorem updCtx_ctx_ne (n : Chan) (x y : Ctx) (f : Context → Context) (h : x ≠ y) :
    (updCtx s n x f).chans[n.val].graver.ctx[y.val] = s.chans[n.val].graver.ctx[y.val] := by
  have : x.val ≠ y.val := fun e => h (Fin.ext e)
  simp [this]

theorem updCtx_context_self (n : Chan) (x : Ctx) (f : Context → Context) :
    (updCtx s n x f).context n x = f (s.context n x) := by simp [State.context]

theorem updCtx_chans_ne (n m : Chan) (x : Ctx) (f : Context → Context) (h : n ≠ m) :
    (updCtx s n x f).chans[m.val] = s.chans[m.val] :=
  updChan_chans_ne s n m _ h

@[simp] theorem updBank_banks_self (b : Bank) (f : BankState → BankState) : (updBank s b f).banks[b.val] = f s.banks[b.val] := by
  simp [updBank]

theorem updBank_banks_ne (b c : Bank) (f : BankState → BankState) (h : b ≠ c) : (updBank s b f).banks[c.val] = s.banks[c.val] := by
  have : b.val ≠ c.val := fun e => h (Fin.ext e)
  simp [updBank, this]

@[simp] theorem updLane_lanes_self (k : Lane) (f : LaneState → LaneState) : (updLane s k f).lanes[k.val] = f s.lanes[k.val] := by
  simp [updLane]

theorem updLane_lanes_ne (k j : Lane) (f : LaneState → LaneState) (h : k ≠ j) : (updLane s k f).lanes[j.val] = s.lanes[j.val] := by
  have : k.val ≠ j.val := fun e => h (Fin.ext e)
  simp [updLane, this]

@[simp] theorem updRing_rings_self (d : Ring) (f : RingState → RingState) : (updRing s d f).rings[d.val] = f s.rings[d.val] := by
  simp [updRing]

theorem updRing_rings_ne (d e : Ring) (f : RingState → RingState) (h : d ≠ e) : (updRing s d f).rings[e.val] = s.rings[e.val] := by
  have : d.val ≠ e.val := fun i => h (Fin.ext i)
  simp [updRing, this]

@[simp] theorem updQueue_queues_self (q : Fin 256) (f : Queue → Queue) : (updQueue s q f).queues[q.val] = f s.queues[q.val] := by
  simp [updQueue]

theorem updQueue_queues_ne (q r : Fin 256) (f : Queue → Queue) (h : q ≠ r) : (updQueue s q f).queues[r.val] = s.queues[r.val] := by
  have : q.val ≠ r.val := fun e => h (Fin.ext e)
  simp [updQueue, this]

@[simp] theorem updPath_path_self (p : Path) (f : PathRegs → PathRegs) : (updPath s p f).path p = f (s.path p) := by
  simp [updPath, State.path]

theorem pathIdx_inj (p q : Path) (h : pathIdx p = pathIdx q) : p = q := by cases p <;> cases q <;> first | rfl | (simp [pathIdx] at h)

theorem updPath_path_ne (p q : Path) (f : PathRegs → PathRegs) (h : p ≠ q) : (updPath s p f).path q = s.path q := by
  have : (pathIdx p).val ≠ (pathIdx q).val := fun e => h (pathIdx_inj p q (Fin.ext e))
  simp [updPath, State.path, this]

@[simp] theorem updTc_tc_self (k : Fin 128) (f : TracerChan → TracerChan) : (updTc s k f).tr.tc[k.val] = f s.tr.tc[k.val] := by
  simp [updTc]

@[simp] theorem updCons_cons_self (i : Fin 551) (f : Consumer → Consumer) : (updCons s i f).tr.cons[i.val] = f s.tr.cons[i.val] := by
  simp [updCons]

@[simp] theorem updUnit_units_self (u : Fin 144) (f : HatchUnit → HatchUnit) : (updUnit s u f).ht.units[u.val] = f s.ht.units[u.val] := by
  simp [updUnit]

end Sys2Proof.Machine
end

