-- ==== Sys2Proof/Laws/Graver.lean ====
section
/-!
SUPPORT. What a Graver does with an instruction that it carries out: the one lemma about `issue`, and what the decision of R136 leaves
of a context.
-/
namespace Sys2Proof.Machine

/-- An instruction that the Graver carries out ends as its body says. -/
theorem issue_runs {s : State} {n : Chan} {x : Ctx} {op : BitVec 6} {k : Fields} (body : Ctx → State → Done) (h : Runs s n x op k) :
    issue op n k s body = complete (decided s n x) n x (hasExt op k) (body x (decided s n x)) := by
  obtain ⟨hb, hc, hf, he⟩ := h
  have hk : (k.ext == if hasExt op k = true then (if hasExt op k = true then k.ext else 0) else 0) = true := by
    cases hx : hasExt op k <;> simp [hx] at he ⊢; exact he
  simp only [issue, hb, Option.isSome_none, Bool.false_eq_true, if_false, hc, hf, beq_self_eq_true, Bool.true_and, hk, if_true, decided]

/-- The instruction goes on behind itself. -/
theorem complete_next (t u : State) (n : Chan) (x : Ctx) (ext : Bool) : complete t n x ext (.next u) = ranTo u n x ext := rfl

/-- A branch goes on at its target. -/
theorem complete_jump (t u : State) (n : Chan) (x : Ctx) (ext : Bool) (a : Word) :
    complete t n x ext (.jump a u) = branched u n x a := rfl

/-- A suspension has no other effect. -/
theorem complete_fault (t : State) (n : Chan) (x : Ctx) (ext : Bool) (c : Cause) : complete t n x ext (.fault c) = suspend t n x c := rfl

/-- Two updates of one context are one. -/
theorem updCtx_updCtx (s : State) (n : Chan) (x : Ctx) (f g : Context → Context) :
    updCtx (updCtx s n x f) n x g = updCtx s n x fun c => g (f c) := by
  simp [updCtx, updGraver, updChan]

/-- An instruction that changes its context only. -/
theorem ranTo_updCtx (s : State) (n : Chan) (x : Ctx) (ext : Bool) (f : Context → Context) :
    ranTo (updCtx (decided s n x) n x f) n x ext = ran s n x ext f := by
  simp only [ranTo, ran, updCtx_updCtx]

/-- An instruction without an effect. -/
theorem ranTo_decided (s : State) (n : Chan) (x : Ctx) (ext : Bool) : ranTo (decided s n x) n x ext = ran s n x ext id := rfl

/-- Every context once one of them has been chosen: as it was where the decision was that of a missed fetch. -/
theorem decided_context_all (s : State) (n : Chan) (x y : Ctx) :
    (decided s n x).context n y =
      if s.chans[n].graver.granted = some x then s.context n y
      else { s.context n y with
        yields := (s.context n y).yields - 1
        state := if y = x then .running else if (s.context n y).state == .running then .ready else (s.context n y).state } := by
  by_cases h : s.chans[n].graver.granted = some x
  · have h' : s.chans[n.val].graver.granted = some x := h
    simp [decided, State.context, updGraver, updChan, afterDecision, h']
  · have h' : ¬ s.chans[n.val].graver.granted = some x := h
    simp [decided, State.context, updGraver, updChan, afterDecision, h', Fin.ext_iff]

/-- The executing context once it has been chosen. -/
theorem decided_context (s : State) (n : Chan) (x : Ctx) :
    (decided s n x).context n x =
      if s.chans[n].graver.granted = some x then s.context n x
      else { s.context n x with yields := (s.context n x).yields - 1, state := .running } := by
  rw [decided_context_all]; simp

@[simp] theorem decided_gr (s : State) (n : Chan) (x : Ctx) (r : BitVec 4) :
    gr ((decided s n x).context n x) r = gr (s.context n x) r := by
  rw [decided_context]; split <;> rfl

@[simp] theorem decided_op2 (s : State) (n : Chan) (x : Ctx) (k : Fields) :
    op2 ((decided s n x).context n x) k = op2 (s.context n x) k := by
  rw [decided_context]; split <;> rfl

@[simp] theorem decided_pc (s : State) (n : Chan) (x : Ctx) : ((decided s n x).context n x).pc = (s.context n x).pc := by
  rw [decided_context]; split <;> rfl

@[simp] theorem decided_lc (s : State) (n : Chan) (x : Ctx) : ((decided s n x).context n x).lc = (s.context n x).lc := by
  rw [decided_context]; split <;> rfl

@[simp] theorem decided_intent (s : State) (n : Chan) (x : Ctx) : ((decided s n x).context n x).intent = (s.context n x).intent := by
  rw [decided_context]; split <;> rfl

@[simp] theorem decided_stores (s : State) (n : Chan) (x : Ctx) : ((decided s n x).context n x).stores = (s.context n x).stores := by
  rw [decided_context]; split <;> rfl

theorem decided_inImm (s : State) (n : Chan) (x y : Ctx) :
    inImm (decided s n x).chans[n].graver y = inImm s.chans[n].graver y := by
  simp only [decided, updGraver, updChan, afterDecision, inImm]
  split <;> simp

theorem decided_imm (s : State) (n : Chan) (x : Ctx) : (decided s n x).chans[n].graver.imm = s.chans[n].graver.imm := by
  simp only [decided, updGraver, updChan, afterDecision]
  split <;> simp

/-- A halted context stays as it is at an instruction boundary. -/
theorem settle_halted (t : State) (n : Chan) (x : Ctx) (h1 : (t.context n x).haltReq = false) (h2 : (t.context n x).state = .halted) :
    settle t n x = t := by
  have h4 : t.chans[n].graver.ctx[x] = t.context n x := rfl
  have h5 : isReady (t.context n x) = false := by simp [isReady, h2]
  unfold settle
  simp only [h4, h1, h5]
  simp

/-- Two instructions that make the same of the chosen context end in the same state. -/
theorem ran_congr (s : State) (n : Chan) (x : Ctx) (e : Bool) (f g : Context → Context)
    (h : f ((decided s n x).context n x) = g ((decided s n x).context n x)) : ran s n x e f = ran s n x e g := by
  have : (decided s n x).chans[n].graver.ctx[x] = (decided s n x).context n x := rfl
  simp only [ran, updCtx, updGraver, updChan, this, h]

/-- A check that holds does not stop an instruction. -/
theorem checked_true (b : Bool) (d : Done) (h : b = true) : checked b d = d := by simp [checked, h]

end Sys2Proof.Machine
end

