-- ==== Sys2Proof/Laws/Raise.lean ====
section
/-!
SUPPORT. What the shared operations that report something leave alone: an event source changes the Tracer and the events of the HHT
session only, a device Hatch unit the frames only, the fault log the memory unit only.
-/
namespace Sys2Proof.Machine

/-- Two states that agree in all but the Tracer and the HHT session. -/
def SameButReport (t s : State) : Prop := t = { s with tr := t.tr, hht := t.hht }

theorem SameButReport.refl (s : State) : SameButReport s s := rfl

theorem SameButReport.trans {u t s : State} (h : SameButReport u t) (k : SameButReport t s) : SameButReport u s := by
  unfold SameButReport at *; rw [h, k]

theorem sendVector_same (s : State) (v : Nat) : SameButReport (sendVector s v) s := by
  unfold sendVector SameButReport; split <;> rfl

theorem raiseIm_same (s : State) (src : Nat) : SameButReport (raiseIm s src) s := by
  unfold raiseIm
  split
  · dsimp only
    split
    · exact (sendVector_same ..).trans rfl
    · rfl
  · rfl

theorem raiseTrips_same (fuel trips : Nat) (s : State) : SameButReport (raiseTrips fuel trips s) s := by
  induction fuel generalizing trips s with
  | zero => rfl
  | succ f ih =>
    cases trips with
    | zero => rfl
    | succ k =>
      simp only [raiseTrips]
      exact (ih ..).trans (SameButReport.trans rfl (raiseIm_same s 303))

theorem raiseAt_same (s : State) (src : Nat) (d : Option Nat) : SameButReport (raiseAt s src d) s := by
  unfold raiseAt
  exact (raiseTrips_same ..).trans (SameButReport.trans (t := raiseIm s src) rfl (raiseIm_same s src))

@[simp] theorem sendVector_pending (s : State) (v : Nat) : (sendVector s v).pending = s.pending := by rw [sendVector_same]
@[simp] theorem sendVector_tb (s : State) (v : Nat) : (sendVector s v).tb = s.tb := by rw [sendVector_same]
@[simp] theorem sendVector_chans (s : State) (v : Nat) : (sendVector s v).chans = s.chans := by rw [sendVector_same]
@[simp] theorem sendVector_banks (s : State) (v : Nat) : (sendVector s v).banks = s.banks := by rw [sendVector_same]
@[simp] theorem sendVector_reliefs (s : State) (v : Nat) : (sendVector s v).reliefs = s.reliefs := by rw [sendVector_same]
@[simp] theorem sendVector_mrk (s : State) (v : Nat) : (sendVector s v).mrk = s.mrk := by rw [sendVector_same]
@[simp] theorem sendVector_ht (s : State) (v : Nat) : (sendVector s v).ht = s.ht := by rw [sendVector_same]
@[simp] theorem sendVector_queues (s : State) (v : Nat) : (sendVector s v).queues = s.queues := by rw [sendVector_same]
@[simp] theorem sendVector_rings (s : State) (v : Nat) : (sendVector s v).rings = s.rings := by rw [sendVector_same]
@[simp] theorem sendVector_mm (s : State) (v : Nat) : (sendVector s v).mm = s.mm := by rw [sendVector_same]
@[simp] theorem sendVector_pf (s : State) (v : Nat) : (sendVector s v).pf = s.pf := by rw [sendVector_same]
@[simp] theorem sendVector_pl (s : State) (v : Nat) : (sendVector s v).pl = s.pl := by rw [sendVector_same]
@[simp] theorem sendVector_pwr (s : State) (v : Nat) : (sendVector s v).pwr = s.pwr := by rw [sendVector_same]
@[simp] theorem sendVector_lanes (s : State) (v : Nat) : (sendVector s v).lanes = s.lanes := by rw [sendVector_same]
@[simp] theorem sendVector_fw (s : State) (v : Nat) : (sendVector s v).fw = s.fw := by rw [sendVector_same]
@[simp] theorem sendVector_paths (s : State) (v : Nat) : (sendVector s v).paths = s.paths := by rw [sendVector_same]
@[simp] theorem sendVector_iotlb (s : State) (v : Nat) : (sendVector s v).iotlb = s.iotlb := by rw [sendVector_same]
@[simp] theorem sendVector_free (s : State) (v : Nat) : (sendVector s v).free = s.free := by rw [sendVector_same]

@[simp] theorem raiseAt_pending (s : State) (src : Nat) (d : Option Nat) : (raiseAt s src d).pending = s.pending := by rw [raiseAt_same]
@[simp] theorem raiseAt_tb (s : State) (src : Nat) (d : Option Nat) : (raiseAt s src d).tb = s.tb := by rw [raiseAt_same]
@[simp] theorem raiseAt_chans (s : State) (src : Nat) (d : Option Nat) : (raiseAt s src d).chans = s.chans := by rw [raiseAt_same]
@[simp] theorem raiseAt_banks (s : State) (src : Nat) (d : Option Nat) : (raiseAt s src d).banks = s.banks := by rw [raiseAt_same]
@[simp] theorem raiseAt_reliefs (s : State) (src : Nat) (d : Option Nat) : (raiseAt s src d).reliefs = s.reliefs := by rw [raiseAt_same]
@[simp] theorem raiseAt_mrk (s : State) (src : Nat) (d : Option Nat) : (raiseAt s src d).mrk = s.mrk := by rw [raiseAt_same]
@[simp] theorem raiseAt_ht (s : State) (src : Nat) (d : Option Nat) : (raiseAt s src d).ht = s.ht := by rw [raiseAt_same]
@[simp] theorem raiseAt_queues (s : State) (src : Nat) (d : Option Nat) : (raiseAt s src d).queues = s.queues := by rw [raiseAt_same]
@[simp] theorem raiseAt_rings (s : State) (src : Nat) (d : Option Nat) : (raiseAt s src d).rings = s.rings := by rw [raiseAt_same]
@[simp] theorem raiseAt_mm (s : State) (src : Nat) (d : Option Nat) : (raiseAt s src d).mm = s.mm := by rw [raiseAt_same]
@[simp] theorem raiseAt_pf (s : State) (src : Nat) (d : Option Nat) : (raiseAt s src d).pf = s.pf := by rw [raiseAt_same]
@[simp] theorem raiseAt_pl (s : State) (src : Nat) (d : Option Nat) : (raiseAt s src d).pl = s.pl := by rw [raiseAt_same]
@[simp] theorem raiseAt_pwr (s : State) (src : Nat) (d : Option Nat) : (raiseAt s src d).pwr = s.pwr := by rw [raiseAt_same]
@[simp] theorem raiseAt_lanes (s : State) (src : Nat) (d : Option Nat) : (raiseAt s src d).lanes = s.lanes := by rw [raiseAt_same]
@[simp] theorem raiseAt_fw (s : State) (src : Nat) (d : Option Nat) : (raiseAt s src d).fw = s.fw := by rw [raiseAt_same]
@[simp] theorem raiseAt_paths (s : State) (src : Nat) (d : Option Nat) : (raiseAt s src d).paths = s.paths := by rw [raiseAt_same]
@[simp] theorem raiseAt_iotlb (s : State) (src : Nat) (d : Option Nat) : (raiseAt s src d).iotlb = s.iotlb := by rw [raiseAt_same]
@[simp] theorem raiseAt_free (s : State) (src : Nat) (d : Option Nat) : (raiseAt s src d).free = s.free := by rw [raiseAt_same]

@[simp] theorem raise_pending (s : State) (src : Nat) : (raise s src).pending = s.pending := raiseAt_pending ..
@[simp] theorem raise_tb (s : State) (src : Nat) : (raise s src).tb = s.tb := raiseAt_tb ..
@[simp] theorem raise_chans (s : State) (src : Nat) : (raise s src).chans = s.chans := raiseAt_chans ..
@[simp] theorem raise_banks (s : State) (src : Nat) : (raise s src).banks = s.banks := raiseAt_banks ..
@[simp] theorem raise_reliefs (s : State) (src : Nat) : (raise s src).reliefs = s.reliefs := raiseAt_reliefs ..
@[simp] theorem raise_mrk (s : State) (src : Nat) : (raise s src).mrk = s.mrk := raiseAt_mrk ..
@[simp] theorem raise_ht (s : State) (src : Nat) : (raise s src).ht = s.ht := raiseAt_ht ..
@[simp] theorem raise_queues (s : State) (src : Nat) : (raise s src).queues = s.queues := raiseAt_queues ..
@[simp] theorem raise_rings (s : State) (src : Nat) : (raise s src).rings = s.rings := raiseAt_rings ..
@[simp] theorem raise_mm (s : State) (src : Nat) : (raise s src).mm = s.mm := raiseAt_mm ..
@[simp] theorem raise_pf (s : State) (src : Nat) : (raise s src).pf = s.pf := raiseAt_pf ..
@[simp] theorem raise_pl (s : State) (src : Nat) : (raise s src).pl = s.pl := raiseAt_pl ..
@[simp] theorem raise_pwr (s : State) (src : Nat) : (raise s src).pwr = s.pwr := raiseAt_pwr ..
@[simp] theorem raise_lanes (s : State) (src : Nat) : (raise s src).lanes = s.lanes := raiseAt_lanes ..
@[simp] theorem raise_fw (s : State) (src : Nat) : (raise s src).fw = s.fw := raiseAt_fw ..
@[simp] theorem raise_paths (s : State) (src : Nat) : (raise s src).paths = s.paths := raiseAt_paths ..
@[simp] theorem raise_iotlb (s : State) (src : Nat) : (raise s src).iotlb = s.iotlb := raiseAt_iotlb ..
@[simp] theorem raise_free (s : State) (src : Nat) : (raise s src).free = s.free := raiseAt_free ..

theorem offerDevice_same (s : State) (d : Fin 8) (a b : Nat) : offerDevice s d a b = { s with ht := (offerDevice s d a b).ht } := by
  unfold offerDevice; dsimp only
  split
  · rfl
  · split <;> rfl

@[simp] theorem offerDevice_pending (s : State) (d : Fin 8) (a b : Nat) : (offerDevice s d a b).pending = s.pending := by rw [offerDevice_same]
@[simp] theorem offerDevice_tb (s : State) (d : Fin 8) (a b : Nat) : (offerDevice s d a b).tb = s.tb := by rw [offerDevice_same]
@[simp] theorem offerDevice_chans (s : State) (d : Fin 8) (a b : Nat) : (offerDevice s d a b).chans = s.chans := by rw [offerDevice_same]
@[simp] theorem offerDevice_banks (s : State) (d : Fin 8) (a b : Nat) : (offerDevice s d a b).banks = s.banks := by rw [offerDevice_same]
@[simp] theorem offerDevice_reliefs (s : State) (d : Fin 8) (a b : Nat) : (offerDevice s d a b).reliefs = s.reliefs := by rw [offerDevice_same]
@[simp] theorem offerDevice_mrk (s : State) (d : Fin 8) (a b : Nat) : (offerDevice s d a b).mrk = s.mrk := by rw [offerDevice_same]
@[simp] theorem offerDevice_tr (s : State) (d : Fin 8) (a b : Nat) : (offerDevice s d a b).tr = s.tr := by rw [offerDevice_same]
@[simp] theorem offerDevice_queues (s : State) (d : Fin 8) (a b : Nat) : (offerDevice s d a b).queues = s.queues := by rw [offerDevice_same]
@[simp] theorem offerDevice_rings (s : State) (d : Fin 8) (a b : Nat) : (offerDevice s d a b).rings = s.rings := by rw [offerDevice_same]
@[simp] theorem offerDevice_mm (s : State) (d : Fin 8) (a b : Nat) : (offerDevice s d a b).mm = s.mm := by rw [offerDevice_same]
@[simp] theorem offerDevice_pf (s : State) (d : Fin 8) (a b : Nat) : (offerDevice s d a b).pf = s.pf := by rw [offerDevice_same]
@[simp] theorem offerDevice_pl (s : State) (d : Fin 8) (a b : Nat) : (offerDevice s d a b).pl = s.pl := by rw [offerDevice_same]
@[simp] theorem offerDevice_pwr (s : State) (d : Fin 8) (a b : Nat) : (offerDevice s d a b).pwr = s.pwr := by rw [offerDevice_same]
@[simp] theorem offerDevice_lanes (s : State) (d : Fin 8) (a b : Nat) : (offerDevice s d a b).lanes = s.lanes := by rw [offerDevice_same]
@[simp] theorem offerDevice_hht (s : State) (d : Fin 8) (a b : Nat) : (offerDevice s d a b).hht = s.hht := by rw [offerDevice_same]
@[simp] theorem offerDevice_fw (s : State) (d : Fin 8) (a b : Nat) : (offerDevice s d a b).fw = s.fw := by rw [offerDevice_same]
@[simp] theorem offerDevice_paths (s : State) (d : Fin 8) (a b : Nat) : (offerDevice s d a b).paths = s.paths := by rw [offerDevice_same]
@[simp] theorem offerDevice_iotlb (s : State) (d : Fin 8) (a b : Nat) : (offerDevice s d a b).iotlb = s.iotlb := by rw [offerDevice_same]
@[simp] theorem offerDevice_free (s : State) (d : Fin 8) (a b : Nat) : (offerDevice s d a b).free = s.free := by rw [offerDevice_same]

theorem noteAlign_same (s : State) : noteAlign s = { s with pf := (noteAlign s).pf, ht := (noteAlign s).ht } := by
  unfold noteAlign; dsimp only; split <;> rfl

@[simp] theorem noteAlign_pending (s : State) : (noteAlign s).pending = s.pending := by rw [noteAlign_same]
@[simp] theorem noteAlign_tb (s : State) : (noteAlign s).tb = s.tb := by rw [noteAlign_same]
@[simp] theorem noteAlign_chans (s : State) : (noteAlign s).chans = s.chans := by rw [noteAlign_same]
@[simp] theorem noteAlign_banks (s : State) : (noteAlign s).banks = s.banks := by rw [noteAlign_same]
@[simp] theorem noteAlign_reliefs (s : State) : (noteAlign s).reliefs = s.reliefs := by rw [noteAlign_same]
@[simp] theorem noteAlign_mrk (s : State) : (noteAlign s).mrk = s.mrk := by rw [noteAlign_same]
@[simp] theorem noteAlign_tr (s : State) : (noteAlign s).tr = s.tr := by rw [noteAlign_same]
@[simp] theorem noteAlign_queues (s : State) : (noteAlign s).queues = s.queues := by rw [noteAlign_same]
@[simp] theorem noteAlign_rings (s : State) : (noteAlign s).rings = s.rings := by rw [noteAlign_same]
@[simp] theorem noteAlign_mm (s : State) : (noteAlign s).mm = s.mm := by rw [noteAlign_same]
@[simp] theorem noteAlign_pl (s : State) : (noteAlign s).pl = s.pl := by rw [noteAlign_same]
@[simp] theorem noteAlign_pwr (s : State) : (noteAlign s).pwr = s.pwr := by rw [noteAlign_same]
@[simp] theorem noteAlign_lanes (s : State) : (noteAlign s).lanes = s.lanes := by rw [noteAlign_same]
@[simp] theorem noteAlign_hht (s : State) : (noteAlign s).hht = s.hht := by rw [noteAlign_same]
@[simp] theorem noteAlign_fw (s : State) : (noteAlign s).fw = s.fw := by rw [noteAlign_same]
@[simp] theorem noteAlign_paths (s : State) : (noteAlign s).paths = s.paths := by rw [noteAlign_same]
@[simp] theorem noteAlign_iotlb (s : State) : (noteAlign s).iotlb = s.iotlb := by rw [noteAlign_same]
@[simp] theorem noteAlign_free (s : State) : (noteAlign s).free = s.free := by rw [noteAlign_same]

@[simp] theorem logFault_pending (s : State) (w : List Word) : (logFault s w).pending = s.pending := rfl
@[simp] theorem logFault_tb (s : State) (w : List Word) : (logFault s w).tb = s.tb := rfl
@[simp] theorem logFault_chans (s : State) (w : List Word) : (logFault s w).chans = s.chans := rfl
@[simp] theorem logFault_banks (s : State) (w : List Word) : (logFault s w).banks = s.banks := rfl
@[simp] theorem logFault_reliefs (s : State) (w : List Word) : (logFault s w).reliefs = s.reliefs := rfl
@[simp] theorem logFault_mrk (s : State) (w : List Word) : (logFault s w).mrk = s.mrk := rfl
@[simp] theorem logFault_tr (s : State) (w : List Word) : (logFault s w).tr = s.tr := rfl
@[simp] theorem logFault_ht (s : State) (w : List Word) : (logFault s w).ht = s.ht := rfl
@[simp] theorem logFault_queues (s : State) (w : List Word) : (logFault s w).queues = s.queues := rfl
@[simp] theorem logFault_rings (s : State) (w : List Word) : (logFault s w).rings = s.rings := rfl
@[simp] theorem logFault_pf (s : State) (w : List Word) : (logFault s w).pf = s.pf := rfl
@[simp] theorem logFault_pl (s : State) (w : List Word) : (logFault s w).pl = s.pl := rfl
@[simp] theorem logFault_pwr (s : State) (w : List Word) : (logFault s w).pwr = s.pwr := rfl
@[simp] theorem logFault_lanes (s : State) (w : List Word) : (logFault s w).lanes = s.lanes := rfl
@[simp] theorem logFault_hht (s : State) (w : List Word) : (logFault s w).hht = s.hht := rfl
@[simp] theorem logFault_fw (s : State) (w : List Word) : (logFault s w).fw = s.fw := rfl
@[simp] theorem logFault_paths (s : State) (w : List Word) : (logFault s w).paths = s.paths := rfl
@[simp] theorem logFault_iotlb (s : State) (w : List Word) : (logFault s w).iotlb = s.iotlb := rfl
@[simp] theorem logFault_free (s : State) (w : List Word) : (logFault s w).free = s.free := rfl
@[simp] theorem logFault_mem (s : State) (w : List Word) : (logFault s w).mm.mem = s.mm.mem := by unfold logFault; dsimp only; split <;> rfl

@[simp] theorem forwardFault_pending (s : State) (who : Waiter) (rec : List Word) : (forwardFault s who rec).pending = s.pending := by simp [forwardFault]
@[simp] theorem forwardFault_tb (s : State) (who : Waiter) (rec : List Word) : (forwardFault s who rec).tb = s.tb := by simp [forwardFault]
@[simp] theorem forwardFault_chans (s : State) (who : Waiter) (rec : List Word) : (forwardFault s who rec).chans = s.chans := by simp [forwardFault]
@[simp] theorem forwardFault_banks (s : State) (who : Waiter) (rec : List Word) : (forwardFault s who rec).banks = s.banks := by simp [forwardFault]
@[simp] theorem forwardFault_reliefs (s : State) (who : Waiter) (rec : List Word) : (forwardFault s who rec).reliefs = s.reliefs := by simp [forwardFault]
@[simp] theorem forwardFault_mrk (s : State) (who : Waiter) (rec : List Word) : (forwardFault s who rec).mrk = s.mrk := by simp [forwardFault]
@[simp] theorem forwardFault_ht (s : State) (who : Waiter) (rec : List Word) : (forwardFault s who rec).ht = s.ht := by simp [forwardFault]
@[simp] theorem forwardFault_queues (s : State) (who : Waiter) (rec : List Word) : (forwardFault s who rec).queues = s.queues := by simp [forwardFault]
@[simp] theorem forwardFault_rings (s : State) (who : Waiter) (rec : List Word) : (forwardFault s who rec).rings = s.rings := by simp [forwardFault]
@[simp] theorem forwardFault_pf (s : State) (who : Waiter) (rec : List Word) : (forwardFault s who rec).pf = s.pf := by simp [forwardFault]
@[simp] theorem forwardFault_pl (s : State) (who : Waiter) (rec : List Word) : (forwardFault s who rec).pl = s.pl := by simp [forwardFault]
@[simp] theorem forwardFault_pwr (s : State) (who : Waiter) (rec : List Word) : (forwardFault s who rec).pwr = s.pwr := by simp [forwardFault]
@[simp] theorem forwardFault_lanes (s : State) (who : Waiter) (rec : List Word) : (forwardFault s who rec).lanes = s.lanes := by simp [forwardFault]
@[simp] theorem forwardFault_fw (s : State) (who : Waiter) (rec : List Word) : (forwardFault s who rec).fw = s.fw := by simp [forwardFault]
@[simp] theorem forwardFault_paths (s : State) (who : Waiter) (rec : List Word) : (forwardFault s who rec).paths = s.paths := by simp [forwardFault]
@[simp] theorem forwardFault_iotlb (s : State) (who : Waiter) (rec : List Word) : (forwardFault s who rec).iotlb = s.iotlb := by simp [forwardFault]
@[simp] theorem forwardFault_free (s : State) (who : Waiter) (rec : List Word) : (forwardFault s who rec).free = s.free := by simp [forwardFault]
@[simp] theorem forwardFault_mem (s : State) (who : Waiter) (rec : List Word) : (forwardFault s who rec).mm.mem = s.mm.mem := by
  simp [forwardFault]

@[simp] theorem awaitDemand_pending (s : State) (who : Waiter) (a b : Nat) (w x : Bool) : (awaitDemand s who a b w x).pending = s.pending := rfl
@[simp] theorem awaitDemand_tb (s : State) (who : Waiter) (a b : Nat) (w x : Bool) : (awaitDemand s who a b w x).tb = s.tb := rfl
@[simp] theorem awaitDemand_chans (s : State) (who : Waiter) (a b : Nat) (w x : Bool) : (awaitDemand s who a b w x).chans = s.chans := rfl
@[simp] theorem awaitDemand_banks (s : State) (who : Waiter) (a b : Nat) (w x : Bool) : (awaitDemand s who a b w x).banks = s.banks := rfl
@[simp] theorem awaitDemand_reliefs (s : State) (who : Waiter) (a b : Nat) (w x : Bool) : (awaitDemand s who a b w x).reliefs = s.reliefs := rfl
@[simp] theorem awaitDemand_mrk (s : State) (who : Waiter) (a b : Nat) (w x : Bool) : (awaitDemand s who a b w x).mrk = s.mrk := rfl
@[simp] theorem awaitDemand_tr (s : State) (who : Waiter) (a b : Nat) (w x : Bool) : (awaitDemand s who a b w x).tr = s.tr := rfl
@[simp] theorem awaitDemand_ht (s : State) (who : Waiter) (a b : Nat) (w x : Bool) : (awaitDemand s who a b w x).ht = s.ht := rfl
@[simp] theorem awaitDemand_queues (s : State) (who : Waiter) (a b : Nat) (w x : Bool) : (awaitDemand s who a b w x).queues = s.queues := rfl
@[simp] theorem awaitDemand_rings (s : State) (who : Waiter) (a b : Nat) (w x : Bool) : (awaitDemand s who a b w x).rings = s.rings := rfl
@[simp] theorem awaitDemand_pf (s : State) (who : Waiter) (a b : Nat) (w x : Bool) : (awaitDemand s who a b w x).pf = s.pf := rfl
@[simp] theorem awaitDemand_pl (s : State) (who : Waiter) (a b : Nat) (w x : Bool) : (awaitDemand s who a b w x).pl = s.pl := rfl
@[simp] theorem awaitDemand_pwr (s : State) (who : Waiter) (a b : Nat) (w x : Bool) : (awaitDemand s who a b w x).pwr = s.pwr := rfl
@[simp] theorem awaitDemand_lanes (s : State) (who : Waiter) (a b : Nat) (w x : Bool) : (awaitDemand s who a b w x).lanes = s.lanes := rfl
@[simp] theorem awaitDemand_hht (s : State) (who : Waiter) (a b : Nat) (w x : Bool) : (awaitDemand s who a b w x).hht = s.hht := rfl
@[simp] theorem awaitDemand_fw (s : State) (who : Waiter) (a b : Nat) (w x : Bool) : (awaitDemand s who a b w x).fw = s.fw := rfl
@[simp] theorem awaitDemand_paths (s : State) (who : Waiter) (a b : Nat) (w x : Bool) : (awaitDemand s who a b w x).paths = s.paths := rfl
@[simp] theorem awaitDemand_iotlb (s : State) (who : Waiter) (a b : Nat) (w x : Bool) : (awaitDemand s who a b w x).iotlb = s.iotlb := rfl
@[simp] theorem awaitDemand_free (s : State) (who : Waiter) (a b : Nat) (w x : Bool) : (awaitDemand s who a b w x).free = s.free := rfl
@[simp] theorem awaitDemand_mem (s : State) (who : Waiter) (a b : Nat) (w x : Bool) : (awaitDemand s who a b w x).mm.mem = s.mm.mem := rfl

end Sys2Proof.Machine
end

