-- ==== Sys2Proof/Laws/Host.lean ====
section
/-!
SUPPORT. What taking and answering host messages, a memory error that a read meets, and a block on a Sibia lane leave alone.
-/
namespace Sys2Proof.Machine

/-- Two states that agree in all but what answers to hosts write: the paths, the HHT session, the event sources, the frames, and the count of TIMEOUTs. -/
def SameButAnswers (t s : State) : Prop :=
  t = { s with paths := t.paths, hht := t.hht, tr := t.tr, ht := t.ht, fw := { s.fw with timeouts := t.fw.timeouts } }

theorem SameButAnswers.refl (s : State) : SameButAnswers s s := rfl

theorem SameButAnswers.trans {u t s : State} (h : SameButAnswers u t) (k : SameButAnswers t s) : SameButAnswers u s := by
  unfold SameButAnswers at *; rw [h, k]

theorem SameButReport.answers {t s : State} (h : SameButReport t s) : SameButAnswers t s := by
  unfold SameButReport at h; unfold SameButAnswers; rw [h]

theorem updPath_answers (s : State) (p : Path) (f : PathRegs → PathRegs) : SameButAnswers (updPath s p f) s := rfl

theorem offerDevice_answers (s : State) (d : Fin 8) (a b : Nat) : SameButAnswers (offerDevice s d a b) s := by
  unfold SameButAnswers; rw [offerDevice_same]

theorem countTimeout_answers (s : State) : SameButAnswers (countTimeout s) s := rfl

theorem passMessage_answers (s : State) (p : Path) (len : Nat) : SameButAnswers (passMessage s p len) s :=
  by unfold passMessage; dsimp only; exact (updPath_answers ..).trans (offerDevice_answers ..)

theorem postNow_answers (s : State) (p : Path) (r : Rsp) (taken : Nat) : SameButAnswers (postNow s p r taken) s := by
  have h := (offerDevice_answers (updPath s p fun k => { k with
      rsps := k.rsps ++ [r], rspRing := ringStore k.rspRing 16384 k.rspWr.toNat (rspBytes r), rspWr := count32 k.rspWr r.size }) 6 taken s.tb.now).trans
    (updPath_answers s p _)
  unfold postNow; dsimp only
  split <;> split
  · exact (raiseAt_same ..).answers.trans (SameButAnswers.trans rfl h)
  · exact SameButAnswers.trans rfl h
  · exact (raiseAt_same ..).answers.trans h
  · exact h

theorem postWaiting_answers (fuel : Nat) : ∀ (s : State) (p : Path), SameButAnswers (postWaiting fuel s p) s := by
  induction fuel with
  | zero => exact fun s p => .refl s
  | succ fuel ih =>
    intro s p
    unfold postWaiting
    split
    · exact .refl s
    · split
      · exact (ih _ p).trans ((postNow_answers ..).trans (updPath_answers ..))
      · exact .refl s

theorem respond_answers (s : State) (p : Path) (r : Rsp) (taken : Nat) : SameButAnswers (respond s p r taken) s := by
  unfold respond
  split
  · exact .refl s
  · exact (postWaiting_answers ..).trans (updPath_answers ..)

theorem answerUnknown_answers (s : State) (p : Path) : SameButAnswers (answerUnknown s p) s := by
  unfold answerUnknown; dsimp only
  refine (respond_answers ..).trans ?_
  split
  · exact (countTimeout_answers _).trans (passMessage_answers ..)
  · exact passMessage_answers ..

theorem answerUnknownsN_answers (fuel : Nat) : ∀ (s : State) (p : Path), SameButAnswers (answerUnknownsN fuel s p) s := by
  induction fuel with
  | zero => exact fun s p => .refl s
  | succ fuel ih =>
    intro s p
    unfold answerUnknownsN
    split
    · exact (ih _ p).trans (answerUnknown_answers ..)
    · exact .refl s

/-- What taking a message of a host can change (assumption 24, R431, R281). -/
theorem takeMessage_answers (s : State) (h : Hdr) : SameButAnswers (takeMessage s h) s :=
  (passMessage_answers ..).trans (answerUnknownsN_answers ..)

@[simp] theorem takeMessage_pending (s : State) (h : Hdr) : (takeMessage s h).pending = s.pending := by rw [takeMessage_answers s h]
@[simp] theorem takeMessage_tb (s : State) (h : Hdr) : (takeMessage s h).tb = s.tb := by rw [takeMessage_answers s h]
@[simp] theorem takeMessage_chans (s : State) (h : Hdr) : (takeMessage s h).chans = s.chans := by rw [takeMessage_answers s h]
@[simp] theorem takeMessage_banks (s : State) (h : Hdr) : (takeMessage s h).banks = s.banks := by rw [takeMessage_answers s h]
@[simp] theorem takeMessage_reliefs (s : State) (h : Hdr) : (takeMessage s h).reliefs = s.reliefs := by rw [takeMessage_answers s h]
@[simp] theorem takeMessage_mrk (s : State) (h : Hdr) : (takeMessage s h).mrk = s.mrk := by rw [takeMessage_answers s h]
@[simp] theorem takeMessage_queues (s : State) (h : Hdr) : (takeMessage s h).queues = s.queues := by rw [takeMessage_answers s h]
@[simp] theorem takeMessage_rings (s : State) (h : Hdr) : (takeMessage s h).rings = s.rings := by rw [takeMessage_answers s h]
@[simp] theorem takeMessage_mm (s : State) (h : Hdr) : (takeMessage s h).mm = s.mm := by rw [takeMessage_answers s h]
@[simp] theorem takeMessage_pf (s : State) (h : Hdr) : (takeMessage s h).pf = s.pf := by rw [takeMessage_answers s h]
@[simp] theorem takeMessage_pl (s : State) (h : Hdr) : (takeMessage s h).pl = s.pl := by rw [takeMessage_answers s h]
@[simp] theorem takeMessage_pwr (s : State) (h : Hdr) : (takeMessage s h).pwr = s.pwr := by rw [takeMessage_answers s h]
@[simp] theorem takeMessage_lanes (s : State) (h : Hdr) : (takeMessage s h).lanes = s.lanes := by rw [takeMessage_answers s h]
@[simp] theorem takeMessage_iotlb (s : State) (h : Hdr) : (takeMessage s h).iotlb = s.iotlb := by rw [takeMessage_answers s h]
@[simp] theorem takeMessage_free (s : State) (h : Hdr) : (takeMessage s h).free = s.free := by rw [takeMessage_answers s h]

/-- What a memory error that a read meets can change (R294, R295, R314, R315). -/
theorem eccMet_same (s : State) (pa : Nat) (ecc : EccResult) :
    eccMet s pa ecc = { s with mm := (eccMet s pa ecc).mm, tr := (eccMet s pa ecc).tr, hht := (eccMet s pa ecc).hht, free := (eccMet s pa ecc).free } := by
  have report : ∀ (t : State) (src : Nat), raise t src = { t with tr := (raise t src).tr, hht := (raise t src).hht } := fun t src => raiseAt_same t src none
  cases ecc
  · rfl
  all_goals
    unfold eccMet errPlace
    dsimp only
    split <;> first
      | (unfold eccCorrected; rw [report]; try rfl)
      | (unfold eccUncorrectable; rw [report]; try rfl)

@[simp] theorem eccMet_pending (s : State) (pa : Nat) (ecc : EccResult) : (eccMet s pa ecc).pending = s.pending := by rw [eccMet_same]
@[simp] theorem eccMet_tb (s : State) (pa : Nat) (ecc : EccResult) : (eccMet s pa ecc).tb = s.tb := by rw [eccMet_same]
@[simp] theorem eccMet_chans (s : State) (pa : Nat) (ecc : EccResult) : (eccMet s pa ecc).chans = s.chans := by rw [eccMet_same]
@[simp] theorem eccMet_banks (s : State) (pa : Nat) (ecc : EccResult) : (eccMet s pa ecc).banks = s.banks := by rw [eccMet_same]
@[simp] theorem eccMet_lanes (s : State) (pa : Nat) (ecc : EccResult) : (eccMet s pa ecc).lanes = s.lanes := by rw [eccMet_same]
@[simp] theorem eccMet_fw (s : State) (pa : Nat) (ecc : EccResult) : (eccMet s pa ecc).fw = s.fw := by rw [eccMet_same]
@[simp] theorem eccMet_queues (s : State) (pa : Nat) (ecc : EccResult) : (eccMet s pa ecc).queues = s.queues := by rw [eccMet_same]
@[simp] theorem eccMet_rings (s : State) (pa : Nat) (ecc : EccResult) : (eccMet s pa ecc).rings = s.rings := by rw [eccMet_same]
@[simp] theorem eccMet_pf (s : State) (pa : Nat) (ecc : EccResult) : (eccMet s pa ecc).pf = s.pf := by rw [eccMet_same]
@[simp] theorem eccMet_pl (s : State) (pa : Nat) (ecc : EccResult) : (eccMet s pa ecc).pl = s.pl := by rw [eccMet_same]
@[simp] theorem eccMet_pwr (s : State) (pa : Nat) (ecc : EccResult) : (eccMet s pa ecc).pwr = s.pwr := by rw [eccMet_same]
@[simp] theorem eccMet_paths (s : State) (pa : Nat) (ecc : EccResult) : (eccMet s pa ecc).paths = s.paths := by rw [eccMet_same]
@[simp] theorem eccMet_ht (s : State) (pa : Nat) (ecc : EccResult) : (eccMet s pa ecc).ht = s.ht := by rw [eccMet_same]

/-- A block on a Sibia lane changes that lane only (R426, R427). -/
theorem sendBlock_same (s : State) (k : Lane) (b : BitVec 64) : sendBlock s k b = { s with lanes := (sendBlock s k b).lanes } := rfl

@[simp] theorem sendBlock_pending (s : State) (k : Lane) (b : BitVec 64) : (sendBlock s k b).pending = s.pending := rfl
@[simp] theorem sendBlock_tb (s : State) (k : Lane) (b : BitVec 64) : (sendBlock s k b).tb = s.tb := rfl
@[simp] theorem sendBlock_chans (s : State) (k : Lane) (b : BitVec 64) : (sendBlock s k b).chans = s.chans := rfl
@[simp] theorem sendBlock_banks (s : State) (k : Lane) (b : BitVec 64) : (sendBlock s k b).banks = s.banks := rfl
@[simp] theorem sendBlock_tr (s : State) (k : Lane) (b : BitVec 64) : (sendBlock s k b).tr = s.tr := rfl
@[simp] theorem sendBlock_ht (s : State) (k : Lane) (b : BitVec 64) : (sendBlock s k b).ht = s.ht := rfl
@[simp] theorem sendBlock_hht (s : State) (k : Lane) (b : BitVec 64) : (sendBlock s k b).hht = s.hht := rfl
@[simp] theorem sendBlock_fw (s : State) (k : Lane) (b : BitVec 64) : (sendBlock s k b).fw = s.fw := rfl
@[simp] theorem sendBlock_paths (s : State) (k : Lane) (b : BitVec 64) : (sendBlock s k b).paths = s.paths := rfl
@[simp] theorem sendBlock_mm (s : State) (k : Lane) (b : BitVec 64) : (sendBlock s k b).mm = s.mm := rfl
@[simp] theorem sendBlock_queues (s : State) (k : Lane) (b : BitVec 64) : (sendBlock s k b).queues = s.queues := rfl
@[simp] theorem sendBlock_pf (s : State) (k : Lane) (b : BitVec 64) : (sendBlock s k b).pf = s.pf := rfl

end Sys2Proof.Machine
end

