-- ==== Sys2Proof/Laws/Instruction.lean ====
section
/-!
SUPPORT. What stays as it was when a Graver has chosen its context, the owner of an output and the checks of the instruction classes
among it, and how a waiting context goes on.
-/
namespace Sys2Proof.Machine

@[simp] theorem decided_force (s : State) (n : Chan) (x : Ctx) : (decided s n x).chans[n].force = s.chans[n].force := by
  simp [decided, updGraver, updChan]

@[simp] theorem decided_cal (s : State) (n : Chan) (x : Ctx) : (decided s n x).chans[n].cal = s.chans[n].cal := by
  simp [decided, updGraver, updChan]

@[simp] theorem decided_meas (s : State) (n : Chan) (x : Ctx) : (decided s n x).chans[n].meas = s.chans[n].meas := by
  simp [decided, updGraver, updChan]

@[simp] theorem decided_obs (s : State) (n : Chan) (x : Ctx) : ((decided s n x).context n x).obs = (s.context n x).obs := by
  rw [decided_context]; split <;> rfl

/-- An instruction of the output class goes on where neither R144 nor R145 stops it. -/
theorem noObs_ok (s : State) (n : Chan) (x : Ctx) (d : Done) (h1 : (s.context n x).obs = false)
    (h2 : (s.chans[n].force.relieved && isRelief n && x != 3) = false) : noObs (decided s n x) n x d = d := by
  unfold noObs
  simp only [decided_force]
  rw [show (decided s n x).chans[n].graver.ctx[x].obs = (s.context n x).obs from decided_obs s n x, h1, h2]; rfl

/-- The chosen context is ready. -/
theorem chosen_ready {s : State} {n : Chan} {x : Ctx} (h : chooseCtx s.chans[n].graver = some x) : isReady (s.context n x) = true := by
  have best : bestCtx s.chans[n].graver = some x → isReady (s.context n x) = true := by
    intro h
    unfold bestCtx at h
    split at h
    · rename_i y hy
      injection h with h; subst h
      have := List.find?_some hy
      simp only [Bool.and_eq_true] at this
      exact this.1
    · exact List.find?_some (p := fun y => isReady s.chans[n].graver.ctx[y]) h
  unfold chooseCtx at h
  split at h
  · split at h
    · rename_i hr; injection h with h; subst h; exact hr
    · exact best h
  · exact best h

/-- The decision changes no qualification. -/
theorem decided_qualifies {s : State} {n : Chan} {x : Ctx} (h : chooseCtx s.chans[n].graver = some x) (y : Ctx) :
    qualifies (decided s n x).chans[n] y = qualifies s.chans[n] y := by
  unfold qualifies
  have e : (decided s n x).chans[n].graver.ctx[y] = (decided s n x).context n y := rfl
  have e' : s.chans[n].graver.ctx[y] = s.context n y := rfl
  have hr := chosen_ready h
  simp only [e, e', decided_context_all, decided_force]
  split
  · rfl
  have ha : isActive { s.context n y with
      yields := (s.context n y).yields - 1
      state := if y = x then .running else if (s.context n y).state == .running then .ready else (s.context n y).state }
      = isActive (s.context n y) := by
    unfold isActive
    by_cases hy : y = x
    · subst hy
      unfold isReady at hr
      simp only [if_true]
      cases hh : (s.context n y).state <;> first | rfl | (rw [hh] at hr; exact absurd hr (by decide))
    · simp only [hy, if_false]
      split
      · rename_i hh; rw [eq_of_beq hh]; rfl
      · rfl
  rw [ha]

/-- The decision changes no owner. -/
theorem decided_ownerOf {s : State} {n : Chan} {x : Ctx} (h : chooseCtx s.chans[n].graver = some x) :
    ownerOf (decided s n x).chans[n] = ownerOf s.chans[n] := by
  unfold ownerOf
  congr 1
  funext y
  exact decided_qualifies h y

theorem decided_modeBlocked (s : State) (n : Chan) (x : Ctx) : modeBlocked (decided s n x) n = modeBlocked s n := by
  simp only [modeBlocked, decided_force, decided_cal]; rfl

/-- A chosen context that is not observe-only owns the output where no context does and the channel is INERT. -/
theorem chosen_qualifies {s : State} {n : Chan} {x : Ctx} (h : chooseCtx s.chans[n].graver = some x) (ho : (s.context n x).obs = false)
    (hm : s.chans[n].force.mode = .inert) : (ownerOf s.chans[n]).isSome = true := by
  have hq : qualifies s.chans[n] x = true := by
    have hr := chosen_ready h
    unfold qualifies
    have e : s.chans[n].graver.ctx[x] = s.context n x := rfl
    simp only [e, ho, hm]
    unfold isActive; unfold isReady at hr
    simp at hr ⊢
    rcases hr with hr | hr <;> simp [hr]
  unfold ownerOf
  rw [List.find?_isSome]
  have all : ∀ y : Ctx, y ∈ byPriority := by decide
  exact ⟨x, all x, hq⟩

/-- A context at an instruction boundary goes on where no HALT waits and it runs from its window. -/
theorem settle_window (t : State) (n : Chan) (x : Ctx) (h1 : (t.context n x).haltReq = false) (h2 : inImm t.chans[n].graver x = false) :
    settle t n x = t := by
  have h4 : t.chans[n].graver.ctx[x] = t.context n x := rfl
  unfold settle
  simp only [h4, h1, h2]
  simp

/-- A context that runs from its window goes on when it is woken. -/
theorem wake_window (t : State) (n : Chan) (x : Ctx) (h1 : (t.context n x).haltReq = false) (h2 : inImm t.chans[n].graver x = false) :
    wake t n x = updCtx t n x fun k => { k with state := .ready } := by
  unfold wake
  apply settle_window
  · rw [updCtx_context_self]; exact h1
  · simpa [inImm, updCtx, updGraver, updChan] using h2

end Sys2Proof.Machine
end

