-- ==== Sys2Proof/Laws/Memory.lean ====
section
/-!
SUPPORT. Addressed bytes: a read after a write, and that every operation over them keeps the canonical form.
-/
namespace Sys2Proof.Machine

/-- The canonical form of a list behind an entry: its first address is higher, and it is in the form itself. -/
theorem wf_cons (k : Nat) (b : Byte) (m : Mem) :
    Memory.wf ((k, b) :: m) = true ↔ b ≠ 0 ∧ (∀ c, m.head? = some c → k < c.1) ∧ Memory.wf m = true := by
  cases m with
  | nil => simp [Memory.wf]
  | cons c m => obtain ⟨k', b'⟩ := c; simp [Memory.wf, and_assoc]

/-- What a write puts in front: the address written, or what stood there. -/
theorem memWrite_head (m : Mem) (a : Nat) (b : Byte) (lo : Nat) (ha : lo < a) (hm : ∀ c, m.head? = some c → lo < c.1)
    (hw : Memory.wf m = true) : ∀ c, (memWrite m a b).head? = some c → lo < c.1 := by
  cases m with
  | nil => intro c; simp only [memWrite]; split <;> simp <;> rintro rfl; exact ha
  | cons e m =>
    obtain ⟨k, v⟩ := e
    have hk : lo < k := hm (k, v) rfl
    intro c
    simp only [memWrite]
    split
    · split <;> simp <;> rintro rfl <;> assumption
    · split
      · split
        · intro hc; have := ((wf_cons k v m).1 hw).2.1 c hc; omega
        · simp; rintro rfl; exact ha
      · simp; rintro rfl; exact hk

/-- A write keeps the canonical form. -/
theorem memWrite_wf (m : Mem) (a : Nat) (b : Byte) (h : Memory.wf m = true) : Memory.wf (memWrite m a b) = true := by
  induction m with
  | nil => simp only [memWrite]; split <;> simp_all [Memory.wf]
  | cons e m ih =>
    obtain ⟨k, v⟩ := e
    obtain ⟨hv, hk, hm⟩ := (wf_cons k v m).1 h
    simp only [memWrite]
    split
    · split
      · exact h
      · next hak hb => exact (wf_cons _ _ _).2 ⟨hb, by rintro c hc; simp at hc; subst hc; exact hak, h⟩
    · split
      · split
        · exact hm
        · next he hb => subst he; exact (wf_cons _ _ _).2 ⟨hb, hk, hm⟩
      · next h1 h2 => exact (wf_cons _ _ _).2 ⟨hv, memWrite_head m a b k (by omega) hk hm, ih hm⟩

/-- Addresses below the first listed one read as 0. -/
theorem memRead_below (m : Mem) (a : Nat) (hm : ∀ c, m.head? = some c → a < c.1) (hw : Memory.wf m = true) : memRead m a = 0 := by
  induction m with
  | nil => rfl
  | cons e m ih =>
    obtain ⟨k, v⟩ := e
    obtain ⟨_, hk, hm'⟩ := (wf_cons k v m).1 hw
    have : a < k := hm (k, v) rfl
    simp only [memRead]
    rw [if_neg (by omega)]
    exact ih (fun c hc => by have := hk c hc; omega) hm'

/-- A read gives the byte written last at its address. -/
theorem memRead_write_same (m : Mem) (a : Nat) (b : Byte) (h : Memory.wf m = true) : memRead (memWrite m a b) a = b := by
  induction m with
  | nil => simp only [memWrite]; split <;> simp_all [memRead]
  | cons e m ih =>
    obtain ⟨k, v⟩ := e
    obtain ⟨_, hk, hm⟩ := (wf_cons k v m).1 h
    simp only [memWrite]
    split
    · split
      · next hak hb => rw [hb]; exact memRead_below _ a (fun c hc => by simp at hc; subst hc; exact hak) h
      · simp [memRead]
    · split
      · split
        · next he hb => subst he; rw [hb]; exact memRead_below m a hk hm
        · simp [memRead]
      · next h1 h2 => simp only [memRead]; rw [if_neg (by omega)]; exact ih hm

/-- A write leaves every other address alone. -/
theorem memRead_write_ne (m : Mem) (a c : Nat) (b : Byte) (hac : c ≠ a) : memRead (memWrite m a b) c = memRead m c := by
  induction m with
  | nil => simp only [memWrite]; split <;> simp [memRead]; intro; omega
  | cons e m ih =>
    obtain ⟨k, v⟩ := e
    simp only [memWrite]
    split
    · split
      · rfl
      · simp only [memRead]; rw [if_neg (by omega)]
    · split
      · split
        · next he hb => simp only [memRead]; rw [if_neg (by omega)]
        · next he hb => simp only [memRead]; rw [if_neg (by omega), if_neg (by omega)]
      · simp only [memRead]; rw [ih]

theorem memWriteBytes_wf (bs : List Byte) : ∀ (m : Mem) (a : Nat), Memory.wf m = true → Memory.wf (memWriteBytes m a bs) = true := by
  induction bs with
  | nil => intro m a h; exact h
  | cons b bs ih => intro m a h; exact ih _ _ (memWrite_wf m a b h)

/-- Bytes written leave every address outside them alone. -/
theorem memRead_writeBytes_ne (bs : List Byte) : ∀ (m : Mem) (a c : Nat), (c < a ∨ a + bs.length ≤ c) →
    memRead (memWriteBytes m a bs) c = memRead m c := by
  induction bs with
  | nil => intro m a c _; rfl
  | cons b bs ih =>
    intro m a c h
    simp only [List.length_cons] at h
    rw [memWriteBytes, ih _ _ _ (by omega), memRead_write_ne _ _ _ _ (by omega)]

/-- The bytes of a written list read back. -/
theorem memRead_writeBytes (bs : List Byte) : ∀ (m : Mem) (a i : Nat) (b : Byte), Memory.wf m = true → bs[i]? = some b →
    memRead (memWriteBytes m a bs) (a + i) = b := by
  induction bs with
  | nil => intro m a i b _ h; simp at h
  | cons x bs ih =>
    intro m a i b hw h
    cases i with
    | zero =>
      simp at h; subst h
      rw [memWriteBytes, memRead_writeBytes_ne _ _ _ _ (by omega)]
      exact memRead_write_same m a x hw
    | succ i =>
      have := ih (memWrite m a x) (a + 1) i b (memWrite_wf m a x hw) (by simpa using h)
      rw [memWriteBytes]
      rwa [show a + (i + 1) = a + 1 + i by omega]

theorem memWriteWord_wf (m : Mem) (a : Nat) (w : Word) (h : Memory.wf m = true) : Memory.wf (memWriteWord m a w) = true :=
  memWriteBytes_wf _ m a h

theorem filter_head (p : Host.Cell → Bool) (m : Mem) (lo : Nat) (hm : ∀ c, m.head? = some c → lo < c.1) (hw : Memory.wf m = true) :
    ∀ c, (m.filter p).head? = some c → lo < c.1 := by
  induction m generalizing lo with
  | nil => simp
  | cons e m ih =>
    obtain ⟨k, v⟩ := e
    obtain ⟨_, hk, hm'⟩ := (wf_cons k v m).1 hw
    have hlo : lo < k := hm (k, v) rfl
    intro c hc
    simp only [List.filter_cons] at hc
    split at hc
    · simp at hc; subst hc; exact hlo
    · exact ih lo (fun d hd => by have := hk d hd; omega) hm' c hc

/-- Taking entries out keeps the canonical form. -/
theorem filter_wf (p : Host.Cell → Bool) (m : Mem) (hw : Memory.wf m = true) : Memory.wf (m.filter p) = true := by
  induction m with
  | nil => rfl
  | cons e m ih =>
    obtain ⟨k, v⟩ := e
    obtain ⟨hv, hk, hm⟩ := (wf_cons k v m).1 hw
    simp only [List.filter_cons]
    split
    · exact (wf_cons _ _ _).2 ⟨hv, filter_head p m k hk hm, ih hm⟩
    · exact ih hm

theorem memZero_wf (m : Mem) (a n : Nat) (h : Memory.wf m = true) : Memory.wf (memZero m a n) = true := filter_wf _ m h

theorem storeWords_wf (ws : List (Nat × Word)) : ∀ m : Mem, Memory.wf m = true → Memory.wf (storeWords m ws) = true := by
  induction ws with
  | nil => intro m h; exact h
  | cons w ws ih => intro m h; exact ih _ (memWriteWord_wf m w.1 w.2 h)

theorem ringStore_wf (bs : List Byte) : ∀ (m : Mem) (n x : Nat), Memory.wf m = true → Memory.wf (ringStore m n x bs) = true := by
  induction bs with
  | nil => intro m n x h; exact h
  | cons b bs ih => intro m n x h; exact ih _ _ _ (memWrite_wf m _ b h)

theorem copyRegion_wf (dst src : Mem) (base len : Nat) (h : Memory.wf dst = true) : Memory.wf (copyRegion dst src base len) = true := by
  have : ∀ (src m : Mem), Memory.wf m = true →
      Memory.wf (src.foldl (fun m c => if c.1 < len then memWrite m (base + c.1) c.2 else m) m) = true := by
    intro src
    induction src with
    | nil => intro m h; exact h
    | cons c src ih =>
      intro m h
      rw [List.foldl_cons]
      apply ih
      split
      · exact memWrite_wf _ _ _ h
      · exact h
  exact this src _ (memZero_wf dst base _ h)

/-- The memory after reset has the form. -/
theorem reset_mem_wf : Memory.wf State.reset.mm.mem = true := rfl

end Sys2Proof.Machine
end

