-- ==== Sys2Proof/Tests/Slice0.lean ====
section
/-!
SUPPORT. Tests: ill-formed commands are refused; states and operands that meet the hypotheses of each statement, clause by clause; single
commands against values worked out in the manual (its tables and worked examples) or by hand from its rules.
-/
set_option Elab.async false

namespace Sys2Proof.Tests

open Sys2Proof.Machine

/-! ### Small states -/

/-- Fields of an instruction word. -/
def fields (a b c : BitVec 4) (imm : BitVec 14) (ext : Word := 0) : Fields := ⟨a, b, c, imm, ext⟩

/-- Context x of channel n of a state. -/
def withCtx (n : Chan) (x : Ctx) (f : Context → Context) (s : State) : State := updCtx s n x f

/-- Context 2 of channel 12 is READY at an instruction in the immediate buffer, and owns the channel. -/
def on (op : BitVec 6) (k : Fields) (f : Context → Context := id) : State :=
  updGraver State.reset 12 fun g =>
    { g with imm := [baseWord op k, k.ext], immBusy := true, ctx := g.ctx.set 2 (f { state := .ready }) }

/-- The force path of a channel of a state. -/
def forced (n : Chan) (f : Force → Force) (s : State) : State := updForce s n f

/-- The state after a command. -/
def after (c : Instr) (s : State) : State := match exec c s with | .next t => t | _ => s

/-! ### Ill-formed commands -/

def hdr : Hdr := ⟨.pcie, 1, 4096, 0⟩
def hdrBad : Hdr := ⟨.mp, 1, 24, 0⟩
def plateRead : PlateRead := ⟨false, false, [], [], [], 0, 0, 0⟩
def calResult : CalResult :=
  { widths := List.replicate 1024 65536, spareWidths := List.replicate 32 65536
    voltageCaps := List.replicate 6 0, currentCaps := List.replicate 6 0, trims := List.replicate 16 0, coef := List.replicate 12 (0, 0) }
def host : HostAddr := ⟨0, 0⟩

theorem test_wf_refuses_forms :
    [Instr.shl 0 (fields 0 0 0 0x400), .shr 0 (fields 0 0 0 0), .asr 0 (fields 0 0 0 0), .strobeSelect 0 (fields 0 0 0 0x1000),
      .strobeFire 0 (fields 0 0 0 1), .connect 0 (fields 0 0 0 0), .isolate 0 (fields 0 0 0 1), .measSmode 0 (fields 0 0 0 0x1000),
      .measCount 0 (fields 0 0 0 0), .pktClose 0 (fields 0 0 0 0x1000), .pktAge 0 (fields 0 0 0 0), .gen 0 (fields 0 0 0 0x2000),
      .gstop 0 (fields 0 0 0 0), .blankLength 0 (fields 0 0 0 0), .blank 0 (fields 0 0 0 0x2000), .rds 0 (fields 0 0 0 0x2000),
      .rdt 0 (fields 0 0 0 0), .illegalOpcode 0 0x0C (fields 0 0 0 0), .mov 0 (fields 0 0 0 0 1)].all (fun i => !i.wf) = true := by decide +kernel

theorem test_wf_refuses_operands :
    [Instr.hostReady true 1025 0, .hostReady true 0 1025, .pllRelock 160, .stabilityAlarm 0 (List.replicate 16 0), .gvStart .pcie 0 2, .gvHalt .pcie 0 1,
      .go .pcie 0 2, .clearImm .pcie 0 3, .comparatorDecision 0 .a (2 ^ 64) .above, .eviEdge 0 true (2 ^ 64), .framesEnable .pcie 0,
      .framesDisable .pcie 1, .snap .pcie 1, .proofRingEnable .pcie 1, .nonceExpiry .mp, .queueEnable .pcie 2, .queueDisable .pcie 1,
      .queueFlush .pcie 1, .queueDropRem .pcie 1, .ringEnable .pcie 0 1, .ringDisable .pcie 0 0x80000000, .patrolScrub (.page 1) none true .clean,
      .patrolScrub (.page (2 ^ 48)) none true .clean, .patrolScrub (.row 384 0) none true .clean, .pairSnapshotRead .hht (.window 0 1 .clean),
      .pairSnapshotRead .pcie (.window 2 1 .clean), .pageRetire (2 ^ 48), .pageRetire 2048, .temperatureRead [], .paceStep false (2 ^ 16), .sibiaTrain 3 0 true,
      .sibiaTrainTimeout 3, .sibiaLinkLoss 3, .sibiaCalAsk 3, .sibiaCalReqSend 3, .sibiaCalReq 3 0 0 0 0, .sibiaCalRsp 3 0 0 0,
      .sibiaCalReport 3 0 0, .sibiaCalExchangeTimeout 3, .sibiaToken 3 0 0, .sibiaSyncv 3 0, .sibiaBadBlock 3,
      .spiReadTransaction (2 ^ 24) 1, .spiWriteTransaction (2 ^ 24) [], .hhtCmd 0 host 0 (2 ^ 64) [], .hhtRspack 0 host 0 (2 ^ 64),
      .hhtDack 0 host 0 0 (2 ^ 64), .hhtDnak 0 host 0 0 (2 ^ 64), .ptpEventMessage 0 .sync true (2 ^ 64) 0 0,
      .ptpEventMessage 0 .sync true 0 0 (2 ^ 78), .ethernetFrame 0 .arp 63 0, .calPrecheckEnd 0 [], .registerWrite .pcie 2 0 15,
      .registerWrite .pcie (2 ^ 22) 0 15, .pcieLinkUp 0 1, .pcieLinkUp 4 1, .pcieLinkUp 1 3].all (fun i => !i.wf) = true := by decide +kernel

theorem test_wf_refuses_headers :
    [Instr.echo hdrBad [], .echo { hdr with len := 2 ^ 32 } [], .echo { hdr with deadline := 2 ^ 64 } [], .regRead hdrBad 0 1, .regWrite hdrBad 0 [],
      .asidCreate hdrBad 1, .asidDestroy hdrBad 1, .map hdrBad 1 0 0 0 0, .mapDz hdrBad 1 0 0 0, .unmap hdrBad 1 0 0, .protect hdrBad 1 0 0 0,
      .poolAdd hdrBad 0 1, .cacheInv hdrBad 1 0 0, .resume hdrBad 0 0 .retry, .challenge hdrBad, .getIdentity hdrBad, .attest hdrBad 0 0,
      .updFinish hdrBad false, .updAbort hdrBad, .fwActivate hdrBad, .fwConfirm hdrBad, .fwRestart hdrBad, .libActivate hdrBad, .setSave hdrBad [],
      .setDefaults hdrBad, .logRead hdrBad 0 1, .updData hdrBad 0 [], .updOpen hdrBad .board false 0 none].all (fun i => !i.wf) = true := by
  decide +kernel

theorem test_wf_refuses_widths :
    [Instr.regRead hdr (2 ^ 32) 1, .regRead hdr 0 (2 ^ 32), .regWrite hdr (2 ^ 32) [], .asidCreate hdr (2 ^ 32), .asidDestroy hdr (2 ^ 32),
      .map hdr (2 ^ 32) 0 0 0 0, .map hdr 1 0 (2 ^ 64) 0 0, .map hdr 1 0 0 (2 ^ 64) 0, .map hdr 1 0 0 0 (2 ^ 64), .mapDz hdr 1 0 0 (2 ^ 64),
      .unmap hdr 1 (2 ^ 64) 0, .protect hdr 1 0 0 (2 ^ 64), .poolAdd hdr (2 ^ 64) 1, .poolAdd hdr 0 (2 ^ 64), .cacheInv hdr 1 0 (2 ^ 64),
      .enroll hdr [] ⟨0, 0, 0, 0, 0, 0, 0, 0, 0, 0, 0, []⟩ 0, .updData hdr (2 ^ 32) [], .logRead hdr (2 ^ 32) 1, .logRead hdr 0 (2 ^ 32),
      .plateRecordRead { plateRead with body := [0] }, .plateRecordRead { plateRead with slots := List.replicate 17 (0, 0, 0) },
      .plateRecordRead { plateRead with slots := [(2 ^ 64, 0, 0)] }, .plateRecordRead { plateRead with counter := 2 ^ 64 },
      .plateRecordRead { plateRead with authsLeft := 2 ^ 32 }, .calRunEnd 0 (.results { calResult with widths := [] }),
      .calRunEnd 0 (.results { calResult with trims := [] }), .calRunEnd 0 (.results { calResult with coef := [] })].all (fun i => !i.wf) = true := by decide +kernel

theorem test_wf_accepts :
    [Instr.shl 0 (fields 1 2 3 0), .measCount 0 (fields 0 0 0 0x1001), .add 3 (fields 1 2 0 0x3000 7), .illegalOpcode 0 0x0B (fields 0 0 0 0),
      .illegalOpcode 0 0x29 (fields 0 0 0 0x3000), .echo hdr [], .gvStart .pcie 0 1, .plateRecordRead plateRead, .calRunEnd 0 (.results calResult),
      .pcieLinkUp 3 4, .registerWrite .hht 0x3FFFFC 0 15,
      .pairSnapshotRead .pcie (.window 4 1 .clean), .patrolScrub (.row 383 7) (some 0) false .corrected].all (fun i => i.wf) = true := by decide +kernel

/-! ### Hypotheses that can be met: the queue and Krytger -/

theorem test_queue_hypothesis : State.reset.pending = [] := rfl

theorem test_hyp_ControlInstructions :
    let k := fields 0 0 0 0
    Runs (on 0x00 k) 12 2 0x00 k ∧ Runs (on 0x05 k) 12 2 0x05 k ∧ (gr ((on 0x05 k).context 12 2) 15 &&& ~~~3).toNat / 4 < (on 0x05 k).chans[(12 : Chan)].graver.imm.length
      ∧ Runs (on 0x01 k) 12 2 0x01 k ∧ Runs (on 0x08 (fields 0 0 0 0x3FFF)) 12 2 0x08 (fields 0 0 0 0x3FFF)
      ∧ Runs (on 0x0A (fields 0 0 0 255)) 12 2 0x0A (fields 0 0 0 255) ∧ (255 : BitVec 14).toNat < 256
      ∧ Runs (on 0x0B k) 12 2 0x0B k ∧ unassigned 0x0B = true
      ∧ Runs (on 0x29 (fields 0 0 0 0x3000)) 12 2 0x29 (fields 0 0 0 0x3000) ∧ reservedForm 0x29 (fields 0 0 0 0x3000) = true := by decide +kernel

theorem test_hyp_BranchesAndLoops :
    let rel := fields 0 0 0 0 1
    let reg := fields 3 1 0 0 0xFFFFFFFF
    let always := fields 0 0 0xE 1
    Runs (on 0x02 rel) 12 2 0x02 rel ∧ Runs (on 0x02 reg) 12 2 0x02 reg ∧ Runs (on 0x04 rel) 12 2 0x04 rel ∧ Runs (on 0x04 reg) 12 2 0x04 reg
      ∧ Runs (on 0x03 always) 12 2 0x03 always
      ∧ condition (on 0x03 always) 12 ((on 0x03 always).context 12 2) always.c always.a = some true := by decide +kernel

theorem test_hyp_BranchesAndLoops_loops :
    let trigger := fields 1 0 0xF 1
    let direct := fields 0 0 3 0x2001 1
    let empty := fields 5 0 0 0x1FFF
    Runs (on 0x03 trigger) 12 2 0x03 trigger
      ∧ condition (on 0x03 trigger) 12 ((on 0x03 trigger).context 12 2) trigger.c trigger.a = some false
      ∧ Runs (on 0x06 direct) 12 2 0x06 direct ∧ direct.c.toNat < 4 ∧ immBit direct 13 = true ∧ immField direct 12 0 = 1
      ∧ Runs (on 0x06 empty) 12 2 0x06 empty ∧ immBit empty 13 = false ∧ immField empty 12 0 = 8191
      ∧ gr ((on 0x06 empty).context 12 2) empty.a = 0 := by decide +kernel

theorem test_hyp_BranchesAndLoops_ends :
    let k := fields 0 0 3 0
    let f := fun c : Context => { c with lc := c.lc.set 3 ⟨2, 0, 0⟩ }
    Runs (on 0x07 k) 12 2 0x07 k ∧ k.c.toNat < 4 ∧ ((on 0x07 k).context 12 2).lc[counterOf k].count = 0
      ∧ Runs (on 0x07 k f) 12 2 0x07 k ∧ ((on 0x07 k f).context 12 2).lc[counterOf k].count = 2 := by decide +kernel

/-- Context 0 of channel 12 is READY at an instruction of its window. -/
def inWindow (op : BitVec 6) (k : Fields) (f : Context → Context := id) : State :=
  updGraver (updBank State.reset 0 fun b => { b with lines := [(2, 2 ^ 26, [baseWord op k, k.ext])] }) 12 fun g =>
    { g with wbase := 1, asid := 2, ctx := g.ctx.set 0 (f { state := .ready }) }

theorem test_hyp_branches_in_window :
    let k := fields 5 0 0 1
    Runs (inWindow 0x06 k) 12 0 0x06 k ∧ gr ((inWindow 0x06 k).context 12 0) k.a = 0 ∧ inImm (inWindow 0x06 k).chans[(12 : Chan)].graver 0 = false
      ∧ Runs (inWindow 0x05 (fields 0 0 0 0)) 12 0 0x05 (fields 0 0 0 0) := by decide +kernel

theorem test_hyp_RegisterLoads :
    Runs (on 0x0C (fields 15 1 0 0)) 12 2 0x0C (fields 15 1 0 0) ∧ Runs (on 0x0D (fields 1 0 0 0x2000)) 12 2 0x0D (fields 1 0 0 0x2000)
      ∧ Runs (on 0x0E (fields 1 0 0 0 5)) 12 2 0x0E (fields 1 0 0 0 5) := by decide +kernel

/-- Operands of Table 5.4: a register, the immediate 0x800, an extension word. -/
def reg := fields 1 2 3 0
def imm := fields 1 2 0 0x1800
def ext := fields 1 2 0 0x3000 0xFFFFFFFF

theorem test_hyp_integers :
    [0x0F, 0x10, 0x11, 0x12, 0x13, 0x14, 0x15].all (fun op : BitVec 6 =>
      decide (Runs (on op reg) 12 2 op reg ∧ op2 ((on op reg).context 12 2) reg = some 0
        ∧ Runs (on op imm) 12 2 op imm ∧ op2 ((on op imm).context 12 2) imm = some 0xFFFFF800
        ∧ Runs (on op ext) 12 2 op ext ∧ op2 ((on op ext).context 12 2) ext = some 0xFFFFFFFF)) = true
      ∧ (let k := fields 0 2 3 0; Runs (on 0x17 k) 12 2 0x17 k ∧ op2 ((on 0x17 k).context 12 2) k = some 0)
      ∧ (let k := fields 1 2 3 0; Runs (on 0x17 k) 12 2 0x17 k ∧ op2 ((on 0x17 k).context 12 2) k = some 0) := by decide +kernel

theorem test_hyp_Shifts :
    (let k := fields 1 2 3 0; Runs (on 0x16 k) 12 2 0x16 k ∧ immBit k 13 = false ∧ immField k 9 5 = 0 ∧ immBit k 12 = false ∧ immField k 4 0 = 0
        ∧ (gr ((on 0x16 k).context 12 2) k.c).toNat % 32 = 0 ∧ immField k 11 10 = 0)
      ∧ (let k := fields 1 2 0 0x141F; Runs (on 0x16 k) 12 2 0x16 k ∧ immBit k 12 = true ∧ immField k 4 0 = 31 ∧ immField k 9 5 = 0
        ∧ immField k 11 10 = 1)
      ∧ (let k := fields 1 2 0 0x1801; Runs (on 0x16 k) 12 2 0x16 k ∧ immBit k 12 = true ∧ immField k 9 5 = 0 ∧ immField k 11 10 = 2) := by
  decide +kernel

theorem test_hyp_SatAndAbs :
    [1, 32, 0, 33].all (fun w : BitVec 14 => decide (Runs (on 0x18 (fields 1 2 0 w)) 12 2 0x18 (fields 1 2 0 w))) = true
      ∧ Runs (on 0x19 (fields 1 2 0 0)) 12 2 0x19 (fields 1 2 0 0) := by decide +kernel

/-- Address space 2 maps 4 KiB of window 1 to 1 GiB, and memory is awake. -/
def mapped (s : State) : State :=
  { s with mm := { s.mm with maGib := 2, asids := [2], maps := [⟨2, 2 ^ 32, 4096, 4096, some 0x40000000, true, true, true⟩] } }

/-- The context's outstanding stores. -/
def storing (n : Nat) (c : Context) : Context := { c with stores := List.replicate n ⟨2, 2 ^ 32 + 8, 0x40000008, 7⟩ }

theorem test_hyp_LoadsAndStores :
    let k := fields 1 2 0 8
    let s := fun op f => mapped (inWindow op k f)
    let va := windowVa (s 0x1A id).chans[(12 : Chan)].graver 0 8
    immBit k 13 = false ∧ (8 : Word) = (gr ((s 0x1A id).context 12 0) k.b + (k.imm.extractLsb' 0 13).signExtend 32) &&& ~~~3
      ∧ Runs (s 0x1A (storing 1)) 12 0 0x1A k ∧ Runs (s 0x1A id) 12 0 0x1A k ∧ translate (s 0x1A id).mm 2 va .r = .ok 0x40000008
      ∧ (paExternal 0x40000008 && ddrAsleep (s 0x1A id)) = false
      ∧ Runs (s 0x1B (storing 7)) 12 0 0x1B k ∧ Runs (s 0x1B (storing 8)) 12 0 0x1B k ∧ translate (s 0x1B id).mm 2 va .w = .ok 0x40000008
      ∧ Runs (inWindow 0x1B k) 12 0 0x1B k ∧ translate (inWindow 0x1B k).mm 2 va .w = .fault 3 0
      ∧ Runs (inWindow 0x1A k) 12 0 0x1A k ∧ translate (inWindow 0x1A k).mm 2 va .r = .fault 3 0
      ∧ (let e := fields 1 2 0 0x2000 4; immBit e 13 = true ∧ Runs (mapped (inWindow 0x1A e)) 12 0 0x1A e) := by decide +kernel

theorem test_hyp_MemoryTransfers :
    let s := mapped (inWindow 0x1A (fields 0 0 0 0) (storing 1))
    let loading := updGraver s 12 fun g => { g with busy := some (0, .load 1 (2 ^ 32) 0x40000000) }
    let missed := updGraver (updBank s 0 fun b => { b with lines := [] }) 12 fun g => { g with busy := some (0, .fetch) }
    loading.chans[(12 : Chan)].graver.busy = some (0, .load 1 (2 ^ 32) 0x40000000) ∧ (paExternal 0x40000000 && ddrAsleep loading) = false
      ∧ (s.context 12 0).stores = [⟨2, 2 ^ 32 + 8, 0x40000008, 7⟩] ∧ s.chans[(12 : Chan)].graver.busy = none ∧ Memory.wf s.mm.mem = true
      ∧ missed.chans[(12 : Chan)].graver.busy = some (0, .fetch) ∧ fetch missed 12 0 = .miss (2 ^ 32) false
      ∧ translate missed.mm (windowAsid missed.chans[(12 : Chan)].graver 0) (2 ^ 32) .x = .ok 0x40000000
      ∧ (missed.banks[bankOf 12]).lines.length < cacheLines := by decide +kernel

/-- Context 2 of channel 12 waits. -/
def waitingFor (w : Waiting) : State := withCtx 12 2 (fun c => { c with state := .waiting w }) State.reset

/-- A token on a WAITEV input of channel 12. -/
def tokenAt (i : Fin 4) (s : State) : State := updCons s (waitInput 12 i) fun c => { c with pend := 1 }

theorem test_hyp_WaitingInstructions :
    let fence := fields 0 0 0 3
    let byReg := fields 1 0 0 0x2000
    let byImm := fields 0 0 0 0x1FFF
    Runs (on 0x09 fence) 12 2 0x09 fence ∧ 0 < fence.imm.toNat ∧ fence.imm.toNat < 4
      ∧ Runs (on 0x34 byReg) 12 2 0x34 byReg ∧ immBit byReg 13 = true ∧ Runs (on 0x34 byImm) 12 2 0x34 byImm ∧ immBit byImm 13 = false
      ∧ Runs (on 0x35 (fields 1 2 0 0)) 12 2 0x35 (fields 1 2 0 0) ∧ Runs (on 0x3A (fields 0 0 0 0)) 12 2 0x3A (fields 0 0 0 0) := by decide +kernel

theorem test_hyp_WaitingInstructions_waitev :
    let k := fields 1 2 0 0x200F
    let j := fields 1 0 0 8
    Runs (on 0x36 k) 12 2 0x36 k ∧ k.imm.toNat % 8192 < 16 ∧ immBit k 13 = true ∧ pendingInput (on 0x36 k) 12 (BitVec.ofNat 4 k.imm.toNat) = none
      ∧ gr ((on 0x36 k).context 12 2) k.b = 0 ∧ Runs (on 0x36 j) 12 2 0x36 j ∧ j.imm.toNat % 16 ≠ 0 ∧ immBit j 13 = false
      ∧ pendingInput (on 0x36 j) 12 (BitVec.ofNat 4 j.imm.toNat) = none ∧ Runs (tokenAt 3 (on 0x36 j)) 12 2 0x36 j
      ∧ pendingInput (tokenAt 3 (on 0x36 j)) 12 (BitVec.ofNat 4 j.imm.toNat) = some 3 := by decide +kernel

theorem test_hyp_WaitingInstructions_released :
    let s := { waitingFor (.waitt 796) with tb := { State.reset.tb with lastSample := some 0 } }
    fenceHolds (waitingFor (.fence true false false)) 12 2 true false false = true ∧ s.tb.now < 796 ∧ 796 + 4 ≤ nextSample s ∧ nextSample s < 797 + 4
      ∧ ((waitingFor (.waitev 1 1 (some 0))).context 12 2).haltReq = false ∧ inImm (waitingFor (.wait 0)).chans[(12 : Chan)].graver 2 = false := by
  decide +kernel

/-! ### Hypotheses that can be met: output -/

/-- An observe-only context. -/
def observing (c : Context) : Context := { c with obs := true }

/-- The channel's CPS declares every range. -/
def identified (s : State) : State :=
  forced 12 (fun f => { f with slot := { f.slot with ident := List.replicate 11 1 ++ [0xFFF] } }) s

/-- The plate hold is off and the channel calibrated, so that MODE takes effect. -/
def allowed (s : State) : State := { s with pl := { s.pl with deten := false } }

theorem test_hyp_OutputNeedsPrivilege :
    ([(0x22, fields 1 0 0 0), (0x20, fields 0 0 0 3), (0x24, fields 1 0 0 0), (0x25, fields 1 0 0 0), (0x27, fields 0 0 0 15), (0x33, fields 1 0 0 0)]).all
      (fun p : BitVec 6 × Fields => decide (Runs (on p.1 p.2 observing) 12 2 p.1 p.2 ∧ ((on p.1 p.2 observing).context 12 2).obs = true)) = true
      ∧ (let s := forced 64 (fun f => { f with relieved := true }) State.reset
         s.chans[(64 : Chan)].force.relieved = true ∧ isRelief 64 = true ∧ isRelief 63 = false) := by decide +kernel

theorem test_hyp_ModeAndRange :
    let s := fun op k => allowed (identified (on op k))
    let inert := fields 0 0 0 0
    let fv := fields 0 0 0 1
    ((s 0x20 fv).context 12 2).obs = false ∧ ((s 0x20 fv).chans[(12 : Chan)].force.relieved && isRelief 12) = false
      ∧ Runs (s 0x20 inert) 12 2 0x20 inert ∧ Runs (s 0x20 fv) 12 2 0x20 fv ∧ modeBlocked (s 0x20 fv) 12 = false
      ∧ ownerOf (s 0x20 fv).chans[(12 : Chan)] = some 2 ∧ cannotLeave (s 0x20 fv).chans[(12 : Chan)].force .fv ((s 0x20 fv).context 12 2).intent.ranges = false
      ∧ (let t := withCtx 12 3 (fun c => { c with state := .waiting .firmware }) (s 0x20 fv)
         Runs t 12 2 0x20 fv ∧ ownerOf t.chans[(12 : Chan)] = some 3)
      ∧ (let t := forced 12 (fun f => { f with slot := { f.slot with ident := List.replicate 12 0 } }) (s 0x20 fv)
         Runs t 12 2 0x20 fv ∧ cannotLeave t.chans[(12 : Chan)].force .fv (t.context 12 2).intent.ranges = true)
      ∧ (let t := forced 12 (fun f => { f with fltLatch := true }) (s 0x20 fv); Runs t 12 2 0x20 fv ∧ modeBlocked t 12 = true)
      ∧ (let k := fields 0 0 0 (BitVec.ofNat 14 (256 * 8 + 16 * 2))
         Runs (s 0x21 k) 12 2 0x21 k ∧ (identWord (s 0x21 k).chans[(12 : Chan)].force 11).testBit 8 = true
          ∧ (identWord (s 0x21 k).chans[(12 : Chan)].force 11).testBit 11 = true)
      ∧ (let k := fields 0 0 0 3; Runs (on 0x21 k) 12 2 0x21 k ∧ slotHeld (on 0x21 k).chans[(12 : Chan)].force = true)
      ∧ slotHeld (s 0x21 inert).chans[(12 : Chan)].force = false := by decide +kernel

theorem test_hyp_LevelAndStrobe :
    (let k := fields 0 0 0 0x2000 0x0007FFFF; Runs (on 0x22 k) 12 2 0x22 k ∧ k.ext.toInt = 524287)
      ∧ (let k := fields 0 0 0 0x2000 0xFFF80000; Runs (on 0x22 k) 12 2 0x22 k ∧ k.ext.toInt = -524288)
      ∧ (let k := fields 1 0 0 0; Runs (on 0x22 k) 12 2 0x22 k)
      ∧ Runs (on 0x23 (fields 0 0 0 1)) 12 2 0x23 (fields 0 0 0 1) ∧ Runs (on 0x23 (fields 0 0 0 15)) 12 2 0x23 (fields 0 0 0 15)
      ∧ (let k := fields 0 0 0 0x1001; Runs (on 0x23 k) 12 2 0x23 k ∧ ownerOf (on 0x23 k).chans[(12 : Chan)] = some 2
          ∧ (let t := withCtx 12 3 (fun c => { c with state := .waiting .firmware }) (on 0x23 k)
             Runs t 12 2 0x23 k ∧ ownerOf t.chans[(12 : Chan)] ≠ some 2))
      ∧ (let k := fields 0 0 0 0x100F; Runs (on 0x23 k) 12 2 0x23 k ∧ k.imm = BitVec.ofNat 14 (0x1008 + 7)) := by decide +kernel

theorem test_hyp_ClampSlewCompRelay :
    let low := fields 0 0 0 0x2000 0x40004000
    let min := fields 0 0 0 0x2000 0x01000000
    let byReg := fields 1 0 0 0
    Runs (on 0x24 low) 12 2 0x24 low ∧ (low.ext.extractLsb' 16 16).toInt - (low.ext.extractLsb' 0 16).toInt < 256
      ∧ Runs (on 0x24 min) 12 2 0x24 min ∧ (min.ext.extractLsb' 16 16).toInt - (min.ext.extractLsb' 0 16).toInt = 256
      ∧ immBit min 13 = true ∧ ownerOf (on 0x24 min).chans[(12 : Chan)] = some 2
      ∧ Runs (on 0x24 byReg) 12 2 0x24 byReg ∧ immBit byReg 13 = false := by decide +kernel

theorem test_hyp_ClampSlewCompRelay_steps :
    let k := fields 0 0 0 0x200F 0x00010001
    Runs (on 0x25 k) 12 2 0x25 k ∧ 1 ≤ k.ext.toNat / 65536 ∧ slewOf (32768 * 1) = (6, 512)
      ∧ Runs (on 0x25 (fields 1 2 0 0)) 12 2 0x25 (fields 1 2 0 0) ∧ slewOf 0 = (0, 1)
      ∧ Runs (on 0x26 (fields 0 1 0 0x2000 0x33333)) 12 2 0x26 (fields 0 1 0 0x2000 0x33333) ∧ slewAbove 524288 = (10, 512)
      ∧ Runs (on 0x26 (fields 1 2 0 0)) 12 2 0x26 (fields 1 2 0 0) := by decide +kernel

theorem test_hyp_ClampSlewCompRelay_relay :
    let k := fields 0 0 0 0x2000 0xC000FFFF
    let c := fields 0 0 0 1
    let s := forced 12 (fun f => { f with mode := .meas }) (on 0x28 c fun x => { x with intent := { x.intent with mode := .meas } })
    Runs (on 0x27 (fields 0 0 0 15)) 12 2 0x27 (fields 0 0 0 15) ∧ Runs (on 0x27 k) 12 2 0x27 k ∧ (k.ext.extractLsb' 16 14 : BitVec 14) = 0
      ∧ Runs s 12 2 0x28 c ∧ ownerOf s.chans[(12 : Chan)] = some 2 ∧ s.chans[(12 : Chan)].force.mode ≠ .inert
      ∧ s.chans[(12 : Chan)].force.oen = false ∧ Runs (on 0x28 (fields 0 0 0 0)) 12 2 0x28 (fields 0 0 0 0)
      ∧ (let t := forced 12 (fun f => { f with seq := .entering .ramp }) s; Runs t 12 2 0x28 c ∧ ownerOf t.chans[(12 : Chan)] = some 2)
      ∧ (let t := forced 12 (fun f => { f with mode := .inert, seq := .leaving .rails }) s; Runs t 12 2 0x28 c ∧ ownerOf t.chans[(12 : Chan)] = some 2)
      ∧ (let t := identified (forced 12 (fun f => { f with mode := .inert }) s)
         Runs t 12 2 0x28 c ∧ (t.context 12 2).intent.mode = .meas ∧ slotHeld t.chans[(12 : Chan)].force = false)
      ∧ (let t := on 0x28 c; Runs t 12 2 0x28 c ∧ t.chans[(12 : Chan)].force.mode = .inert ∧ (t.context 12 2).intent.mode = .inert) := by
  decide +kernel

/-- Table 5.12: RANGE, CLAMP and MODE have run in one interval; at the sample tick the clamps stand as CLAMP gave them. -/
theorem test_clamps_stand_after_range :
    let i : Intent := { mode := .fv, ranges := ⟨0, 4⟩, clamps := ⟨16384, -16384⟩, levelIn := ⟨0, 4⟩, clampsIn := ⟨0, 4⟩ }
    let f := (takeRanges (forced 12 (fun f => { f with applied := i }) (on 0x20 (fields 0 0 0 1) fun x => { x with intent := i })) 12 ⟨0, 4⟩ false).chans[(12 : Chan)].force
    f.ranges = ⟨0, 4⟩ ∧ f.clamps = ⟨16384, -16384⟩ ∧ f.applied.clamps = ⟨16384, -16384⟩ ∧ f.satHi = false := by decide +kernel

/-! ### Hypotheses that can be met: measurement, marks and sequencing -/

theorem test_hyp_MeasurementSettings :
    let auto := fields 0 0 0 0x2000 0x8088FFFF
    Runs (on 0x29 (fields 0 0 0 3)) 12 2 0x29 (fields 0 0 0 3) ∧ Runs (on 0x29 (fields 0 0 0 0x1FFF)) 12 2 0x29 (fields 0 0 0 0x1FFF)
      ∧ Runs (on 0x29 (fields 1 0 0 0x2000)) 12 2 0x29 (fields 1 0 0 0x2000) ∧ aperReserved 0x00C00019 = false ∧ aperReserved 0 = false
      ∧ Runs (on 0x2A (fields 0 0 0 0x2000 0xC00019)) 12 2 0x2A (fields 0 0 0 0x2000 0xC00019)
      ∧ Runs (on 0x2A (fields 1 0 0 0)) 12 2 0x2A (fields 1 0 0 0) ∧ Runs (on 0x2B (fields 0 0 0 1)) 12 2 0x2B (fields 0 0 0 1)
      ∧ Runs (on 0x2B auto) 12 2 0x2B auto ∧ auto.ext = BitVec.ofNat 32 (2 ^ 31 + 2 ^ 20 * 8 + 2 ^ 16 * 8 + 65535) := by decide +kernel

theorem test_hyp_MeasurementSettings_packets :
    Runs (on 0x2D (fields 0 0 0 0)) 12 2 0x2D (fields 0 0 0 0) ∧ Runs (on 0x2D (fields 0 0 0 0x1001)) 12 2 0x2D (fields 0 0 0 0x1001)
      ∧ Runs (on 0x2D (fields 0 0 0 0x13E8)) 12 2 0x2D (fields 0 0 0 0x13E8) := by decide +kernel

theorem test_hyp_MarksEventsComparators :
    Runs (on 0x2C (fields 1 0 0 7)) 12 2 0x2C (fields 1 0 0 7) ∧ Runs (on 0x3B (fields 0 0 0 0x20F7 0xFFFFFF)) 12 2 0x3B (fields 0 0 0 0x20F7 0xFFFFFF)
      ∧ Runs (on 0x37 (fields 0 0 0 15)) 12 2 0x37 (fields 0 0 0 15) ∧ Runs (on 0x38 (fields 0 0 0 0x2001 0x7FF80030)) 12 2 0x38 (fields 0 0 0 0x2001 0x7FF80030)
      ∧ cmpValid 0x7FF80030 = true ∧ Runs (on 0x38 (fields 1 0 0 0)) 12 2 0x38 (fields 1 0 0 0)
      ∧ Runs (on 0x39 (fields 0 0 0 0x2003 0xFFFF)) 12 2 0x39 (fields 0 0 0 0x2003 0xFFFF) ∧ Runs (on 0x39 (fields 1 0 0 1)) 12 2 0x39 (fields 1 0 0 1) := by
  decide +kernel

/-- The words at the start of the mapped page. -/
def holding (ws : List Word) (s : State) : State := { s with mm := { s.mm with mem := storeWords [] (((List.range ws.length).map fun i => 0x40000000 + 4 * i).zip ws) } }

/-- A descriptor of one sample at window address 0x40, R = 1, played once. -/
def descWords : List Word := [0x00000040, 1, 0x00001001, 0]
def descOf : Desc := ⟨64, 0, 1, 1, 1, 0, 0, false, false, false⟩

/-- Context 0 of channel 12 at an instruction in its window, with the words in its mapped page. -/
def atPage (op : BitVec 6) (k : Fields) (ws : List Word) (f : Context → Context := id) : State := holding ws (mapped (inWindow op k f))

theorem test_hyp_PlayArmGenerate :
    let k := fields 1 0 0 1
    let s := atPage 0x2E k descWords
    (s.context 12 0).obs = false ∧ (s.chans[(12 : Chan)].force.relieved && isRelief 12 && (0 : Ctx) != 3) = false ∧ ddrAsleep s = false
      ∧ Runs s 12 0 0x2E k ∧ k.imm.toNat % 8192 < 2 ∧ readDesc s 12 0 0 = (.good descOf, none)
      ∧ Runs (atPage 0x2E k [0, 0]) 12 0 0x2E k ∧ readDesc (atPage 0x2E k [0, 0]) 12 0 0 = (.bad, none)
      ∧ Runs (atPage 0x2F (fields 1 0 0 0) descWords) 12 0 0x2F (fields 1 0 0 0) := by decide +kernel

theorem test_hyp_PlayArmGenerate_starts :
    let s := updGraver (atPage 0 (fields 0 0 0 0) descWords) 12 fun g => { g with busy := some (0, .playFill 0 descOf true) }
    let arm := fun c : Context => { c with armed := some ⟨0, descOf, false, false⟩ }
    let play := fun c : Context => { arm c with supplier := .play { addr := 0, desc := descOf, passes := some 1 } }
    let j := atPage 0x30 (fields 0 0 0 0) descWords
    s.chans[(12 : Chan)].graver.busy = some (0, .playFill 0 descOf true) ∧ ownerOf s.chans[(12 : Chan)] = some 0
      ∧ readBlock s 12 0 (segmentBlock descOf 0) = ([(64, 0)], none)
      ∧ Runs j 12 0 0x30 (fields 0 0 0 0) ∧ supplierRuns (j.context 12 0) = false ∧ (j.context 12 0).armed = none
      ∧ Runs (withCtx 12 0 arm j) 12 0 0x30 (fields 0 0 0 0) ∧ readDesc (withCtx 12 0 arm j) 12 0 (word 0) = (.good descOf, none)
      ∧ Runs (withCtx 12 0 play j) 12 0 0x30 (fields 0 0 0 0) ∧ supplierRuns ((withCtx 12 0 play j).context 12 0) = true
      ∧ ((withCtx 12 0 play j).context 12 0).jumpReq = none
      ∧ Runs (on 0x32 (fields 1 2 3 0x13FF)) 12 2 0x32 (fields 1 2 3 0x13FF) ∧ Runs (on 0x32 (fields 0 0 0 0x2000)) 12 2 0x32 (fields 0 0 0 0x2000)
      ∧ Runs (on 0x33 (fields 0 0 0 0x2000 5)) 12 2 0x33 (fields 0 0 0 0x2000 5) := by decide +kernel

theorem test_hyp_SweepsAndFills :
    let k := fields 1 2 0 1
    let two := fun c : Context => setGr { c with state := .ready } 2 2
    let s := withCtx 12 1 (fun c => { c with state := .waiting (.wait 5) }) (atPage 0x31 k [0, 1] (setGr · 2 2))
    let t := updGraver (atPage 0x31 k [0, 1]) 12 fun g => { g with ctx := g.ctx.set 2 (two { state := .ready }) }
    Runs (atPage 0x31 k [0, 1]) 12 0 0x31 k ∧ (gr ((atPage 0x31 k [0, 1]).context 12 0) k.b).toNat = 0
      ∧ Runs s 12 0 0x31 k ∧ ownerOf s.chans[(12 : Chan)] ≠ some 0 ∧ windowRead s 12 0 0 = (2 ^ 32, .ok 0x40000000)
      ∧ decodeEntry (memReadWord s.mm.mem 0x40000000) (memReadWord s.mm.mem 0x40000004) = some ⟨0, false, false, 0, 0, 0, 1⟩
      ∧ (let u := updGraver (atPage 0x31 k [0, 1] fun c => setGr c 2 1) 12 fun g => { g with buf := [(0, 0), (4, 1)], bufOwner := some 0, sweptList := some (0, 2, 1) }
         Runs u 12 0 0x31 k ∧ listPresent u.chans[(12 : Chan)].graver 0 0 1 = true
          ∧ heldEntry u.chans[(12 : Chan)].graver 0 = some ⟨0, false, false, 0, 0, 0, 1⟩)
      ∧ decodeEntry 0x08000000 0 = none ∧ (gr (t.context 12 2) 2).toNat = 2 := by decide +kernel

theorem test_hyp_SweepsAndFills_present :
    let w : Sweep := { list := 0, count := 2 }
    let p : Playback := { addr := 0, desc := descOf, passes := some 1 }
    let s := updGraver (atPage 0 (fields 0 0 0 0) descWords) 12 fun g => { g with busy := some (0, .sweepFill 0 2 true) }
    let run := fun c : Context => { c with supplier := .sweep w }
    let e := updMeas (updGraver (atPage 0 (fields 0 0 0 0) descWords run) 12 fun g => { g with buf := [(0, 0), (4, 1)], bufOwner := some 0 }) 12
      fun m => { m with cfg := { m.cfg with smode := .cont } }
    let f := updGraver (atPage 0 (fields 0 0 0 0) descWords fun c => { c with supplier := .play p }) 12 fun g => { g with bufOwner := some 0 }
    let arm : Armed := ⟨0, descOf, false, false⟩
    s.chans[(12 : Chan)].graver.busy = some (0, .sweepFill 0 2 true) ∧ ownerOf s.chans[(12 : Chan)] = some 0
      ∧ readBlock s 12 0 (entryBlock w 0) = ([(0, 64), (4, 1), (8, 0x1001), (12, 0)], none) ∧ (s.context 12 0).haltReq = false
      ∧ ((withCtx 12 0 (fun c => { c with armed := some arm }) s).context 12 0).armed = some arm ∧ arm.headDone = false
      ∧ readBlock s 12 0 (headAddrs arm.desc) = ([(64, 0)], none)
      ∧ w.staged = none ∧ w.entry = none ∧ w.hold = none ∧ w.index < w.count ∧ (e.context 12 0).startNext = none
      ∧ f.chans[(12 : Chan)].graver.prefetchEcc = false ∧ readBlock f 12 0 (segmentBlock descOf 0) = ([(64, 0)], none)
      ∧ ownerOf e.chans[(12 : Chan)] = some 0 ∧ e.chans[(12 : Chan)].meas.cfg.smode ≠ .off ∧ e.chans[(12 : Chan)].meas.next = none
      ∧ entryPresent e.chans[(12 : Chan)].graver 0 w 0 = true ∧ entryWords e.chans[(12 : Chan)].graver 0 w 0 = some ⟨0, false, false, 0, 0, 0, 1⟩
      ∧ f.chans[(12 : Chan)].graver.prefetchStalled = false ∧ ddrAsleep f = false ∧ s.chans[(12 : Chan)].graver.prefetchStalled = false
      ∧ s.chans[(12 : Chan)].graver.prefetchEcc = false ∧ ddrAsleep s = false
      ∧ f.chans[(12 : Chan)].graver.bufOwner = some 0 ∧ nextFetch f.chans[(12 : Chan)].graver 0 p = .block descOf 0 := by decide +kernel

theorem test_hyp_SpecialInstructions :
    let force := fun m f => forced 12 (fun q => { q with mode := m, dac := f }) (on 0x3C (fields 1 0 0 0))
    Runs (on 0x3C (fields 1 0 0 0)) 12 2 0x3C (fields 1 0 0 0) ∧ ldidStat (on 0x3C (fields 1 0 0 0)).chans[(12 : Chan)].force = some 3
      ∧ Runs (force .fv 0) 12 2 0x3C (fields 1 0 0 0) ∧ ldidStat (force .fv State.reset.chans[(12 : Chan)].force.target).chans[(12 : Chan)].force = none
      ∧ Runs (on 0x3D (fields 1 0 0 1)) 12 2 0x3D (fields 1 0 0 1) ∧ ddrAsleep (on 0x3D (fields 1 0 0 1)) = false
      ∧ Runs (on 0x3E (fields 1 0 0 0x000E)) 12 2 0x3E (fields 1 0 0 0x000E) ∧ Runs (on 0x3E (fields 1 0 0 0x0009)) 12 2 0x3E (fields 1 0 0 0x0009)
      ∧ Runs (on 0x3E (fields 1 2 0 0x2003)) 12 2 0x3E (fields 1 2 0 0x2003) ∧ State.reset.chans[(12 : Chan)].meas.lastResult = none := by
  decide +kernel

theorem test_hyp_SpecialInstructions_ctx3 :
    let k := fields 1 0 0 0
    let s := withCtx 12 3 (fun c => { c with state := .ready }) (updGraver (updBank (mapped State.reset) 0 fun b => { b with lines := [(0, 0, [baseWord 0x3D k])] }) 12 id)
    let capt := updCmp (on 0x3E (fields 1 2 0 0x2001)) 12 .a fun c => { c with fifo := [800] }
    Runs s 12 3 0x3D k ∧ Runs capt 12 2 0x3E (fields 1 2 0 0x2001) ∧ capt.chans[(12 : Chan)].cmpA.fifo = [800] := by decide +kernel

theorem test_hyp_GraverControl :
    let g := State.reset.chans[(12 : Chan)].graver
    let full := (updGraver State.reset 12 fun g => { g with imm := List.replicate 16 0 }).chans[(12 : Chan)].graver
    let busy := (on 0 (fields 0 0 0 0)).chans[(12 : Chan)].graver
    ctrlRefused g 0x00011101 = false ∧ g.ctx[(1 : Ctx)].state = .halted ∧ ctrlRefused g 0x00000001 = true ∧ ctrlRefused g 0x00000202 = false
      ∧ g.busy = none ∧ ctrlRefused full 0x00001003 = false ∧ full.ctx[(2 : Ctx)].state = .halted ∧ ctrlRefused g 0x00000004 = false ∧ g.immBusy = false ∧ full.imm.length = 16
      ∧ busy.immBusy = true ∧ State.reset.fw.recovery = false := by decide +kernel

/-! ### Hypotheses that can be met: comparators, Tracer, frames, proofs, queues, memory -/

theorem test_hyp_ComparatorDecisions :
    let s := updCmp State.reset 12 .a fun c => { c with cfg := 0x7FF80034 }
    let k := cmpOf s.chans[(12 : Chan)] .a
    cmpBlanked k = false ∧ k.cfg.getLsbD 2 = true ∧ cmpChange k.state .above = true ∧ cmpChange k.state .inside = true
      ∧ (cmpOf (updCmp s 12 .b fun c => { c with changeBlank := some 0 }).chans[(12 : Chan)] .b).changeBlank = some 0
      ∧ (cmpOf (updCmp s 12 .b fun c => { c with commandBlank := some 0 }).chans[(12 : Chan)] .b).commandBlank = some 0 ∧ k.was = none
      ∧ (cmpOf (updCmp s 12 .b fun c => { c with modeBlank := some 0 }).chans[(12 : Chan)] .b).modeBlank = some 0 ∧ s.pwr.vigil = false := by decide +kernel

theorem test_hyp_ComparatorDecisions_before :
    let w : CmpWas := ⟨0x7FF80034, .unresolved, false, true⟩
    let s := updCmp { State.reset with tb := { State.reset.tb with now := 1600, lastSample := some 1600 } } 12 .a fun c => { c with was := some w }
    (cmpOf s.chans[(12 : Chan)] .a).was = some w ∧ s.tb.lastSample.any (1599 < ·) = true ∧ 1599 ≤ s.tb.now ∧ w.blanked = false ∧ w.cfg.getLsbD 2 = true
      ∧ cmpChange w.state .below = true ∧ s.pwr.vigil = false ∧ s.fw.recovery = false := by decide +kernel

/-- Locked, with the sample tick at 0 and the slot boundary at 0 behind. -/
def locked (s : State) : State := { s with tb := { s.tb with lock := true, lastSample := some 0, lastSlot := some 0 } }

/-- Source 5 enabled on vector 3, unmasked. -/
def sourced (pend : Bool) (unacked : List Nat) : State :=
  { State.reset with tr := { State.reset.tr with
    im := State.reset.tr.im.set 5 { State.reset.tr.im[(5 : Fin 320)] with en := true, pend := pend, vector := 3 }
    msix := State.reset.tr.msix.map (fun e => { e with control := 0 }), unacked := unacked, msixEn := true } }

theorem test_hyp_TracerAndInterrupts :
    (locked State.reset).tb.lock = true ∧ nextSlot (locked State.reset) < nextSample (locked State.reset)
      ∧ eviSelected 0x90000000 7 true = true ∧ eviSelected 0x90000000 7 false = false
      ∧ (State.reset.tr.im.any fun e => e.pend && e.vector.toNat == (0 : Word).toNat % 64) = false
      ∧ (sourced false []).tr.im[(5 : Fin 320)].en = true ∧ (sourced false []).tr.unacked.contains 3 = false
      ∧ vectorMasked (sourced false []).tr 3 = false ∧ (sourced false [3]).tr.unacked.contains 3 = true
      ∧ (sourced true []).tr.im[(5 : Fin 320)].pend = true ∧ (sourced false []).tr.msixEn = true
      ∧ State.reset.tr.msixEn = false ∧ (sourced false []).tr.masked.contains 3 = false ∧ State.reset.fw.recovery = false := by decide +kernel

/-- Frames of 1 ms. -/
def framed (f : Frames → Frames) : State := { State.reset with ht := f { State.reset.ht with len := 1600000 } }

theorem test_hyp_FrameControl :
    let idle := fun s : State => s.ht.en = false ∧ s.ht.armed = false ∧ s.ht.run = false ∧ s.pf.keyend = false
    idle (framed id) ∧ gridOk (framed id).ht false = true ∧ idle (framed fun h => { h with len := 800 }) ∧ gridOk (framed fun h => { h with len := 800 }).ht true = false
      ∧ (1 : Word).getLsbD 0 = true ∧ (framed fun h => { h with en := true, run := true }).ht.armed = false ∧ (4 : Word).toNat % 8 = 4 ∧ (framed id).ht.token = false
      ∧ (framed fun h => { h with en := true }).ht.token = (5 : Word).getLsbD 1 := by decide +kernel

theorem test_hyp_FrameControl_again :
    let t := framed fun h => { h with run := true }
    let bad := framed fun h => { h with run := true, len := 801 }
    t.ht.en = false ∧ t.ht.run = true ∧ t.pf.keyend = false ∧ (1 : Word).getLsbD 2 = false ∧ (1 : Word).getLsbD 1 = t.ht.token ∧ gridOk t.ht false = true
      ∧ t.ht.armed = false ∧ bad.ht.run = true ∧ gridOk bad.ht false = false ∧ (framed fun h => { h with en := true, run := true }).ht.again = false
      ∧ (0 : Word).getLsbD 0 = false := by decide +kernel

/-- Frame 7 held, at 1 ms to 2 ms, with slot 0 in the given state. -/
def held (r : SlotRec) : HeldFrame := ⟨7, 1600000, 3200000, false, false, false, false, false, (Vector.replicate 76 (.absent 1)).set 0 r⟩

/-- Channel 0 is past the frame with its units' buffers closed. -/
def closedAt (s : State) : State :=
  updBank { s with
    tb := { s.tb with lastSample := some 3200800 }
    ht := { s.ht with
      held := [held .empty]
      units := s.ht.units.map fun u => { u with closed := some ({}, {}), closedAt := 3200000 } } } 0 fun b => { b with up := true }

theorem test_hyp_BoundariesAndCollector :
    let s := framed fun h => { h with en := true, armed := true, next := 800 }
    let t := framed fun h => { h with en := true, run := true, next := 0 }
    boundaryDue s 800 = true ∧ 800 ≤ nextSample { s with tb := { s.tb with lastSample := some 0 } } ∧ boundaryDue t 0 = true
      ∧ (0 : Nat) ≤ nextSample t ∧ t.ht.armed = false ∧ t.ht.endAt = none ∧ unitRangeOk 0 3 = false ∧ unitRangeOk 1 9 = false
      ∧ State.reset.ht.units[(0 : Fin 144)].staged = none ∧ State.reset.ht.units[(0 : Fin 144)].cfg.base ≠ ((0x800000 : Word).extractLsb' 0 24).toInt
      ∧ (held .empty).deviceReady = false ∧ (held .empty).slots.any (· == .empty) = true ∧ (held (.absent 0)).slots.any (· == .empty) = false := by
  decide +kernel

theorem test_hyp_BoundariesAndCollector_store :
    (closedAt State.reset).ht.held = [held .empty] ∧ (held .empty).slots[(0 : Fin 76)] = .empty ∧ slotReady (closedAt State.reset) 0 (held .empty) = true
      ∧ ∀ u ∈ slotUnits 0, (closedAt State.reset).ht.units[u].closed.isSome = true ∧ (closedAt State.reset).ht.units[u].closedAt = (held .empty).boundary := by
  decide +kernel

/-- A Proof that is sealed, unsigned or signed. -/
def endState : EndState := ⟨0, 0, 0, 0, 0, 0, 0, [], [], [], (0, 0, 0, 0), 0, 0, 0⟩
def proofOf (index : Option Nat) (signed : Bool) : Proof :=
  ⟨{}, endState, 0, true, false, false, 0, 0, 0, 1, (0, 0, 0, 0), 0, 0, 0, [], [], 0, index, signed, 0⟩

/-- A ring of address space 2 over 1 MiB of its own at 1 GiB. -/
def ringed : Memory := { State.reset.mm with maGib := 2, asids := [2], maps := [⟨2, 0, 0x100000, 4096, some 0x40000000, true, true, true⟩] }
def trusted (f : Trust → Trust) : State := { State.reset with mm := ringed, pf := f { State.reset.pf with ready := true, bound := 16384 } }

theorem test_hyp_ProofSequence :
    let due := trusted fun p => { p with ended := [{ atEnd := some endState, handed := true }] }
    let unsigned := trusted fun p => { p with held := [proofOf none false] }
    let signing := trusted fun p => { p with held := [proofOf (some 0) false], signing := true }
    (State.reset.ht.en || State.reset.ht.armed || State.reset.ht.run) = false ∧ (framed fun h => { h with run := true }).ht.run = true
      ∧ due.pf.ended = [{ atEnd := some endState, handed := true }] ∧ due.pf.held.length < 8
      ∧ unsigned.pf.held = [proofOf none false] ∧ unsigned.pf.signing = false ∧ unsigned.pf.ready = true ∧ mpStopped unsigned = false ∧ faultWork unsigned = false
      ∧ unsigned.pf.sigNext + 17 < 2 ^ 40 ∧ unsigned.pf.sigNext < unsigned.pf.bound ∧ signing.pf.held = [proofOf (some 0) false] := by decide +kernel

theorem test_hyp_ProofSequence_ring :
    let s := trusted fun p => { p with held := [proofOf (some 0) true], ring := { p.ring with asid := 2, en := true } }
    s.pf.held = [proofOf (some 0) true] ∧ s.pf.ring.en = true ∧ s.pf.ring.fault = false ∧ ddrAsleep s = false ∧ mpStopped s = false ∧ faultWork s = false ∧ s.pf.ring.lacks 23808 = false
      ∧ (ringPas s.mm s.pf.ring 5952 s.pf.ring.wr []).isLeft = true
      ∧ ringRefused { State.reset.pf.ring with asid := (0x82000014 : Word).extractLsb' 24 4, log2size := (0x82000014 : Word).toNat % 32 } 30 = false
      ∧ State.reset.hht.stream.getLsbD 8 = false ∧ ({ s.pf.ring with wr := 4, rdLo := 4 } : RingState).rdLo.toNat % 4 = 0 := by decide +kernel

/-- Queue 12 in the given state. -/
def queued (f : Queue → Queue) : State := updQueue State.reset 12 f

theorem test_hyp_QueueCommands :
    let on := fun k : Queue => { k with state := .enabled }
    let mid := fun k : Queue => { k with state := .enabled, midPaths := [Path.pcie], headPartial := true, committed := [resultWord 0xE 0 1] }
    (State.reset.path .pcie).qIdx = 0 ∧ queueWritable .pcie 68 = true ∧ queueWritable .pcie 69 = false ∧ queueWritable .mp 69 = true
      ∧ State.reset.queues[(12 : Fin 256)].state = .disabled ∧ (queued on).queues[(12 : Fin 256)].opened = [] ∧ (queued on).queues[(12 : Fin 256)].p = 0
      ∧ (queued on).queues[(12 : Fin 256)].draining = 0 ∧ (queued on).queues[(12 : Fin 256)].headPartial = false ∧ (queued on).queues[(12 : Fin 256)].hwm = 0
      ∧ (queued mid).queues[(12 : Fin 256)].midPaths.contains Path.pcie = true
      ∧ overlapsQueue State.reset 69 16000 384 = false ∧ 16000 + 384 ≤ 16384 ∧ overlapsQueue State.reset 69 100 5 = true := by decide +kernel

theorem test_hyp_ResultReads :
    let s := queued fun k => { k with state := .enabled, committed := [0x10000001] }
    s.queues[resultQueue 12].state = .enabled ∧ s.queues[resultQueue 12].committed = [0x10000001] ∧ s.queues[resultQueue 12].drn = false
      ∧ s.queues[resultQueue 12].draining = 0 ∧ s.queues[resultQueue 12].hwm = 0 ∧ endsUnit 0x10000001 = false
      ∧ State.reset.queues[resultQueue 12].state = .disabled := by decide +kernel

theorem test_hyp_DrainEngines :
    let q := fun k : Queue => { k with state := .enabled, drn := true, eng := 1, committed := [0x10000001, resultWord 0xE 0 1] }
    let s := updRing { queued q with mm := ringed } 1 fun r => { r with en := true, asid := 2 }
    let t := updRing s 1 fun r => { r with transfer := some ⟨255, [1], [0x40000000], 0⟩ }
    s.rings[(1 : Ring)].en = true ∧ s.rings[(1 : Ring)].stopping = false ∧ s.rings[(1 : Ring)].fault = false ∧ ddrAsleep s = false ∧ s.rings[(1 : Ring)].transfer = none ∧ s.rings[(1 : Ring)].trig = false ∧ nextQueue s 1 = some 12
      ∧ s.rings[(1 : Ring)].lacks 8 = false ∧ ringPas s.mm s.rings[(1 : Ring)] 2 s.rings[(1 : Ring)].wr [] = .inl [0x40000000, 0x40000004]
      ∧ t.rings[(1 : Ring)].transfer = some ⟨255, [1], [0x40000000], 0⟩ ∧ State.reset.rings[(1 : Ring)].en = false
      ∧ ringRefused { State.reset.rings[(1 : Ring)] with asid := (0xF2000021 : Word).extractLsb' 24 4, log2size := (0xF2000021 : Word).toNat % 64 } 33 = false
      ∧ State.reset.hht.stream.getLsbD 1 = false := by decide +kernel

theorem test_hyp_PushesKeepCapacity : State.reset.queues[(12 : Fin 256)].occ ≤ State.reset.queues[(12 : Fin 256)].capacity := by decide +kernel

theorem test_hyp_MemoryUpkeep :
    let s := mapped State.reset
    State.reset.mm.spares = [] ∧ ({ State.reset.mm with spares := [(7, 4)] } : Memory).spares = [((7 : Fin 384).val, 4)]
      ∧ paExternal 0x40000000 = true ∧ paExists s.mm 0x40000000 = true ∧ paExists s.mm 0x7FFFF000 = true ∧ s.mm.retired = []
      ∧ Memory.wf s.mm.mem = true ∧ State.reset.mm.flog = [] := by decide +kernel

/-- The MP has nothing to do but one housekeeping item, and the places of errors are as given. -/
def keeping (place : ErrPlace) : State :=
  { mapped State.reset with mm := { (mapped State.reset).mm with errs := [(place, 0)], house := [(place, 0)] }, fw := { State.reset.fw with running := true } }

theorem test_hyp_MemoryUpkeep_housekeeping :
    let row := keeping (.row 7 0)
    let full := { row with mm := { row.mm with spares := [((7 : Fin 384).val, 4)] } }
    let page := keeping (.page 0x40000000)
    let once := { page with mm := { page.mm with house := [] } }
    (mpStopped row = false ∧ faultWork row = false ∧ proofWork row = false ∧ hostWork row = false) ∧ row.mm.house = [(.row (7 : Fin 384).val 0, 0)] ∧ row.mm.spares = []
      ∧ (mpStopped full = false ∧ faultWork full = false ∧ proofWork full = false ∧ hostWork full = false) ∧ full.mm.spares = [((7 : Fin 384).val, 4)]
      ∧ (mpStopped page = false ∧ faultWork page = false ∧ proofWork page = false ∧ hostWork page = false) ∧ page.mm.house = [(.page 0x40000000, 0)]
      ∧ page.mm.retired = [] ∧ paExternal 0x40000000 = true ∧ paExists page.mm 0x40000000 = true ∧ Memory.wf page.mm.mem = true
      ∧ once.mm.errs = [(.page 0x40000000, 0)] ∧ once.tb.now < 0 + dayTicks ∧ once.mm.house = [] := by decide +kernel

theorem test_hyp_MemoryUpkeep_invalidation :
    let i : Inv := ⟨none, 2, 0, 4096, none⟩
    let s := { State.reset with mm := { State.reset.mm with invPending := [i], flog := [[1, 2, 3, 4]] } }
    s.mm.invPending = [i] ∧ i.who = none ∧ invHeld s i = false ∧ s.mm.flog = [[1, 2, 3, 4]] := by decide +kernel

theorem test_hyp_MemoryUpkeep_demand :
    let z : Mapping := ⟨2, 2 ^ 32, 4096, 4096, none, true, true, false⟩
    let s := withCtx 12 1 (fun c => { c with state := .suspended .xlateData true })
      { State.reset with mm := { State.reset.mm with maGib := 2, asids := [2], maps := [z], pool := [(0x40000000, 1)], demand := [⟨.context 12 1, 2, 2 ^ 32, 0, false, false⟩] } }
    s.mm.demand = [⟨.context 12 1, 2, 2 ^ 32, 0, false, false⟩] ∧ retiredTo s.mm 0x40000000 = 0x40000000 ∧ mpStopped s = false ∧ findMapping s.mm.maps 2 (2 ^ 32) = some z ∧ z.pa = none
      ∧ (s.context 12 1).state = .suspended .xlateData true ∧ (s.context 12 1).haltReq = false ∧ inImm s.chans[(12 : Chan)].graver 1 = false
      ∧ s.mm.waits = [] ∧ Memory.wf s.mm.mem = true := by decide +kernel

/-! ### Hypotheses that can be met: commands of the host, trust, plates, power, calibration -/

/-- The firmware takes commands. -/
def served (s : State) : State := { s with fw := { s.fw with porn := true, running := true, ready := true } }

/-- A host command's header whose message holds that many bytes of arguments. -/
def withArgs (n : Nat) : Hdr := ⟨.pcie, 1, 24 + n, 0⟩

theorem test_hyp_MappingCommands :
    let s := served (mapped State.reset)
    Accepted s (withArgs 4) 4 ∧ s.mm.asids.contains 15 = false ∧ asidUsed (takeMessage s (withArgs 4)) 2 = false ∧ s.mm.asids.contains 2 = true
      ∧ Accepted s (withArgs 32) 32 ∧ flagsReserved 0x70 = false ∧ vaOk 0x1000 4096 (pageOf 0x70) = true ∧ 0x40001000 % pageOf 0x70 = 0
      ∧ rangeMappable s.mm 0x40001000 4096 = true ∧ anyMapped s.mm 2 0x1000 4096 = false ∧ s.mm.waits = [] ∧ Accepted s (withArgs 24) 24
      ∧ flag 0x30 6 = false ∧ 4096 ≤ mappedBytes s.mm 2 (2 ^ 32) 4096 ∧ Accepted s (withArgs 16) 16 := by decide +kernel

theorem test_hyp_HostCommands :
    let s := served (withCtx 12 1 (fun c => { c with state := .suspended (.trap 5) true }) State.reset)
    let late := served { State.reset with tb := { State.reset.tb with now := 800 } }
    Accepted s (withArgs 0) 0 ∧ Accepted s (withArgs 32744) 32744 ∧ Accepted s (withArgs 8) 8 ∧ 0x3FFFFC % 4 = 0 ∧ Accepted s (withArgs 4104) (8 + 4 * 1024)
      ∧ Accepted s (withArgs 12) 12 ∧ (s.context 12 1).state = .suspended (.trap 5) true ∧ (s.context 12 1).haltReq = false
      ∧ inImm s.chans[(12 : Chan)].graver 1 = false ∧ s.mm.waits = []
      ∧ ((withCtx 12 1 (fun c => { c with state := .ready }) s).context 12 1).state = .ready
      ∧ takesFrom late .pcie = true ∧ 799 < late.tb.now ∧ (withArgs 0).len < 24 + 1 := by decide +kernel

theorem test_hyp_RegisterAccess : State.reset.fw.recovery = false ∧ 0x21 % 4 ≠ 0 := by decide

/-- A device out of vigil whose ring 0 lies in an address space. -/
def ringIn (asid : BitVec 4) : State :=
  updRing { State.reset with pwr := { State.reset.pwr with ddrReady := true } } 0 fun r => { r with asid := asid }

theorem test_hyp_RegisterAccess_window :
    ddrAsleep (ringIn 0) = false ∧ ddrAsleep (ringIn 1) = false ∧ (ringIn 0).rings[(0 : Ring)].asid = 0
      ∧ translate (ringIn 1).mm 1 0xFFFFF .r = .fault 3 0
      ∧ (let s := { ringIn 2 with mm := ringed }
         s.rings[(0 : Ring)].asid ≠ 0 ∧ ddrAsleep s = false ∧ translate s.mm 2 0 .r = .ok 0x40000000) := by decide +kernel

/-- A device that signs and holds a nonce for the PCIe path. -/
def signer (owner : Option (List Byte)) : State :=
  served (trusted fun p => { p with owner := owner, nonces := [(.pcie, 5, 0)] })

theorem test_hyp_NoncesAndAttestation :
    let s := signer none
    Accepted s (withArgs 0) 0 ∧ Accepted s (withArgs 32) 32 ∧ s.pf.ready = true ∧ s.pf.keyend = false ∧ s.pf.sigNext < s.pf.bound
      ∧ s.pf.sigNext + 17 < 2 ^ 40 ∧ nonceOf s.pf .pcie = some 5 ∧ s.pf.owner = none := by decide +kernel

/-- A token for this device over the nonce. -/
def token (op : BitVec 16) (key arg : List Byte) (p0 : BitVec 64 := 0) : Token :=
  ⟨0x4B543648, 1, op, 144, 0, Config.serial, 5, keyDigest key, Config.shake256 ([0x51] ++ arg), p0, 0, []⟩

theorem token_formed (op : BitVec 16) (key arg : List Byte) (p0 : BitVec 64) : tokenFormed (token op key arg p0) = true := by simp [tokenFormed, token]

theorem test_hyp_Presents (owner : Option (List Byte)) (op : BitVec 16) (key arg : List Byte) (p0 : BitVec 64) :
    Presents (signer owner) .pcie (token op key arg p0) op.toNat key arg := ⟨token_formed .., rfl, rfl, rfl, rfl⟩

theorem test_hyp_NoncesAndAttestation_enroll :
    Presents (signer none) .pcie (token 1 [7] [7]) 0x0001 [7] [7] ∧ Accepted (signer none) (withArgs 152) ((padded [7]).length + (padded (zeros (tokenSize (token 1 [7] [7])))).length) :=
  ⟨test_hyp_Presents .., by decide +kernel, by decide +kernel, by simp [badLength, withArgs, padded, zeros, tokenSize, token], by decide +kernel⟩

theorem test_hyp_OwnerOperations :
    Presents (signer (some [7])) .pcie (token 0x0003 [7] []) 0x0003 [7] [] ∧ Presents (signer (some [7])) .pcie (token 0x0011 [7] []) 0x0011 [7] []
      ∧ Presents (signer (some [7])) .pcie (token 0x0012 [7] []) 0x0012 [7] []
      ∧ Presents (signer (some [7])) .pcie (token 0x0013 [7] [] 0x03B602BC) 0x0013 [7] []
      ∧ Presents (signer (some [7])) .pcie (token 0x0020 [7] [] 3) 0x0020 [7] []
      ∧ Presents (signer (some [7])) .pcie (token 0x0002 [7] [8]) 0x0002 [7] [8] ∧ Presents (signer (some [7])) .pcie (token 0x0001 [8] [8]) 0x0001 [8] [8] :=
  ⟨test_hyp_Presents .., test_hyp_Presents .., test_hyp_Presents .., test_hyp_Presents .., test_hyp_Presents .., test_hyp_Presents .., test_hyp_Presents ..⟩

theorem test_hyp_OwnerOperations_values :
    (signer (some [7])).pf.owner = some [7] ∧ 0x03B602BC % 65536 = 700 ∧ 0x03B602BC / 65536 % 65536 = 950 ∧ (3 : BitVec 64).getLsbD 2 = false
      ∧ takesFrom (signer (some [7])) .pcie = true ∧ (signer (some [7])).fw.recovery = false := by decide +kernel

/-- The plate session of the state after reset. -/
def plated (f : Plate → Plate) : State := { State.reset with pl := f State.reset.pl }

/-- The record of a Gen A Plate: LIFE 1,000, WARN 900. -/
def record : List Byte :=
  leBytes 4 0x4C503648 ++ leBytes 2 1 ++ [1, 0] ++ leBytes 4 448 ++ zeros 36 ++ leBytes 4 1000 ++ leBytes 4 900 ++ zeros 392

theorem test_hyp_PlatePresenceAndCycles :
    (plated fun p => { p with pldet := true }).pl.deten = true ∧ State.reset.pwr.vigil = false ∧ (plated fun p => { p with pldet := false }).pl.sess = .absent
      ∧ transferring (plated fun p => { p with sess := .reading }).pl = true ∧ (plated fun p => { p with sess := .reading }).pl.busTry = 0
      ∧ (plated fun p => { p with csrc := true, sess := .live }).pl.writing = none ∧ (plated fun p => { p with csrc := true, sess := .live }).pl.gen ≠ 3
      ∧ (plated fun p => { p with contact := false, pend := 254 }).pl.pend < 255 := by decide +kernel

theorem test_hyp_PlateSessions :
    let reading := plated fun p => { p with sess := .reading, reqv := false }
    let auth := plated fun p => { p with sess := .auth }
    recRefusal reading.pf reading.pl.reqv false record [] = 0 ∧ reading.pl.pend = 0 ∧ reading.pl.memory = [] ∧ auth.pl.sess = .auth ∧ auth.pf.keyend = false
      ∧ (let s := { served (trusted id) with pl := { State.reset.pl with sess := .opening } }
         s.pl.sess = .opening ∧ s.pl.attested = false ∧ s.pf.sigNext < s.pf.bound ∧ s.pf.sigNext + 17 < 2 ^ 40 ∧ takesCommands s = true) ∧ (plated fun p => { p with sess := .opening, attested := true }).pl.pend = 0
      ∧ (plated fun p => { p with sess := .live, advancing := true }).pl.advances + 1 < 65536
      ∧ (plated fun p => { p with writing := some 5 }).pl.writing = some 5 := by decide +kernel

/-- The check of a count as a number. -/
def checkOf (serial : BitVec 128) (count seq : Nat) : BitVec 128 :=
  BitVec.ofNat 128 ((Config.shake256 ([0x81] ++ serialBytes serial ++ counterBytes count seq)).toNat / 256 ^ 16)

/-- The sixteen upper bytes of a digest are those of its upper half as a number. -/
theorem serialBytes_upper (d : Digest) : serialBytes (BitVec.ofNat 128 (d.toNat / 256 ^ 16)) = (digestBytes d).take 16 := by
  have h : ∀ i, i < 16 → (d.toNat / 256 ^ 16 % 2 ^ 128) / 256 ^ (15 - i) = d.toNat / 256 ^ (31 - i) := by
    intro i hi
    rw [Nat.mod_eq_of_lt (by have := d.isLt; omega), Nat.div_div_eq_div_mul, ← Nat.pow_add]
    congr 2; omega
  simp only [serialBytes, digestBytes, ← List.map_take, List.take_range]
  exact List.map_congr_left fun i hi => by rw [BitVec.toNat_ofNat, h i (by simpa using hi)]

theorem test_hyp_PlateSessions_slots :
    serialBytes (checkOf (plateSerial record) 5 3) = counterCheck (plateSerial record) 5 3 := serialBytes_upper _

/-- The power unit of the state after reset. -/
def powered (f : Power → Power) : State := { State.reset with pwr := f State.reset.pwr }

theorem test_hyp_PowerAndVigil :
    let s := powered id
    s.pwr.regflt = false ∧ s.pwr.pmbusFails < 2 ∧ s.pwr.paceMan = false ∧ s.pwr.vigil = false ∧ s.pwr.regns = false
      ∧ s.pwr.set ≤ (s.pwr.set + 10) + 10 ∧ (s.pwr.set + 10) ≤ s.pwr.set + 10 ∧ anyAt (coreTemps s.pwr) s.pwr.twarn = false ∧ s.pwr.set + 10 ≤ s.pwr.highest
      ∧ s.pwr.lowest + 10 ≤ s.pwr.set ∧ (39 : Nat) < 40 ∧ vigilRefused s = false
      ∧ vigilRefused (plated fun p => { p with sess := .settling }) = true := by decide +kernel

theorem test_hyp_PowerAndVigil_pace :
    let full := { powered id with fw := { State.reset.fw with loads := List.replicate 10 91 } }
    let hot := { powered (fun p => { p with temps := List.replicate 44 (some 0x7FFF) }) with fw := full.fw }
    let stalled := powered fun p => { p with lastStall := some 0 }
    mpSaturated full.fw = true ∧ anyAt (coreTemps full.pwr) full.pwr.twarn = false ∧ mpSaturated hot.fw = true ∧ anyAt (coreTemps hot.pwr) hot.pwr.twarn = true
      ∧ stalled.pwr.lastStall = some 0 ∧ stalled.tb.now < 0 + 1600000 ∧ mpSaturated (powered id).fw = false ∧ (powered id).fw.load100 < 40
      ∧ (powered id).pwr.lastStall = none ∧ (powered fun p => { p with pmbusFails := 2 }).pwr.pmbusFails = 2 := by decide +kernel

theorem test_hyp_PowerAndVigil_ticks :
    let s := { State.reset with tb := { State.reset.tb with now := 1600000 } }
    let w := { powered (fun p => { p with vigil := true, wakeTimer := true, wakeT := 796 }) with tb := { State.reset.tb with lastSample := some 0 } }
    s.pwr.period < s.tb.now / 1600000 * 1600000
      ∧ s.chans.any (fun c => c.meas.convs.any fun k => decide (k.tick < s.tb.now / 1600000 * 1600000)) = false
      ∧ w.tb.now < w.pwr.wakeT ∧ w.pwr.wakeT + 4 ≤ nextSample w ∧ w.pwr.regflt = false := by decide +kernel

/-- Channel 12 in FV with its relay closed, its bank up, and both slots' CPS units identified. -/
def carrying : State :=
  let cps := fun f : Force => { f with slot := { f.slot with ident := List.replicate 11 1 ++ [0xFFF], reading := none }, fltLatch := false }
  allowed (forced 64 cps (forced 12 (fun f => { cps f with mode := .fv, relay := .closed, oen := true }) State.reset))

theorem test_hyp_CalibrationRequests :
    let moving := forced 12 (fun f => { f with fltLatch := true }) State.reset
    let r : Relief := { slot := 12, phase := .carrying, captured := {}, rampTick := 0, rampLevel := 0, forRun := false }
    let back := { carrying with reliefs := carrying.reliefs.set (bankOf 12) (some r) }
    let ret := updCal (forced 12 (fun f => { f with relieved := true }) back) 12 fun c => { c with phase := .relieved }
    calRefusal moving 12 .full ≠ 0 ∧ calRefusal moving 12 .quick ≠ 0 ∧ calRefusal State.reset 12 .relieve ≠ 0 ∧ calRefusal State.reset 12 .ret ≠ 0
      ∧ calRefusal (forced 12 id carrying) 12 .relieve = 0 ∧ calRefusal ret 12 .ret = 0 ∧ ret.reliefs[bankOf 12] = some r ∧ chanAt (bankOf 12) r.slot = 12
      ∧ modeBlocked ret 12 = false := by decide +kernel

theorem test_hyp_CalibrationRequests_runs :
    let rest := forced 12 (fun f => { f with fltLatch := false }) State.reset
    calRefusal rest 12 .full = 0 ∧ needsRelief rest 12 .full = false ∧ calRefusal rest 12 .quick = 0 ∧ needsRelief rest 12 .quick = false
      ∧ rest.pwr.vigil = false := by decide +kernel

theorem test_hyp_CalibrationRunsAndReliefs :
    let run := updCal State.reset 12 fun c => { c with phase := .run, step := .check, full := true }
    let first := (updCal State.reset 12 fun c => { c with phase := .run, step := .precheck }).chans[(12 : Chan)].cal
    let new := runSet run.chans[(12 : Chan)].cal calResult 0
    let store := (updCal State.reset 12 fun c => { c with phase := .store, storing := some new }).chans[(12 : Chan)].cal
    let r : Relief := { slot := 12, phase := .switching, captured := { mode := .meas }, rampTick := 400, rampLevel := 0, forRun := false }
    let s := { State.reset with reliefs := State.reset.reliefs.set 0 (some r) }
    run.chans[(12 : Chan)].cal.phase = .run ∧ run.chans[(12 : Chan)].cal.handback = false ∧ runCheck run.chans[(12 : Chan)].cal calResult = 0 ∧ run.chans[(12 : Chan)].cal.step = .check
      ∧ runCheck run.chans[(12 : Chan)].cal { calResult with coef := List.replicate 12 (2 ^ 31, 0) } ≠ 0 ∧ first.phase = .run ∧ first.step = .precheck ∧ first.handback = false
      ∧ ¬(2000 * 5000 * 2 ^ 23 < (0 : Int).natAbs * 2500000 ∨ 2000 * 50 * 2 ^ 23 < (0 : Int).natAbs * 1000) ∧ 2000 * 50 * 2 ^ 23 < (2000 * 8388607 : Int).natAbs * 1000
      ∧ store.phase = .store ∧ store.storing = some new ∧ store.handback = false ∧ store.slot < 2 ∧ store.slots.length = 2
      ∧ run.chans[(12 : Chan)].cal.slot < 2 ∧ run.chans[(12 : Chan)].cal.slots.length = 2 ∧ s.reliefs[(0 : Bank)] = some r ∧ switchesDone s 0 r = true
      ∧ s.chans[chanAt 0 r.slot].force.fltLatch = false := by decide +kernel

/-! ### Hypotheses that can be met: start-up, time, channels, banks, lanes, links, firmware -/

def withFw (f : Firmware → Firmware) (s : State := State.reset) : State := { s with fw := f s.fw }

theorem test_hyp_ResetsAndStarts_restarts :
    let up := withFw fun f => { f with porn := true, running := true }
    up.fw.running = true ∧ up.fw.ready = false ∧ up.fw.restarting = false ∧ (withFw (fun f => { f with restarting := true }) up).fw.restarting = true := by decide +kernel

theorem test_hyp_ResetsAndStarts :
    State.reset.fw.porn = false ∧ (withFw fun f => { f with porn := true }).fw.porn = true ∧ (withFw fun f => { f with porn := true, chosen := true }).fw.running = false
      ∧ (withFw fun f => { f with running := true }).fw.ready = false ∧ (withFw fun f => { f with running := true }).fw.restarting = false
      ∧ (withFw fun f => { f with restarting := true }).fw.restarting = true ∧ State.reset.fw.running = false ∧ State.reset.fw.recovery = false := by
  decide

def timed (f : Timebase → Timebase) : State := { State.reset with tb := f { State.reset.tb with lock := true, lastSample := some 0, lastSlot := some 0 } }

theorem test_hyp_TimebaseCommands :
    let held := forced 12 (fun f => { f with mode := .fv }) (timed fun t => { t with syncMode := 2 })
    State.reset.tb.lock = false ∧ (timed id).tb.lock = true ∧ (timed id).tb.freerun = false ∧ (timed fun t => { t with freerun := true }).tb.freerun = true
      ∧ nextEdge (timed id) ≤ nextSample (timed id) ∧ (timed id).tb.syncMode = 0 ∧ counterHeld (timed id) = false ∧ counterHeld held = true
      ∧ nextEdge held ≤ nextSample held ∧ (timed fun t => { t with syncoEn := true }).tb.syncoEn = true ∧ (timed id).fw.recovery = false := by decide +kernel

/-- Lane 4 as a Sibia link. -/
def linked (f : LaneState → LaneState) (s : State) : State := updLane s 4 fun l => f { l with en := true, proto := 6, lstate := .up }

theorem test_hyp_TimebaseCommands_skew :
    let s := linked id (timed fun t => { t with skewEn := true, period := 1 })
    s.tb.skewEn = true ∧ s.tb.timingRef = false ∧ sibiaLane s (skewLane s) = true ∧ (timed id).tb.skewEn = false ∧ s.tb.period ≠ 0 ∧ (timed id).tb.period = 0
      ∧ (timed fun t => { t with measuring := true, exchanges := 4096 }).tb.exchanges = 4096 ∧ (timed id).tb.measuring = false
      ∧ (timed fun t => { t with phaseTarget := 1 }).tb.fine < 1 ∧ (timed id).tb.fine = (timed id).tb.phaseTarget := by decide +kernel

theorem test_hyp_TimebaseCommands_edges :
    let close := timed fun t => { t with now := 700, edgePhase := 798 % refPeriod State.reset }
    let behind := timed fun t => { t with now := 798, edgePhase := 801 % refPeriod State.reset }
    nextEdge (timed id) + 4 ≤ nextSample (timed id) ∧ nextEdge close = 798 ∧ nextSample close = 800 ∧ close.tb.syncMode = 0 ∧ nextSample behind < nextEdge behind := by
  decide +kernel

theorem test_hyp_TimebaseCommands_correction :
    let far := timed fun t => { t with measuring := true, exchanges := 4096, sumOfs := 8192 * 1600 }
    wholeTicks (roundDiv (timed id).tb.sumOfs 8192) = 0 ∧ wholeTicks (roundDiv far.tb.sumOfs 8192) ≠ 0 ∧ counterHeld far = false
      ∧ counterHeld (forced 12 (fun f => { f with mode := .fv }) far) = true ∧ (timed fun t => { t with fineTicks := 1024 }).tb.fineTicks = 1024
      ∧ (timed fun t => { t with fine := 1 }).tb.phaseTarget < 1 ∧ (timed id).tb.fineTicks < 1024 := by decide +kernel

/-- A conversion of the sample tick 0. -/
def conv : Conv := { tick := 0, ranges := {} }

theorem test_hyp_SampleWorld :
    let m := updMeas (timed id) 12 fun m => { m with convs := [conv], packet := some ⟨1, 0, 0, 0, none⟩ }
    let aged := updMeas (timed fun t => { t with lastSample := some 1600000000 }) 12 fun m => { m with convs := [conv], packet := some ⟨1, 0, 0, 0, none⟩ }
    let fi := forced 12 (fun f => { f with mode := .fi, comp := { f.comp with trimEn := true, swWin := 2 } }) (timed id)
    State.reset.tb.lock = false ∧ m.chans[(12 : Chan)].meas.convs = [conv] ∧ boundaryDue m conv.tick = false
      ∧ m.chans[(12 : Chan)].meas.packet = some ⟨1, 0, 0, 0, none⟩ ∧ m.tb.lastSample = some 0 ∧ aged.tb.lastSample = some 1600000000
      ∧ (0 + m.chans[(12 : Chan)].meas.cfg.ageMs * 1600000 + 799) / 800 * 800 ≤ 1600000000 ∧ 0 < (0 + m.chans[(12 : Chan)].meas.cfg.ageMs * 1600000 + 799) / 800 * 800
      ∧ fi.chans[(12 : Chan)].force.mode ≠ .inert ∧ fi.chans[(12 : Chan)].force.comp.swWin = [100, 100].length
      ∧ (∀ x ∈ [100, 100], 4 * (fi.chans[(12 : Chan)].force.comp.swThr + 1) ≤ x) ∧ trimRuns fi.chans[(12 : Chan)] = true
      ∧ (forced 12 (fun f => { f with swTicks := 32, trimTicks := 1024 }) fi).chans[(12 : Chan)].force.swTicks = 16 * fi.chans[(12 : Chan)].force.comp.swWin
      ∧ trimError (forced 12 (fun f => { f with target := 100 }) fi).chans[(12 : Chan)] > 0 ∧ trimError (forced 12 (fun f => { f with target := -100 }) fi).chans[(12 : Chan)] < 0
      ∧ trimError fi.chans[(12 : Chan)] = 0 ∧ trimRuns State.reset.chans[(12 : Chan)] = false
      ∧ (forced 12 (fun f => { f with ldid := some ⟨1, 32, [], false⟩ }) fi).chans[(12 : Chan)].force.ldid = some ⟨1, 32, [], false⟩ := by decide +kernel

/-- A bridged change of the current range that stands in the given phase. -/
def bridgeIn (phase : BridgePhase) (ticks : Nat) : Bridge := { phase := phase, old := ⟨0, 6⟩, dst := ⟨0, 5⟩, goal := ⟨0, 5⟩, ticks := ticks }

theorem test_hyp_SampleWorld_ranging :
    let s := updMeas (identified (forced 12 (fun f => { f with mode := .fv, clamps := ⟨300, 0⟩, ranges := ⟨0, 5⟩, applied := { f.applied with ranges := ⟨0, 5⟩ } }) (timed id))) 12
      fun m => { m with cfg := { m.cfg with auto := true, d := 1, hi := 8, lo := 0 }, downCount := 1 }
    let c := s.chans[(12 : Chan)]
    let ends := updGraver (forced 12 (fun f => { f with ldid := some ⟨3, 0, [], false⟩ }) State.reset) 12 fun g => { g with busy := some (2, .ldid 1) }
    c.meas.cfg.d ≤ c.meas.downCount ∧ c.meas.cfg.auto = true ∧ c.force.mode ≠ .inert ∧ c.force.ldid = none ∧ c.force.seq ≠ .entering .parking ∧ c.force.safe = none
      ∧ autoTarget c false = some (true, 4) ∧ clampsFit c.force (withRange c.force.ranges (true, 4)) = true ∧ c.force.bridge = none ∧ c.force.applied.ranges = c.force.ranges
      ∧ (forced 12 (fun f => { f with bridge := some (bridgeIn .settling 3) }) s).chans[(12 : Chan)].force.bridge = some (bridgeIn .settling 3)
      ∧ autoTarget (forced 12 (fun f => { f with bridge := some (bridgeIn .settling 3) }) s).chans[(12 : Chan)] false = some (true, 4)
      ∧ ends.chans[(12 : Chan)].force.ldid = some ⟨3, 0, [], false⟩ ∧ ends.chans[(12 : Chan)].graver.busy = some (2, .ldid 1) := by decide +kernel

theorem test_hyp_RangeSequences :
    let b : Bridge := bridgeIn .closing 0
    let ranged := forced 12 (fun f => { f with mode := .fv, ranges := ⟨0, 5⟩, applied := { f.applied with ranges := ⟨0, 5⟩ }, clamps := ⟨300, 0⟩ }) (identified State.reset)
    let settled := forced 12 (fun f => { f with bridge := some (bridgeIn .settling 15), waitingAuto := some (true, 4) }) ranged
    let unfit := forced 12 (fun f => { f with mode := .inert }) settled
    let s := forced 12 (fun f => { f with bridge := some b }) State.reset
    let wait := updBank State.reset (bankOf 12) fun k => { k with sent := [⟨slotOf 12, opCloseI, 0, 0, false⟩] }
    s.chans[(12 : Chan)].force.bridge = some b ∧ cpsPending s 12 [opCloseI, opCloseV] = false ∧ cpsPending s 12 [opOpenI, opOpenV] = false
      ∧ cpsPending wait 12 [opCloseI, opCloseV] = true ∧ State.reset.chans[(12 : Chan)].force.waitingAuto = none
      ∧ (forced 12 (fun f => { f with seq := .leaving .switches }) State.reset).chans[(12 : Chan)].force.seq = .leaving .switches
      ∧ State.reset.chans[(12 : Chan)].force.bridge = none ∧ State.reset.chans[(12 : Chan)].force.seq ≠ .leaving .rails
      ∧ settled.chans[(12 : Chan)].force.bridge = some (bridgeIn .settling 15) ∧ 15 ≤ (bridgeIn .settling 15).ticks
      ∧ settled.chans[(12 : Chan)].force.applied.ranges = settled.chans[(12 : Chan)].force.ranges
      ∧ waitingRanges settled.chans[(12 : Chan)].force (true, 4) = some ⟨0, 4⟩ ∧ waitingRanges unfit.chans[(12 : Chan)].force (true, 4) = none
      ∧ (bridgeIn .settling 14).ticks < 15 := by decide +kernel

/-- Banks up, with nothing that triggers a safe state. -/
def calm : State :=
  let s := { State.reset with pl := { State.reset.pl with deten := false }, banks := State.reset.banks.map fun b => { b with up := true, supplies := true, linkUp := true } }
  forced 12 (fun f => { f with fltLatch := true }) s

theorem test_hyp_SafeStates :
    let s := forced 12 (fun f => { f with relay := .breaking, seq := .entering .relay, safe := some ⟨1, 0, false, false⟩ }) State.reset
    s.reliefs[bankOf 12] = none ∧ s.chans[(12 : Chan)].force.safe = some ⟨1, 0, false, false⟩ ∧ (forced 12 (fun f => { f with relay := .making }) State.reset).chans[(12 : Chan)].force.relay = .making
      ∧ calm.chans[(12 : Chan)].force.fltLatch = true ∧ triggerPresent (updForce calm 12 fun f => { f with fltLow := !true }) 12 = false
      ∧ triggerPresent (updForce calm 12 fun f => { f with fltLow := !false }) 12 = true
      ∧ mainRelief s 12 .connecting = none ∧ mainRelief s 12 .isolating = none ∧ (forced 12 (fun f => { f with breakRuns := true }) s).chans[(12 : Chan)].force.breakRuns = true
      ∧ (forced 12 (fun f => { f with relay := .breaking, breakRuns := true }) State.reset).chans[(12 : Chan)].force.seq ≠ .entering .relay
      ∧ State.reset.chans[(12 : Chan)].force.breakRuns = false ∧ State.reset.chans[(12 : Chan)].force.relay ≠ .making ∧ calm.chans[(12 : Chan)].force.safe = none ∧ calm.fw.recovery = false
      ∧ (let ramp := forced 12 (fun f => { f with fcause := 4, safe := some ⟨4, 0, true, false⟩ }) calm
         ramp.chans[(12 : Chan)].force.fltLatch = true ∧ ramp.chans[(12 : Chan)].force.safe.isSome = true ∧ 1 ≤ ramp.chans[(12 : Chan)].force.fcause
          ∧ ramp.chans[(12 : Chan)].force.fltAt = ramp.tb.now ∧ (forced 12 (fun f => { f with fltAt := 799 }) ramp).chans[(12 : Chan)].force.fltAt ≠ ramp.tb.now)
      ∧ (forced 12 (fun f => { f with fltLatch := false }) calm).chans[(12 : Chan)].force.fltLatch = false := by decide +kernel

def banked (f : BankState → BankState) : State := updBank calm 1 f

theorem test_hyp_BankDiesAndCps :
    let c : CpsCmd := ⟨3, 1, 0, 0, false⟩
    let s := banked fun b => { b with queue := [c] }
    let t := banked fun b => { b with sent := [c] }
    let on := withFw (fun f => { f with porn := true }) (banked fun b => { b with up := false })
    on.fw.porn = true ∧ on.banks[(1 : Bank)].supplies = true ∧ on.banks[(1 : Bank)].up = false ∧ on.banks[(1 : Bank)].linkUp = true
      ∧ c.op ≠ 0 ∧ c.slot ≠ 31 ∧ c.tries < 2 ∧ State.reset.fw.porn = false
      ∧ (banked fun b => { b with up := false, linkUp := false }).banks[(1 : Bank)].linkDown = false ∧ (banked fun b => { b with up := false }).banks[(1 : Bank)].linkUp = true
      ∧ State.reset.banks[(1 : Bank)].supplies = false ∧ s.banks[(1 : Bank)].linkUp = true ∧ s.banks[(1 : Bank)].linkDown = false ∧ s.banks[(1 : Bank)].sent = []
      ∧ s.banks[(1 : Bank)].queue = [c] ∧ s.banks[(1 : Bank)].sincePoll < 3 ∧ t.banks[(1 : Bank)].sent = [c] ∧ answers c 0 = false
      ∧ t.banks[(1 : Bank)].failedPolls < 8 ∧ (banked fun b => { b with linkDown := true }).banks[(1 : Bank)].linkDown = true := by decide +kernel

/-- Lane 1 as an Ethernet host port that is UP, with firmware that answers. -/
def ported (f : LaneState → LaneState) : State := served (updLane State.reset 1 fun l => f { l with en := true, proto := 2, lstate := .up, hostp := true })

theorem test_hyp_LanesAndLinks :
    let raw := updLane State.reset 5 fun l => { l with en := true, proto := 7, prbs := 0x81000000 }
    let pcie := updLane State.reset 0 fun l => { l with en := true, proto := 1, lstate := .down }
    cfgRefused State.reset .mp none 0 0x86000000 = true ∧ cfgRefused State.reset .mp none 5 0x86000000 = false ∧ raw.lanes[(5 : Lane)].proto = 7
      ∧ raw.lanes[(5 : Lane)].prbs.getLsbD 31 = true ∧ raw.lanes[(5 : Lane)].prbs.toNat / 2 ^ 24 % 4 = 1 ∧ State.reset.lanes[(5 : Lane)].en = false
      ∧ (ported id).lanes[(1 : Lane)].pstate = 0 ∧ (ported fun l => { l with hdrlock := true }).lanes[(1 : Lane)].hdrlock = true
      ∧ (ported fun l => { l with lstate := .down }).lanes[(1 : Lane)].lstate = .down ∧ etherUp (ported id) 1 = true ∧ mpStopped (ported id) = false
      ∧ (ported fun l => { l with lps := 2, pstate := 0 }).lanes[(1 : Lane)].lps ≠ 0 ∧ pcie.lanes[(0 : Lane)].proto = 1 ∧ pcie.lanes[(0 : Lane)].pstate = 0 ∧ (0 : Lane).val < (pcieAgreed pcie.fw 3 1).2 ∧ pcieAgreed pcie.fw 1 4 = (1, 4)
      ∧ (withFw fun f => { f with recovery := true }).lanes[(0 : Lane)].lstate ≠ .up ∧ State.reset.fw.recovery = false ∧ (ported id).lanes[(1 : Lane)].proto = 2
      ∧ (ported fun l => { l with proto := 3 }).lanes[(1 : Lane)].proto ≠ 2 := by decide +kernel

theorem test_hyp_LanesAndLinks_checkers :
    let looped := fun prbs : Word => (updLane State.reset 5 fun l => { l with en := true, proto := 7, prbs := prbs, nelb := true, hdrlock := true }).lanes[(5 : Lane)]
    (looped 0xC23F0000).prbs.toNat / 2 ^ 24 % 4 = 2 ∧ max 1 ((looped 0xC23F0000).prbs.toNat / 2 ^ 16 % 256) < 64 ∧ (looped 0xC23F0000).prbs.getLsbD 30 = true
      ∧ (looped 0xC1000000).prbs.toNat / 2 ^ 24 % 4 = 1 ∧ (looped 0x82000000).prbs.getLsbD 30 = false ∧ (looped 0x82000000).prbs.getLsbD 31 = true
      ∧ State.reset.lanes[(5 : Lane)].nelb = false
      ∧ (updLane State.reset 5 fun l => { l with pstate := 2 }).lanes[(5 : Lane)].hostp = false ∧ State.reset.pwr.vigil = false := by decide +kernel

theorem test_hyp_SibiaLinks :
    let training := linked (fun l => { l with lstate := .training, attempt := 2, sentAck := true, hdrlock := true }) State.reset
    let waits := linked (fun l => { l with lstate := .training, attempt := 1 }) State.reset
    let up := linked (fun l => { l with calSeq := some (63, 1), calSent := some 63 }) (timed fun t => { t with measuring := true, exchange := some (5, 1, 2, 3) })
    training.lanes[(4 : Lane)].proto = 6 ∧ training.lanes[(4 : Lane)].lstate = .training ∧ training.lanes[(4 : Lane)].gotAck = false ∧ training.lanes[(4 : Lane)].hdrlock = true ∧ State.reset.fw.recovery = false
      ∧ waits.lanes[(4 : Lane)].hdrlock = false ∧ waits.lanes[(4 : Lane)].attempt = 1 ∧ waits.lanes[(4 : Lane)].sought = false ∧ waits.lanes[(4 : Lane)].pstate = 0
      ∧ training.lanes[(4 : Lane)].attempt = 2 ∧ (1 : BitVec 5) ≠ training.fw.straps.sysid ∧ sibiaLane up 4 = true ∧ skewLane up = 4
      ∧ up.tb.exchange = some ((5 : BitVec 6).toNat, (1 : BitVec 40).toNat, (2 : BitVec 40).toNat, (3 : BitVec 40).toNat)
      ∧ up.lanes[(4 : Lane)].calSent = some (63 : BitVec 6).toNat ∧ up.tb.dropped < 64
      ∧ (linked (fun l => { l with calSeq := some (63, 1) }) State.reset).lanes[(4 : Lane)].calSent = none
      ∧ (linked (fun l => { l with lstate := .down }) State.reset).lanes[(4 : Lane)].pstate = 0 := by decide +kernel

/-- A Sibia lane that is UP, with Tracer channel 127 of the given mode on it. -/
def tracing (rmode : BitVec 2) : State :=
  let s := updLane (linked id (timed id)) 5 fun l => { l with en := true, proto := 6, lstate := .up }
  { s with tr := { s.tr with en := true, grpEn := 0xFFFF, tc := s.tr.tc.set 127 { s.tr.tc[(127 : Fin 128)] with en := true, rmode := rmode, rlane := 0 } } }

/-- What a statement on tokens calls taken: channel 127, by a mask that names it. -/
def takenBy (s : State) (mask : BitVec 16) : List (Fin 128) :=
  (List.finRange 128).filter fun c => decide (112 ≤ c.val) && mask.getLsbD (c.val - 112)
    && decide (2 ≤ s.tr.tc[c].rmode.toNat) && decide (s.tr.tc[c].rlane.toNat + 4 = (4 : Lane).val) && passes s.tr c

theorem test_hyp_SibiaTokens :
    sibiaLane State.reset 4 = false ∧ sibiaLane (tracing 2) 4 = true ∧ sibiaLane (tracing 3) 5 = true
      ∧ takenBy (tracing 2) 0x8000 = [127] ∧ (takenBy (tracing 2) 0x8000).filter (fun c => (tracing 2).tr.tc[c].rmode == 3) = []
      ∧ (takenBy (tracing 3) 0x8000).filter (fun c => (tracing 3).tr.tc[c].rmode == 3) ≠ [] := by decide +kernel

theorem test_hyp_SibiaTokens_blocks :
    let filler : BitVec 64 := 0x1E00000000000000
    let tok : BitVec 64 := 0x4B00000000000000
    let cal : BitVec 64 := 0x3300000000000000
    let train : BitVec 64 := 0x2D00000000000000
    let l : LaneState := { State.reset.lanes[(4 : Lane)] with out := [filler, tok, train], fresh := 2, readyAt := some 7 }
    l.readyAt ≠ some 8 ∧ l.readyAt = some 7 ∧ l.unfilled < 2047 ∧ l.out = [filler] ++ [tok] ++ [train] ∧ l.fresh = 2
      ∧ blockRank tok ≤ blockRank cal ∧ blockRank cal < blockRank train
      ∧ ({ l with unfilled := 2047 } : LaneState).unfilled = 2047 ∧ 5 = fullSlot 3 5 := by decide +kernel

/-- A session of HHT on lane 1. -/
def session (f : Hht → Hht) : State := let s := ported id; { s with hht := f { s.hht with live := true, lane := 1, session := 7, stream := 2 } }

theorem test_hyp_HostTransport :
    let m := (State.reset.path .pcie)
    let s := session id
    let d := updRing s 1 fun r => { r with wr := 400, maxSent := 400, sentTo := 400 }
    let e := updRing s 1 fun r => { r with wr := 400 }
    ahead m.cmdWr m.cmdRd ≤ ahead 32768 m.cmdRd ∧ ahead 32768 m.cmdRd ≤ 32768 ∧ (32768 : Word) ≠ m.cmdWr ∧ 32768 < ahead 32772 m.cmdRd
      ∧ ahead m.rspRd m.rspRd ≤ ahead m.rspWr m.rspRd ∧ m.unposted = [] ∧ ahead m.rspWr m.rspRd < ahead 4 m.rspRd
      ∧ hhtPort (ported id) 1 = true ∧ (ported id).hht.en = true ∧ (ported id).hht.live = false ∧ hhtPort s 1 = true ∧ s.hht.live = true ∧ s.hht.host ≠ ⟨1, 1⟩ ∧ s.hht.host = host ∧ s.hht.lane = 1 ∧ s.hht.session = 7
      ∧ s.hht.stream.getLsbD 1 = true ∧ d.rings[(1 : Ring)].rd < 400 ∧ 400 ≤ d.rings[(1 : Ring)].maxSent ∧ e.rings[(1 : Ring)].rd ≤ e.rings[(1 : Ring)].maxSent ∧ e.hht.owed = []
      ∧ d.rings[(1 : Ring)].rd < d.rings[(1 : Ring)].maxSent := by decide +kernel

theorem test_hyp_HostTransport_rest :
    let s := session fun h => { h with evtEn := true }
    let r := updPath s .hht fun m => { m with rspWr := 16 }
    (r.path .hht).rspRd ≠ (r.path .hht).rspWr ∧ s.hht.evtEn = true ∧ etherUp s 1 = true ∧ s.fw.ready = true ∧ mpStopped s = false
      ∧ (s.path .hht).cmdWr.toNat = 0 ∧ [0, 0, 0, (0 : Byte)].length ≤ 32768 - ahead (s.path .hht).cmdWr (s.path .hht).cmdRd
      ∧ etherUp State.reset 1 = false := by decide +kernel

/-- A message of an unknown opcode, 24 bytes, in the ring of the PCIe path, which the firmware serves. -/
def unknown : State :=
  let m := ringStore [] 32768 0 (leBytes 4 0x4B ++ leBytes 4 24 ++ leBytes 16 0)
  let s := served State.reset
  updPath s .pcie fun k => { k with cmdRing := m, cmdWr := 24, offers := [(24, 0)] }

theorem test_hyp_HostTransport_unknown :
    takesFrom unknown .pcie = true ∧ unknownNext unknown .pcie = true ∧ unknownNext (answerUnknown unknown .pcie) .pcie = false
      ∧ headField (unknown.path .pcie) 0x10 8 = 0 ∧ (unknown.path .pcie).unposted = [] ∧ 16 ≤ rspRoom (unknown.path .pcie)
      ∧ unknownNext State.reset .pcie = false := by decide +kernel

theorem test_hyp_HostTransport_time :
    let l : LaneState := { State.reset.lanes[(1 : Lane)] with ptpLog := [⟨.sync, false, 800, 0, 1000⟩, ⟨.delayReq, true, 1600, 0, 1500⟩] }
    ptpPeer State.reset.fw = false ∧ ptpDomain State.reset.fw = 0 ∧ lastStamp l.ptpLog 0 .sync false = some ⟨.sync, false, 800, 0, 1000⟩
      ∧ lastStamp l.ptpLog 0 .delayReq true = some ⟨.delayReq, true, 1600, 0, 1500⟩ ∧ (1000 : Int) * 16 = 16 * 1000 + (8 * (1500 - 1000) - 5 * (1600 - 800))
      ∧ ptpMapping (updLane (served State.reset) 1 fun _ => l) = some (800, 0, 1000) ∧ ptpMapping State.reset = none := by decide +kernel

/-- An update session of the PCIe path. -/
def updating (u : Update → Update) : State :=
  served (withFw fun f => { f with update := some (u ⟨.pcie, ⟨0, 0⟩, .board, true, 0, 0, [(0, 32)], false, 0, 1⟩), dir := { f.dir with stateB := .valid, stateA := .confirmed } })

theorem test_hyp_FirmwareUpdates :
    let s := served State.reset
    let u := updating id
    let image := updating fun u => { u with kind := .image, finished := true }
    Accepted s (withArgs 36) 36 ∧ s.fw.update = none ∧ s.pf.owner = none ∧ Accepted u (withArgs 36) (8 + [0, 0, 0, 0].length)
      ∧ Accepted u (withArgs 0) 0 ∧ flashField u.fw.boardFlash 8 4 + 32 ≤ 32 ∧ covers ⟨.pcie, ⟨0, 0⟩, .board, true, 0, 0, [(0, 32)], false, 0, 1⟩ 0 32 = true
      ∧ covers ⟨.pcie, ⟨0, 0⟩, .board, true, 0, 0, [], false, 0, 1⟩ 0 32 = false
      ∧ imageHfmtMin (image.fw.slot true) ≤ imageHfmt (image.fw.slot image.fw.runB) ∧ image.fw.dir.state true = .valid ∧ image.fw.dir.state image.fw.runB ≠ .trial
      ∧ image.fw.svnCnt ≤ imageSvn (image.fw.slot true) ∧ (mapped image).mm.maGib ≠ 0 := by decide +kernel

theorem test_hyp_FirmwareUpdates_rest :
    let library := updating fun u => { u with kind := .library, finished := true, libLen := 0x400000 }
    let other := updating fun u => { u with path := .spi }
    let first : Saved := ⟨7, 1, []⟩
    library.fw.update.isSome = true ∧ other.fw.update.map (·.path) = some .spi ∧ Accepted library (withArgs 0) 0
      ∧ newestHalf { State.reset.fw with halves := #v[some first, none] } = some (0, first) ∧ newestHalf { State.reset.fw with halves := #v[none, none] } = none
      ∧ (served State.reset).fw.running = true := by decide +kernel

theorem test_hyp_FirmwareUpdates_trial :
    let trial := served (withFw fun f => { f with trialStart := some 0, dir := { f.dir with stateA := .trial } })
    let pause := served (withFw fun f => { f with porn := true, handover := .pause true })
    pause.fw.handover = .pause true ∧ pause.fw.porn = true ∧ trial.fw.dir.state false = .trial ∧ Accepted trial (withArgs 0) 0 ∧ trial.fw.autoconf = true
      ∧ trial.fw.restarting = false ∧ trial.fw.trialStart.isSome = true ∧ trial.fw.dir.state trial.fw.runB = .trial
      ∧ (withFw fun f => { f with handover := .preload true }).fw.handover = .preload true := by decide +kernel

theorem test_hyp_RegisterAccess_recovery : (withFw fun f => { f with recovery := true }).fw.recovery = true ∧ ¬(0x90000 ≤ 0x8FFFC ∧ 0x8FFFC < 0xA0000) := by decide

theorem test_hyp_InstructionWordsRoundTrip :
    instrParts (.add 3 (fields 1 2 0 0x3000 7)) = some (0x0F, 3, fields 1 2 0 0x3000 7) ∧ (Instr.add 3 (fields 1 2 0 0x3000 7)).wf = true := by decide +kernel

theorem test_hyp_IntegerFrame :
    instrParts (.mov 12 (fields 1 2 0 0)) = some (0x0C, 12, fields 1 2 0 0) ∧ Runs (on 0x0C (fields 1 2 0 0)) 12 2 0x0C (fields 1 2 0 0) := by decide +kernel

theorem test_hyp_StepsKeepMemoryForm : State.reset.memoryForm = true ∧ step State.reset = .next State.reset := ⟨by decide +kernel, rfl⟩

theorem test_hyp_SlewStepRoundsDown : slewOf 1 = (0, 1) ∧ slewOf 524288 = (10, 512) := by decide +kernel

/-! ### Values worked out in the manual or by hand -/

/-- Table 5.12: LDI g1, 400. -/
theorem test_ldi_400 : gr ((after (.ldi 12 (fields 1 0 0 400)) (on 0x0D (fields 1 0 0 400))).context 12 2) 1 = 400 := by decide +kernel

/-- R171: the immediate is sign-extended. -/
theorem test_ldi_sign : gr ((after (.ldi 12 (fields 1 0 0 0x3FFF)) (on 0x0D (fields 1 0 0 0x3FFF))).context 12 2) 1 = 0xFFFFFFFF := by decide +kernel

/-- R172: 0x7FFF_FFFF + 1 overflows without a carry. -/
theorem test_add_overflow :
    let k := fields 1 2 0 0x1001
    let c := (after (.add 12 k) (on 0x0F k (setGr · 2 0x7FFFFFFF))).context 12 2
    gr c 1 = 0x80000000 ∧ c.v = true ∧ c.n = true ∧ c.c = false ∧ c.z = false := by decide +kernel

/-- R172: C of a difference is 1 when there is no borrow. -/
theorem test_sub_borrow :
    let k := fields 1 2 0 0x1001
    let c := (after (.sub 12 k) (on 0x10 k)).context 12 2
    gr c 1 = 0xFFFFFFFF ∧ c.c = false ∧ c.n = true ∧ c.v = false := by decide +kernel

/-- R177. -/
theorem test_abs_minimum :
    let k := fields 1 2 0 0
    let c := (after (.abs 12 k) (on 0x19 k (setGr · 2 0x80000000))).context 12 2
    gr c 1 = 0x7FFFFFFF ∧ c.v = true ∧ c.n = false := by decide +kernel

/-- R175: C takes the last bit shifted out. -/
theorem test_shr_carry :
    let k := fields 1 2 0 0x1401
    let c := (after (.shr 12 k) (on 0x16 k (setGr · 2 3))).context 12 2
    gr c 1 = 1 ∧ c.c = true := by decide +kernel

/-- A command that no bits spell decodes to none (assumption 1). -/
theorem test_decodeTableWord : decodeTableWord 0 0 = none ∧ State.reset.withFetchWord 0 0 = State.reset := ⟨rfl, rfl⟩
end Sys2Proof.Tests
end

section
/-!
PROOFS. The rules of the integer class: how an instruction that the Graver carries out ends when its body changes the executing
context only, when its second operand of Table 5.4 is legal, and when it faults; which opcodes carry an extension word.
-/
namespace Sys2Proof.Machine

variable {s : State} {n : Chan} {x : Ctx} {op : BitVec 6} {k : Fields} {ext : Bool} {f : Context → Context}

/-- An instruction whose body changes the executing context only. -/
theorem issue_updCtx {body : Ctx → State → Done} (h : Runs s n x op k) (hx : hasExt op k = ext)
    (hb : body x (decided s n x) = .next (updCtx (decided s n x) n x f)) : issue op n k s body = ran s n x ext f := by
  rw [issue_runs body h, hb, hx, complete_next, ranTo_updCtx]

/-- An instruction whose body faults. -/
theorem issue_fault {body : Ctx → State → Done} {c : Cause} (h : Runs s n x op k) (hb : body x (decided s n x) = .fault c) :
    issue op n k s body = suspend (decided s n x) n x c := by
  rw [issue_runs body h, hb, complete_fault]

/-- An instruction with a legal second operand makes of the chosen context its result and its flags. -/
theorem integerOp_runs {b : Word} {result : Context → Word → Word} {flags : Context → Word → Context → Context} (h : Runs s n x op k)
    (hx : hasExt op k = ext) (hb : op2 (s.context n x) k = some b)
    (hf : let c := (decided s n x).context n x; setGr (flags c b c) k.a (result c b) = f c) :
    integerOp op n k s result flags = ran s n x ext f := by
  refine (issue_updCtx h hx ?_).trans (ran_congr s n x ext (fun c => setGr (flags c b c) k.a (result c b)) f hf)
  simp only [decided_op2, hb]
  rfl

/-- Table 5.2: bit 13 calls for the extension word. -/
theorem hasExt_eq_immBit (h : extAlways op = false) (h' : extOnX op = true) : hasExt op k = immBit k 13 := by
  simp [hasExt, h, h']

/-- Table 5.2: an opcode without an extension word. -/
theorem hasExt_eq_false (h : extAlways op = false) (h' : extOnX op = false) : hasExt op k = false := by
  simp [hasExt, h, h']

/-- A failed check of the fields is ILLEGAL (R133). -/
theorem checked_false (b : Bool) (d : Done) (h : b = false) : checked b d = .fault .illegal := by simp [checked, h]

end Sys2Proof.Machine
end

section
/-!
PROOFS. O4 and O7: register loads and bitwise logic (R171, R174).
-/
namespace Sys2Proof.Machine

/-- Settles O4: the fields pass their check, and the body writes its register in the chosen context and nothing else. -/
theorem registerLoads : Obligations.RegisterLoads := by
  intro s n x k
  refine ⟨fun h hc hi => congrArg _ (issue_updCtx h (hasExt_eq_false rfl rfl) ?mov),
    fun h hb hc => congrArg _ (issue_updCtx h (hasExt_eq_false rfl rfl) ?ldi),
    fun h hb hc hi => congrArg _ (issue_updCtx h rfl ?ldx)⟩
  case mov => exact checked_true _ _ (by simp [zeroFields, hc, hi])
  case ldi => exact checked_true _ _ (by simp [zeroFields, hb, hc])
  case ldx => exact checked_true _ _ (by simp [zeroFields, hb, hc, hi])

/-- A bitwise operation of the register and the second operand, with Z and N of its result. -/
theorem bitwiseOp_runs {s : State} {n : Chan} {x : Ctx} {op : BitVec 6} {k : Fields} {b : Word} (bitwise : Word → Word → Word)
    (h : Runs s n x op k) (hx : hasExt op k = immBit k 13) (hb : op2 (s.context n x) k = some b) :
    integerOp op n k s (fun c b => bitwise (gr c k.b) b) (fun c b d => setZN d (bitwise (gr c k.b) b)) =
      ran s n x (immBit k 13) fun c =>
        setGr (setZN c (bitwise (gr (s.context n x) k.b) b)) k.a (bitwise (gr (s.context n x) k.b) b) :=
  integerOp_runs h hx hb (by simp only [decided_gr])

/-- Settles O7: setZN touches neither C nor V. -/
theorem bitwiseLogic : Obligations.BitwiseLogic := by
  intro s n x k b hb
  exact ⟨fun h => congrArg _ (bitwiseOp_runs (· &&& ·) h (hasExt_eq_immBit rfl rfl) hb),
    fun h => congrArg _ (bitwiseOp_runs (· ||| ·) h (hasExt_eq_immBit rfl rfl) hb),
    fun h => congrArg _ (bitwiseOp_runs (· ^^^ ·) h (hasExt_eq_immBit rfl rfl) hb)⟩

end Sys2Proof.Machine
end

section
/-!
PROOFS. O5: ADD, SUB and CMP (R172), and the comparisons of Table 4.3 that the flags of a difference decide.
-/
namespace Sys2Proof.Machine

/-- Z of a difference: the operands are equal as signed values. -/
theorem flagsSub_z (c : Context) (a b : Word) : (flagsSub c a b).z = decide (a.toInt = b.toInt) := by
  have h : a - b = 0 ↔ a = b := by bv_omega
  rw [Bool.eq_iff_iff, decide_eq_true_eq, BitVec.toInt_inj]
  exact beq_iff_eq.trans h

/-- N and V of a difference agree where the exact signed difference is not negative. -/
theorem flagsSub_n_eq_v (c : Context) (a b : Word) :
    ((flagsSub c a b).n == (flagsSub c a b).v) = decide (b.toInt ≤ a.toInt) := by
  have ha := BitVec.toInt_lt (x := a)
  have ha' := BitVec.le_toInt a
  have hb := BitVec.toInt_lt (x := b)
  have hb' := BitVec.le_toInt b
  have hd : (a - b).toInt = a.toInt - b.toInt ∨ (a - b).toInt = a.toInt - b.toInt + 4294967296
      ∨ (a - b).toInt = a.toInt - b.toInt - 4294967296 := by
    rw [BitVec.toInt_sub, Int.bmod_def]
    omega
  have hr := BitVec.toInt_lt (x := a - b)
  have hr' := BitVec.le_toInt (a - b)
  rw [Bool.eq_iff_iff]
  simp only [flagsSub, setZN, BitVec.msb_eq_toInt, beq_iff_eq, decide_eq_true_eq]
  rw [Bool.eq_iff_iff]
  simp only [decide_eq_true_eq, bne_iff_ne]
  omega

/-- GE, LT, GT and LE after a difference are the signed comparisons of its operands (Table 4.3). -/
theorem condition_flagsSub_signed (s : State) (n : Chan) (c : Context) (a b : Word) (r : BitVec 4) :
    condition s n (flagsSub c a b) 0xA r = some (decide (b.toInt ≤ a.toInt))
      ∧ condition s n (flagsSub c a b) 0xB r = some (decide (a.toInt < b.toInt))
      ∧ condition s n (flagsSub c a b) 0xC r = some (decide (b.toInt < a.toInt))
      ∧ condition s n (flagsSub c a b) 0xD r = some (decide (a.toInt ≤ b.toInt)) := by
  have hz := flagsSub_z c a b
  have hnv := flagsSub_n_eq_v c a b
  refine ⟨congrArg some hnv, congrArg some ?lt, congrArg some ?gt, congrArg some ?le⟩
  case lt => simpa only [bne, hnv, ← Int.not_le] using decide_not.symm
  case gt =>
    rw [hz, hnv, ← decide_not, ← Bool.decide_and, decide_eq_decide]
    omega
  case le =>
    rw [bne, hz, hnv, ← decide_not, ← Bool.decide_or, decide_eq_decide]
    omega

/-- HS and LO after a difference are the unsigned comparisons of its operands (Table 4.3). -/
theorem condition_flagsSub_unsigned (s : State) (n : Chan) (c : Context) (a b : Word) (r : BitVec 4) :
    condition s n (flagsSub c a b) 0x2 r = some (decide (b.toNat ≤ a.toNat))
      ∧ condition s n (flagsSub c a b) 0x3 r = some (decide (a.toNat < b.toNat)) := by
  refine ⟨rfl, congrArg some ?_⟩
  simpa only [flagsSub, ← Nat.not_le] using decide_not.symm

/-- Settles O5: CMP is checked before it sets the flags of SUB, and these flags decide the comparisons. -/
theorem addSubCompare : Obligations.AddSubCompare := by
  refine ⟨fun s n x k b hb => ⟨fun h => ?add, fun h => ?sub, fun h ha => ?cmp, fun h ha => ?illegal⟩, fun s n c a b r => ?conditions⟩
  case add => exact congrArg _ (integerOp_runs h (hasExt_eq_immBit rfl rfl) hb rfl)
  case sub => exact congrArg _ (integerOp_runs h (hasExt_eq_immBit rfl rfl) hb rfl)
  case cmp =>
    refine congrArg _ (issue_updCtx h (hasExt_eq_immBit rfl rfl) ?_)
    simp only [decided_op2, hb]
    exact checked_true _ _ (beq_iff_eq.mpr ha)
  case illegal =>
    refine congrArg _ (issue_fault h ?_)
    simp only [decided_op2, hb]
    exact checked_false _ _ (beq_eq_false_iff_ne.mpr ha)
  case conditions =>
    obtain ⟨hs, lo⟩ := condition_flagsSub_unsigned s n c a b r
    obtain ⟨ge, lt, gt, le⟩ := condition_flagsSub_signed s n c a b r
    exact ⟨hs, lo, ge, lt, gt, le⟩

end Sys2Proof.Machine
end

section
/-!
PROOFS. O6: MUL and MAC (R173).
-/
namespace Sys2Proof.Machine

/-- The bounds of 32 signed bits as numerals. -/
theorem fits32_eq (v : Int) : fits32 v = decide (-2147483648 ≤ v ∧ v ≤ 2147483647) := by
  rw [fits32, ← Bool.decide_and, decide_eq_decide]
  omega

/-- Settles O6: the flags keep C, and the decision leaves all three operands as they were. -/
theorem multiplyAccumulate : Obligations.MultiplyAccumulate := by
  intro s n x k b hb a acc inside
  refine ⟨fun h => congrArg _ (integerOp_runs h (hasExt_eq_immBit rfl rfl) hb ?mul),
    fun h => congrArg _ (integerOp_runs h (hasExt_eq_immBit rfl rfl) hb ?mac)⟩
  case mul =>
    simp only [decided_gr, flagsMul, fits32_eq]
    rfl
  case mac =>
    simp only [decided_gr, flagsMac, fits32_eq]
    rfl

end Sys2Proof.Machine
end

section
/-!
PROOFS. O8: the shifts (R175), their amount and their results as products and quotients by a power of two.
-/
namespace Sys2Proof.Machine

/-- The decision leaves the amount of a shift as it was. -/
@[simp] theorem decided_shiftAmount (s : State) (n : Chan) (x : Ctx) (k : Fields) :
    shiftAmount ((decided s n x).context n x) k = shiftAmount (s.context n x) k := by
  simp only [shiftAmount, decided_gr]

/-- The amount where the reserved fields are 0: the immediate with bit 12, else the register. -/
theorem shiftAmount_eq {c : Context} {k : Fields} {a : Nat} (hx : immBit k 13 = false) (hz : immField k 9 5 = 0)
    (himm : immBit k 12 = true → k.c = 0 ∧ a = immField k 4 0)
    (hreg : immBit k 12 = false → immField k 4 0 = 0 ∧ a = (gr c k.c).toNat % 32) : shiftAmount c k = some a := by
  cases hi : immBit k 12 with
  | true =>
    obtain ⟨hc, rfl⟩ := himm hi
    simp [shiftAmount, immZero, hx, hz, hi, hc]
  | false =>
    obtain ⟨h0, rfl⟩ := hreg hi
    simp [shiftAmount, immZero, hx, hz, hi, h0]

/-- A shift of its TYPE by a legal amount. -/
theorem shiftOp_runs {s : State} {n : Chan} {x : Ctx} {k : Fields} {type a : Nat} {r : Word} {result : Word → Nat → Word}
    {last : Word → Nat → Bool} (h : Runs s n x 0x16 k) (ht : immField k 11 10 = type) (ha : shiftAmount (s.context n x) k = some a)
    (hr : result (gr (s.context n x) k.b) a = r) :
    shiftOp type n k s result last =
      ran s n x false fun c => setGr (flagsShift c r a (last (gr (s.context n x) k.b) a)) k.a r := by
  rw [shiftOp, if_neg (by simp [ht])]
  refine issue_updCtx h (hasExt_eq_false rfl rfl) ?_
  simp only [decided_shiftAmount, ha, decided_gr, hr]
  rfl

theorem shiftLeft_eq_ofNat (v : Word) (a : Nat) : v <<< a = BitVec.ofNat 32 (v.toNat * 2 ^ a) := by
  apply BitVec.eq_of_toNat_eq
  rw [BitVec.toNat_shiftLeft, BitVec.toNat_ofNat, Nat.shiftLeft_eq]

theorem ushiftRight_eq_ofNat (v : Word) (a : Nat) : v >>> a = BitVec.ofNat 32 (v.toNat / 2 ^ a) := by
  rw [← Nat.shiftRight_eq_div_pow, ← BitVec.toNat_ushiftRight, BitVec.ofNat_toNat, BitVec.setWidth_eq]

theorem sshiftRight_eq_ofInt (v : Word) (a : Nat) : v.sshiftRight a = BitVec.ofInt 32 (v.toInt / 2 ^ a) := by
  rw [BitVec.sshiftRight, Int.shiftRight_eq_div_pow, Int.natCast_pow]
  rfl

/-- Settles O8: the amount is legal, and the model's shifts are the products and quotients of the statement. -/
theorem shifts : Obligations.Shifts := by
  intro s n x k a h hx hz himm hreg v done
  have ha := shiftAmount_eq hx hz himm hreg
  exact ⟨fun ht => congrArg _ (shiftOp_runs h ht ha (shiftLeft_eq_ofNat v a)),
    fun ht => congrArg _ (shiftOp_runs h ht ha (ushiftRight_eq_ofNat v a)),
    fun ht => congrArg _ (shiftOp_runs h ht ha (sshiftRight_eq_ofInt v a))⟩

end Sys2Proof.Machine
end

section
/-!
PROOFS. O9: SAT and ABS (R176, R177).
-/
namespace Sys2Proof.Machine

/-- The check of SAT's fields: its width is 1 to 32. -/
theorem satFields_ok {k : Fields} (hc : k.c = 0) :
    (zeroFields k true true false true && immZero k 13 6 && decide (1 ≤ immField k 5 0) && decide (immField k 5 0 ≤ 32))
      = decide (1 ≤ k.imm.toNat ∧ k.imm.toNat ≤ 32) := by
  have hi := k.imm.isLt
  rw [Bool.eq_iff_iff]
  simp only [zeroFields, immZero, immField, hc, BEq.rfl, Bool.true_or, Bool.or_true, Bool.true_and, Nat.reduceSub, Nat.reduceAdd,
    Nat.reducePow, Nat.pow_zero, Nat.div_one, Bool.and_eq_true, beq_iff_eq, decide_eq_true_eq]
  omega

/-- Bits 5:0 of a width that passes the check are the whole immediate. -/
theorem immField_width {k : Fields} (hw : k.imm.toNat ≤ 32) : immField k 5 0 = k.imm.toNat := by
  simp only [immField]
  omega

theorem clampInt_eq_max_min {lo hi : Int} (h : lo ≤ hi) (v : Int) : clampInt lo hi v = max lo (min hi v) := by
  unfold clampInt
  split
  · omega
  · split <;> omega

/-- The word of an integer within 32 signed bits. -/
theorem toInt_wordI {v : Int} (h : -2147483648 ≤ v) (h' : v ≤ 2147483647) : (wordI v).toInt = v := by
  rw [wordI, BitVec.toInt_ofInt, Int.bmod_def]
  omega

/-- The word that SAT limits to w bits. -/
def satWord (w : Nat) (v : Word) : Word := BitVec.ofInt 32 (max (-(2 ^ (w - 1))) (min (2 ^ (w - 1) - 1) v.toInt))

theorem wordI_clampInt (w : Nat) (v : Word) :
    wordI (clampInt (-(2 ^ (w - 1) : Nat)) ((2 ^ (w - 1) : Nat) - 1) v.toInt) = satWord w v := by
  have h := Nat.one_le_two_pow (n := w - 1)
  rw [clampInt_eq_max_min (by omega), satWord, wordI, Int.natCast_pow]
  rfl

/-- SAT limits exactly the values outside the signed range of w bits. -/
theorem satWord_bne {w : Nat} (hw : w ≤ 32) (v : Word) :
    (satWord w v != v) = decide (v.toInt < -(2 ^ (w - 1)) ∨ 2 ^ (w - 1) ≤ v.toInt) := by
  have hpow : ((2 ^ (w - 1) : Nat) : Int) = 2 ^ (w - 1) := Int.natCast_pow 2 (w - 1)
  have hlo := Nat.one_le_two_pow (n := w - 1)
  have hhi : 2 ^ (w - 1) ≤ 2 ^ 31 := Nat.pow_le_pow_right (by decide) (by omega)
  have hs : (satWord w v).toInt = max (-(2 ^ (w - 1))) (min (2 ^ (w - 1) - 1) v.toInt) := toInt_wordI (by omega) (by omega)
  rw [Bool.eq_iff_iff, bne_iff_ne, ne_eq, ← BitVec.toInt_inj, hs, decide_eq_true_eq]
  omega

/-- The magnitude that ABS gives, which the minimum value does not have. -/
def absWord (v : Word) : Word := BitVec.ofNat 32 (min v.toInt.natAbs 2147483647)

theorem beq_minimum (v : Word) : (v == 0x80000000) = decide (v.toInt = -2147483648) := by
  rw [Bool.eq_iff_iff, beq_iff_eq, decide_eq_true_eq, ← BitVec.toInt_inj]
  rfl

theorem abs_cases (v : Word) : (if v == 0x80000000 then 0x7FFFFFFF else if v.msb then -v else v) = absWord v := by
  have hv := v.isLt
  by_cases hm : v = 0x80000000
  · subst hm
    rfl
  have hne : v.toNat ≠ 2147483648 := fun h => hm (BitVec.eq_of_toNat_eq h)
  rw [if_neg (by simpa using hm), absWord]
  apply BitVec.eq_of_toNat_eq
  cases hs : v.msb with
  | false =>
    have hlt := BitVec.msb_eq_false_iff_two_mul_lt.mp hs
    rw [BitVec.toInt_eq_toNat_of_msb hs, if_neg Bool.false_ne_true, BitVec.toNat_ofNat]
    omega
  | true =>
    have hge := BitVec.msb_eq_true_iff_two_mul_ge.mp hs
    rw [BitVec.toInt_eq_msb_cond, hs, if_pos rfl, if_pos rfl, BitVec.toNat_ofNat, BitVec.toNat_neg]
    omega

theorem absWord_msb (v : Word) : (absWord v).msb = false := by
  rw [BitVec.msb_eq_false_iff_two_mul_lt, absWord, BitVec.toNat_ofNat]
  omega

/-- Settles O9: the check of SAT's fields is that of its width; a limited value and a magnitude are words of their own, with their flags. -/
theorem satAndAbs : Obligations.SatAndAbs := by
  intro s n x k hc v
  refine ⟨fun h h1 h32 => ?sat, fun h hi => ?abs, fun h hw => ?illegal⟩
  case sat =>
    have ok := (satFields_ok hc).trans (decide_eq_true ⟨h1, h32⟩)
    refine congrArg _ (issue_updCtx h (hasExt_eq_false rfl rfl) ?_)
    rw [checked_true _ _ ok, immField_width h32, decided_gr, wordI_clampInt, satWord_bne h32]
    rfl
  case abs =>
    refine congrArg _ (issue_updCtx h (hasExt_eq_false rfl rfl) ?_)
    rw [checked_true _ _ (by simp [zeroFields, hc, hi]), decided_gr, abs_cases, beq_minimum]
    simp only [setZN, absWord_msb]
    rfl
  case illegal =>
    have hbad : ¬(1 ≤ k.imm.toNat ∧ k.imm.toNat ≤ 32) := by
      obtain h0 | h33 := hw
      · simp [h0]
      · omega
    exact congrArg _ (issue_fault h (checked_false _ _ ((satFields_ok hc).trans (decide_eq_false hbad))))

end Sys2Proof.Machine
end

section
/-!
PROOFS. O57: a base word is put together from its fields and taken apart again (Table 4.2), a decoded word has the opcode, the fields and
the form that it spells, and a well-formed instruction is what its words spell (Table 5.1).
-/
namespace Sys2Proof

/-- Table 4.2: the value of a base word by its fields. -/
theorem baseWord_toNat (op : BitVec 6) (k : Fields) :
    (baseWord op k).toNat = op.toNat * 2 ^ 26 + k.a.toNat * 2 ^ 22 + k.b.toNat * 2 ^ 18 + k.c.toNat * 2 ^ 14 + k.imm.toNat := by
  rw [baseWord, BitVec.toNat_append, BitVec.toNat_append, BitVec.toNat_append, BitVec.toNat_append,
    ← Nat.shiftLeft_add_eq_or_of_lt k.imm.isLt, ← Nat.shiftLeft_add_eq_or_of_lt k.c.isLt,
    ← Nat.shiftLeft_add_eq_or_of_lt k.b.isLt, ← Nat.shiftLeft_add_eq_or_of_lt k.a.isLt]
  simp only [Nat.shiftLeft_eq]
  omega

theorem wordOp_baseWord (op : BitVec 6) (k : Fields) : wordOp (baseWord op k) = op := by
  have hop := op.isLt; have ha := k.a.isLt; have hb := k.b.isLt; have hc := k.c.isLt; have hi := k.imm.isLt
  apply BitVec.eq_of_toNat_eq
  simp only [wordOp, BitVec.extractLsb'_toNat, Nat.shiftRight_eq_div_pow, baseWord_toNat]
  omega

theorem wordFields_baseWord (op : BitVec 6) (k : Fields) (e : Word) : wordFields (baseWord op k) e = { k with ext := e } := by
  have hop := op.isLt; have ha := k.a.isLt; have hb := k.b.isLt; have hc := k.c.isLt; have hi := k.imm.isLt
  simp only [wordFields, Fields.mk.injEq, and_true]
  refine ⟨?_, ?_, ?_, ?_⟩ <;> apply BitVec.eq_of_toNat_eq <;>
    simp only [BitVec.extractLsb'_toNat, Nat.shiftRight_eq_div_pow, baseWord_toNat] <;> omega

theorem baseWord_wordFields (w e : Word) : baseWord (wordOp w) (wordFields w e) = w := by
  have hw := w.isLt
  apply BitVec.eq_of_toNat_eq
  simp only [baseWord_toNat, wordOp, wordFields, BitVec.extractLsb'_toNat, Nat.shiftRight_eq_div_pow]
  omega

/-- A pair of words spells a command of its opcode and its fields, in the form that its selector names. -/
theorem decodeWord_spells (n : Chan) (w e : Word) (r : EccResult) :
    instrParts (decodeWord n w e r) = some (wordOp w, n, wordFields w (if hasExt (wordOp w) (wordFields w 0) then e else 0))
      ∧ formOk (decodeWord n w e r) = true := by
  unfold decodeWord
  generalize wordFields w (if hasExt (wordOp w) (wordFields w 0) then e else 0) = k
  generalize wordOp w = op
  obtain ⟨⟨v, hv⟩⟩ := op
  have shift_lt : immField k 11 10 < 4 := Nat.mod_lt _ (by decide)
  have meas_lt : immField k 13 12 < 4 := Nat.mod_lt _ (by decide)
  -- The eight opcodes whose fields select a form stand apart from the ranges between them.
  rcases (by omega : v ≤ 21 ∨ v = 22 ∨ (23 ≤ v ∧ v ≤ 34) ∨ v = 35 ∨ (36 ≤ v ∧ v ≤ 39) ∨ v = 40 ∨ v = 41 ∨ (42 ≤ v ∧ v ≤ 44) ∨ v = 45 ∨ (46 ≤ v ∧ v ≤ 49)
      ∨ v = 50 ∨ (51 ≤ v ∧ v ≤ 56) ∨ v = 57 ∨ (58 ≤ v ∧ v ≤ 61) ∨ v = 62 ∨ v = 63) with
    h | rfl | ⟨hlo, hhi⟩ | rfl | ⟨hlo, hhi⟩ | rfl | rfl | ⟨hlo, hhi⟩ | rfl | ⟨hlo, hhi⟩ | rfl | ⟨hlo, hhi⟩ | rfl | ⟨hlo, hhi⟩ | rfl | rfl
  · iterate 22 (rcases v with _ | v; exact ⟨rfl, rfl⟩)
    omega
  · obtain h | h | h | h : immField k 11 10 = 0 ∨ immField k 11 10 = 1 ∨ immField k 11 10 = 2 ∨ immField k 11 10 = 3 := by omega
    all_goals simp [h, instrParts, formOk, reservedForm]
  · obtain ⟨v, rfl⟩ := Nat.exists_eq_add_of_le hlo
    iterate 12 (rcases v with _ | v; exact ⟨rfl, rfl⟩)
    omega
  · cases h : immBit k 12 <;> simp [h, instrParts, formOk]
  · obtain ⟨v, rfl⟩ := Nat.exists_eq_add_of_le hlo
    iterate 4 (rcases v with _ | v; exact ⟨rfl, rfl⟩)
    omega
  · cases h : immBit k 0 <;> simp [h, instrParts, formOk]
  · obtain h | h | h | h : immField k 13 12 = 0 ∨ immField k 13 12 = 1 ∨ immField k 13 12 = 2 ∨ immField k 13 12 = 3 := by omega
    all_goals simp [h, instrParts, formOk, reservedForm]
  · obtain ⟨v, rfl⟩ := Nat.exists_eq_add_of_le hlo
    iterate 3 (rcases v with _ | v; exact ⟨rfl, rfl⟩)
    omega
  · cases h : immBit k 12 <;> simp [h, instrParts, formOk]
  · obtain ⟨v, rfl⟩ := Nat.exists_eq_add_of_le hlo
    iterate 4 (rcases v with _ | v; exact ⟨rfl, rfl⟩)
    omega
  · cases h : immBit k 13 <;> simp [h, instrParts, formOk]
  · obtain ⟨v, rfl⟩ := Nat.exists_eq_add_of_le hlo
    iterate 6 (rcases v with _ | v; exact ⟨rfl, rfl⟩)
    omega
  · cases h : immBit k 13 <;> simp [h, instrParts, formOk]
  · obtain ⟨v, rfl⟩ := Nat.exists_eq_add_of_le hlo
    iterate 4 (rcases v with _ | v; exact ⟨rfl, rfl⟩)
    omega
  · cases h : immBit k 13 <;> simp [h, instrParts, formOk]
  · exact ⟨rfl, rfl⟩

/-- The fields that a base word and the extension word of an instruction spell. -/
theorem wordFields_encoded {op : BitVec 6} {k : Fields} (hx : hasExt op k || k.ext == 0) :
    wordFields (baseWord op k) (if hasExt (wordOp (baseWord op k)) (wordFields (baseWord op k) 0) then
      (if hasExt op k then k.ext else 0) else 0) = k := by
  have same : hasExt op { k with ext := 0 } = hasExt op k := rfl
  rw [wordFields_baseWord, wordFields_baseWord, wordOp_baseWord, same]
  cases h : hasExt op k with
  | true => rfl
  | false =>
    have h0 : k.ext = 0 := by simpa [h] using hx
    simp [← h0]

/-- The six unassigned opcodes of Table 5.1. -/
theorem unassigned_cases : ∀ op : BitVec 6, unassigned op = true →
    op = 0x0B ∨ op = 0x1C ∨ op = 0x1D ∨ op = 0x1E ∨ op = 0x1F ∨ op = 0x3F := by decide

/-- The words of an instruction with its own form selector spell it again. -/
theorem decodeWord_encoded {i : Instr} {op : BitVec 6} {n : Chan} {k : Fields} (hp : instrParts i = some (op, n, k))
    (hf : formOk i = true) (hx : hasExt op k || k.ext == 0) :
    decodeWord n (baseWord op k) (if hasExt op k then k.ext else 0) (instrRead i) = i := by
  unfold decodeWord
  rw [wordFields_encoded hx, wordOp_baseWord]
  clear hx
  cases i <;> cases hp
  case shl | shr | asr | strobeSelect | strobeFire | connect | isolate | measSmode | pktClose | pktAge | gen | gstop
      | blankLength | blank | rds | rdt => simp_all [formOk]
  case measCount =>
    obtain h | h : immField k 13 12 = 1 ∨ immField k 13 12 = 2 := by simpa [formOk] using hf
    all_goals simp [h]
  case illegalOpcode =>
    obtain hu | hr : unassigned op ∨ reservedForm op k := by simpa [formOk] using hf
    · obtain rfl | rfl | rfl | rfl | rfl | rfl := unassigned_cases op hu
      all_goals rfl
    · obtain ⟨rfl, h⟩ | ⟨rfl, h⟩ : (op = 0x16 ∧ immField k 11 10 = 3) ∨ (op = 0x29 ∧ immField k 13 12 = 3) := by
        simpa [reservedForm] using hr
      all_goals simp [h]
  all_goals rfl

theorem wf_eq_krytgerWf {i : Instr} {p : BitVec 6 × Chan × Fields} (hp : instrParts i = some p) : i.wf = krytgerWf i := by
  cases i <;> cases hp <;> rfl

end Sys2Proof

namespace Sys2Proof.Machine

/-- Settles O57: the fields of a word are those it was put together from, and a decoded command has the opcode, the fields and the form
of its word. -/
theorem instructionWordsRoundTrip : Obligations.InstructionWordsRoundTrip := by
  refine ⟨fun i op n k hp hw => ?encoded, fun n w e r => ?decoded⟩
  case encoded =>
    obtain ⟨hf, hx⟩ : formOk i = true ∧ (hasExt op k || k.ext == 0) = true := by
      simpa only [wf_eq_krytgerWf hp, krytgerWf, hp, Bool.and_eq_true] using hw
    exact ⟨_, _, by rw [encodeWord, hp], decodeWord_encoded hp hf hx⟩
  case decoded =>
    obtain ⟨hp, hf⟩ := decodeWord_spells n w e r
    have same (v : Word) : hasExt (wordOp w) (wordFields w v) = hasExt (wordOp w) (wordFields w 0) := rfl
    rw [wf_eq_krytgerWf hp, krytgerWf, encodeWord, hf, hp]
    simp only [same, baseWord_wordFields]
    cases hasExt (wordOp w) (wordFields w 0) <;> exact ⟨rfl, rfl⟩

end Sys2Proof.Machine
end

section
/-!
PROOFS. O1, O2 and O13: a step and its command (assumption 2), the control instructions without a branch target of their own (R160, R161, R165, R167,
R169), and the output class without privilege (R144, R145).
-/
namespace Sys2Proof.Machine

theorem ite_of_iff {α : Type} {p q : Prop} [Decidable p] [Decidable q] {a b c d : α} (h : p ↔ q) (hac : a = c) (hbd : b = d) :
    (if p then a else b) = if q then c else d := ite_congr (propext h) (fun _ => hac) fun _ => hbd

theorem completes_of {c : Instr} {s t : State} {p : State → Prop} (hrun : exec c s = .next t) (hp : p t) : Completes c s p := ⟨t, hrun, hp⟩

/-- Settles O1: a step is the command in front of the queue. -/
theorem stepRunsTheFrontCommand : Obligations.StepRunsTheFrontCommand :=
  ⟨fun _ _ => rfl, fun s h => by simp only [step, h]⟩

section
variable {s : State} {n : Chan} {x : Ctx} {op : BitVec 6} {k : Fields} {ext : Bool} {body : Ctx → State → Done} {t : State} {a : Word}

/-- An instruction whose body goes on. -/
theorem issue_next (h : Runs s n x op k) (hx : hasExt op k = ext) (hb : body x (decided s n x) = .next t) :
    issue op n k s body = ranTo t n x ext := by
  rw [issue_runs body h, hb, hx, complete_next]

/-- An instruction whose body branches. -/
theorem issue_jump (h : Runs s n x op k) (hb : body x (decided s n x) = .jump a t) : issue op n k s body = branched t n x a := by
  rw [issue_runs body h, hb, complete_jump]

/-- A field that a width holds is itself. -/
theorem immField_low {hi : Nat} (h : k.imm.toNat < 2 ^ (hi + 1)) : immField k hi 0 = k.imm.toNat := by
  simp only [immField, Nat.pow_zero, Nat.div_one, Nat.sub_zero, Nat.mod_eq_of_lt h]

/-- The bits above a width are 0. -/
theorem immZero_high {hi lo : Nat} (h : k.imm.toNat < 2 ^ lo) : immZero k hi lo = true := by
  simp only [immZero, immField, Nat.div_eq_of_lt h, Nat.zero_mod, BEq.rfl]

/-- The chosen context carries on or is halted at its instruction boundary; here it was halted. -/
theorem ranTo_halted (h : (t.context n x).haltReq = false) (h' : (t.context n x).state = .halted) :
    ranTo t n x ext = updCtx t n x fun c => { c with pc := nextPc c.pc ext } := by
  apply settle_halted <;> rw [updCtx_context_self] <;> assumption

theorem haltCtx_context (s : State) (n : Chan) (x : Ctx) : (haltCtx s n x).context n x = haltedCtx (s.context n x) := by
  simp [haltCtx, State.context]

end

/-- The context behind its HALT. -/
theorem halt_context (s : State) (n : Chan) (x : Ctx) :
    (updCtx (haltCtx (decided s n x) n x) n x fun c => { c with pc := nextPc c.pc false }).context n x =
      { haltedCtx ((decided s n x).context n x) with pc := (s.context n x).pc + 4 } := by
  rw [updCtx_context_self, haltCtx_context, ← decided_pc]
  rfl

theorem decided_g (s : State) (n : Chan) (x : Ctx) : ((decided s n x).context n x).g = (s.context n x).g := by
  rw [decided_context]
  split <;> rfl

/-- A target of RET in the immediate buffer is a loaded word. -/
theorem ret_inside {s : State} {n : Chan} {x : Ctx} {target : Word}
    (h : inImm s.chans[n].graver x = false ∨ target.toNat / 4 < s.chans[n].graver.imm.length) :
    ¬ (inImm (decided s n x).chans[n].graver x && decide (target.toNat / 4 ≥ (decided s n x).chans[n].graver.imm.length)) = true := by
  rw [decided_inImm, decided_imm, Bool.and_eq_true, decide_eq_true_eq]
  rintro ⟨hin, hge⟩
  obtain h | h := h
  · exact Bool.false_ne_true (h.symm.trans hin)
  · exact Nat.not_lt.mpr hge h

/-- Settles O2: each body passes its check; a halted context is at no further boundary. -/
theorem controlInstructions : Obligations.ControlInstructions := by
  refine ⟨fun s n x k ha hb hc hi => ?_, fun s n x k => ?_⟩
  · have ok : zeroFields k false false false false = true := by simp [zeroFields, ha, hb, hc, hi]
    refine ⟨fun h => congrArg _ ((issue_next h (hasExt_eq_false rfl rfl) ?nop).trans (ranTo_decided ..)), fun h hin => congrArg _ (issue_jump h ?ret)⟩
    case nop => exact checked_true _ _ ok
    case ret =>
      have hg : gr (decided s n x).chans[n].graver.ctx[x] 15 = gr (s.context n x) 15 := decided_gr s n x 15
      simp only [checked_true _ _ ok, hg, if_neg (ret_inside hin)]
  · refine ⟨fun h ha hb hc hi => ?halt, fun h ha hb hc => congrArg _ (issue_updCtx h (hasExt_eq_false rfl rfl) ?yield),
      fun h ha hb hc hi => congrArg _ (issue_fault h ?trap), fun op hop h => ?illegal⟩
    case halt =>
      have ok : zeroFields k false false false false = true := by simp [zeroFields, ha, hb, hc, hi]
      have hh := haltCtx_context (decided s n x) n x
      have run : exec (.halt n k) s = .next (ranTo (haltCtx (decided s n x) n x) n x false) :=
        congrArg _ (issue_next h (hasExt_eq_false rfl rfl) (checked_true _ _ ok))
      rw [ranTo_halted (by rw [hh]; rfl) (by rw [hh]; rfl)] at run
      refine completes_of run ?_
      rw [halt_context]
      refine ⟨rfl, rfl, rfl, decided_g s n x, fun hx => ?_, ?_, rfl, rfl⟩
      · simp [haltCtx, hx]
      · simp [haltCtx, updCtx, updGraver, updChan, decided]
    case yield => exact checked_true _ _ (by simp [zeroFields, ha, hb, hc])
    case trap =>
      rw [checked_true _ _ (by simp [zeroFields, ha, hb, hc, immZero_high (lo := 8) hi]), immField_low hi]
    case illegal =>
      rw [exec, execIllegalOpcode, if_pos hop, issue_fault h rfl]

/-- R144, R145: what stops the output class stops it on the decided state. -/
theorem noObs_priv {s : State} {n : Chan} {x : Ctx} (d : Done)
    (h : (s.context n x).obs = true ∨ (s.chans[n].force.relieved = true ∧ isRelief n = true ∧ x ≠ 3)) :
    noObs (decided s n x) n x d = .fault .priv := by
  have ho : (decided s n x).chans[n].graver.ctx[x].obs = (s.context n x).obs := decided_obs s n x
  rw [noObs, ho, decided_force, if_pos]
  obtain h | ⟨hr, hi, hx⟩ := h
  · simp [h]
  · rw [hr, hi, bne_iff_ne.mpr hx]
    exact Bool.or_true _

/-- Settles O13: the fields pass, and the check of the privilege comes before every effect. -/
theorem outputNeedsPrivilege : Obligations.OutputNeedsPrivilege := by
  intro s n x k hp priv hb hc
  have stop : ∀ {op : BitVec 6} {body : Ctx → State → Done} {ok : Bool} {d : Done}, Runs s n x op k → ok = true →
      body x (decided s n x) = checked ok (noObs (decided s n x) n x d) →
      (Host.Outcome.next (issue op n k s body) : Host.Outcome State Fault Refusal) = priv := by
    intro op body ok d h hok hbody
    exact congrArg _ (issue_fault h (by rw [hbody, checked_true _ _ hok, noObs_priv d hp]))
  have low : immBit k 13 = false → True := fun _ => trivial
  refine ⟨fun h hi => stop h ?_ rfl, fun h ha hi => stop h ?_ rfl, fun h hi => stop h ?_ rfl, fun h hi => stop h ?_ rfl,
    fun h ha hi => stop h ?_ rfl, fun h hi => stop h ?_ rfl⟩
  · simp [zeroFields, levelOk, regOrExtOk, immBit, immField, hb, hc, hi]
  · simp [zeroFields, hb, hc, ha, immZero_high (lo := 2) hi]
  · simp [zeroFields, regOrExtOk, immBit, immField, hb, hc, hi]
  · simp [zeroFields, immZero, immBit, immField, hb, hc, hi]
  · have hx : immBit k 13 = false := by
      simp [immBit, BitVec.getLsbD, Nat.testBit_lt_two_pow (Nat.lt_of_lt_of_le hi (by decide : 16 ≤ 2 ^ 13))]
    simp [zeroFields, ha, hb, hc, hx, immZero_high (lo := 4) hi]
  · simp [zeroFields, regOrExtOk, immBit, immField, hb, hc, hi]

end Sys2Proof.Machine
end

section
/-!
PROOFS. O3: JMP, CALL, JCC, LOOP and ENDL (R132, R147, R162 to R164, R166).
-/
namespace Sys2Proof.Machine

section
variable {s : State} {n : Chan} {x : Ctx} {op : BitVec 6} {k : Fields} {body : Ctx → State → Done} {t : State} {words : Word}

/-- R132: where a relative branch goes, judged on the decided state: behind the loaded words of the immediate buffer the fetch faults. -/
theorem issue_relBranch (h : Runs s n x op k) (hpc : (t.context n x).pc = (s.context n x).pc)
    (hin : inImm t.chans[n].graver x = inImm s.chans[n].graver x) (him : t.chans[n].graver.imm = s.chans[n].graver.imm) {u : State}
    (hb : body x (decided s n x) = relBranch t n x words u) :
    issue op n k s body =
      if inImm s.chans[n].graver x ∧ s.chans[n].graver.imm.length ≤ ((s.context n x).pc + 4 * words).toNat / 4
      then suspendImm (decided s n x) n x else branched u n x ((s.context n x).pc + 4 * words) := by
  have hpc' : t.chans[n].graver.ctx[x].pc = (s.context n x).pc := hpc
  rw [issue_runs body h, hb, relBranch]
  simp only [hpc', hin, him, Bool.and_eq_true, decide_eq_true_eq, ge_iff_le]
  split <;> rfl

/-- R132: a relative branch of the decided state. -/
theorem issue_relBranch_decided (h : Runs s n x op k) {u : State} (hb : body x (decided s n x) = relBranch (decided s n x) n x words u) :
    issue op n k s body =
      if inImm s.chans[n].graver x ∧ s.chans[n].graver.imm.length ≤ ((s.context n x).pc + 4 * words).toNat / 4
      then suspendImm (decided s n x) n x else branched u n x ((s.context n x).pc + 4 * words) :=
  issue_relBranch h (decided_pc s n x) (decided_inImm s n x x) (decided_imm s n x) hb

/-- R132: in the window a relative branch is taken. -/
theorem issue_relBranch_window (h : Runs s n x op k) (hin : inImm s.chans[n].graver x = false) {u : State}
    (hb : body x (decided s n x) = relBranch (decided s n x) n x words u) :
    issue op n k s body = branched u n x ((s.context n x).pc + 4 * words) := by
  rw [issue_relBranch_decided h hb, if_neg fun e => Bool.false_ne_true (hin.symm.trans e.1)]

end

/-- The state of CALL: the address behind the instruction stands in g15. -/
def linked (s : State) (n : Chan) (x : Ctx) : State := updCtx (decided s n x) n x fun c => setGr c 15 (c.pc + 8)

theorem linked_pc (s : State) (n : Chan) (x : Ctx) : ((linked s n x).context n x).pc = (s.context n x).pc := by
  rw [linked, updCtx_context_self, ← decided_pc s n x]
  rfl

theorem linked_inImm (s : State) (n : Chan) (x : Ctx) : inImm (linked s n x).chans[n].graver x = inImm s.chans[n].graver x := by
  rw [← decided_inImm s n x x]
  simp [linked, inImm]

theorem linked_imm (s : State) (n : Chan) (x : Ctx) : (linked s n x).chans[n].graver.imm = s.chans[n].graver.imm := by
  rw [← decided_imm s n x]
  simp [linked]

/-- R127, R166: what LOOP writes into its counter. -/
theorem loop_checked {k : Fields} {off : Nat} (hb : k.b = 0) (hc : k.c.toNat < 4) (hx : immBit k 13 = true → k.a = 0)
    (ho : immField k 12 0 = off) (h0 : off ≠ 0) :
    (zeroFields k true false true true && regOrExtOk k && decide (k.c.toNat < 4) && immField k 12 0 != 0) = true := by
  have hr : regOrExtOk k = true := by
    rw [regOrExtOk]
    cases h : immBit k 13
    · rfl
    · simp [hx h]
  simp [zeroFields, hb, hr, hc, ho, h0]

/-- The decision changes no condition of Table 4.3. -/
theorem decided_condition (s : State) (n : Chan) (x : Ctx) (cond a : BitVec 4) :
    condition (decided s n x) n ((decided s n x).context n x) cond a = condition s n (s.context n x) cond a := by
  have hf : flagEV (decided s n x) n = flagEV s n := by
    simp only [flagEV, decided, updGraver, updChan]
  rw [decided_context]
  split <;> simp only [condition, hf, decided_force]

/-- R166: what ENDL leaves of a count is 0 from 0 and 1. -/
theorem countDown_eq_zero {c : Word} : (if c = 0 then 0 else c - 1) = (0 : Word) ↔ c = 0 ∨ c = 1 := by
  by_cases h : c = 0
  · simp [h]
  · rw [if_neg h]
    constructor
    · exact fun e => .inr (by bv_omega)
    · rintro (e | e)
      · exact absurd e h
      · rw [e]
        rfl

/-- Settles O3: each form is a branch of the decided state, and ENDL that counts to 0 goes on. -/
theorem branchesAndLoops : Obligations.BranchesAndLoops := by
  refine ⟨?_, ?_⟩
  · intro s n x k pc rel reg linkedState
    refine ⟨fun h hc hi => ⟨fun ha hb => ?jmpRel, fun hb => ?jmpReg⟩, fun h hc hi => ⟨fun ha hb => ?callRel, fun hb => ?callReg⟩,
      fun h hb hca b hcond => ?jcc⟩
    case jmpRel =>
      refine congrArg _ (issue_relBranch_decided h ?_)
      rw [checked_true _ _ (by simp [jumpFields, zeroFields, ha, hb, hc, hi]), jumpForm, if_pos (by simp [hb])]
    case jmpReg =>
      refine congrArg _ (issue_jump h ?_)
      rw [checked_true _ _ (by simp [jumpFields, zeroFields, hb, hc, hi]), jumpForm, if_neg (by simp [hb])]
      rfl
    case callRel =>
      refine congrArg _ (issue_relBranch h (linked_pc s n x) (linked_inImm s n x) (linked_imm s n x) ?_)
      rw [checked_true _ _ (by simp [jumpFields, zeroFields, ha, hb, hc, hi]), jumpForm, if_pos (by simp [hb])]
      rfl
    case callReg =>
      refine congrArg _ (issue_jump h ?_)
      rw [checked_true _ _ (by simp [jumpFields, zeroFields, hb, hc, hi]), jumpForm, if_neg (by simp [hb])]
      rfl
    case jcc =>
      have ok : (!zeroFields k true false true true || (k.c != 0xF && k.a != 0)) = false := by
        obtain hc | ha := hca
        · simp [zeroFields, hb, hc]
        · simp [zeroFields, hb, ha]
      have hcond' := (decided_condition s n x k.c k.a).trans hcond
      cases b with
      | true =>
        refine congrArg _ (issue_relBranch_decided h ?_)
        simp only [ok, hcond', Bool.false_eq_true, if_false]
        rfl
      | false =>
        refine congrArg _ ((issue_next h (hasExt_eq_false rfl rfl) ?_).trans (ranTo_decided ..))
        simp only [ok, hcond', Bool.false_eq_true, if_false]
  · intro s n x k hb hc pc l
    refine ⟨fun ext off h hx ha ho h0 => ?loop, fun h ha hi => ?endl⟩
    case loop =>
      have ok := loop_checked hb hc (fun e => ha (hx.symm.trans e)) ho h0
      intro count loaded
      refine ⟨fun hne => congrArg _ (issue_updCtx h ((hasExt_eq_immBit rfl rfl).trans hx) ?enter),
        fun he hin => congrArg _ (issue_relBranch_window (words := word (off + 1)) h hin ?pass)⟩
      case enter =>
        rw [checked_true _ _ ok]
        simp only [decided_gr, decided_pc, ho, hx]
        rw [if_neg (mt beq_iff_eq.1 hne)]
        rfl
      case pass =>
        rw [checked_true _ _ ok]
        simp only [decided_gr, decided_pc, ho, hx]
        rw [if_pos (beq_iff_eq.mpr he)]
        rfl
    case endl =>
      have ok : (zeroFields k false false true false && decide (k.c.toNat < 4)) = true := by simp [zeroFields, ha, hb, hc, hi]
      intro counted
      have body : (checked (zeroFields k false false true false && decide (k.c.toNat < 4))
          (if (if l.count = 0 then 0 else l.count - 1) ≠ 0 then .jump l.start (updCtx (decided s n x) n x counted)
            else .next (updCtx (decided s n x) n x counted)))
          = if l.count = 0 ∨ l.count = 1 then .next (updCtx (decided s n x) n x counted)
            else .jump l.start (updCtx (decided s n x) n x counted) := by
        rw [checked_true _ _ ok]
        simp only [ne_eq, ite_not, countDown_eq_zero]
      refine ⟨fun h1 => congrArg _ (issue_updCtx h (hasExt_eq_false rfl rfl) (Eq.trans ?_ (body.trans (if_pos h1)))),
        fun h0 h1 => congrArg _ (issue_jump h (Eq.trans ?_ (body.trans (if_neg (not_or.mpr ⟨h0, h1⟩)))))⟩
      · simp only [decided_lc, bne_iff_ne, beq_iff_eq]
        rfl
      · simp only [decided_lc, bne_iff_ne, beq_iff_eq]
        rfl

end Sys2Proof.Machine
end

section
/-!
PROOFS. O58: what an instruction of the integer class leaves alone (R155 to R159), carried from the decision to the instruction boundary.
-/
namespace Sys2Proof.Machine

/-- What t shares with s when an instruction of context x of channel n wrote at most the registers w. -/
structure IntegerOnly (n : Chan) (x : Ctx) (w : BitVec 4 → Prop) (t s : State) : Prop where
  channels : ∀ m : Chan, m ≠ n → t.chans[m] = s.chans[m]
  force : t.chans[n].force = s.chans[n].force
  meas : t.chans[n].meas = s.chans[n].meas
  contexts : ∀ y : Ctx, y ≠ x → (t.context n y).g = (s.context n y).g
  registers : ∀ r : BitVec 4, ¬ w r → gr (t.context n x) r = gr (s.context n x) r
  counters : (t.context n x).lc = (s.context n x).lc
  memory : t.mm.mem = s.mm.mem
  rest : t.queues = s.queues ∧ t.tb = s.tb ∧ t.lanes = s.lanes ∧ t.fw = s.fw ∧ t.pf = s.pf

variable {n : Chan} {x : Ctx} {w : BitVec 4 → Prop} {s t u : State}

theorem IntegerOnly.trans (h : IntegerOnly n x w u t) (k : IntegerOnly n x w t s) : IntegerOnly n x w u s where
  channels m hm := (h.channels m hm).trans (k.channels m hm)
  force := h.force.trans k.force
  meas := h.meas.trans k.meas
  contexts y hy := (h.contexts y hy).trans (k.contexts y hy)
  registers r hr := (h.registers r hr).trans (k.registers r hr)
  counters := h.counters.trans k.counters
  memory := h.memory.trans k.memory
  rest := by
    obtain ⟨h1, h2, h3, h4, h5⟩ := h.rest
    obtain ⟨k1, k2, k3, k4, k5⟩ := k.rest
    exact ⟨h1.trans k1, h2.trans k2, h3.trans k3, h4.trans k4, h5.trans k5⟩

theorem updGraver_context (s : State) (n : Chan) (f : Graver → Graver) (y : Ctx) :
    (updGraver s n f).context n y = (f s.chans[n].graver).ctx[y] := by simp [State.context]

/-- An update of the Graver that keeps the registers and loop counters of its contexts. -/
theorem integerOnly_updGraver {f : Graver → Graver}
    (h : ∀ y : Ctx, (f s.chans[n].graver).ctx[y].g = s.chans[n].graver.ctx[y].g ∧ (f s.chans[n].graver).ctx[y].lc = s.chans[n].graver.ctx[y].lc) :
    IntegerOnly n x w (updGraver s n f) s where
  channels m hm := updGraver_chans_ne s n m f (Ne.symm hm)
  force := by simp [updGraver]
  meas := by simp [updGraver]
  contexts y _ := (congrArg Context.g (updGraver_context s n f y)).trans (h y).1
  registers r _ := congrArg (·[r.toFin]) ((congrArg Context.g (updGraver_context s n f x)).trans (h x).1)
  counters := (congrArg Context.lc (updGraver_context s n f x)).trans (h x).2
  memory := rfl
  rest := ⟨rfl, rfl, rfl, rfl, rfl⟩

/-- An update of the executing context. -/
theorem integerOnly_updCtx {f : Context → Context} (hr : ∀ r, ¬ w r → gr (f (s.context n x)) r = gr (s.context n x) r)
    (hl : (f (s.context n x)).lc = (s.context n x).lc) : IntegerOnly n x w (updCtx s n x f) s where
  channels m hm := updCtx_chans_ne s n m x f (Ne.symm hm)
  force := by simp [updCtx, updGraver]
  meas := by simp [updCtx, updGraver]
  contexts y hy := congrArg Context.g (updCtx_ctx_ne s n x y f (Ne.symm hy))
  registers r h := by rw [updCtx_context_self, hr r h]
  counters := by rw [updCtx_context_self, hl]
  memory := rfl
  rest := ⟨rfl, rfl, rfl, rfl, rfl⟩

theorem integerOnly_decided : IntegerOnly n x w (decided s n x) s := by
  refine integerOnly_updGraver fun y => ?_
  rw [afterDecision]
  split <;> simp

/-- A report keeps everything but the Tracer and the HHT session. -/
theorem integerOnly_raise (src : Nat) : IntegerOnly n x w (raise s src) s where
  channels m _ := by rw [raise_chans]
  force := by rw [raise_chans]
  meas := by rw [raise_chans]
  contexts y _ := by rw [State.context, raise_chans]; rfl
  registers r _ := by rw [State.context, raise_chans]; rfl
  counters := by rw [State.context, raise_chans]; rfl
  memory := by rw [raise_mm]
  rest := ⟨raise_queues .., raise_tb .., raise_lanes .., raise_fw .., raise_pf ..⟩

/-- A record of the memory unit keeps everything else. -/
theorem integerOnly_mm {m : Memory} (h : m.mem = s.mm.mem) : IntegerOnly n x w { s with mm := m } s :=
  ⟨fun _ _ => rfl, rfl, rfl, fun _ _ => rfl, fun _ _ => rfl, rfl, h, rfl, rfl, rfl, rfl, rfl⟩

theorem integerOnly_haltCtx : IntegerOnly n x w (haltCtx s n x) s := by
  rw [haltCtx]
  refine (integerOnly_updGraver fun _ => ⟨rfl, rfl⟩).trans ((integerOnly_updCtx (fun _ _ => rfl) rfl).trans (integerOnly_mm ?_))
  rfl

theorem integerOnly_settle : IntegerOnly n x w (settle s n x) s := by
  rw [settle]
  split
  · exact integerOnly_haltCtx
  · split
    · exact integerOnly_haltCtx
    · exact integerOnly_mm rfl

theorem integerOnly_suspend (c : Cause) : IntegerOnly n x w (suspend s n x c) s := by
  have only : IntegerOnly n x w (suspendOnly s n x c false) s :=
    (integerOnly_raise 299).trans ((integerOnly_updGraver fun _ => ⟨rfl, rfl⟩).trans (integerOnly_updCtx (fun _ _ => rfl) rfl))
  have log : ∀ r, IntegerOnly n x w (logFault (suspendOnly s n x c false) r) s := fun r =>
    (integerOnly_mm (logFault_mem _ r)).trans only
  unfold suspend
  dsimp only
  split
  · exact only
  · exact log _

/-- How a body of the integer class ends: it writes at most the registers w and the flags, or it is ILLEGAL. -/
def IntegerEnd (n : Chan) (x : Ctx) (w : BitVec 4 → Prop) (s : State) (d : Done) : Prop :=
  d = .fault .illegal ∨ ∃ f : Context → Context, d = .next (updCtx s n x f) ∧ (f (s.context n x)).lc = (s.context n x).lc
    ∧ ∀ r, ¬ w r → gr (f (s.context n x)) r = gr (s.context n x) r

theorem gr_setGr_ne (c : Context) {a r : BitVec 4} (v : Word) (h : r ≠ a) : gr (setGr c a v) r = gr c r := by
  have : a.toNat ≠ r.toNat := fun e => h (BitVec.eq_of_toNat_eq e.symm)
  simp [gr, setGr, this]

theorem integerEnd_checked {ok : Bool} {d : Done} (h : IntegerEnd n x w s d) : IntegerEnd n x w s (checked ok d) := by
  rw [checked]
  split
  · exact h
  · exact .inl rfl

/-- A result in g[a], with flags that keep the registers and loop counters. -/
theorem integerEnd_writeGr {k : Fields} {v : Word} {flags : Context → Context} (hg : ∀ c, (flags c).g = c.g) (hl : ∀ c, (flags c).lc = c.lc) :
    IntegerEnd n x (· = k.a) s (writeGr s n x k v flags) :=
  .inr ⟨_, rfl, hl _, fun r hr => (gr_setGr_ne _ v hr).trans (by rw [gr, gr, hg])⟩

/-- An instruction of the integer class that its Graver carries out. -/
theorem issue_integerOnly {op : BitVec 6} {k : Fields} {body : Ctx → State → Done} (h : Runs s n x op k)
    (hb : IntegerEnd n x w (decided s n x) (body x (decided s n x))) : IntegerOnly n x w (issue op n k s body) s := by
  rw [issue_runs body h]
  obtain hb | ⟨f, hb, hl, hr⟩ := hb
  · rw [hb, complete_fault]
    exact (integerOnly_suspend _).trans integerOnly_decided
  · rw [hb, complete_next]
    exact integerOnly_settle.trans ((integerOnly_updCtx (fun _ _ => rfl) rfl).trans ((integerOnly_updCtx hr hl).trans integerOnly_decided))

theorem integerOp_integerOnly {op : BitVec 6} {k : Fields} {result : Context → Word → Word} {flags : Context → Word → Context → Context}
    (h : Runs s n x op k) (hg : ∀ c b d, (flags c b d).g = d.g) (hl : ∀ c b d, (flags c b d).lc = d.lc) :
    IntegerOnly n x (· = k.a) (integerOp op n k s result flags) s := by
  refine issue_integerOnly h ?_
  dsimp only
  split
  · exact .inl rfl
  · exact integerEnd_writeGr (hg _ _) (hl _ _)

theorem shiftOp_integerOnly {type : Nat} {k : Fields} {result : Word → Nat → Word} {last : Word → Nat → Bool} (h : Runs s n x 0x16 k) :
    IntegerOnly n x (· = k.a) (shiftOp type n k s result last) s := by
  rw [shiftOp]
  split
  · exact integerOnly_mm rfl
  · refine issue_integerOnly h ?_
    dsimp only
    split
    · exact .inl rfl
    · exact integerEnd_writeGr (fun _ => rfl) (fun _ => rfl)

theorem cmp_integerOnly {k : Fields} (h : Runs s n x 0x17 k) : ∃ t, exec (.cmp n k) s = .next t ∧ IntegerOnly n x (fun _ => False) t s := by
  refine ⟨_, rfl, issue_integerOnly h ?_⟩
  dsimp only
  split
  · exact .inl rfl
  · exact integerEnd_checked (.inr ⟨_, rfl, rfl, fun _ _ => rfl⟩)

theorem IntegerOnly.mono {v : BitVec 4 → Prop} (h : IntegerOnly n x w t s) (hv : ∀ r, w r → v r) : IntegerOnly n x v t s :=
  { h with registers := fun r hr => h.registers r (mt (hv r) hr) }

theorem IntegerOnly.registers_eq (h : IntegerOnly n x (fun _ => False) t s) : (t.context n x).g = (s.context n x).g :=
  Vector.ext fun i hi => h.registers (BitVec.ofNatLT i hi) id

/-- Settles O58: each body writes g[a] and the flags at most, and neither the decision nor the boundary writes a register. -/
theorem integerFrame : Obligations.IntegerFrame := by
  intro s n x k i op hi hop h
  have written : ∃ t, exec i s = .next t ∧ IntegerOnly n x (fun r => r = k.a ∧ i ≠ .cmp n k) t s := by
    have other : ∀ {t : State}, i ≠ .cmp n k → exec i s = .next t → IntegerOnly n x (· = k.a) t s →
        ∃ t, exec i s = .next t ∧ IntegerOnly n x (fun r => r = k.a ∧ i ≠ .cmp n k) t s :=
      fun hc he ht => ⟨_, he, ht.mono fun r hr => ⟨hr, hc⟩⟩
    simp only [List.mem_cons, List.not_mem_nil, or_false] at hi
    obtain rfl | rfl | rfl | rfl | rfl | rfl | rfl | rfl | rfl | rfl | rfl | rfl | rfl | rfl | rfl | rfl := hi <;>
      simp only [instrParts, Option.some.injEq, Prod.mk.injEq, and_true] at hop <;> subst hop
    · exact other (by simp) rfl (issue_integerOnly h (integerEnd_checked (integerEnd_writeGr (fun _ => rfl) fun _ => rfl)))
    · exact other (by simp) rfl (issue_integerOnly h (integerEnd_checked (integerEnd_writeGr (fun _ => rfl) fun _ => rfl)))
    · exact other (by simp) rfl (issue_integerOnly h (integerEnd_checked (integerEnd_writeGr (fun _ => rfl) fun _ => rfl)))
    · exact other (by simp) rfl (integerOp_integerOnly h (fun _ _ _ => rfl) fun _ _ _ => rfl)
    · exact other (by simp) rfl (integerOp_integerOnly h (fun _ _ _ => rfl) fun _ _ _ => rfl)
    · exact other (by simp) rfl (integerOp_integerOnly h (fun _ _ _ => rfl) fun _ _ _ => rfl)
    · exact other (by simp) rfl (integerOp_integerOnly h (fun _ _ _ => rfl) fun _ _ _ => rfl)
    · exact other (by simp) rfl (integerOp_integerOnly h (fun _ _ _ => rfl) fun _ _ _ => rfl)
    · exact other (by simp) rfl (integerOp_integerOnly h (fun _ _ _ => rfl) fun _ _ _ => rfl)
    · exact other (by simp) rfl (integerOp_integerOnly h (fun _ _ _ => rfl) fun _ _ _ => rfl)
    · exact other (by simp) rfl (shiftOp_integerOnly h)
    · exact other (by simp) rfl (shiftOp_integerOnly h)
    · exact other (by simp) rfl (shiftOp_integerOnly h)
    · obtain ⟨t, he, ht⟩ := cmp_integerOnly h
      exact ⟨t, he, ht.mono fun _ => False.elim⟩
    · exact other (by simp) rfl (issue_integerOnly h (integerEnd_checked (integerEnd_writeGr (fun _ => rfl) fun _ => rfl)))
    · exact other (by simp) rfl (issue_integerOnly h (integerEnd_checked (integerEnd_writeGr (fun _ => rfl) fun _ => rfl)))
  obtain ⟨t, he, ht⟩ := written
  obtain ⟨hq, htb, hl, hf, hp⟩ := ht.rest
  refine ⟨t, he, ht.channels, ht.force, ht.meas, ht.contexts, fun r hr => ht.registers r fun e => hr e.1, fun hc => ?_, ht.counters, ht.memory,
    hq, htb, hl, hf, hp⟩
  exact (ht.mono fun r e => e.2 hc).registers_eq

end Sys2Proof.Machine
end

section
/-!
PROOFS. O55 and O56: the reset values of the tables, and words written out field by field.
-/
namespace Sys2Proof.Machine

/-- Settles O56: the words' opcodes and fields are closed terms. -/
theorem tableWordsDecode : Obligations.TableWordsDecode := by
  intro n e r
  refine ⟨rfl, rfl, rfl, rfl, ?_, rfl, rfl, rfl, rfl⟩
  exact if_pos (show (BitVec.getLsbD 1#14 0) = true from rfl)

/-- Settles O55: each tabulated channel and queue is that of its own number. -/
theorem resetState : Obligations.ResetState := by
  unfold Obligations.ResetState
  intro s
  have hchan : ∀ n : Chan, s.chans[n] = Channel.reset n.val := fun n => by simp [s, State.reset, tabulate]
  have hqueue : ∀ q : Fin 256, s.queues[q] = Queue.reset q.val := fun q => by simp [s, State.reset, tabulate]
  refine ⟨rfl, rfl, rfl, rfl, rfl, rfl, rfl, rfl, ?_, fun n => ?_, fun n x => ?_, fun q => ?_, fun k => ?_, fun k => ?_, fun b => ?_⟩
  · simp [s, State.memoryForm, State.reset, Memory.wf]
  · rw [hchan]
    exact ⟨rfl, rfl, rfl, rfl, rfl, rfl⟩
  · rw [State.context, hchan]
    simp [Channel.reset]
  · rw [hqueue]
    refine ⟨?_, fun h => ?_, fun h => ?_, fun h => ?_⟩
    · unfold Queue.reset
      split
      · rfl
      · split <;> rfl
    · simp [Queue.reset, h]
    · simp [Queue.reset, h]
    · simp [Queue.reset, Nat.not_lt.mpr (Nat.le_of_lt h), Nat.ne_of_gt h]
  · simp [s, State.reset]
  · simp [s, State.reset]
  · simp [s, State.reset]
end Sys2Proof.Machine
end

section
/-!
PROOFS. O10 and O11: LD and ST (R178, R316, R317, R320), and what the memory answers (R130, R152, R294, R315).
-/
namespace Sys2Proof.Machine

theorem updGraver_updGraver (s : State) (n : Chan) (f g : Graver → Graver) :
    updGraver (updGraver s n f) n g = updGraver s n fun k => g (f k) := by
  simp [updGraver, updChan]

/-- Two updates of a Graver that agree on it are one. -/
theorem updGraver_congr {s : State} {n : Chan} {f g : Graver → Graver} (h : f s.chans[n].graver = g s.chans[n].graver) :
    updGraver s n f = updGraver s n g := by
  simp only [updGraver, updChan, h]

/-- Two updates of a context that agree on it are one. -/
theorem updCtx_congr {s : State} {n : Chan} {x : Ctx} {f g : Context → Context} (h : f (s.context n x) = g (s.context n x)) :
    updCtx s n x f = updCtx s n x g :=
  updGraver_congr (congrArg (fun c => { s.chans[n].graver with ctx := s.chans[n].graver.ctx.set x c }) h)

/-- An update of an update of one Graver. -/
theorem updGraver_chan (s : State) (n : Chan) (f : Graver → Graver) : (updGraver s n f).chans[n].graver = f s.chans[n].graver :=
  updGraver_graver s n f

/-- A translation that enters the IOTLB changes the IOTLB only. -/
theorem cacheXlate_same (s : State) (asid va : Nat) : cacheXlate s asid va = { s with iotlb := (cacheXlate s asid va).iotlb } := by
  unfold cacheXlate
  dsimp only
  split <;> rfl

@[simp] theorem cacheXlate_chans (s : State) (asid va : Nat) : (cacheXlate s asid va).chans = s.chans := by rw [cacheXlate_same]
@[simp] theorem cacheXlate_banks (s : State) (asid va : Nat) : (cacheXlate s asid va).banks = s.banks := by rw [cacheXlate_same]
@[simp] theorem cacheXlate_mm (s : State) (asid va : Nat) : (cacheXlate s asid va).mm = s.mm := by rw [cacheXlate_same]
@[simp] theorem cacheXlate_pwr (s : State) (asid va : Nat) : (cacheXlate s asid va).pwr = s.pwr := by rw [cacheXlate_same]
@[simp] theorem cacheXlate_context (s : State) (asid va : Nat) (n : Chan) (x : Ctx) :
    (cacheXlate s asid va).context n x = s.context n x := by rw [State.context, cacheXlate_chans]; rfl

theorem decided_graver (s : State) (n : Chan) (x : Ctx) : (decided s n x).chans[n].graver = afterDecision s.chans[n].graver x := by
  simp [decided]

@[simp] theorem afterDecision_wbase (g : Graver) (x : Ctx) : (afterDecision g x).wbase = g.wbase := by
  rw [afterDecision]
  split <;> rfl

@[simp] theorem afterDecision_asid (g : Graver) (x : Ctx) : (afterDecision g x).asid = g.asid := by
  rw [afterDecision]
  split <;> rfl

theorem decided_windowAsid (s : State) (n : Chan) (x : Ctx) :
    windowAsid (decided s n x).chans[n].graver x = windowAsid s.chans[n].graver x := by
  simp only [decided_graver, windowAsid, afterDecision_asid]

theorem decided_windowVa (s : State) (n : Chan) (x : Ctx) (a : Word) :
    windowVa (decided s n x).chans[n].graver x a = windowVa s.chans[n].graver x a := by
  simp only [decided_graver, windowVa, afterDecision_wbase]

@[simp] theorem decided_mm (s : State) (n : Chan) (x : Ctx) : (decided s n x).mm = s.mm := rfl
@[simp] theorem decided_pwr (s : State) (n : Chan) (x : Ctx) : (decided s n x).pwr = s.pwr := rfl

/-- The offset in bits 12:0 as a signed word. -/
theorem wordI_signedOf_13 (k : Fields) : wordI (signedOf 13 (immField k 12 0)) = (k.imm.extractLsb' 0 13).signExtend 32 := by
  have h : (k.imm.extractLsb' 0 13).toNat = immField k 12 0 := by simp [immField]
  have ht : signedOf 13 (immField k 12 0) = (k.imm.extractLsb' 0 13).toInt := by
    rw [signedOf, ← h, BitVec.toInt_eq_toNat_cond]
    omega
  rw [ht]
  rfl

/-- R178: the address of LD and ST. -/
theorem memAddress_eq {c : Context} {k : Fields} {a : Word} (hc : k.c = 0)
    (hx : immBit k 13 = true → k.imm = 0x2000 ∧ a = (gr c k.b + k.ext) &&& ~~~3)
    (h0 : immBit k 13 = false → a = (gr c k.b + (k.imm.extractLsb' 0 13).signExtend 32) &&& ~~~3) : memAddress c k = some a := by
  rw [memAddress, if_neg (by simp [hc])]
  cases h : immBit k 13 with
  | true =>
    obtain ⟨hi, rfl⟩ := hx h
    simp [immField, hi]
  | false => simp [wordI_signedOf_13, h0 h]

theorem decided_memAddress (s : State) (n : Chan) (x : Ctx) (k : Fields) :
    memAddress ((decided s n x).context n x) k = memAddress (s.context n x) k := by
  simp only [memAddress, decided_gr]

/-- An access to memory that is awake goes on. -/
theorem demandMemory_awake {s : State} {pa : Nat} {f : State → State} (h : (paExternal pa && ddrAsleep s) = false) :
    demandMemory s pa f = f s := by
  rw [demandMemory, if_neg (by simp [h])]

section
variable {s : State} {n : Chan} {x : Ctx} {k : Fields} {a : Word} {pa : Nat}

/-- R178: LD that takes an own store. -/
theorem execLd_own (h : Runs s n x 0x1A k) (ha : memAddress (s.context n x) k = some a)
    (ht : translate s.mm (windowAsid s.chans[n].graver x) (windowVa s.chans[n].graver x a) .r = .ok pa) {st : Store}
    (hst : (s.context n x).stores.reverse.find? (fun st => st.pa == pa) = some st) :
    exec (.ld n k) s = .next (ranTo (updCtx (cacheXlate (decided s n x) (windowAsid s.chans[n].graver x) (windowVa s.chans[n].graver x a)) n x
      fun c => setGr c k.a st.data) n x (immBit k 13)) := by
  rw [exec, execLd, issue_runs _ h, hasExt_eq_immBit rfl rfl]
  simp only [decided_memAddress, ha, decided_windowVa, decided_windowAsid, decided_mm, ht, decided_stores, hst]
  rfl

/-- R178: LD that holds the execution unit. -/
theorem execLd_load (h : Runs s n x 0x1A k) (ha : memAddress (s.context n x) k = some a)
    (ht : translate s.mm (windowAsid s.chans[n].graver x) (windowVa s.chans[n].graver x a) .r = .ok pa)
    (hst : (s.context n x).stores.reverse.find? (fun st => st.pa == pa) = none) :
    let d := cacheXlate (decided s n x) (windowAsid s.chans[n].graver x) (windowVa s.chans[n].graver x a)
    exec (.ld n k) s = .next (updGraver (demandMemory (updGraver d n fun g =>
      { g with busy := some (x, .load k.a (windowVa s.chans[n].graver x a) pa) }) pa id) n fun g => { g with busyExt := immBit k 13 }) := by
  intro d
  have hbusy : (updGraver d n fun g => { g with busy := some (x, .load k.a (windowVa g x a) pa) })
      = updGraver d n fun g => { g with busy := some (x, .load k.a (windowVa s.chans[n].graver x a) pa) } := by
    refine updGraver_congr ?_
    simp only [d, cacheXlate_chans, decided_windowVa]
  rw [exec, execLd, issue_runs _ h, hasExt_eq_immBit rfl rfl]
  simp only [decided_memAddress, ha, decided_windowVa, decided_windowAsid, decided_mm, ht, decided_stores, hst]
  rw [hbusy, complete]

/-- R178: ST that goes out, or stalls. -/
theorem execSt_ok (h : Runs s n x 0x1B k) (ha : memAddress (s.context n x) k = some a)
    (ht : translate s.mm (windowAsid s.chans[n].graver x) (windowVa s.chans[n].graver x a) .w = .ok pa) :
    let d := cacheXlate (decided s n x) (windowAsid s.chans[n].graver x) (windowVa s.chans[n].graver x a)
    let st : Store := ⟨windowAsid s.chans[n].graver x, windowVa s.chans[n].graver x a, pa, gr (s.context n x) k.a⟩
    exec (.st n k) s = .next (if 8 ≤ (s.context n x).stores.length
      then updGraver d n fun g => { g with busy := some (x, .store st), busyExt := immBit k 13 }
      else ranTo (updCtx d n x fun c => { c with stores := (s.context n x).stores ++ [⟨windowAsid s.chans[n].graver x, windowVa s.chans[n].graver x a, pa, gr c k.a⟩] }) n x (immBit k 13)) := by
  intro d st
  have hstores : (updCtx d n x fun c => { c with stores := c.stores ++ [st] })
      = updCtx d n x fun c => { c with stores := (s.context n x).stores ++ [⟨windowAsid s.chans[n].graver x, windowVa s.chans[n].graver x a, pa, gr c k.a⟩] } := by
    refine updCtx_congr ?_
    rw [cacheXlate_context, decided_stores, decided_gr]
  rw [exec, execSt, issue_runs _ h, hasExt_eq_immBit rfl rfl]
  simp only [decided_memAddress, ha, decided_windowVa, decided_windowAsid, decided_mm, ht, decided_stores, decided_gr, ge_iff_le]
  split
  · rw [complete, updGraver_updGraver]
  · rw [hstores, complete]
    rfl

end

/-- Settles O10: the address, the translation and the outstanding stores are those of the decided state. -/
theorem loadsAndStores : Obligations.LoadsAndStores := by
  intro s n x k a hc hx h0 g own va d
  have ha := memAddress_eq hc hx h0
  refine ⟨fun h pa ht st hst => execLd_own h ha ht hst, fun h pa ht hall hawake => ?load,
    fun h r l ht => ?ldFault, fun h hlen pa ht => (execSt_ok h ha ht).trans ?out, fun h hlen pa ht => (execSt_ok h ha ht).trans ?stall,
    fun h r l ht => ?stFault⟩
  case load =>
    have hnone : own.reverse.find? (fun st => st.pa == pa) = none := by
      rw [List.find?_eq_none]
      intro st hst
      simpa using (List.all_eq_true.mp hall) st (List.mem_reverse.mp hst)
    have hd : ddrAsleep (updGraver d n fun g => { g with busy := some (x, .load k.a va pa) }) = ddrAsleep s := by
      simp only [ddrAsleep, updGraver_pwr, d, cacheXlate_pwr, decided_pwr]
    refine (execLd_load h ha ht hnone).trans ?_
    exact congrArg Host.Outcome.next ((congrArg (updGraver · n _) (demandMemory_awake (by rw [hd]; exact hawake))).trans (updGraver_updGraver ..))
  case ldFault =>
    have ht' : translate s.mm (windowAsid s.chans[n].graver x) (windowVa s.chans[n].graver x a) .r = .fault r l := ht
    rw [exec, execLd, issue_runs _ h]
    simp only [decided_memAddress, ha, decided_windowVa, decided_windowAsid, decided_mm, ht', complete]
    rfl
  case out =>
    rw [if_neg (Nat.not_le.mpr hlen)]
  case stall =>
    rw [if_pos hlen]
    refine congrArg Host.Outcome.next (updGraver_congr ?_)
    simp only [va, g, cacheXlate_chans, decided_windowAsid]
  case stFault =>
    have ht' : translate s.mm (windowAsid s.chans[n].graver x) (windowVa s.chans[n].graver x a) .w = .fault r l := ht
    rw [exec, execSt, issue_runs _ h]
    simp only [decided_memAddress, ha, decided_windowVa, decided_windowAsid, decided_mm, ht', complete]
    rfl

/-- The number of a word's bytes. -/
theorem ofBytes_wordBytes (w : Word) : ofBytes (wordBytes w) = w.toNat := by
  have h := w.isLt
  have hl : wordBytes w = [BitVec.ofNat 8 w.toNat, BitVec.ofNat 8 (w.toNat / 256), BitVec.ofNat 8 (w.toNat / 65536),
      BitVec.ofNat 8 (w.toNat / 16777216)] := by simp [wordBytes, List.range_succ]
  simp only [hl, ofBytes, BitVec.toNat_ofNat]
  omega

/-- Bytes written read back as a list. -/
theorem memReadBytes_writeBytes (m : Mem) (a : Nat) (bs : List Byte) (h : Memory.wf m = true) :
    memReadBytes (memWriteBytes m a bs) a bs.length = bs := by
  refine List.ext_getElem (by simp [memReadBytes]) fun i h1 h2 => ?_
  simp only [memReadBytes, List.getElem_map, List.getElem_range]
  exact memRead_writeBytes bs m a i _ h (List.getElem?_eq_getElem h2)

/-- A word written reads back. -/
theorem memReadWord_writeWord (m : Mem) (a : Nat) (w : Word) (h : Memory.wf m = true) : memReadWord (memWriteWord m a w) a = w := by
  have hlen : (wordBytes w).length = 4 := by simp [wordBytes]
  rw [memReadWord, memWriteWord, ← hlen, memReadBytes_writeBytes m a _ h, ofBytes_wordBytes, word, BitVec.ofNat_toNat, BitVec.setWidth_eq]

/-- A store that lands while the execution unit is free. -/
theorem execStVisible_free {s : State} {n : Chan} {x : Ctx} {st : Store} {rest : List Store} (hst : (s.context n x).stores = st :: rest)
    (hawake : (paExternal st.pa && ddrAsleep s) = false) (hb : s.chans[n].graver.busy = none) :
    exec (.stVisible n x) s = .next (updCtx { s with mm := { s.mm with mem := memWriteWord s.mm.mem (retiredTo s.mm st.pa) st.data } } n x
      fun k => { k with stores := rest }) := by
  have hb' : s.chans[n.val].graver.busy = none := hb
  rw [exec, execStVisible, hst]
  dsimp only
  rw [demandMemory_awake hawake, landStore]
  simp only [Fin.getElem_fin, updCtx_graver, hb']

/-- Settles O11: clean data leave the ECC counters alone, and a store lands where no access waits for room behind it. -/
theorem memoryTransfers : Obligations.MemoryTransfers := by
  intro s n x
  refine ⟨fun dest va pa hb hawake => ?load, fun st rest hst hawake hb => ?store, fun va pa victim split hb hf ht hawake hlen => ?fill⟩
  case load =>
    rw [exec, execLdDataReturn, hb]
    exact congrArg Host.Outcome.next (demandMemory_awake hawake)
  case store =>
    exact ⟨_, execStVisible_free hst hawake hb, updCtx_context_self .., memReadWord_writeWord _ _ _, fun q hq => memRead_writeBytes_ne _ _ _ _ hq⟩
  case fill =>
    have hroom : ∀ l, cacheInsert s.banks[bankOf n].lines victim l = s.banks[bankOf n].lines ++ [l] := fun l => by
      rw [cacheInsert, if_neg (Nat.not_le.mpr hlen)]
    rw [exec, execProgramCacheFill, hb]
    simp only [hf, ht]
    rw [demandMemory_awake hawake]
    simp only [updBank, eccMet, cacheXlate_banks, cacheXlate_mm, hroom]
    rfl

end Sys2Proof.Machine
end

section
/-!
PROOFS. O12: instructions that wait, and how a waiting context goes on (R168, R199 to R201, R205, R30).
-/
namespace Sys2Proof.Machine

section
variable {s t u : State} {n : Chan} {x : Ctx} {op : BitVec 6} {k : Fields} {ext : Bool} {body : Ctx → State → Done} {p : Prop} [Decidable p]

/-- An instruction that goes on from one state or the other. -/
theorem issue_ite (h : Runs s n x op k) (hx : hasExt op k = ext) (hb : body x (decided s n x) = .next (if p then t else u)) :
    issue op n k s body = if p then ranTo t n x ext else ranTo u n x ext := by
  rw [issue_next h hx hb, apply_ite (ranTo · n x ext)]

end

/-- The bits of WAITEV's mask. -/
theorem immField_mask {k : Fields} : BitVec.ofNat 4 (immField k 3 0) = BitVec.ofNat 4 k.imm.toNat := by
  apply BitVec.eq_of_toNat_eq
  simp [immField]

theorem waitevFields {k : Fields} (hc : k.c = 0) (hi : k.imm.toNat % 8192 < 16) (hm : k.imm.toNat % 16 ≠ 0)
    (hb : immBit k 13 = false → k.b = 0) :
    (zeroFields k true (immBit k 13) false true && immZero k 12 4 && BitVec.ofNat 4 (immField k 3 0) != 0) = true := by
  have h4 : immZero k 12 4 = true := by
    simp only [immZero, immField, beq_iff_eq]
    omega
  have hmask : BitVec.ofNat 4 (immField k 3 0) ≠ 0 := by
    intro h
    have := congrArg BitVec.toNat h
    rw [immField_mask, BitVec.toNat_ofNat] at this
    exact hm this
  rw [h4, bne_iff_ne.mpr hmask]
  cases hx : immBit k 13 with
  | true => simp [zeroFields, hc]
  | false => simp [zeroFields, hc, hb hx]

theorem fenceFields {k : Fields} (ha : k.a = 0) (hb : k.b = 0) (hc : k.c = 0) (h0 : 0 < k.imm.toNat) (h4 : k.imm.toNat < 4) :
    (zeroFields k false false false true && immZero k 13 2 && (immBit k 0 || immBit k 1)) = true := by
  have hbits : (immBit k 0 || immBit k 1) = true := by
    simp only [immBit, BitVec.getLsbD, Nat.testBit_eq_decide_div_mod_eq, Nat.pow_zero, Nat.pow_one, Nat.div_one, Bool.or_eq_true, decide_eq_true_eq]
    omega
  simp [zeroFields, ha, hb, hc, immZero_high (lo := 2) h4, hbits]

theorem waitFields {k : Fields} (hb : k.b = 0) (hc : k.c = 0) (hx : immBit k 13 = true → k.imm = 0x2000) (ha : immBit k 13 = false → k.a = 0) :
    (zeroFields k (immBit k 13) false false true && (!immBit k 13 || immField k 12 0 == 0)) = true := by
  cases h : immBit k 13 with
  | true => simp [zeroFields, hb, hc, immField, hx h]
  | false => simp [zeroFields, hb, hc, ha h]

/-- Without bit 13 the count is the whole immediate. -/
theorem immField_count {k : Fields} (h : immBit k 13 = false) : immField k 12 0 = k.imm.toNat := by
  have hlt := k.imm.isLt
  simp only [immBit, BitVec.getLsbD, Nat.testBit_eq_decide_div_mod_eq, decide_eq_false_iff_not] at h
  simp only [immField]
  omega

/-- Settles O12: what an instruction waits for is judged on the decided state, and a woken context is READY. -/
theorem waitingInstructions : Obligations.WaitingInstructions := by
  refine ⟨fun s n x k => ?_, fun s n x hh hin => ?_⟩
  · intro c waiting
    refine ⟨fun h ha hb hc h0 h4 => ?fence, fun h hb hc hx hr => ?wait, fun h hc hi => ?waitt, fun h hc hi hm hb => ?waitev,
      fun h ha hb hc hi => ?syncf⟩
    case fence =>
      refine congrArg _ ((issue_ite (t := decided s n x) (u := updCtx (decided s n x) n x fun c => { c with
        state := .waiting (.fence (immBit k 0) (immBit k 1) (immBit k 1 && s.chans[n].force.safe.isSome)) })
        (p := fenceHolds (decided s n x) n x (immBit k 0) (immBit k 1) false = true) h (hasExt_eq_false rfl rfl) ?_).trans ?_)
      · rw [checked_true _ _ (fenceFields ha hb hc h0 h4), ← decided_force s n x, apply_ite Done.next]
      · rw [ranTo_updCtx, ranTo_decided]
    case wait =>
      have hcount : (if immBit k 13 then (gr ((decided s n x).context n x) k.a).toNat else immField k 12 0)
          = if immBit k 13 then (gr c k.a).toNat else k.imm.toNat := by
        rw [decided_gr]
        cases hx : immBit k 13 with
        | true => rfl
        | false => exact immField_count hx
      intro count
      refine congrArg _ ((issue_ite (p := count = 0) h (hasExt_eq_false rfl rfl)
        (u := updCtx (decided s n x) n x fun c => { c with state := .waiting (.wait count) }) ?_).trans (congrArg _ (ranTo_updCtx ..)))
      rw [checked_true _ _ (waitFields hb hc hx hr), hcount]
    case waitt =>
      intro t
      refine congrArg _ ((issue_ite (p := t ≤ s.tb.now) h (hasExt_eq_false rfl rfl)
        (u := updCtx (decided s n x) n x fun c => { c with state := .waiting (.waitt t) }) ?_).trans (congrArg _ (ranTo_updCtx ..)))
      rw [checked_true _ _ (by simp [zeroFields, hc, hi])]
      simp only [decided_gr]
      rfl
    case waitev =>
      intro mask
      have ok := waitevFields hc hi hm hb
      have hp : pendingInput (decided s n x) n mask = pendingInput s n mask := rfl
      refine ⟨fun hn hx hg => congrArg _ (issue_updCtx h (hasExt_eq_false rfl rfl) ?_),
        fun hn hg => congrArg _ (issue_updCtx h (hasExt_eq_false rfl rfl) ?_),
        fun i hsome => congrArg _ (issue_next h (hasExt_eq_false rfl rfl) ?_)⟩
      · rw [checked_true _ _ ok, immField_mask, hp, hn, decided_gr, hx, hg]
        rfl
      · rw [checked_true _ _ ok, immField_mask, hp, hn, decided_gr]
        dsimp only
        rw [if_neg]
        cases hx : immBit k 13 with
        | true => simpa [BitVec.toNat_eq] using hg hx
        | false => simp
      · rw [checked_true _ _ ok, immField_mask, hp, hsome]
    case syncf =>
      refine congrArg _ ((issue_ite (p := s.ht.en = true) h (hasExt_eq_false rfl rfl)
        (t := updCtx (decided s n x) n x fun c => { c with state := .waiting .syncf }) (u := decided s n x) ?_).trans ?_)
      · rw [checked_true _ _ (by simp [zeroFields, ha, hb, hc, hi])]
        rfl
      · rw [ranTo_updCtx, ranTo_decided]
  · intro c ready
    have hwake : wake s n x = ready s := wake_window s n x hh hin
    refine ⟨fun mem out safe hc hf => ?fenceComplete, fun hc => ?waitComplete, fun t hc ht => ?waittRelease, fun reg mask hc => ?timeout⟩
    case fenceComplete =>
      rw [exec, execFenceComplete, hc]
      exact congrArg _ ((if_pos hf).trans hwake)
    case waitComplete =>
      rw [exec, execWaitComplete, hc]
      exact congrArg _ hwake
    case waittRelease =>
      rw [exec, execWaittRelease, hc]
      dsimp only
      rw [reach, if_neg (Nat.not_le.mpr ht), captureLead]
      refine ⟨fun hn => ?_, fun hn => ?_⟩
      · rw [if_pos hn]
        exact congrArg _ (wake_window _ n x hh hin)
      · rw [if_neg (Nat.not_le.mpr hn)]
    case timeout =>
      rw [exec, execWaitevTimeout, hc]
      refine congrArg _ (wake_window _ n x ?_ ?_)
      · rw [updCtx_context_self]
        exact hh
      · simpa [inImm] using hin

end Sys2Proof.Machine
end

section
/-!
PROOFS. O14 fails: the intent in force of the owner follows its MODE at once, which the statement leaves as it was.
-/
namespace Sys2Proof.Machine

/-- MODE FV. -/
def modeFv : Fields := ⟨0, 0, 0, 1, 0⟩

/-- Context 2 of channel 12 runs MODE FV from the immediate buffer, owns the channel, and was its owner at the last sample tick; nothing blocks
MODE, and the slot answers with an identity that declares every range. -/
def modeByOwner : State :=
  let s := updForce State.reset 12 fun f => { f with owner := 2, slot := { f.slot with ident := List.replicate 11 1 ++ [0xFFF] } }
  let s := updGraver s 12 fun g => { g with imm := [baseWord 0x20 modeFv], immBusy := true, ctx := g.ctx.set 2 { state := .ready } }
  { s with pl := { s.pl with deten := false } }

/-- The mode of the intent in force of channel 12 after a command. -/
def appliedMode : Host.Outcome State Fault Refusal → Option Mode
  | .next t => some t.chans[(12 : Chan)].force.applied.mode
  | _ => none

/-- What the statement says of the owner's MODE leaves the intent in force as it is. -/
def modeAsStated : State :=
  let u := updCtx (decided modeByOwner 12 2) 12 2 fun c =>
    { c with intent := c.intent.withMode .fv, modeHeld := decide (Mode.fv ≠ .inert) && slotHeld modeByOwner.chans[(12 : Chan)].force }
  ranTo (updForce u 12 fun f => { f with inertReq := false, parkCtx := none }) 12 2 false

/-- Refutes O14: the owner's MODE FV puts FV into the intent in force (Force.applied), which the statement's state keeps at INERT. -/
theorem not_modeAndRange : ¬ Obligations.ModeAndRange := by
  intro h
  obtain ⟨hmode, -⟩ := h modeByOwner 12 2 modeFv (by decide +kernel) (by decide +kernel) rfl rfl rfl
  obtain ⟨-, -, howner, -⟩ := hmode (by decide +kernel) .fv (by decide) rfl (.inr (by decide +kernel))
  have hrun : exec (.mode 12 modeFv) modeByOwner = .next modeAsStated := howner (by decide +kernel) (by decide +kernel) (by decide)
  have model : appliedMode (exec (.mode 12 modeFv) modeByOwner) = some .fv := by decide +kernel
  have stated : appliedMode (.next modeAsStated) = some .inert := by decide +kernel
  rw [hrun, stated] at model
  exact absurd model (by decide)

end Sys2Proof.Machine
end

section
/-!
PROOFS. O15: LEVEL and STROBE (R181, R182, R53).
-/
namespace Sys2Proof.Machine

section
variable {s t : State} {n : Chan} {x : Ctx} {op : BitVec 6} {k : Fields} {ext : Bool} {body : Ctx → State → Done} {v : Nat}

/-- An instruction of the output class that no privilege stops. -/
theorem issue_output {ok : Bool} {d : Done} (h : Runs s n x op k) (ho : (s.context n x).obs = false)
    (hr : (s.chans[n].force.relieved && isRelief n && x != 3) = false) (hx : hasExt op k = ext) (hok : ok = true) (hd : d = .next t)
    (hb : body x (decided s n x) = checked ok (noObs (decided s n x) n x d)) : issue op n k s body = ranTo t n x ext :=
  issue_next h hx (by rw [hb, checked_true _ _ hok, noObs_ok s n x d ho hr, hd])

/-- An immediate written as a numeral. -/
theorem immBit_ofNat (h : k.imm = BitVec.ofNat 14 v) (i : Nat) : immBit k i = (decide (i < 14) && v.testBit i) := by
  rw [immBit, h, BitVec.getLsbD_ofNat]

theorem immField_ofNat (h : k.imm = BitVec.ofNat 14 v) (hi lo : Nat) : immField k hi lo = v % 2 ^ 14 / 2 ^ lo % 2 ^ (hi - lo + 1) := by
  rw [immField, h, BitVec.toNat_ofNat]

theorem immBit_lt {i : Nat} (h : k.imm.toNat < 2 ^ i) : immBit k i = false := Nat.testBit_lt_two_pow h

end

/-- R181: the code that LEVEL stages from a register. -/
theorem satLevel_eq (v : Int) : satLevel v = max (-524288) (min 524287 v) := clampInt_eq_max_min (by decide) v

/-- A word within the code range is the code in its bits 19:0. -/
theorem sfield_code {w : Word} (h : -524288 ≤ w.toInt) (h' : w.toInt ≤ 524287) : sfield w 19 0 = w.toInt := by
  have hw := w.isLt
  rw [BitVec.toInt_eq_toNat_cond] at h h' ⊢
  simp only [sfield, field, signedOf]
  split at h <;> omega

/-- R181: the fields and the operand of LEVEL. -/
theorem levelOperand_eq {c : Context} {k : Fields} {ext : Bool} {code : Int}
    (hi : k.imm = if ext then 0x2000 else 0) (ha : ext = true → k.a = 0)
    (hext : ext = true → code = k.ext.toInt ∧ -524288 ≤ code ∧ code ≤ 524287)
    (hreg : ext = false → code = max (-524288) (min 524287 (gr c k.a).toInt)) :
    immBit k 13 = ext ∧ levelOk k = true ∧ levelOperand c k = code := by
  cases ext with
  | false =>
    have hx : immBit k 13 = false := by simp [immBit, hi]
    refine ⟨hx, by simp [levelOk, regOrExtOk, immField, hx, hi], ?_⟩
    rw [levelOperand, hx, hreg rfl]
    exact satLevel_eq _
  | true =>
    obtain ⟨rfl, h1, h2⟩ := hext rfl
    have hx : immBit k 13 = true := by simp [immBit, hi]
    have hs := sfield_code h1 h2
    refine ⟨hx, by simp [levelOk, regOrExtOk, immField, hx, hi, ha, hs], ?_⟩
    rw [levelOperand, hx]
    exact hs

/-- R182: the fields of STROBE. -/
theorem strobeFields {k : Fields} {v w : Nat} (ha : k.a = 0) (hb : k.b = 0) (hc : k.c = 0) (hv : v < 16) (hw : w = 0 ∨ w = 4096)
    (hi : k.imm = BitVec.ofNat 14 (w + v)) :
    immBit k 12 = decide (w = 4096) ∧ immField k 3 0 = v
      ∧ (zeroFields k false false false true && !immBit k 13 && immZero k 11 4) = true := by
  have h12 : immBit k 12 = decide (w = 4096) := by
    rw [immBit_ofNat hi, Nat.testBit_eq_decide_div_mod_eq, Bool.eq_iff_iff]
    simp only [Nat.reduceLT, decide_true, Bool.true_and, decide_eq_true_eq]
    omega
  have h13 : immBit k 13 = false := immBit_lt (by rw [hi, BitVec.toNat_ofNat]; omega)
  have h4 : immZero k 11 4 = true := by
    rw [immZero, immField_ofNat hi, beq_iff_eq]
    omega
  refine ⟨h12, ?_, by simp [zeroFields, ha, hb, hc, h13, h4]⟩
  rw [immField_ofNat hi]
  omega

/-- Settles O15: LEVEL's operand is a code, and the owner is that of the decided state. -/
theorem levelAndStrobe : Obligations.LevelAndStrobe := by
  intro s n x k ho hr hb hc d owns
  refine ⟨fun h ext code hi ha hext hreg => ?level, fun ha h => ⟨fun hi => ?select, fun hi hown => ?fire, fun hi hown => ?transfer, fun g hg hi => ?group⟩⟩
  case level =>
    obtain ⟨hx, hok, hcode⟩ := levelOperand_eq (c := (decided s n x).context n x) hi ha hext (by rwa [decided_gr])
    rw [← hcode]
    exact congrArg _ (issue_output h ho hr ((hasExt_eq_immBit rfl rfl).trans hx) (by simp [zeroFields, hb, hc, hok]) rfl rfl)
  case select =>
    obtain ⟨h12, h3, hok⟩ := strobeFields (v := k.imm.toNat) (w := 0) ha hb hc (by omega) (.inl rfl) (by simp)
    have hv : (decide (immField k 3 0 ≤ 1) || decide (8 ≤ immField k 3 0)) = true := by
      rw [h3, Bool.or_eq_true, decide_eq_true_eq, decide_eq_true_eq]
      omega
    rw [exec, execStrobeSelect, if_neg (by simp [h12])]
    exact congrArg _ (issue_output h ho hr (hasExt_eq_false rfl rfl) (by rw [hok, hv]; rfl) (by rw [h3]) rfl)
  case fire =>
    obtain ⟨h12, h3, hok⟩ := strobeFields (v := 1) (w := 4096) ha hb hc (by omega) (.inr rfl) hi
    rw [exec, execStrobeFire, if_neg (by simp [h12])]
    refine congrArg _ (issue_output h ho hr (hasExt_eq_false rfl rfl) (by rw [hok, h3]; rfl) ?_ rfl)
    rw [h3, if_neg (by decide), if_pos ((decided_ownerOf h.2.1).trans hown)]
  case transfer =>
    obtain ⟨h12, h3, hok⟩ := strobeFields (v := 1) (w := 4096) ha hb hc (by omega) (.inr rfl) hi
    rw [exec, execStrobeFire, if_neg (by simp [h12])]
    refine congrArg _ ((issue_output h ho hr (hasExt_eq_false rfl rfl) (by rw [hok, h3]; rfl) ?_ rfl).trans (ranTo_updCtx ..))
    rw [h3, if_neg (by decide), if_neg fun e => hown ((decided_ownerOf h.2.1).symm.trans e)]
  case group =>
    obtain ⟨h12, h3, hok⟩ := strobeFields (v := 8 + g) (w := 4096) ha hb hc (by omega) (.inr rfl) (by rw [hi]; congr 1; omega)
    have h8 : decide (8 ≤ immField k 3 0) = true := by
      rw [h3, decide_eq_true_eq]
      omega
    rw [exec, execStrobeFire, if_neg (by simp [h12])]
    refine congrArg _ (issue_output h ho hr (hasExt_eq_false rfl rfl) (by rw [hok, h8, Bool.or_true]; rfl) ?_ rfl)
    rw [if_pos (by simpa using h8), h3, Nat.add_sub_cancel_left, fireGroup]

end Sys2Proof.Machine
end

section
/-!
PROOFS. O16: CLAMP, SLEW, RAMP, COMPS, CONNECT and ISOLATE (R183 to R187, R57, R62, R78).
-/
namespace Sys2Proof.Machine

/-- An update that changes nothing. -/
theorem updChan_self {s : State} {n : Chan} {f : Channel → Channel} (h : f s.chans[n] = s.chans[n]) : updChan s n f = s := by
  rw [updChan, h]
  simp

theorem updForce_self {s : State} {n : Chan} {f : Force → Force} (h : f s.chans[n].force = s.chans[n].force) : updForce s n f = s :=
  updChan_self (by rw [h])

/-- Two updates of a force path that agree on it are one. -/
theorem updForce_congr {s : State} {n : Chan} {f g : Force → Force} (h : f s.chans[n].force = g s.chans[n].force) :
    updForce s n f = updForce s n g := by
  simp only [updForce, updChan, h]

section
variable {s t u : State} {n : Chan} {x : Ctx} {op : BitVec 6} {k : Fields} {ext : Bool} {body : Ctx → State → Done}

/-- Only the owner's CONNECT and ISOLATE act (Table 4.6). -/
theorem issue_owner {ok : Bool} {d : Done} (h : Runs s n x op k) (ho : (s.context n x).obs = false)
    (hr : (s.chans[n].force.relieved && isRelief n && x != 3) = false) (hown : ownerOf s.chans[n] = some x) (hx : hasExt op k = ext)
    (hok : ok = true) (hd : d = .next t) (hb : body x (decided s n x) = checked ok (ownerOnly (decided s n x) n x d)) :
    issue op n k s body = ranTo t n x ext :=
  issue_output (d := if ownerOf (decided s n x).chans[n] = some x then d else .fault .priv) h ho hr hx hok
    ((if_pos ((decided_ownerOf h.2.1).trans hown)).trans hd) hb

end

theorem clampFields {k : Fields} {ext : Bool} (hx : immBit k 13 = ext) (ha : ext = true → k.a = 0) (hb : k.b = 0) (hc : k.c = 0)
    (hi : k.imm.toNat % 8192 = 0) : (zeroFields k true false false true && regOrExtOk k && immField k 12 0 == 0) = true := by
  have h0 : immField k 12 0 = 0 := by simpa [immField] using hi
  have hr : regOrExtOk k = true := by
    rw [regOrExtOk, hx]
    cases ext
    · rfl
    · simp [ha rfl]
  simp [zeroFields, hb, hc, hr, h0]

/-- A signed field of a word. -/
theorem sfield_eq_toInt (w : Word) (hi lo : Nat) : sfield w hi lo = (w.extractLsb' lo (hi - lo + 1)).toInt := by
  have hp : 2 ^ (hi - lo + 1) = 2 * 2 ^ (hi - lo) := by rw [Nat.pow_succ, Nat.mul_comm]
  have hlt := Nat.mod_lt (w.toNat / 2 ^ lo) (Nat.two_pow_pos (hi - lo + 1))
  have hcast : ((2 ^ (hi - lo + 1) : Nat) : Int) = 2 ^ (hi - lo + 1) := by norm_cast
  rw [BitVec.toInt_eq_toNat_cond, BitVec.extractLsb'_toNat, Nat.shiftRight_eq_div_pow, sfield, field, signedOf, Nat.mod_eq_of_lt hlt,
    Nat.add_sub_cancel, hcast]
  have hiff : w.toNat / 2 ^ lo % 2 ^ (hi - lo + 1) < 2 ^ (hi - lo) ↔ 2 * (w.toNat / 2 ^ lo % 2 ^ (hi - lo + 1)) < 2 ^ (hi - lo + 1) := by omega
  simp only [hiff]

section
variable {s : State} {n : Chan} {x : Ctx} {k : Fields} {ext : Bool}

/-- R183: CLAMP by the difference of its pair and by the owner. -/
theorem execClamp_runs (h : Runs s n x 0x24 k) (ho : (s.context n x).obs = false)
    (hr : (s.chans[n].force.relieved && isRelief n && x != 3) = false) (hx : immBit k 13 = ext) (ha : ext = true → k.a = 0) (hb : k.b = 0)
    (hc : k.c = 0) (hi : k.imm.toNat % 8192 = 0) {w : Word} (hw : w = if ext then k.ext else gr (s.context n x) k.a) (own : Bool)
    (hown : own = (ownerOf s.chans[n] == some x)) :
    let d := decided s n x
    let hi := (w.extractLsb' 16 16).toInt
    let lo := (w.extractLsb' 0 16).toInt
    exec (.clamp n k) s = .next (ranTo (if hi - lo < 256 then if own then updForce d n fun f => { f with clampRej := true } else d
      else if own then updForce (updIntent d n x (newClamps s.chans[n].force own hi lo)) n fun f => { f with satHi := false, satLo := false }
      else updIntent d n x (newClamps s.chans[n].force own hi lo)) n x ext) := by
  intro d hi' lo
  have hword : regOrExt ((decided s n x).context n x) k = w := by rw [regOrExt, hx, decided_gr, hw]
  have hpair : sfield w 31 16 = hi' ∧ sfield w 15 0 = lo := ⟨sfield_eq_toInt w 31 16, sfield_eq_toInt w 15 0⟩
  refine congrArg _ (issue_output h ho hr ((hasExt_eq_immBit rfl rfl).trans hx) (clampFields hx ha hb hc hi) ?_ rfl)
  rw [hword, hpair.1, hpair.2, decided_ownerOf h.2.1, ← hown, decided_force]
  exact (apply_ite Done.next ..).symm

theorem slewFields {e : Nat} (hx : immBit k 13 = ext) (hc : k.c = 0) (hreg : ext = false → k.imm = 0)
    (hext : ext = true → k.a = 0 ∧ k.b = 0 ∧ k.imm.toNat % 8192 < 16 ∧ 1 ≤ e) :
    (zeroFields k true true false true && immZero k 12 4 && (ext || immZero k 3 0)
        && (!ext || (k.a == 0 && k.b == 0 && e != 0))) = true := by
  cases ext with
  | false => simp [zeroFields, hc, immZero, immField, hreg rfl]
  | true =>
    obtain ⟨ha, hb, hi, he⟩ := hext rfl
    have h4 : immZero k 12 4 = true := by
      simp only [immZero, immField, beq_iff_eq]
      omega
    simp [zeroFields, ha, hb, hc, h4, Nat.one_le_iff_ne_zero.mp he]

end

/-- An immediate of which bit 13 only may be set. -/
theorem imm_of_bit13 {k : Fields} {ext : Bool} (hx : immBit k 13 = ext) (hi : k.imm.toNat % 8192 = 0) :
    k.imm = if ext then 0x2000 else 0 := by
  have hlt := k.imm.isLt
  have h13 : decide (k.imm.toNat / 8192 % 2 = 1) = ext := by
    rw [← hx, immBit, BitVec.getLsbD, Nat.testBit_eq_decide_div_mod_eq]
  have hv : k.imm.toNat = if ext then 8192 else 0 := by
    subst h13
    split <;> simp_all <;> omega
  apply BitVec.eq_of_toNat_eq
  rw [hv]
  cases ext <;> rfl

theorem mayConnect_false {f : Force} {m : Mode} (h : (f.fltLatch = true ∨ f.oen = true) ∨ (∃ p, f.seq = .entering p)
    ∨ (f.seq = .idle ∧ f.mode = .inert ∧ (m = .inert ∨ slotHeld f = true))) : mayConnect f m = false := by
  obtain (h | h) | ⟨p, h⟩ | ⟨hs, hm, h⟩ := h
  · simp [mayConnect, h]
  · simp [mayConnect, h]
  · simp [mayConnect, h]
  · obtain h | h := h <;> simp [mayConnect, hs, hm, h]

theorem mayConnect_true {f : Force} {m : Mode} (hl : f.fltLatch = false) (ho : f.oen = false)
    (h : (f.seq = .idle ∧ (f.mode ≠ .inert ∨ (m ≠ .inert ∧ slotHeld f = false))) ∨ ∃ p, f.seq = .leaving p) : mayConnect f m = true := by
  obtain ⟨hs, h⟩ | ⟨p, h⟩ := h
  · obtain h | ⟨h, hh⟩ := h
    · simp [mayConnect, hl, ho, hs, h]
    · simp [mayConnect, hl, ho, hs, h, hh]
  · simp [mayConnect, hl, ho, h]

/-- Settles O16: each operand is legal and names the settings that its body writes. -/
theorem clampSlewCompRelay : Obligations.ClampSlewCompRelay := by
  intro s n x k ext ho hr hx hc d owns write a b w f direct
  have hext : ∀ {op : BitVec 6}, extAlways op = false → extOnX op = true → hasExt op k = ext := fun h h' => (hasExt_eq_immBit h h').trans hx
  refine ⟨fun h ha hb hi hi' lo hhi hlo => ?clamp, fun h e m step period hreg hextw hslew => ?slew, fun h ha hi code dist e m hextw hreg hdist hslew => ?ramp,
    fun h ha hb => ⟨fun hi => ?comp, fun hi hz => ?comps⟩, fun h ha hb hown => ⟨fun hi hlatch hoen hseq => ?connect, fun hi hno => ?noConnect, fun hi => ?isolate⟩⟩
  case clamp =>
    subst hhi hlo
    have run := fun own => execClamp_runs h ho hr hx ha hb hc hi rfl own
    refine ⟨fun hd hno => (run false (beq_eq_false_iff_ne.mpr hno).symm).trans ?_, fun hd hown => (run true (beq_iff_eq.mpr hown).symm).trans ?_,
      fun hd hown => (run true (beq_iff_eq.mpr hown).symm).trans ?_, fun hd hno => (run false (beq_eq_false_iff_ne.mpr hno).symm).trans ?_⟩
    · rw [if_neg (by simpa using hd)]
      rfl
    · rw [if_neg (by simpa using hd)]
      rfl
    · rw [if_pos hd]
      rfl
    · rw [if_pos hd]
      exact congrArg _ (ranTo_decided ..)
  case slew =>
    have hstep : (if immBit k 13 then field k.ext 15 0 * 2 ^ immField k 3 0 else (gr ((decided s n x).context n x) k.a).toNat) = step := by
      rw [hx, decided_gr]
      cases ext with
      | false => exact (hreg rfl).2.1.symm
      | true => simp [field, immField, (hextw rfl).2.2.2.1]
    have hperiod : (if immBit k 13 then field k.ext 31 16 else max 1 (min (gr ((decided s n x).context n x) k.b).toNat 65535)) = period := by
      rw [hx, decided_gr]
      cases ext with
      | false => exact (hreg rfl).2.2.symm
      | true =>
        have := k.ext.isLt
        obtain ⟨-, -, -, -, hp, -⟩ := hextw rfl
        simp only [field, if_true, hp]
        omega
    refine congrArg _ (issue_output h ho hr (hext rfl rfl) (slewFields (e := period) hx hc (fun e => (hreg e).1) fun he => ?_) rfl ?_)
    · obtain ⟨ha, hb, hi, -, -, hp⟩ := hextw he
      exact ⟨ha, hb, hi, hp⟩
    · dsimp only
      rw [hstep, hperiod, hslew, hx]
  case ramp =>
    obtain ⟨-, hok, hcode⟩ := levelOperand_eq (c := (decided s n x).context n x) (imm_of_bit13 hx hi) ha hextw (by rwa [decided_gr])
    have hdist : (levelOperand ((decided s n x).context n x) k - ((decided s n x).context n x).intent.level).natAbs = dist := by
      rw [hcode, decided_intent, hdist]
    have hb : (gr ((decided s n x).context n x) k.b).toNat = b.toNat := by rw [decided_gr]
    have hzero : b.toNat = 0 ↔ b = 0 := (BitVec.toNat_inj (y := (0 : Word))).trans Iff.rfl
    refine congrArg _ (issue_output h ho hr (hext rfl rfl) ?_ ?_ rfl)
    · simp [zeroFields, hc, hok]
    · rw [hdist, hcode, hb]
      simp only [hzero, hslew]
      rfl
  case comp =>
    have h13 : immBit k 13 = false := immBit_lt (by omega)
    refine congrArg _ (issue_output h ho hr (hext rfl rfl) ?_ ?_ rfl)
    · simp [zeroFields, ha, hb, hc, h13, immZero_high (lo := 4) (hi := 12) hi]
    · rw [h13, immField_low (hi := 3) hi]
      rfl
  case comps =>
    have h13 : immBit k 13 = true := by simp [immBit, hi]
    have hz' : field k.ext 29 16 = 0 := by
      have := congrArg BitVec.toNat hz
      rw [BitVec.extractLsb'_toNat, Nat.shiftRight_eq_div_pow] at this
      exact this
    refine congrArg _ (issue_output h ho hr (hext rfl rfl) ?_ ?_ rfl)
    · simp [zeroFields, ha, hb, hc, immZero, immField, immBit, hi, hz']
    · have hflag : ∀ i, flag k.ext i = k.ext.getLsbD i := fun i => by
        rw [flag, BitVec.getLsbD, Nat.testBit_eq_decide_div_mod_eq]
        rfl
      simp only [h13, if_true, hflag, field, Nat.reduceSub, Nat.reduceAdd, Nat.reducePow, Nat.pow_zero, Nat.div_one]
      rfl
  case connect =>
    have hx0 : ext = false := by rw [← hx, immBit, hi]; rfl
    rw [exec, execConnect, if_neg (by simp [immBit, hi])]
    refine congrArg _ (issue_owner h ho hr hown ((hasExt_eq_false rfl rfl).trans hx0.symm) ?_ ?_ rfl)
    · simp [zeroFields, hb, hc, ha, immZero, immField, hi]
    · refine congrArg _ (updForce_congr ?_)
      rw [decided_intent, decided_force, if_pos (mayConnect_true hlatch hoen hseq)]
  case noConnect =>
    have hx0 : ext = false := by rw [← hx, immBit, hi]; rfl
    rw [exec, execConnect, if_neg (by simp [immBit, hi])]
    refine congrArg _ ((issue_owner (t := d) h ho hr hown ((hasExt_eq_false rfl rfl).trans hx0.symm) ?_ ?_ rfl).trans (ranTo_decided ..))
    · simp [zeroFields, hb, hc, ha, immZero, immField, hi]
    · refine congrArg _ (updForce_self ?_)
      rw [decided_intent, decided_force, if_neg (by rw [mayConnect_false hno]; exact Bool.false_ne_true)]
  case isolate =>
    have hx0 : ext = false := by rw [← hx, immBit, hi]; rfl
    rw [exec, execIsolate, if_neg (by simp [immBit, hi])]
    exact congrArg _ (issue_owner h ho hr hown ((hasExt_eq_false rfl rfl).trans hx0.symm)
      (by simp [zeroFields, hb, hc, ha, immZero, immField, hi]) rfl rfl)

end Sys2Proof.Machine
end

section
/-!
PROOFS. O17: the step of SLEW (R57).
-/
namespace Sys2Proof.Machine

/-- The exponent of the step: the first that brings the request within 1,023. -/
theorem slewOf_spec {req : Nat} (h1 : 1 ≤ req) (h2 : req ≤ 524288) :
    ∃ e, slewOf req = (e, req / 2 ^ e) ∧ e ≤ 10 ∧ req / 2 ^ e ≤ 1023 ∧ ∀ j < e, 1024 ≤ req / 2 ^ j := by
  have hr : (if req = 0 then 1 else min req 524288) = req := by
    rw [if_neg (by omega), Nat.min_eq_left h2]
  rw [slewOf]
  simp only [hr]
  split
  next e he =>
    rw [List.find?_range_eq_some] at he
    obtain ⟨hp, hlt, hfirst⟩ := he
    refine ⟨e, rfl, by simpa [Nat.lt_succ_iff] using hlt, by simpa using hp, fun j hj => ?_⟩
    simpa [Nat.not_le, Nat.lt_iff_add_one_le] using hfirst j hj
  next hnone =>
    have := List.find?_eq_none.mp hnone 10 (by simp)
    simp only [decide_eq_true_eq] at this
    omega

/-- Settles O17: an exponent below the first one that fits gives at most 1,023 steps of it, the others divide the request. -/
theorem slewStepRoundsDown : Obligations.SlewStepRoundsDown := by
  intro req h1 h2
  obtain ⟨e, hs, he, hm, hfirst⟩ := slewOf_spec h1 h2
  rw [hs]
  have hle : req / 2 ^ e * 2 ^ e ≤ req := Nat.div_mul_le_self req (2 ^ e)
  have half : ∀ j, e = j + 1 → 512 ≤ req / 2 ^ e := fun j hj => by
    have := hfirst j (by omega)
    rw [hj, Nat.pow_succ, ← Nat.div_div_eq_div_mul]
    omega
  refine ⟨he, ?_, hm, hle, fun e' m' _ hm' hreq => ?_⟩
  · cases e with
    | zero => simpa using h1
    | succ j => exact Nat.le_trans (by omega : 1 ≤ 512) (half j rfl)
  · obtain hlt | hge := Nat.lt_or_ge e' e
    · obtain ⟨j, rfl⟩ := Nat.exists_eq_succ_of_ne_zero (Nat.ne_zero_of_lt hlt)
      calc m' * 2 ^ e' ≤ 1024 * 2 ^ j := Nat.mul_le_mul (by omega) (Nat.pow_le_pow_right (by decide) (by omega))
        _ = 512 * 2 ^ (j + 1) := by rw [Nat.pow_succ]; omega
        _ ≤ req / 2 ^ (j + 1) * 2 ^ (j + 1) := Nat.mul_le_mul_right _ (half j rfl)
    · have hpow : 2 ^ e' = 2 ^ (e' - e) * 2 ^ e := by rw [← Nat.pow_add, Nat.sub_add_cancel hge]
      rw [hpow, ← Nat.mul_assoc] at hreq ⊢
      exact Nat.mul_le_mul_right _ ((Nat.le_div_iff_mul_le (Nat.two_pow_pos e)).mpr hreq)

end Sys2Proof.Machine
end

section
/-!
PROOFS. O18: MEAS, APER, AUTOR and PKT (R108, R188 to R190, R192).
-/
namespace Sys2Proof.Machine

section
variable {s : State} {n : Chan} {x : Ctx} {op : BitVec 6} {k : Fields} {ext : Bool} {body : Ctx → State → Done}

/-- Two updates of a measurement path that agree on it are one. -/
theorem updMeas_congr {s : State} {n : Chan} {f g : Measure → Measure} (h : f s.chans[n].meas = g s.chans[n].meas) :
    updMeas s n f = updMeas s n g := by
  simp only [updMeas, updChan, h]

/-- The settings that the next sample tick brings are those of the decided state. -/
theorem setMeas_decided (s : State) (n : Chan) (x : Ctx) (f : MeasCfg → MeasCfg) :
    setMeas (decided s n x) n f = updMeas (decided s n x) n fun m => { m with next := some (f (s.chans[n].meas.next.getD s.chans[n].meas.cfg)) } :=
  updMeas_congr (by rw [decided_meas])

/-- An instruction that writes settings of the measurement. -/
theorem issue_setMeas {ok : Bool} {f : MeasCfg → MeasCfg} (h : Runs s n x op k) (hx : hasExt op k = ext) (hok : ok = true)
    (hb : body x (decided s n x) = checked ok (.next (setMeas (decided s n x) n f))) :
    issue op n k s body = ranTo (updMeas (decided s n x) n fun m =>
      { m with next := some (f (s.chans[n].meas.next.getD s.chans[n].meas.cfg)) }) n x ext := by
  rw [issue_next h hx (hb.trans (checked_true _ _ hok)), setMeas_decided]

end

/-- A field of a word written as a numeral. -/
theorem field_ofNat {w : Word} {v : Nat} (h : w = BitVec.ofNat 32 v) (hi lo : Nat) :
    field w hi lo = v % 2 ^ 32 / 2 ^ lo % 2 ^ (hi - lo + 1) := by rw [field, h, BitVec.toNat_ofNat]

/-- Settles O18: each form's fields pass their check, and the settings to come are those of the decided state. -/
theorem measurementSettings : Obligations.MeasurementSettings := by
  intro s n x k hb hc d next set
  refine ⟨fun h ha hi => ?smode, fun h count hform => ?count, fun h w ext hform hres => ?aper, fun h ha => ⟨fun hi => ?auto, fun en hi lo time hhi hlo ht hen hi' he => ?autoExt⟩,
    fun h ha => ⟨fun hi => ?close, fun age h1 h1000 hi => ?age⟩⟩
  case smode =>
    have hf : immField k 13 12 = 0 := by simp only [immField]; omega
    rw [exec, execMeasSmode, if_neg (by simp [hf])]
    refine congrArg _ ((issue_setMeas h (hasExt_eq_false rfl rfl) ?_ rfl).trans ?_)
    · simp [zeroFields, ha, hb, hc, immZero_high (lo := 2) (hi := 11) hi]
    · rw [immField_low (hi := 1) hi]
  case count =>
    have hcount : (immField k 13 12 = 1 ∨ immField k 13 12 = 2) ∧ (zeroFields k (immField k 13 12 == 2) false false true && (!(immField k 13 12 == 2) || immZero k 11 0)) = true
        ∧ (if immField k 13 12 == 2 then (gr ((decided s n x).context n x) k.a).toNat else immField k 11 0) = count := by
      obtain ⟨ha, hlt, hi⟩ | ⟨hi, rfl⟩ := hform
      · have h1 : immField k 13 12 = 1 := by rw [immField_ofNat hi]; omega
        have h2 : immField k 11 0 = count := by rw [immField_ofNat hi]; omega
        refine ⟨.inl h1, by simp [zeroFields, ha, hb, hc, h1], by rw [h1, h2]; rfl⟩
      · have h2 : immField k 13 12 = 2 := by rw [immField, hi]; rfl
        refine ⟨.inr h2, by simp [zeroFields, hb, hc, immZero, immField, hi], by rw [h2, decided_gr]; rfl⟩
    obtain ⟨hf, hok, hcount⟩ := hcount
    have hoff : ((effectiveCfg (decided s n x).chans[n].meas).smode == .off) = decide (next.smode = .off) := by
      rw [effectiveCfg, decided_meas]
      rfl
    rw [exec, execMeasCount, if_neg (by obtain h | h := hf <;> simp [h])]
    refine congrArg _ ((issue_ite (p := count = 0 ∨ next.smode = .off) (t := d) (u := updCtx d n x fun c => { c with state := .waiting (.meas count true none) }) h (hasExt_eq_false rfl rfl) ?_).trans ?_)
    · rw [checked_true _ _ hok, hcount, hoff]
      simp only [Bool.or_eq_true, decide_eq_true_eq]
      exact (apply_ite Done.next ..).symm
    · rw [ranTo_updCtx, ranTo_decided]
  case aper =>
    have hform : immBit k 13 = ext ∧ regOrExt ((decided s n x).context n x) k = w
        ∧ (zeroFields k true false false true && regOrExtOk k && immField k 12 0 == 0 && (!immBit k 13 || field w 31 24 == 0)) = true := by
      obtain ⟨rfl, ha, hi, rfl, hw⟩ | ⟨rfl, hi, rfl⟩ := hform
      · have hx : immBit k 13 = true := by rw [immBit, hi]; rfl
        have hz : field k.ext 31 24 = 0 := by simp only [field]; omega
        exact ⟨hx, by rw [regOrExt, hx, if_pos rfl], by simp [zeroFields, regOrExtOk, immField, ha, hb, hc, hi, hz]⟩
      · have hx : immBit k 13 = false := by rw [immBit, hi]; rfl
        exact ⟨hx, by rw [regOrExt, hx, decided_gr]; rfl, by simp [zeroFields, regOrExtOk, immField, hb, hc, hx, hi]⟩
    obtain ⟨hx, hword, hok⟩ := hform
    refine congrArg _ (issue_setMeas (f := aperCfg w) (ok := zeroFields k true false false true && regOrExtOk k && immField k 12 0 == 0
      && (!immBit k 13 || field w 31 24 == 0) && !aperReserved w) h ((hasExt_eq_immBit rfl rfl).trans hx) ?_ ?_)
    · rw [hok, hres]
      rfl
    · rw [← hword]
  case auto =>
    have hx : immBit k 13 = false := immBit_lt (by omega)
    have hz : immField k 12 1 = 0 := by simp only [immField]; omega
    refine congrArg _ ((issue_setMeas h ((hasExt_eq_immBit rfl rfl).trans hx) ?_ rfl).trans ?_)
    · simp [zeroFields, ha, hb, hc, hx, hz]
    · simp only [hx]
      rfl
  case autoExt =>
    have hx : immBit k 13 = true := by rw [immBit, hi']; rfl
    have hen2 := Bool.toNat_le en
    have h31 : flag k.ext 31 = en := by
      have : (2 ^ 31 * en.toNat + 2 ^ 20 * hi + 2 ^ 16 * lo + time) % 2 ^ 32 / 2 ^ 31 % 2 = en.toNat := by omega
      rw [flag, he, BitVec.toNat_ofNat, this]
      cases en <;> rfl
    have hfields : field k.ext 30 24 = 0 ∧ field k.ext 23 20 = hi ∧ field k.ext 19 16 = lo ∧ field k.ext 15 0 = time := by
      simp only [field_ofNat he]
      refine ⟨?_, ?_, ?_, ?_⟩ <;> omega
    obtain ⟨h30, h23, h19, h15⟩ := hfields
    refine congrArg _ ((issue_setMeas h ((hasExt_eq_immBit rfl rfl).trans hx) ?_ rfl).trans ?_)
    · rw [hx, h31, h30, h23, h19, h15]
      have ht : (!(time == 0 && en)) = true := by
        cases en with
        | false => simp
        | true => simpa using hen rfl
      simp [zeroFields, ha, hb, hc, hi', immBit, immField, hhi, hlo, ht]
    · simp only [hx, h31, h23, h19, h15]
      rfl
  case close =>
    rw [exec, execPktClose, if_neg (by simp [immBit, hi])]
    exact congrArg _ (issue_next h (hasExt_eq_false rfl rfl) (checked_true _ _ (by simp [zeroFields, ha, hb, hc, hi])))
  case age =>
    have h12 : immBit k 12 = true := by
      rw [immBit_ofNat hi, Nat.testBit_eq_decide_div_mod_eq]
      simp only [Nat.reduceLT, decide_true, Bool.true_and, decide_eq_true_eq]
      omega
    have h13 : immBit k 13 = false := immBit_lt (by rw [hi, BitVec.toNat_ofNat]; omega)
    have hz : immZero k 11 10 = true := by
      rw [immZero, immField_ofNat hi, beq_iff_eq]
      omega
    have hage : immField k 9 0 = age := by
      rw [immField_ofNat hi]
      omega
    rw [exec, execPktAge, if_neg (by simp [h12])]
    refine congrArg _ ((issue_setMeas h (hasExt_eq_false rfl rfl) ?_ rfl).trans ?_)
    · simp [zeroFields, ha, hb, hc, h13, hz, hage, h1000, Nat.one_le_iff_ne_zero.mp h1]
    · rw [hage]

end Sys2Proof.Machine
end

section
/-!
PROOFS. O19: TAG, MARK, EMIT, ARM and BLANK (R117, R191, R202 to R204, R206, R252).
-/
namespace Sys2Proof.Machine

/-- R191, R206: a mark of the decided state. -/
theorem commitMark_decided (s : State) (n : Chan) (x : Ctx) (qual payload : Nat) :
    commitMark (decided s n x) n qual payload =
      if streaming (s.chans[n].meas.next.getD s.chans[n].meas.cfg).smode && !s.pwr.vigil && !calOwns s.chans[n] then
        updMeas (decided s n x) n fun m => { m with dated := m.dated ++ [⟨nextSample s, 8300, resultWord 4 qual payload⟩] }
      else decided s n x := by
  rw [commitMark, effectiveCfg, calOwns, calOwns, decided_meas, decided_cal]
  rfl

/-- R203: the comparators that SEL selects. -/
theorem selectCmps_eq {i : Nat} (h : i ≤ 3) (t : State) (n : Chan) (f : Comparator → Comparator) :
    selectCmps t n i f = if i = 2 ∨ i = 3 then updCmp (if i = 1 ∨ i = 3 then updCmp t n .a f else t) n .b f
      else if i = 1 ∨ i = 3 then updCmp t n .a f else t := by
  have ha : i % 2 = 1 ↔ i = 1 ∨ i = 3 := by omega
  have hb : i / 2 % 2 = 1 ↔ i = 2 ∨ i = 3 := by omega
  simp only [selectCmps, ha, hb]

theorem field_23_0 (w : Word) : field w 23 0 = w.toNat % 2 ^ 24 := by simp [field]

/-- R204: SEL of BLANK, in both forms. -/
theorem blankFields {k : Fields} {i : Nat} (ext : Bool) (h1 : 1 ≤ i) (h3 : i ≤ 3) (hi : k.imm = BitVec.ofNat 14 (8192 * ext.toNat + i)) :
    immBit k 13 = ext ∧ immZero k 12 2 = true ∧ immField k 1 0 = i := by
  have he := Bool.toNat_le ext
  refine ⟨?_, ?_, ?_⟩
  · rw [immBit_ofNat hi, Nat.testBit_eq_decide_div_mod_eq]
    have : (8192 * ext.toNat + i) / 2 ^ 13 % 2 = ext.toNat := by omega
    rw [this]
    cases ext <;> rfl
  · rw [immZero, immField_ofNat hi, beq_iff_eq]
    omega
  · rw [immField_ofNat hi]
    omega

/-- R206: the fields of MARK. -/
theorem markFields {k : Fields} {ext : Bool} {v lines : Nat} (hv : v < 8) (hl : lines < 16)
    (hi : k.imm = BitVec.ofNat 14 (8192 * ext.toNat + 16 * lines + v)) :
    immBit k 13 = ext ∧ immZero k 12 8 = true ∧ immBit k 3 = false ∧ immField k 2 0 = v ∧ immField k 7 4 = lines := by
  have he := Bool.toNat_le ext
  refine ⟨?_, ?_, ?_, ?_, ?_⟩
  · rw [immBit_ofNat hi, Nat.testBit_eq_decide_div_mod_eq]
    have : (8192 * ext.toNat + 16 * lines + v) / 2 ^ 13 % 2 = ext.toNat := by omega
    rw [this]
    cases ext <;> rfl
  · rw [immZero, immField_ofNat hi, beq_iff_eq]
    omega
  · rw [immBit_ofNat hi, Nat.testBit_eq_decide_div_mod_eq]
    simp only [Nat.reduceLT, decide_true, Bool.true_and, decide_eq_false_iff_not]
    omega
  · rw [immField_ofNat hi]
    omega
  · rw [immField_ofNat hi]
    omega

/-- R202: the fields of ARM. -/
theorem armFields {k : Fields} {ext wb : Bool} (hi : k.imm = BitVec.ofNat 14 (8192 * ext.toNat + wb.toNat)) :
    immBit k 13 = ext ∧ immField k 12 1 = 0 ∧ immBit k 0 = wb := by
  cases ext <;> cases wb <;> simp [immBit, immField, hi]

/-- Settles O19: the fields name what is dated, driven or written. -/
theorem marksEventsComparators : Obligations.MarksEventsComparators := by
  intro s n x k hb hc d dated sel
  refine ⟨fun h hi => ?tag, fun h ha ext v lines hv hl he hi => ?mark, fun h ha hi => ?emit, fun h ext wb w hi hw ha hv => ?arm,
    fun h i h1 h3 => ⟨fun ha hi he => ?blankLength, fun hi => ?blank⟩⟩
  case tag =>
    refine congrArg _ (issue_next h (hasExt_eq_false rfl rfl) ?_)
    rw [checked_true _ _ (by simp [zeroFields, hb, hc, immZero_high (lo := 3) hi]), decided_gr, commitMark_decided, field_23_0,
      immField_low (hi := 2) hi]
  case mark =>
    obtain ⟨hx, h8, h3, hvar, hlines⟩ := markFields hv hl hi
    have hz : (!ext || field k.ext 31 24 == 0) = true := by
      cases ext with
      | false => rfl
      | true =>
        have := he rfl
        simp only [field, Bool.not_true, Bool.false_or, beq_iff_eq]
        omega
    have hp : (if ext then field k.ext 23 0 else 0) = if ext then k.ext.toNat else 0 := by
      cases ext with
      | false => rfl
      | true => rw [field_23_0, Nat.mod_eq_of_lt (he rfl)]
    refine congrArg _ (issue_next h ((hasExt_eq_immBit rfl rfl).trans hx) ?_)
    rw [hx, hvar, hlines]
    dsimp only
    rw [hp, commitMark_decided, checked_true _ _ (by simp [zeroFields, ha, hb, hc, h8, h3, hz])]
    rfl
  case emit =>
    refine congrArg _ (issue_next h (hasExt_eq_false rfl rfl) ?_)
    rw [checked_true _ _ (by simp [zeroFields, ha, hb, hc, immZero_high (lo := 4) hi]), immField_low (hi := 3) hi]
    rfl
  case arm =>
    obtain ⟨hx, h12, h0⟩ := armFields hi
    have hr : regOrExtOk k = true := by
      rw [regOrExtOk, hx]
      cases ext with
      | false => rfl
      | true => simp [ha rfl]
    have hword : regOrExt ((decided s n x).context n x) k = w := by rw [regOrExt, hx, decided_gr, hw]
    refine congrArg _ (issue_next h ((hasExt_eq_immBit rfl rfl).trans hx) ?_)
    rw [hword, h0, checked_true _ _ (by simp [zeroFields, hb, hc, hr, h12, hv])]
  case blankLength =>
    obtain ⟨hx, h12, hsel⟩ := blankFields true h1 h3 hi
    have h16 : field k.ext 31 16 = 0 := by simp only [field]; omega
    have hlen : field k.ext 15 0 = k.ext.toNat := by simp only [field]; omega
    rw [exec, execBlankLength, if_neg (by simp [hx])]
    refine congrArg _ (issue_next h ((hasExt_eq_immBit rfl rfl).trans hx) ?_)
    rw [hsel, hlen, checked_true _ _ (by simp [zeroFields, ha, hb, hc, h12, h16, Nat.one_le_iff_ne_zero.mp h1]), selectCmps_eq h3]
  case blank =>
    obtain ⟨hx, h12, hsel⟩ := blankFields false h1 h3 (by rw [hi]; simp)
    rw [exec, execBlank, if_neg (by simp [hx])]
    refine congrArg _ (issue_next h ((hasExt_eq_immBit rfl rfl).trans hx) ?_)
    rw [hsel, decided_gr, checked_true _ _ (by simp [zeroFields, hb, hc, h12, Nat.one_le_iff_ne_zero.mp h1]), selectCmps_eq h3]

end Sys2Proof.Machine
end

section
/-!
PROOFS. O20: PLAY, ARMJ, JSEG, GEN, GSTOP and RATE (R193 to R195, R197, R198, R216, R220, R226, R227, R320).
-/
namespace Sys2Proof.Machine

/-- What the decision leaves of the chosen context: everything but its state and its count of decisions. -/
theorem decided_keeps {α : Type} (p : Context → α) (h : ∀ c y st, p { c with yields := y, state := st } = p c) (s : State) (n : Chan) (x : Ctx) :
    p ((decided s n x).context n x) = p (s.context n x) := by
  rw [decided_context]
  split
  · rfl
  · exact h _ _ _

theorem windowRead_congr {s t : State} {n : Chan} {x : Ctx} (hm : t.mm = s.mm) (hv : ∀ a, windowVa t.chans[n].graver x a = windowVa s.chans[n].graver x a)
    (ha : windowAsid t.chans[n].graver x = windowAsid s.chans[n].graver x) (a : Word) : windowRead t n x a = windowRead s n x a := by
  simp only [windowRead, hm, hv, ha]

theorem decided_windowRead (s : State) (n : Chan) (x : Ctx) (a : Word) : windowRead (decided s n x) n x a = windowRead s n x a :=
  windowRead_congr (decided_mm s n x) (decided_windowVa s n x) (decided_windowAsid s n x) a

theorem decided_readDesc (s : State) (n : Chan) (x : Ctx) (a : Word) : readDesc (decided s n x) n x a = readDesc s n x a := by
  simp only [readDesc, decided_windowRead]
  rfl

/-- A supplier starts while the memory is awake. -/
theorem demandDone_awake {s : State} {d : Done} (h : ddrAsleep s = false) : demandDone s d = d := by
  rw [demandDone, h]
  rfl

theorem demandWindow_awake {s : State} {n : Chan} {x : Ctx} {a : Word} {f : State → State} (h : ddrAsleep s = false) :
    demandWindow s n x a f = f s := by
  rw [demandWindow]
  split
  · exact demandMemory_awake (by rw [h, Bool.and_false])
  · rfl

theorem armDemand_awake {s : State} {n : Chan} {x : Ctx} {a : Word} {t : State} (h : ddrAsleep s = false) : armDemand s n x a t = .next t := by
  rw [armDemand, demandDone_awake h]
  split
  · exact ite_self _
  · rfl

/-- Without a memory error nothing is counted. -/
theorem eccMetAt_clean (s : State) (n : Chan) (x : Ctx) (va : Nat) : eccMetAt s n x va .clean = s := rfl

/-- R220, R196: the first words, read without a memory error. -/
theorem firstFill_clean {s : State} {n : Chan} {x : Ctx} {as : List Nat} {f : List (Nat × Word) → State → State} {ws : List (Nat × Word)}
    (h : readBlock s n x as = (ws, none)) : firstFill s n x as .clean f = f ws (cacheWindow s n x as) := by
  delta firstFill
  dsimp only
  rw [h]
  dsimp only
  rw [eccMetAt_clean]

/-- A good descriptor without a memory error. -/
theorem withDesc_good {s : State} {n : Chan} {x : Ctx} {a : Word} {q : Desc} {d : Desc → State → Done} (h : readDesc s n x a = (.good q, none)) :
    withDesc s n x a .clean d = d q (cacheXlate s (windowAsid s.chans[n].graver x) (windowVa s.chans[n].graver x a)) := by
  rw [withDesc, h]
  rfl

theorem withDesc_bad {s : State} {n : Chan} {x : Ctx} {a : Word} {d : Desc → State → Done} (h : readDesc s n x a = (.bad, none)) :
    withDesc s n x a .clean d = .fault .illegal := by
  rw [withDesc, h]
  rfl

theorem withDesc_ecc {s : State} {n : Chan} {x : Ctx} {a : Word} {r : DescRead} {d : Desc → State → Done} (h : readDesc s n x a = (r, none)) :
    withDesc s n x a .uncorrectable d = .ecc (windowVa s.chans[n].graver x a) := by
  rw [withDesc, h]
  rfl

theorem decided_regOrExt (s : State) (n : Chan) (x : Ctx) (k : Fields) :
    regOrExt ((decided s n x).context n x) k = if immBit k 13 then k.ext else gr (s.context n x) k.a := by
  rw [regOrExt, decided_gr]

theorem regOrExtOk_of {k : Fields} (h : immBit k 13 = true → k.a = 0) : regOrExtOk k = true := by
  rw [regOrExtOk]
  cases hx : immBit k 13 with
  | false => rfl
  | true => simp [h hx]

section
variable {s t : State} {n : Chan} {x : Ctx} {op : BitVec 6} {k : Fields} {ext ok : Bool} {d : Done} {body : Ctx → State → Done}

/-- The body of an instruction of the output class that no privilege stops. -/
theorem issue_outputBody (h : Runs s n x op k) (ho : (s.context n x).obs = false)
    (hr : (s.chans[n].force.relieved && isRelief n && x != 3) = false) (hok : ok = true)
    (hb : body x (decided s n x) = checked ok (noObs (decided s n x) n x d)) :
    issue op n k s body = complete (decided s n x) n x (hasExt op k) d := by
  rw [issue_runs body h, hb, checked_true _ _ hok, noObs_ok s n x d ho hr]

end

theorem descFields {k : Fields} (hb : k.b = 0) (hc : k.c = 0) (ha : immBit k 13 = true → k.a = 0) (hi : k.imm.toNat % 8192 = 0) :
    (zeroFields k true false false true && regOrExtOk k && immField k 12 0 == 0) = true := by
  have h12 : immField k 12 0 = 0 := by simp only [immField]; omega
  simp [zeroFields, hb, hc, regOrExtOk_of ha, h12]

section
variable {s : State} {n : Chan} {x : Ctx} {k : Fields}

/-- R193: PLAY once its fields have passed. -/
theorem execPlay_runs (h : Runs s n x 0x2E k) (ho : (s.context n x).obs = false)
    (hr : (s.chans[n].force.relieved && isRelief n && x != 3) = false) (hawake : ddrAsleep s = false) (hb : k.b = 0) (hc : k.c = 0)
    (ha : immBit k 13 = true → k.a = 0) (hi : k.imm.toNat % 8192 < 2) (ecc : EccResult) :
    let a := (if immBit k 13 then k.ext else gr (s.context n x) k.a) &&& ~~~15
    exec (.play n k ecc) s = .next (complete (decided s n x) n x (immBit k 13) (withDesc (decided s n x) n x a ecc fun d s =>
      .hold (updGraver s n fun g => { g with busy := some (x, .playFill a.toNat d (immBit k 0)) }))) := by
  have h12 : immField k 12 1 = 0 := by simp only [immField]; omega
  have hok : playFields k false = true := by simp [playFields, zeroFields, hb, hc, regOrExtOk_of ha, h12]
  refine congrArg Host.Outcome.next ((issue_outputBody h ho hr hok rfl).trans ?_)
  rw [demandDone_awake (s := decided s n x) hawake, decided_regOrExt, hasExt_eq_immBit rfl rfl]

/-- R220: the first samples are present. -/
theorem execPlayFillComplete_clean {addr : Nat} {q : Desc} {wt : Bool} {ws : List (Nat × Word)}
    (hb : s.chans[n].graver.busy = some (x, .playFill addr q wt)) (hown : ownerOf s.chans[n] = some x) (hawake : ddrAsleep s = false)
    (hws : readBlock s n x (segmentBlock q 0) = (ws, none)) :
    exec (.playFillComplete n .clean) s = .next (finishBusy (acceptSupplier (updGraver (cacheWindow s n x (segmentBlock q 0)) n fun g =>
      { g with buf := ws, bufOwner := some x, sweptList := none, prefetchStalled := false, prefetchEcc := false }) n x
        (.play (startPlayback addr q)) (if wt then some .play else none)) n x) := by
  change execPlayFillComplete n .clean s = _
  rw [execPlayFillComplete, hb]
  dsimp only
  rw [if_pos (beq_iff_eq.mpr hown), demandWindow_awake hawake, firstFill_clean hws]

/-- R197: ARMJ of a good descriptor. -/
theorem execArmj_good {q : Desc} (h : Runs s n x 0x2F k) (ho : (s.context n x).obs = false)
    (hr : (s.chans[n].force.relieved && isRelief n && x != 3) = false) (hawake : ddrAsleep s = false)
    (hok : (zeroFields k true false false true && regOrExtOk k && immField k 12 0 == 0) = true) {a : Word}
    (ha : a = (if immBit k 13 then k.ext else gr (s.context n x) k.a) &&& ~~~15) (hq : readDesc s n x a = (.good q, none)) :
    exec (.armj n k .clean) s = .next (ranTo (updCtx (cacheXlate (decided s n x) (windowAsid s.chans[n].graver x) (windowVa s.chans[n].graver x a)) n x
      fun c => { c with armed := some ⟨a.toNat, q, false, false⟩ }) n x (immBit k 13)) := by
  refine congrArg Host.Outcome.next ((issue_outputBody h ho hr hok rfl).trans ?_)
  rw [decided_regOrExt, ← ha, withDesc_good ((decided_readDesc s n x a).trans hq), armDemand_awake, complete_next, decided_windowAsid,
    decided_windowVa, hasExt_eq_immBit rfl rfl]
  rw [ddrAsleep, cacheXlate_pwr]
  exact hawake

theorem jsegFields (ha : k.a = 0) (hb : k.b = 0) (hc : k.c = 0) (hi : k.imm = 0) : zeroFields k false false false false = true := by
  simp [zeroFields, ha, hb, hc, hi]

/-- R198: JSEG while a playback or a sweep runs. -/
theorem execJseg_running (h : Runs s n x 0x30 k) (ho : (s.context n x).obs = false)
    (hr : (s.chans[n].force.relieved && isRelief n && x != 3) = false) (hawake : ddrAsleep s = false)
    (hok : zeroFields k false false false false = true) (hs : supplierRuns (s.context n x) = true) :
    exec (.jseg n k .clean) s = .next (ranTo (recordJump (decided s n x) n x false) n x false) := by
  refine congrArg Host.Outcome.next ((issue_outputBody h ho hr hok rfl).trans ?_)
  rw [demandDone_awake (s := decided s n x) hawake]
  dsimp only
  rw [decided_keeps supplierRuns (fun _ _ _ => rfl), if_pos hs, complete_next]
  rfl

/-- R198: JSEG with nothing armed. -/
theorem execJseg_unarmed (h : Runs s n x 0x30 k) (ho : (s.context n x).obs = false)
    (hr : (s.chans[n].force.relieved && isRelief n && x != 3) = false) (hawake : ddrAsleep s = false)
    (hok : zeroFields k false false false false = true) (hs : supplierRuns (s.context n x) = false) (ha : (s.context n x).armed = none) :
    exec (.jseg n k .clean) s = .next (ran s n x false id) := by
  refine congrArg Host.Outcome.next ((issue_outputBody h ho hr hok rfl).trans ?_)
  rw [demandDone_awake (s := decided s n x) hawake]
  dsimp only
  rw [decided_keeps supplierRuns (fun _ _ _ => rfl), if_neg (by simp [hs]), decided_keeps Context.armed (fun _ _ _ => rfl), ha]
  rfl

/-- R198, R225: JSEG that starts the armed target. -/
theorem execJseg_armed (h : Runs s n x 0x30 k) (ho : (s.context n x).obs = false)
    (hr : (s.chans[n].force.relieved && isRelief n && x != 3) = false) (hawake : ddrAsleep s = false)
    (hok : zeroFields k false false false false = true) (hs : supplierRuns (s.context n x) = false) {t : Armed} {q : Desc}
    (ha : (s.context n x).armed = some t) (hq : readDesc s n x (word t.addr) = (.good q, none)) :
    exec (.jseg n k .clean) s = .next (ranTo (startArmed (cacheXlate (decided s n x) (windowAsid s.chans[n].graver x)
      (windowVa s.chans[n].graver x (word t.addr))) n x t.addr q) n x false) := by
  refine congrArg Host.Outcome.next ((issue_outputBody h ho hr hok rfl).trans ?_)
  rw [demandDone_awake (s := decided s n x) hawake]
  dsimp only
  rw [decided_keeps supplierRuns (fun _ _ _ => rfl), if_neg (by simp [hs]), decided_keeps Context.armed (fun _ _ _ => rfl), ha]
  dsimp only
  rw [withDesc_good ((decided_readDesc s n x _).trans hq), complete_next, decided_windowAsid, decided_windowVa]
  rfl

/-- R198, R227: the jump request of a context with a target armed and none pending. -/
theorem recordJump_armed {s : State} {t : Armed} (hs : supplierRuns (s.context n x) = true) (ha : (s.context n x).armed = some t)
    (hj : (s.context n x).jumpReq = none) :
    recordJump s n x false = updCtx s n x fun c => { c with jumpReq := some ⟨nextSample s, requestLate c, false⟩ } := by
  rw [recordJump, ha]
  dsimp only
  rw [if_pos hs]
  refine updCtx_congr ?_
  rw [joinRequest, hj]

theorem recordJump_unarmed {s : State} (ha : (s.context n x).armed = none) : recordJump s n x false = s := by
  rw [recordJump, ha]

/-- R195: GEN and its generator. -/
theorem execGen_runs {shape p : Nat} (h : Runs s n x 0x32 k) (ho : (s.context n x).obs = false)
    (hr : (s.chans[n].force.relieved && isRelief n && x != 3) = false) (hawake : ddrAsleep s = false) (hs : shape ≤ 4) (hp : p < 1024)
    (hi : k.imm = BitVec.ofNat 14 (1024 * shape + p)) :
    exec (.gen n k) s = .next (ran s n x false fun c => { c with
      lfsr := if 3 ≤ shape ∧ gr c k.a ≠ 0 then gr c k.a else c.lfsr
      startNext := some (.gen { shape := shape, offset := (gr c k.c).toInt, amp := min ((gr c k.b).toNat % 2 ^ 20) 524287
                                phase := BitVec.ofNat 32 (p * 2 ^ 22), inc := gr c k.a })
      stopGen := false, jumpReq := none, ur := false }) := by
  have h13 : immBit k 13 = false := immBit_lt (by rw [hi, BitVec.toNat_ofNat]; omega)
  have hshape : immField k 12 10 = shape := by rw [immField_ofNat hi]; omega
  have hphase : immField k 9 0 = p := by rw [immField_ofNat hi]; omega
  have hlow : ∀ w, field w 19 0 = w.toNat % 2 ^ 20 := fun w => by simp [field]
  change Host.Outcome.next (ite _ _ _) = _
  rw [if_neg (by simp [h13])]
  refine congrArg Host.Outcome.next (issue_updCtx h (hasExt_eq_false rfl rfl) ?_)
  rw [hshape, hphase, checked_true _ _ (by simpa using hs), noObs_ok s n x _ ho hr, demandDone_awake (s := decided s n x) hawake, acceptSupplier,
    updCtx_updCtx]
  refine congrArg Done.next (updCtx_congr ?_)
  simp only [hlow, ge_iff_le, Bool.and_eq_true, decide_eq_true_eq, bne_iff_ne]
  rfl

/-- R194: GSTOP where no start waits. -/
theorem execGstop_runs (h : Runs s n x 0x32 k) (ho : (s.context n x).obs = false)
    (hr : (s.chans[n].force.relieved && isRelief n && x != 3) = false) (ha : k.a = 0) (hb : k.b = 0) (hc : k.c = 0) (hi : k.imm = 0x2000)
    (hn : (s.context n x).startNext = none) : exec (.gstop n k) s = .next (ran s n x false fun c => { c with stopGen := true }) := by
  have h13 : immBit k 13 = true := by rw [immBit, hi]; rfl
  change Host.Outcome.next (ite _ _ _) = _
  rw [if_neg (by simp [h13])]
  refine congrArg Host.Outcome.next (issue_updCtx h (hasExt_eq_false rfl rfl) ?_)
  rw [checked_true _ _ (by simp [zeroFields, ha, hb, hc, immField, hi]), noObs_ok s n x _ ho hr]
  refine congrArg Done.next (updCtx_congr ?_)
  rw [← decided_keeps Context.startNext (fun _ _ _ => rfl)] at hn
  rw [hn]

/-- R195: RATE. -/
theorem execRate_runs (h : Runs s n x 0x33 k) (ho : (s.context n x).obs = false)
    (hr : (s.chans[n].force.relieved && isRelief n && x != 3) = false)
    (hok : (zeroFields k true false false true && regOrExtOk k && immField k 12 0 == 0) = true) :
    exec (.rate n k) s = .next (ran s n x (immBit k 13) fun c => { c with rate := if immBit k 13 then k.ext else gr c k.a }) := by
  refine congrArg Host.Outcome.next (issue_updCtx h (hasExt_eq_immBit rfl rfl) ?_)
  rw [checked_true _ _ hok, noObs_ok s n x _ ho hr]
  rfl

end

/-- Settles O20: the descriptor and the armed target are those of the decided state. -/
theorem playArmGenerate : Obligations.PlayArmGenerate := by
  intro s n x k ho hr hawake d c a operand asid va r
  have hd := fun (a : Word) => decided_readDesc s n x a
  refine ⟨fun h hop hi q hq => ?play, fun h hop hi hq => ?bad, fun h hop hi q hq => ?ecc, fun addr q wt hb hown ws hws => ?fill, fun h hop hi q hq => ?armj,
    fun h ha hb hc hi => ⟨fun hn => ?jsegNone, fun hs t q ht hq => ?jsegStart, fun hs t ht hj => ?jsegJump⟩,
    fun h shape p hs hp hi => ?gen, fun h ha hb hc hi hn => ?gstop, fun h hop hi => ?rate⟩
  case play =>
    refine (execPlay_runs h ho hr hawake hop.1 hop.2.1 hop.2.2 hi _).trans (congrArg Host.Outcome.next ?_)
    rw [withDesc_good ((hd a).trans hq), decided_windowAsid, decided_windowVa, complete, updGraver_updGraver]
  case bad =>
    refine (execPlay_runs h ho hr hawake hop.1 hop.2.1 hop.2.2 hi _).trans (congrArg Host.Outcome.next ?_)
    rw [withDesc_bad ((hd a).trans hq), complete_fault]
  case ecc =>
    refine (execPlay_runs h ho hr hawake hop.1 hop.2.1 hop.2.2 hi _).trans (congrArg Host.Outcome.next ?_)
    rw [withDesc_ecc ((hd a).trans hq), decided_windowVa, complete]
  case fill =>
    refine (execPlayFillComplete_clean hb hown hawake hws).trans (congrArg Host.Outcome.next ?_)
    cases wt <;> rfl
  case armj => exact execArmj_good h ho hr hawake (descFields hop.1 hop.2.1 hop.2.2 hi) rfl hq
  case jsegNone =>
    cases hs : supplierRuns c with
    | false => exact execJseg_unarmed h ho hr hawake (jsegFields ha hb hc hi) hs hn
    | true =>
      refine (execJseg_running h ho hr hawake (jsegFields ha hb hc hi) hs).trans (congrArg Host.Outcome.next ?_)
      rw [recordJump_unarmed ((decided_keeps Context.armed (fun _ _ _ => rfl) s n x).trans hn), ranTo_decided]
  case jsegStart => exact execJseg_armed h ho hr hawake (jsegFields ha hb hc hi) hs ht hq
  case jsegJump =>
    refine (execJseg_running h ho hr hawake (jsegFields ha hb hc hi) hs).trans (congrArg Host.Outcome.next ?_)
    rw [recordJump_armed ((decided_keeps supplierRuns (fun _ _ _ => rfl) s n x).trans hs)
      ((decided_keeps Context.armed (fun _ _ _ => rfl) s n x).trans ht) ((decided_keeps Context.jumpReq (fun _ _ _ => rfl) s n x).trans hj),
      ranTo_updCtx]
    rfl
  case gen => exact execGen_runs h ho hr hawake hs hp hi
  case gstop => exact execGstop_runs h ho hr ha hb hc hi hn
  case rate => exact execRate_runs h ho hr (descFields hop.1 hop.2.1 hop.2.2 hi)

end Sys2Proof.Machine
end

section
/-!
PROOFS. O21: SWEEP, the fills and the entry that is due (R196, R234 to R236, R218, R194).
-/
namespace Sys2Proof.Machine

@[simp] theorem afterDecision_buf (g : Graver) (x : Ctx) : (afterDecision g x).buf = g.buf := by
  rw [afterDecision]
  split <;> rfl

@[simp] theorem afterDecision_sweptList (g : Graver) (x : Ctx) : (afterDecision g x).sweptList = g.sweptList := by
  rw [afterDecision]
  split <;> rfl

theorem decided_heldEntry (s : State) (n : Chan) (x : Ctx) (list : Nat) :
    heldEntry (decided s n x).chans[n].graver list = heldEntry s.chans[n].graver list := by
  simp only [decided_graver, heldEntry, afterDecision_buf]

theorem decided_listPresent (s : State) (n : Chan) (x : Ctx) (list count : Nat) :
    listPresent (decided s n x).chans[n].graver x list count = listPresent s.chans[n].graver x list count := by
  simp only [decided_graver, listPresent, windowAsid, afterDecision_buf, afterDecision_sweptList, afterDecision_asid]

section
variable {s : State} {n : Chan} {x : Ctx} {k : Fields}

/-- The fields of SWEEP. -/
theorem sweepFields (hc : k.c = 0) (ha : immBit k 13 = true → k.a = 0) (hi : k.imm.toNat % 8192 < 2) : playFields k true = true := by
  have h12 : immField k 12 1 = 0 := by simp only [immField]; omega
  simp [playFields, zeroFields, hc, regOrExtOk_of ha, h12]

/-- R196: SWEEP of no entries. -/
theorem execSweep_empty (h : Runs s n x 0x31 k) (ho : (s.context n x).obs = false)
    (hr : (s.chans[n].force.relieved && isRelief n && x != 3) = false) (hawake : ddrAsleep s = false) (hok : playFields k true = true)
    (h0 : (gr (s.context n x) k.b).toNat = 0) :
    exec (.sweep n k .clean) s = .next (ran s n x (immBit k 13) fun c => { c with ur := false }) := by
  refine congrArg Host.Outcome.next (issue_updCtx h (hasExt_eq_immBit rfl rfl) ?_)
  dsimp only
  rw [checked_true _ _ hok, noObs_ok s n x _ ho hr, demandDone_awake (s := decided s n x) hawake, decided_gr, if_pos h0]

/-- R235: SWEEP of a list that still stands in the buffers. -/
theorem execSweep_present (h : Runs s n x 0x31 k) (ho : (s.context n x).obs = false)
    (hr : (s.chans[n].force.relieved && isRelief n && x != 3) = false) (hawake : ddrAsleep s = false) (hok : playFields k true = true)
    (h0 : (gr (s.context n x) k.b).toNat ≠ 0) (hown : ownerOf s.chans[n] = some x) {a : Word}
    (ha : a = (if immBit k 13 then k.ext else gr (s.context n x) k.a) &&& ~~~7)
    (hl : listPresent s.chans[n].graver x a.toNat (gr (s.context n x) k.b).toNat = true) {q : Entry}
    (hq : heldEntry s.chans[n].graver a.toNat = some q) :
    exec (.sweep n k .clean) s = .next (ranTo (acceptSupplier (updGraver (decided s n x) n fun g =>
        { g with bufOwner := some x, prefetchEcc := false }) n x (.sweep { list := a.toNat, count := (gr (s.context n x) k.b).toNat })
      (if immBit k 0 then some .sweep else none)) n x (immBit k 13)) := by
  refine congrArg Host.Outcome.next (issue_next h (hasExt_eq_immBit rfl rfl) ?_)
  dsimp only
  rw [checked_true _ _ hok, noObs_ok s n x _ ho hr, demandDone_awake (s := decided s n x) hawake, decided_gr, if_neg h0, decided_regOrExt, ← ha,
    decided_listPresent, decided_ownerOf h.2.1, hown, hl, if_pos (by simp), decided_heldEntry, hq]

/-- R234: SWEEP reads its first entry. -/
theorem execSweep_read (h : Runs s n x 0x31 k) (ho : (s.context n x).obs = false)
    (hr : (s.chans[n].force.relieved && isRelief n && x != 3) = false) (hawake : ddrAsleep s = false) (hok : playFields k true = true)
    (h0 : (gr (s.context n x) k.b).toNat ≠ 0) {a : Word} (ha : a = (if immBit k 13 then k.ext else gr (s.context n x) k.a) &&& ~~~7)
    (hl : ¬ (ownerOf s.chans[n] = some x) ∨ listPresent s.chans[n].graver x a.toNat (gr (s.context n x) k.b).toNat = false) {va pa : Nat}
    (hw : windowRead s n x a = (va, .ok pa)) {q : Option Entry}
    (hq : decodeEntry (memReadWord s.mm.mem pa) (memReadWord s.mm.mem (pa + 4)) = q) :
    exec (.sweep n k .clean) s = .next (complete (decided s n x) n x (immBit k 13) (q.elim (.fault .illegal) fun _ =>
      .hold (updGraver (cacheXlate (decided s n x) (windowAsid s.chans[n].graver x) va) n fun g =>
        { g with busy := some (x, .sweepFill a.toNat (gr (s.context n x) k.b).toNat (immBit k 0)) }))) := by
  have hno : (ownerOf s.chans[n] == some x && listPresent s.chans[n].graver x a.toNat (gr (s.context n x) k.b).toNat) = false := by
    obtain hn | hn := hl
    · rw [beq_eq_false_iff_ne.mpr hn, Bool.false_and]
    · rw [hn, Bool.and_false]
  refine congrArg Host.Outcome.next ((issue_outputBody h ho hr hok rfl).trans ?_)
  dsimp only
  rw [hasExt_eq_immBit rfl rfl, demandDone_awake (s := decided s n x) hawake, decided_gr, if_neg h0, decided_regOrExt, ← ha, decided_listPresent, decided_ownerOf h.2.1,
    hno, if_neg Bool.false_ne_true, decided_windowRead, hw]
  dsimp only
  rw [eccRead, if_neg (by decide), eccMetAt_clean, cacheXlate_mm, decided_mm, hq, decided_windowAsid]
  cases q <;> rfl

/-- R196: the first entries are present. -/
theorem execSweepFillComplete_clean {list count : Nat} {wt : Bool} {ws : List (Nat × Word)}
    (hb : s.chans[n].graver.busy = some (x, .sweepFill list count wt)) (hown : ownerOf s.chans[n] = some x) (hawake : ddrAsleep s = false)
    (hws : readBlock s n x (entryBlock { list := list, count := count } 0) = (ws, none)) :
    exec (.sweepFillComplete n .clean) s = .next (finishBusy (acceptSupplier (updGraver
      (cacheWindow s n x (entryBlock { list := list, count := count } 0)) n fun g =>
        { g with
          buf := ws, bufOwner := some x, prefetchStalled := false, prefetchEcc := false
          sweptList := if count ≤ 4096 then some (list, BitVec.ofNat 4 (windowAsid g x), count) else none }) n x
        (.sweep { list := list, count := count }) (if wt then some .sweep else none)) n x) := by
  change execSweepFillComplete n .clean s = _
  rw [execSweepFillComplete, hb]
  dsimp only
  rw [if_pos (beq_iff_eq.mpr hown), demandWindow_awake hawake, firstFill_clean hws]

end

/-- Translations that enter the IOTLB change the IOTLB only. -/
theorem cacheXlates_same (vas : List Nat) (s : State) (asid : Nat) :
    cacheXlates s asid vas = { s with iotlb := (cacheXlates s asid vas).iotlb } := by
  induction vas generalizing s with
  | nil => rfl
  | cons va vas ih =>
    rw [cacheXlates, List.foldl_cons, ← cacheXlates, ih, cacheXlate_same]

@[simp] theorem cacheWindow_chans (s : State) (n : Chan) (x : Ctx) (as : List Nat) : (cacheWindow s n x as).chans = s.chans := by
  rw [cacheWindow, cacheXlates_same]

@[simp] theorem cacheWindow_mm (s : State) (n : Chan) (x : Ctx) (as : List Nat) : (cacheWindow s n x as).mm = s.mm := by
  rw [cacheWindow, cacheXlates_same]

@[simp] theorem cacheWindow_queues (s : State) (n : Chan) (x : Ctx) (as : List Nat) : (cacheWindow s n x as).queues = s.queues := by
  rw [cacheWindow, cacheXlates_same]

theorem cacheWindow_context (s : State) (n : Chan) (x y : Ctx) (as : List Nat) : (cacheWindow s n x as).context n y = s.context n y := by
  rw [State.context, cacheWindow_chans]
  rfl

/-- A block read depends on the mapping, the memory and the window. -/
theorem readBlock_cacheWindow (s : State) (n : Chan) (x : Ctx) (bs as : List Nat) :
    readBlock (cacheWindow s n x bs) n x as = readBlock s n x as := by
  induction as with
  | nil => rfl
  | cons a as ih =>
    have hw : windowRead (cacheWindow s n x bs) n x (word a) = windowRead s n x (word a) := by
      simp only [windowRead, cacheWindow_mm, cacheWindow_chans]
    rw [readBlock, readBlock, hw, ih, cacheWindow_mm]

/-- What a fill without a memory error goes on with. -/
theorem fillEcc_clean (s : State) (n : Chan) (x : Ctx) (as : List Nat) (f : State → State) :
    fillEcc s n x as .clean f = f (cacheWindow s n x as) := by
  rw [fillEcc, eccMetAt_clean, if_neg (by decide)]

/-- A block that has been read enters the buffers. -/
theorem loadBlock_read {s : State} {n : Chan} {x : Ctx} {as : List Nat} {ws : List (Nat × Word)} (h : readBlock s n x as = (ws, none)) :
    loadBlock s n x as = updGraver s n fun g => { g with buf := bufInsert (g.buf.filter fun e => !(ws.any fun b => b.1 == e.1)) ws } := by
  rw [loadBlock, h]
  cases ws <;> rfl

/-- A head that has been read whole. -/
theorem copyHead_clean {s : State} {n : Chan} {x : Ctx} {as : List Nat} {ws : List (Nat × Word)} (h : readBlock s n x as = (ws, none)) :
    copyHead s n x as .clean = takeHead (cacheWindow s n x as) n x ws true := by
  rw [copyHead, fillEcc_clean, h]

/-- What an instruction boundary leaves of a Graver whose execution unit is free. -/
theorem settle_graver (t : State) (n : Chan) (x : Ctx) :
    (settle t n x).chans[n].graver.buf = t.chans[n].graver.buf ∧ (settle t n x).chans[n].graver.bufOwner = t.chans[n].graver.bufOwner
      ∧ (t.chans[n].graver.busy = none → (settle t n x).chans[n].graver.busy = none) := by
  have halted : (haltCtx t n x).chans[n].graver.buf = t.chans[n].graver.buf ∧ (haltCtx t n x).chans[n].graver.bufOwner = t.chans[n].graver.bufOwner
      ∧ (t.chans[n].graver.busy = none → (haltCtx t n x).chans[n].graver.busy = none) := by
    refine ⟨by simp [haltCtx], by simp [haltCtx], fun h => ?_⟩
    have h' : t.chans[n.val].graver.busy = none := h
    simp [haltCtx, h']
  rw [settle]
  split
  · exact halted
  · split
    · exact halted
    · exact ⟨rfl, rfl, id⟩

/-- A supplier that starts behind an instruction that held the execution unit. -/
theorem finishBusy_accepted (u : State) (n : Chan) (x : Ctx) (p : Supplier) (w : Option Waiting) :
    (finishBusy (acceptSupplier u n x p w) n x).chans[n].graver.busy = none
      ∧ (finishBusy (acceptSupplier u n x p w) n x).chans[n].graver.buf = u.chans[n].graver.buf
      ∧ (finishBusy (acceptSupplier u n x p w) n x).chans[n].graver.bufOwner = u.chans[n].graver.bufOwner
      ∧ ((u.context n x).haltReq = false → inImm u.chans[n].graver x = false →
          ((finishBusy (acceptSupplier u n x p w) n x).context n x).startNext = some p
            ∧ ((finishBusy (acceptSupplier u n x p w) n x).context n x).ur = false) := by
  rw [finishBusy]
  obtain ⟨hbuf, howner, hbusy⟩ := settle_graver (updGraver (updCtx (acceptSupplier u n x p w) n x fun k =>
    { k with pc := nextPc k.pc (acceptSupplier u n x p w).chans[n].graver.busyExt }) n fun g => { g with busy := none }) n x
  refine ⟨hbusy (by simp), hbuf.trans (by simp [acceptSupplier]), howner.trans (by simp [acceptSupplier]), fun hh hin => ?_⟩
  have hctx : ∀ f : Context → Context, (updGraver (updCtx (acceptSupplier u n x p w) n x f) n fun g => { g with busy := none }).context n x
      = (updCtx (acceptSupplier u n x p w) n x f).context n x := fun f => updGraver_context ..
  rw [settle_window, hctx, updCtx_context_self, acceptSupplier, updCtx_context_self]
  · exact ⟨rfl, rfl⟩
  · rw [hctx, updCtx_context_self, acceptSupplier, updCtx_context_self]
    exact hh
  · simpa [inImm, acceptSupplier] using hin

/-- R196: what the fill of SWEEP leaves for its supplier. -/
theorem execSweepFillComplete_filled {s : State} {n : Chan} {x : Ctx} {list count : Nat} {wt : Bool} {ws : List (Nat × Word)}
    (hb : s.chans[n].graver.busy = some (x, .sweepFill list count wt)) (hown : ownerOf s.chans[n] = some x) (hawake : ddrAsleep s = false)
    (hws : readBlock s n x (entryBlock { list := list, count := count } 0) = (ws, none)) :
    ∃ u w, exec (.sweepFillComplete n .clean) s = .next (finishBusy (acceptSupplier u n x (.sweep { list := list, count := count }) w) n x)
      ∧ u.chans[n].graver.buf = ws ∧ u.chans[n].graver.bufOwner = some x ∧ u.context n x = s.context n x
      ∧ inImm u.chans[n].graver x = inImm s.chans[n].graver x := by
  refine ⟨_, _, execSweepFillComplete_clean hb hown hawake hws, by simp, by simp, ?_, by simp [inImm]⟩
  rw [updGraver_context]
  simp only [cacheWindow_chans]
  rfl

/-- The context whose head has been taken. -/
theorem takeHead_context (s : State) (n : Chan) (x : Ctx) (ws : List (Nat × Word)) :
    (takeHead s n x ws true).context n x =
      { s.context n x with armed := (s.context n x).armed.map fun b => { b with headHeld := true, headDone := true } } := by
  rw [takeHead, updGraver_context]
  simp [State.context]

/-- R218: the head of an armed target is read whole. -/
theorem execJumpHeadCopyDone_clean {s : State} {n : Chan} {x : Ctx} {arm : Armed} {ws : List (Nat × Word)} (hawake : ddrAsleep s = false)
    (hstall : s.chans[n].graver.prefetchStalled = false) (hecc : s.chans[n].graver.prefetchEcc = false) (harm : (s.context n x).armed = some arm)
    (hdone : arm.headDone = false) (hws : readBlock s n x (headAddrs arm.desc) = (ws, none)) :
    exec (.jumpHeadCopyDone n x .clean) s = .next (takeHead (cacheWindow s n x (headAddrs arm.desc)) n x ws true) := by
  change execJumpHeadCopyDone n x .clean s = _
  rw [execJumpHeadCopyDone, harm]
  dsimp only
  rw [hdone, hstall, hecc, if_neg (by decide), demandWindow_awake hawake, copyHead_clean hws]

/-- R235: the sweep entry that is due, with the clamp detector's report. -/
theorem execSweepEntryStart_due {s : State} {n : Chan} {x : Ctx} {w : Sweep} {q : Entry} (hown : ownerOf s.chans[n] = some x)
    (hn : (s.context n x).startNext = none) (hw : (s.context n x).supplier = .sweep w) (hst : w.staged = none) (hent : w.entry = none)
    (hhold : w.hold = none) (hi : w.index < w.count) (hp : entryPresent s.chans[n].graver x w w.index = true)
    (hq : entryWords s.chans[n].graver x w w.index = some q) (clamping : Bool) :
    exec (.sweepEntryStart n clamping) s = .next (updCtx s n x fun c => { c with supplier := .sweep { w with staged := some (q, clamping) } }) := by
  change execSweepEntryStart n clamping s = _
  rw [execSweepEntryStart, hown]
  dsimp only
  rw [hw]
  dsimp only
  rw [if_neg, hq]
  · rfl
  · simp [hst, hn, sweepAdvance, hent, sweepDue, sweepReady, hhold, hi]
    exact hp

/-- R218: the next block of a playback. -/
theorem execPrefetchFill_block {s : State} {n : Chan} {x : Ctx} {p : Playback} {q : Desc} {i : Nat} {ws : List (Nat × Word)}
    (hown : ownerOf s.chans[n] = some x) (hbuf : s.chans[n].graver.bufOwner = some x)
    (hstall : s.chans[n].graver.prefetchStalled = false) (hecc : s.chans[n].graver.prefetchEcc = false) (hp : (s.context n x).supplier = .play p)
    (hnext : nextFetch s.chans[n].graver x p = .block q i) (hws : readBlock s n x (segmentBlock q i) = (ws, none)) :
    exec (.prefetchFill n .clean) s = .next (updGraver (cacheWindow s n x (segmentBlock q i)) n fun g =>
      { g with buf := bufInsert (g.buf.filter fun e => !(ws.any fun b => b.1 == e.1)) ws, sweptList := none }) := by
  change execPrefetchFill n .clean s = _
  rw [execPrefetchFill, hown]
  dsimp only
  rw [hbuf, if_neg (by simp), hp]
  dsimp only
  rw [fillPlayback, hstall, hecc, Bool.or_self, if_neg Bool.false_ne_true, hnext]
  dsimp only
  rw [fillEcc_clean, loadBlock_read ((readBlock_cacheWindow ..).trans hws), updGraver_updGraver]

/-- Settles O21: each fill reads without a fault, and the entry that is due stands in the buffers. -/
theorem sweepsAndFills : Obligations.SweepsAndFills := by
  intro s n x k d c a count e owns cached fetches
  refine ⟨fun ho hr hawake h hc ha hi => ⟨fun h0 => ?empty, fun h0 hl va pa q hw hq => ?read, fun h0 hown hl q hq => ?present, fun h0 hno va pa hw hq => ?illegal⟩,
    fun list count wt hb hown hawake ws hws => ?fill, fun arm ws hf harm hdone hws => ?head, fun hown hn w q hw hst hent hhold hi hp hq clamping => ?entry,
    fun hown hbuf hf p q i hp hnext ws hws hne => ?prefetch⟩
  case empty => exact execSweep_empty h ho hr hawake (sweepFields hc ha hi) h0
  case read =>
    refine (execSweep_read h ho hr hawake (sweepFields hc ha hi) h0 rfl hl hw hq).trans (congrArg Host.Outcome.next ?_)
    rw [Option.elim_some, complete, updGraver_updGraver]
  case present =>
    refine (execSweep_present h ho hr hawake (sweepFields hc ha hi) h0 hown rfl hl hq).trans (congrArg Host.Outcome.next ?_)
    cases immBit k 0 <;> rfl
  case illegal =>
    refine (execSweep_read h ho hr hawake (sweepFields hc ha hi) h0 rfl (.inl hno) hw hq).trans (congrArg Host.Outcome.next ?_)
    rw [Option.elim_none, complete_fault]
  case fill =>
    obtain ⟨u, wait, hrun, hubuf, huowner, huctx, huimm⟩ := execSweepFillComplete_filled hb hown hawake hws
    obtain ⟨hbusy, hbuf, howner, hctx⟩ := finishBusy_accepted u n x (.sweep { list := list, count := count }) wait
    exact ⟨_, hrun, hbusy, hbuf.trans hubuf, howner.trans huowner, fun hh hin => hctx (by rw [huctx]; exact hh) (huimm.trans hin)⟩
  case head =>
    obtain ⟨hawake, hstall, hecc⟩ := hf
    refine ⟨_, execJumpHeadCopyDone_clean hawake hstall hecc harm hdone hws, by simp [takeHead], ?_, ?_, ?_⟩
    · have harm' : (s.context n x).armed = some arm := harm
      rw [takeHead_context, cacheWindow_context, harm']
      rfl
    · rw [takeHead, updGraver_mm, cacheWindow_mm]
    · rw [takeHead, updGraver_queues, cacheWindow_queues]
  case entry => exact execSweepEntryStart_due hown hn hw hst hent hhold hi hp hq clamping
  case prefetch => exact execPrefetchFill_block hown hbuf hf.2.1 hf.2.2 hp hnext hws

end Sys2Proof.Machine
end

section
/-!
PROOFS. O22: LDID, CAL, RDS and RDT (R207 to R210).
-/
namespace Sys2Proof.Machine

section
variable {s : State} {n : Chan} {x : Ctx} {k : Fields}

/-- R207: LDID that its channel refuses. -/
theorem execLdid_refused {stat : Nat} (h : Runs s n x 0x3C k) (hb : k.b = 0) (hc : k.c = 0) (hi : k.imm = 0) (hown : ownerOf s.chans[n] = some x)
    (ho : (s.context n x).obs = false) (hr : (s.chans[n].force.relieved && isRelief n && x != 3) = false)
    (hstat : ldidStat s.chans[n].force = some stat) :
    exec (.ldid n k) s = .next (ran s n x false fun c => setGr c k.a (BitVec.ofNat 32 (stat * 2 ^ 24))) := by
  refine congrArg Host.Outcome.next ((issue_owner h ho hr hown (hasExt_eq_false rfl rfl) ?_ ?_ rfl).trans (ranTo_updCtx ..))
  · simp [zeroFields, hb, hc, hi]
  · rw [decided_force, hstat]
    simp [pack, word]

/-- R207: LDID that begins. -/
theorem execLdid_begins (h : Runs s n x 0x3C k) (hb : k.b = 0) (hc : k.c = 0) (hi : k.imm = 0) (hown : ownerOf s.chans[n] = some x)
    (ho : (s.context n x).obs = false) (hr : (s.chans[n].force.relieved && isRelief n && x != 3) = false)
    (hstat : ldidStat s.chans[n].force = none) :
    exec (.ldid n k) s = .next (updGraver (updForce (decided s n x) n fun f => { f with ldid := some ⟨0, 0, [], false⟩ }) n fun g =>
      { g with busy := some (x, .ldid k.a), busyExt := false }) := by
  have hok : zeroFields k true false false false = true := by simp [zeroFields, hb, hc, hi]
  refine congrArg Host.Outcome.next ((issue_outputBody h ho hr hok rfl).trans ?_)
  rw [decided_ownerOf h.2.1, if_pos hown, decided_force, hstat]
  dsimp only
  rw [complete, updGraver_updGraver]
  rfl

/-- R208: the fields of CAL. -/
theorem calFields (hb : k.b = 0) (hc : k.c = 0) (hi : k.imm.toNat < 2) :
    (zeroFields k true false false true && immZero k 13 2 && decide (immField k 1 0 < 2)) = true := by
  simp [zeroFields, hb, hc, immZero_high (lo := 2) (hi := 13) (by omega : k.imm.toNat < 2 ^ 2), immField_low (hi := 1) (by omega : k.imm.toNat < 2 ^ 2), hi]

/-- R208: CAL of another context than 3. -/
theorem execCal_priv (h : Runs s n x 0x3D k) (hb : k.b = 0) (hc : k.c = 0) (hi : k.imm.toNat < 2) (hx : x ≠ 3) :
    exec (.cal n k) s = .next (suspend (decided s n x) n x .priv) := by
  refine congrArg Host.Outcome.next (issue_fault h ?_)
  rw [checked_true _ _ (calFields hb hc hi), if_pos (bne_iff_ne.mpr hx)]

/-- R208: CAL of context 3. -/
theorem execCal_request (h : Runs s n 3 0x3D k) (hb : k.b = 0) (hc : k.c = 0) (hi : k.imm.toNat < 2) (hawake : ddrAsleep s = false) {code : Nat} {t : State}
    (hreq : calRequest (decided s n 3) n (if k.imm = 0 then .full else .quick) = (code, t)) :
    exec (.cal n k) s = .next (ranTo (updCtx t n 3 fun c => setGr c k.a (word code)) n 3 false) := by
  have h0 : immField k 1 0 = 0 ↔ k.imm = 0 := by
    rw [immField_low (hi := 1) (by omega)]
    exact BitVec.toNat_inj (y := (0 : BitVec 14))
  refine congrArg Host.Outcome.next (issue_next h (hasExt_eq_false rfl rfl) ?_)
  dsimp only
  rw [checked_true _ _ (calFields hb hc hi), if_neg (by decide), demandDone_awake (s := decided s n 3) hawake]
  simp only [h0, hreq]

/-- R209: RDS and the value of its selector. -/
theorem execRds_runs {sel : Nat} {v : Word} {t : State} (h : Runs s n x 0x3E k) (hb : k.b = 0) (hc : k.c = 0) (hsel : sel < 32)
    (hi : k.imm = BitVec.ofNat 14 sel) (hv : rdsValue (decided s n x) n x sel = some (v, t)) :
    exec (.rds n k) s = .next (ranTo (updCtx t n x fun c => setGr c k.a v) n x false) := by
  have hlt : k.imm.toNat < 2 ^ 5 := by rw [hi, BitVec.toNat_ofNat]; omega
  have hf : immField k 4 0 = sel := by rw [immField_ofNat hi]; omega
  have h13 : immBit k 13 = false := immBit_lt (by omega)
  change Host.Outcome.next (ite _ _ _) = _
  rw [if_neg (by simp [h13])]
  refine congrArg Host.Outcome.next (issue_next h (hasExt_eq_false rfl rfl) ?_)
  rw [checked_true _ _ (by simp [zeroFields, hb, hc, immZero_high (lo := 5) (hi := 12) hlt]), hf, hv]

/-- R210: RDT and its source. -/
theorem execRdt_runs {src : Nat} (h : Runs s n x 0x3E k) (hc : k.c = 0) (hsrc : src < 4) (hi : k.imm = BitVec.ofNat 14 (0x2000 + src)) :
    exec (.rdt n k) s = .next (ranTo (updCtx
      (if src = 1 || src = 2 then updCmp (decided s n x) n (if src = 1 then Cmp.a else Cmp.b) fun c => { c with fifo := c.fifo.drop 1 } else decided s n x) n x
      fun c => setPair c k.a k.b (if src = 0 then some s.tb.now
        else if src = 3 then (decided s n x).chans[n].meas.lastResult
        else (cmpOf (decided s n x).chans[n] (if src = 1 then Cmp.a else Cmp.b)).fifo.head?)) n x false) := by
  have hf : immField k 1 0 = src := by rw [immField_ofNat hi]; omega
  have h2 : immZero k 12 2 = true := by
    rw [immZero, immField_ofNat hi, beq_iff_eq]
    omega
  have h13 : immBit k 13 = true := by
    rw [immBit_ofNat hi, Nat.testBit_eq_decide_div_mod_eq]
    simp only [Nat.reduceLT, decide_true, Bool.true_and, decide_eq_true_eq]
    omega
  change Host.Outcome.next (ite _ _ _) = _
  rw [if_neg (by simp [h13])]
  refine congrArg Host.Outcome.next (issue_next h (hasExt_eq_false rfl rfl) ?_)
  rw [checked_true _ _ (by simp [zeroFields, hc, h2]), hf]
  rfl

end

@[simp] theorem decided_cmpA (s : State) (n : Chan) (x : Ctx) : (decided s n x).chans[n].cmpA = s.chans[n].cmpA := by
  simp [decided, updGraver, updChan]

/-- Two updates of comparator A that agree on it are one. -/
theorem updCmp_a_congr {s : State} {n : Chan} {f g : Comparator → Comparator} (h : f s.chans[n].cmpA = g s.chans[n].cmpA) :
    updCmp s n .a f = updCmp s n .a g := by
  simp only [updCmp, updChan, h]

/-- Settles O22: each selector and source is read on the decided state. -/
theorem specialInstructions : Obligations.SpecialInstructions := by
  intro s n x k d
  refine ⟨fun h hb hc hi hown ho hr => ⟨fun stat hstat => ?_, fun hstat => ?_⟩, fun h hb hc hi => ⟨fun hx => ?_, fun hx hawake code t hreq => ?_⟩,
    fun h hb hc => ⟨fun hi => ?level, fun hi => ?seq, fun hi => ?snap⟩,
    fun h hc => ⟨fun hi => ?counter, fun hi t rest hf => ?capture, fun hi hl => ?noResult, fun hi t hl => ?result⟩⟩
  · exact execLdid_refused h hb hc hi hown ho hr hstat
  · exact execLdid_begins h hb hc hi hown ho hr hstat
  · exact execCal_priv h hb hc hi hx
  · subst hx
    exact execCal_request h hb hc hi hawake hreq
  case level =>
    refine (execRds_runs (sel := 14) h hb hc (by decide) hi rfl).trans (congrArg Host.Outcome.next ?_)
    exact ranTo_updCtx s n x false fun c => setGr c k.a (wordI ((decided s n x).context n x).intent.level)
  case seq =>
    refine (execRds_runs (sel := 9) h hb hc (by decide) hi rfl).trans (congrArg Host.Outcome.next ?_)
    rw [decided_meas]
  case snap =>
    refine (execRds_runs (sel := 10) h hb hc (by decide) hi rfl).trans (congrArg Host.Outcome.next ?_)
    rw [decided_meas, ranTo_updCtx]
  case counter =>
    exact (execRdt_runs (src := 0) h hc (by decide) hi).trans (congrArg Host.Outcome.next (ranTo_updCtx ..))
  case capture =>
    refine (execRdt_runs (src := 1) h hc (by decide) hi).trans (congrArg Host.Outcome.next ?_)
    have hf' : (decided s n x).chans[n].cmpA.fifo = t :: rest := by rw [decided_cmpA, hf]
    have hpop : updCmp (decided s n x) n .a (fun c => { c with fifo := c.fifo.drop 1 }) = updCmp d n .a fun c => { c with fifo := rest } :=
      updCmp_a_congr (by rw [hf']; rfl)
    have hhead : (cmpOf (decided s n x).chans[n] .a).fifo.head? = some t := by rw [cmpOf, hf']; rfl
    simp only [hpop, hhead, Nat.reduceEqDiff, decide_true, Bool.true_or, if_true, if_false, setPair, Nat.one_ne_zero]
  case noResult =>
    refine (execRdt_runs (src := 3) h hc (by decide) hi).trans (congrArg Host.Outcome.next ((ranTo_updCtx ..).trans ?_))
    simp only [decided_meas, hl]
    rfl
  case result =>
    refine (execRdt_runs (src := 3) h hc (by decide) hi).trans (congrArg Host.Outcome.next ((ranTo_updCtx ..).trans ?_))
    simp only [decided_meas, hl]
    rfl

end Sys2Proof.Machine
end

section
/-!
PROOFS. O23: GV_CTRL and GV_IMM (R142, R146, R147).
-/
namespace Sys2Proof.Machine

/-- A register is accessed outside recovery mode. -/
theorem accessed_running {s t : State} (h : s.fw.recovery = false) : accessed s t = t := by
  rw [accessed, h]
  rfl

theorem ofNat_field {w : Word} {hi lo : Nat} : BitVec.ofNat (hi - lo + 1) (field w hi lo) = w.extractLsb' lo (hi - lo + 1) := by
  apply BitVec.eq_of_toNat_eq
  rw [BitVec.toNat_ofNat, field, BitVec.extractLsb'_toNat, Nat.shiftRight_eq_div_pow, Nat.mod_mod]

theorem flag_eq_getLsbD (w : Word) (i : Nat) : flag w i = w.getLsbD i := by
  rw [flag, BitVec.getLsbD, Nat.testBit_eq_decide_div_mod_eq]
  rfl

theorem field_3_0 (w : Word) : field w 3 0 = w.toNat % 16 := by simp [field]

/-- The fields that an accepted write of GV_CTRL updates. -/
def ctrlFields (v : Word) (g : Graver) : Graver :=
  { g with wbase := v.extractLsb' 16 16, asid := v.extractLsb' 12 4, obsNext := v.getLsbD 11, ctxSel := v.extractLsb' 8 2 }

/-- An accepted write of GV_CTRL updates its fields first (R146). -/
theorem gvCtrlWrite_accepted {s : State} {n : Chan} {v : Word} (h : ctrlRefused s.chans[n].graver v = false) (hd : v.toNat % 16 ≠ 5) :
    gvCtrlWrite s n v =
      let t := updGraver s n (ctrlFields v)
      if v.toNat % 16 = 1 then startCtx t n (ctrlCtx v)
      else if v.toNat % 16 = 2 then haltRequest t n (ctrlCtx v)
      else if v.toNat % 16 = 3 then goCtx t n
      else if v.toNat % 16 = 4 then clearImmBuffer t n
      else t := by
  have hw : BitVec.ofNat 16 (field v 31 16) = v.extractLsb' 16 16 := ofNat_field
  have ha : BitVec.ofNat 4 (field v 15 12) = v.extractLsb' 12 4 := ofNat_field
  have hc : BitVec.ofNat 2 (field v 9 8) = v.extractLsb' 8 2 := ofNat_field
  rw [gvCtrlWrite, field_3_0]
  dsimp only
  rw [if_neg (show ¬ _ % 16 = cmdDisable from hd), h, if_neg Bool.false_ne_true, hw, ha, hc, flag_eq_getLsbD]
  rfl

/-- A register command of GV_CTRL that carries its own CMD (R146). -/
theorem gvCommand_runs {s : State} {n : Chan} {v : Word} {cmd : Nat} (hrec : s.fw.recovery = false) (h : v.toNat % 16 = cmd) :
    accessed s (gvCommand cmd n v s) = gvCtrlWrite s n v := by
  rw [accessed_running hrec, gvCommand, field_3_0, if_pos h]

theorem ctrlCtx_eq {v : Word} {x : Ctx} (h : v.toNat / 256 % 4 = x.val) : ctrlCtx v = x := by
  apply Fin.ext
  simp [ctrlCtx, field, h]

/-- A context that START or GO finds HALTED. -/
theorem isActive_halted {k : Context} (h : k.state = .halted) : isActive k = false := by simp [isActive, h]

/-- R146: START of a HALTED context. -/
theorem startCtx_halted {t : State} {n : Chan} {x : Ctx} (h : (t.context n x).state = .halted) :
    startCtx t n x = updCtx t n x (startedCtx t.chans[n].force.applied t.chans[n].graver.obsNext (vectorOf n x)) := by
  have hx : t.chans[n].graver.ctx[x] = t.context n x := rfl
  simp only [startCtx, hx, isActive_halted h]
  rfl

/-- Settles O23: the fields are those of ctrlFields, and the command acts on the state that has them. -/
theorem graverControl : Obligations.GraverControl := by
  intro s p n x v hrec g fields started
  have hforce : (updGraver s n (ctrlFields v)).chans[n].force = s.chans[n].force := by simp [updGraver]
  have hgraver : (updGraver s n (ctrlFields v)).chans[n].graver = ctrlFields v g := updGraver_chan ..
  refine ⟨fun hr hcmd hx hst => congrArg Host.Outcome.next ?start, fun hr hcmd => congrArg Host.Outcome.next ?refused,
    fun hr hcmd hx hb => congrArg Host.Outcome.next ?halt, fun hr hcmd hst him => congrArg Host.Outcome.next ?go,
    fun hr hcmd hb => congrArg Host.Outcome.next ?clear,
    fun hb hlen => congrArg Host.Outcome.next ?append, fun hb hlen => congrArg Host.Outcome.next ?ovf, fun hb => congrArg Host.Outcome.next ?rej⟩
  case start =>
    have hctx : ((updGraver s n (ctrlFields v)).context n x).state = .halted := (congrArg Context.state (updGraver_context ..)).trans hst
    refine (gvCommand_runs hrec hcmd).trans ?_
    rw [gvCtrlWrite_accepted hr (by omega), hcmd]
    dsimp only
    rw [if_pos rfl, ctrlCtx_eq hx, startCtx_halted hctx, hforce, hgraver]
    rfl
  case refused => 
    refine (gvCommand_runs hrec hcmd).trans ?_
    rw [gvCtrlWrite, field_3_0, hcmd]
    dsimp only
    rw [if_neg (by decide), if_pos hr]
    rfl
  case halt =>
    refine (gvCommand_runs hrec hcmd).trans ?_
    rw [gvCtrlWrite_accepted hr (by omega), hcmd]
    dsimp only
    rw [if_neg (by decide), if_pos rfl, ctrlCtx_eq hx, haltRequest, hgraver, show (ctrlFields v g).busy = none from hb]
    rfl
  case go =>
    have hctx : isActive (ctrlFields v g).ctx[(2 : Ctx)] = false := isActive_halted hst
    have himm : (ctrlFields v g).imm.isEmpty = false := List.isEmpty_eq_false_iff.mpr him
    refine (gvCommand_runs hrec hcmd).trans ?_
    rw [gvCtrlWrite_accepted hr (by omega), hcmd]
    dsimp only
    rw [if_neg (by decide), if_neg (by decide), if_pos rfl, goCtx, hgraver, hforce]
    have hstop : (isActive (ctrlFields v g).ctx[2] || (ctrlFields v g).imm.isEmpty) = false := by
      rw [himm, Bool.or_false]
      exact hctx
    rw [hstop, if_neg Bool.false_ne_true]
    rfl
  case clear =>
    refine (gvCommand_runs hrec hcmd).trans ?_
    rw [gvCtrlWrite_accepted hr (by omega), hcmd]
    dsimp only
    rw [if_neg (by decide), if_neg (by decide), if_neg (by decide), if_pos rfl, clearImmBuffer, hgraver, show (ctrlFields v g).immBusy = false from hb,
      if_neg Bool.false_ne_true, updGraver_updGraver]
    rfl
  case append =>
    refine (accessed_running hrec).trans (updGraver_congr ?_)
    rw [show s.chans[n].graver.immBusy = false from hb, if_neg Bool.false_ne_true, if_neg (Nat.not_le.mpr hlen)]
  case ovf =>
    refine (accessed_running hrec).trans (updGraver_congr ?_)
    rw [show s.chans[n].graver.immBusy = false from hb, if_neg Bool.false_ne_true, if_pos hlen]
  case rej =>
    refine (accessed_running hrec).trans (updGraver_congr ?_)
    rw [if_pos hb]

end Sys2Proof.Machine
end

section
/-!
PROOFS. O24: decisions, blanks and latches of the comparators (R244, R249 to R252).
-/
namespace Sys2Proof.Machine

theorem updMeas_self {s : State} {n : Chan} {f : Measure → Measure} (h : f s.chans[n].meas = s.chans[n].meas) : updMeas s n f = s :=
  updChan_self (by rw [h])

/-- A word that is held changes the measurement path at most. -/
theorem eventWord_updMeas (s : State) (n : Chan) (tick kind source detail : Nat) :
    ∃ f, eventWord s n tick kind source detail = updMeas s n f := by
  have none : s = updMeas s n id := (updMeas_self rfl).symm
  rw [eventWord, dateWord]
  split
  · exact ⟨id, none⟩
  · rw [holdWord]
    split
    · exact ⟨_, rfl⟩
    · exact ⟨id, none⟩

theorem cmpOf_updCmp (s : State) (n : Chan) (c : Cmp) (f : Comparator → Comparator) :
    cmpOf (updCmp s n c f).chans[n] c = f (cmpOf s.chans[n] c) := by
  cases c <;> simp [updCmp, cmpOf]

theorem updCmp_force (s : State) (n : Chan) (c : Cmp) (f : Comparator → Comparator) :
    (updCmp s n c f).chans[n].force = s.chans[n].force := by
  cases c <;> simp [updCmp]

theorem cmpOf_updMeas (s : State) (n : Chan) (c : Cmp) (f : Measure → Measure) :
    cmpOf (updMeas s n f).chans[n] c = cmpOf s.chans[n] c := by
  cases c <;> simp [updMeas, cmpOf]

theorem updMeas_force (s : State) (n : Chan) (f : Measure → Measure) : (updMeas s n f).chans[n].force = s.chans[n].force := by
  simp [updMeas]

/-- A decision changes a comparator, and reports an event and an excursion. -/
structure Decided (s : State) (n : Chan) (c : Cmp) (f : Comparator → Comparator) (t : State) : Prop where
  comparator : cmpOf t.chans[n] c = f (cmpOf s.chans[n] c)
  mm : t.mm = s.mm
  queues : t.queues = s.queues
  force : t.chans[n].force = s.chans[n].force

/-- What an excursion captures and latches (R249, R250). -/
def excursed (tick : Nat) (dst : CmpState) (k : Comparator) : Comparator :=
  { k with
    fifo := if k.fifo.length ≥ 4 then k.fifo else k.fifo ++ [tick]
    ovf := k.ovf || k.fifo.length ≥ 4
    latAbove := k.latAbove || dst == .above
    latBelow := k.latBelow || dst == .below }

theorem excursion_decided {s : State} (n : Chan) (c : Cmp) (tick : Nat) (dst : CmpState) (hv : s.pwr.vigil = false) :
    Decided s n c (excursed tick dst) (excursion s n c tick dst) := by
  have hex : excursion s n c tick dst = raiseAt (updCmp s n c (excursed tick dst)) (cmpSource n c) (some tick) := by
    rw [excursion]
    exact if_neg (by rw [raiseAt_pwr, updCmp_pwr, hv]; simp)
  rw [hex]
  refine ⟨?_, ?_, ?_, ?_⟩
  · rw [raiseAt_chans, cmpOf_updCmp]
  · rw [raiseAt_mm, updCmp_mm]
  · rw [raiseAt_queues, updCmp_queues]
  · rw [raiseAt_chans, updCmp_force]

/-- A decision of an enabled comparator that no blank holds. -/
theorem cmpDecide_decided {s : State} {n : Chan} {c : Cmp} {tick : Nat} {dst : CmpState} {w : CmpWas} (hv : s.pwr.vigil = false)
    (hw : cmpBefore s (cmpOf s.chans[n] c) tick = w) (hb : w.blanked = false) (he : w.cfg.getLsbD 2 = true) (hc : cmpChange w.state dst = true) :
    Decided s n c (fun k => if dst == .above || dst == .below then excursed tick dst (cmpMove w dst k) else cmpMove w dst k)
        (cmpDecide s n c tick dst) ∧ (dst = .inside → (cmpDecide s n c tick dst).tr = s.tr) := by
  obtain ⟨f, hev⟩ : ∃ f, (if flag w.cfg 0 then eventWord (updCmp s n c (cmpMove w dst)) n tick 4 (cmpSource n c) (cmpCode dst)
      else updCmp s n c (cmpMove w dst)) = updMeas (updCmp s n c (cmpMove w dst)) n f := by
    split
    · exact eventWord_updMeas ..
    · exact ⟨id, (updMeas_self rfl).symm⟩
  have hrun : cmpDecide s n c tick dst = if dst == .above || dst == .below then excursion (updMeas (updCmp s n c (cmpMove w dst)) n f) n c tick dst
      else updMeas (updCmp s n c (cmpMove w dst)) n f := by
    rw [cmpDecide]
    dsimp only
    rw [hw, hb, flag_eq_getLsbD w.cfg 2, he, hc, if_neg (by decide), hev]
  have moved : Decided s n c (cmpMove w dst) (updMeas (updCmp s n c (cmpMove w dst)) n f) :=
    ⟨by rw [cmpOf_updMeas, cmpOf_updCmp], rfl, rfl, by rw [updMeas_force, updCmp_force]⟩
  rw [hrun]
  split
  next hd =>
    have ex := excursion_decided (s := updMeas (updCmp s n c (cmpMove w dst)) n f) n c tick dst hv
    refine ⟨⟨?_, ex.mm.trans moved.mm, ex.queues.trans moved.queues, ex.force.trans moved.force⟩, fun h => ?_⟩
    · rw [ex.comparator, moved.comparator]
    · subst h
      exact absurd hd (by decide)
  next => exact ⟨moved, fun _ => rfl⟩

/-- A decision that does not come before the last sample tick is judged by the comparator as it is. -/
theorem cmpBefore_now {s : State} {k : Comparator} {tick : Nat} (h : k.was = none ∨ s.tb.lastSample.any (tick < ·) = false) :
    cmpBefore s k tick = ⟨k.cfg, k.state, cmpBlanked k, true⟩ := by
  rw [cmpBefore]
  obtain h | h := h
  · rw [h]
  · split
    · rw [h]
      rfl
    · rfl

theorem cmpBefore_late {s : State} {k : Comparator} {tick : Nat} {w : CmpWas} (hw : k.was = some w)
    (h : s.tb.lastSample.any (tick < ·) = true) : cmpBefore s k tick = w := by
  rw [cmpBefore, hw]
  exact if_pos h

/-- A decision whose tick has passed is taken as it is. -/
theorem execComparatorDecision_past {s : State} {n : Chan} {c : Cmp} {tick : Nat} {dst : CmpState} (h : tick ≤ s.tb.now) :
    exec (.comparatorDecision n c tick dst) s = .next (cmpDecide s n c tick dst) := by
  change execComparatorDecision n c tick dst s = _
  rw [execComparatorDecision, reach, if_pos h]

/-- Two updates of a comparator that agree on it are one. -/
theorem updCmp_congr {s : State} {n : Chan} {c : Cmp} {f g : Comparator → Comparator} (h : f (cmpOf s.chans[n] c) = g (cmpOf s.chans[n] c)) :
    updCmp s n c f = updCmp s n c g := by
  cases c with
  | a => simp only [updCmp, updChan, show f s.chans[n].cmpA = g s.chans[n].cmpA from h]
  | b => simp only [updCmp, updChan, show f s.chans[n].cmpB = g s.chans[n].cmpB from h]

/-- R251: the bits of CMP_STATUS that clear. -/
theorem cmpStatusClear_eq (v : Word) (b : Nat) : cmpStatusClear v b = fun k => { k with
    latAbove := if v.getLsbD (b + 1) then decide (k.state = .above) else k.latAbove
    latBelow := if v.getLsbD (b + 2) then decide (k.state = .below) else k.latBelow
    sat := k.sat && !v.getLsbD (b + 7), ovf := k.ovf && !v.getLsbD (b + 6) } := by
  funext k
  simp only [cmpStatusClear, clearLatches, flag_eq_getLsbD]
  cases k.state <;> rfl

/-- A state of a comparator that is an excursion. -/
theorem excursion_of {dst : CmpState} (hin : dst ≠ .inside) (hun : dst ≠ .unresolved) : (dst == .above || dst == .below) = true := by
  cases dst <;> simp at *

/-- Settles O24: the decision is judged by what the comparator stands at, and reports leave its channel alone. -/
theorem comparatorDecisions : Obligations.ComparatorDecisions := by
  intro s n c dst tick htick k
  refine ⟨fun hw hb he hc hv => ?decision, fun w hw hlate hb he hc hv => ?late, fun h => ?change, fun h => ?command, fun h => ?mode, fun p v hrec => ?clear⟩
  case decision =>
    obtain ⟨hd, htr⟩ := cmpDecide_decided hv (cmpBefore_now hw) hb he hc
    refine ⟨_, execComparatorDecision_past htick, ?_⟩
    dsimp only
    rw [hd.comparator]
    refine ⟨?_, ?_, ?_, ?_, fun hin => ⟨?_, htr hin⟩, fun hin hun => ⟨?_, ?_⟩, hd.mm, hd.queues, hd.force⟩
    · split <;> rfl
    · split <;> rfl
    · cases dst <;> simp [cmpMove, excursed, k]
    · cases dst <;> simp [cmpMove, excursed, k]
    · subst hin
      rfl
    · rw [if_pos (excursion_of hin hun)]
      by_cases h : 4 ≤ k.fifo.length
      · exact (if_pos h).trans (if_neg (Nat.not_lt.mpr h)).symm
      · exact (if_neg h).trans (if_pos (Nat.not_le.mp h)).symm
    · rw [if_pos (excursion_of hin hun)]
      rfl
  case late =>
    obtain ⟨hd, -⟩ := cmpDecide_decided hv (cmpBefore_late hw hlate) hb he hc
    refine ⟨_, execComparatorDecision_past htick, ?_, hd.mm, hd.queues⟩
    rw [hd.comparator]
    split <;> rfl
  case change =>
    refine congrArg Host.Outcome.next (updCmp_congr ?_)
    simp only [endBlank, show (cmpOf s.chans[n] c).changeBlank = some 0 from h, if_true]
  case command =>
    refine congrArg Host.Outcome.next (updCmp_congr ?_)
    simp only [endBlank, show (cmpOf s.chans[n] c).commandBlank = some 0 from h, if_true]
  case mode =>
    refine congrArg Host.Outcome.next (updCmp_congr ?_)
    simp only [endBlank, show (cmpOf s.chans[n] c).modeBlank = some 0 from h, if_true]
  case clear =>
    refine congrArg Host.Outcome.next ((accessed_running hrec).trans ?_)
    rw [cmpStatusWrite, cmpStatusClear_eq, cmpStatusClear_eq]
    simp [updCmp, updChan]

end Sys2Proof.Machine
end

section
/-!
PROOFS. O25: the Tracer's slot boundary and deliveries, pins, injection, and the interrupt mapper (R257 to R270).
-/
namespace Sys2Proof.Machine

/-- An operation that is repeated over a list keeps what one of it keeps. -/
theorem foldl_related {α : Type} {R : State → State → Prop} (refl : ∀ s, R s s) (trans : ∀ {s t u}, R t u → R s t → R s u)
    {f : State → α → State} (hf : ∀ s a, R s (f s a)) (l : List α) (s : State) : R s (l.foldl f s) := by
  induction l generalizing s with
  | nil => exact refl s
  | cons a l ih => exact trans (ih (f s a)) (hf s a)

/-- What a slot boundary leaves alone while it delivers: the counter, the queues and what waits for a later boundary. -/
structure BoundaryKeeps (slot : Nat) (s t : State) : Prop where
  tb : t.tb = s.tb
  queues : t.queues = s.queues
  grpWrite : t.tr.grpWrite = s.tr.grpWrite
  grpTokens : t.tr.grpTokens.filter (fun k => slot < k.2) = s.tr.grpTokens.filter (fun k => slot < k.2)
  timedTokens : t.tr.timedTokens = s.tr.timedTokens
  ingress : t.tr.ingress = s.tr.ingress

/-- A delivery to the consumers leaves the channels of the Tracer alone too. -/
structure DeliveryKeeps (slot : Nat) (s t : State) : Prop extends BoundaryKeeps slot s t where
  tc : t.tr.tc = s.tr.tc

theorem BoundaryKeeps.refl (slot : Nat) (s : State) : BoundaryKeeps slot s s := ⟨rfl, rfl, rfl, rfl, rfl, rfl⟩

theorem BoundaryKeeps.trans {slot : Nat} {s t u : State} (h : BoundaryKeeps slot t u) (k : BoundaryKeeps slot s t) : BoundaryKeeps slot s u :=
  ⟨h.tb.trans k.tb, h.queues.trans k.queues, h.grpWrite.trans k.grpWrite, h.grpTokens.trans k.grpTokens,
    h.timedTokens.trans k.timedTokens, h.ingress.trans k.ingress⟩

theorem DeliveryKeeps.refl (slot : Nat) (s : State) : DeliveryKeeps slot s s := ⟨.refl slot s, rfl⟩

theorem DeliveryKeeps.trans {slot : Nat} {s t u : State} (h : DeliveryKeeps slot t u) (k : DeliveryKeeps slot s t) : DeliveryKeeps slot s u :=
  ⟨h.toBoundaryKeeps.trans k.toBoundaryKeeps, h.tc.trans k.tc⟩

/-- An operation that leaves the counter, the queues and the Tracer alone. -/
theorem DeliveryKeeps.of_tr {slot : Nat} {s t : State} (htb : t.tb = s.tb) (hq : t.queues = s.queues) (htr : t.tr = s.tr) :
    DeliveryKeeps slot s t :=
  ⟨⟨htb, hq, by rw [htr], by rw [htr], by rw [htr], by rw [htr]⟩, by rw [htr]⟩

theorem updCons_keeps (slot : Nat) (s : State) (i : Fin 551) (f : Consumer → Consumer) : DeliveryKeeps slot s (updCons s i f) :=
  ⟨⟨rfl, rfl, rfl, rfl, rfl, rfl⟩, rfl⟩

theorem recordJump_keeps (slot : Nat) (s : State) (n : Chan) (x : Ctx) (token : Bool) : DeliveryKeeps slot s (recordJump s n x token) := by
  rw [recordJump]
  split
  · exact .refl slot s
  · split
    · exact .of_tr rfl rfl rfl
    · exact .of_tr rfl rfl rfl

theorem requestJump_keeps (slot : Nat) (s : State) (n : Chan) : DeliveryKeeps slot s (requestJump s n) := by
  rw [requestJump]
  split
  · exact recordJump_keeps slot s n _ true
  · exact .refl slot s

theorem startFrames_keeps (slot : Nat) (s : State) : DeliveryKeeps slot s (startFrames s) := by
  rw [startFrames]
  split
  · exact .of_tr rfl rfl rfl
  · exact .refl slot s

/-- A group token of this slot does not wait for a later one. -/
theorem groupToken_keeps (slot : Nat) (s : State) (g : Nat) :
    DeliveryKeeps slot s { s with tr := { s.tr with grpTokens := s.tr.grpTokens ++ [(g, slot)] } } :=
  ⟨⟨rfl, rfl, rfl, by simp, rfl, rfl⟩, rfl⟩

theorem deliverInput_keeps (slot : Nat) (s : State) (i : Fin 551) : DeliveryKeeps slot s (deliverInput slot s i) := by
  rw [deliverInput]
  dsimp only
  split
  · exact updCons_keeps ..
  split
  · exact requestJump_keeps ..
  split
  · exact .of_tr rfl rfl rfl
  split
  · exact ⟨⟨rfl, rfl, rfl, rfl, rfl, rfl⟩, rfl⟩
  split
  · exact (updCons_keeps slot _ i recordToken).trans (.of_tr rfl rfl rfl)
  split
  · exact groupToken_keeps ..
  split
  · exact startFrames_keeps ..
  split
  · exact .of_tr rfl rfl rfl
  split
  · exact .of_tr rfl rfl rfl
  · exact .refl slot s

theorem settle_keeps (slot : Nat) (s : State) (n : Chan) (x : Ctx) : DeliveryKeeps slot s (settle s n x) := by
  rw [settle]
  split
  · exact .of_tr rfl rfl rfl
  split
  · exact .of_tr rfl rfl rfl
  · exact .refl slot s

theorem serveWaitev_keeps (slot : Nat) (s : State) (n : Chan) : DeliveryKeeps slot s (serveWaitev s n) := by
  refine foldl_related (DeliveryKeeps.refl slot) DeliveryKeeps.trans (fun s x => ?_) byPriority s
  split
  · split
    · exact (settle_keeps slot _ n x).trans (DeliveryKeeps.trans (t := consumeInput s n _) (.of_tr rfl rfl rfl)
        (updCons_keeps slot s (waitInput n _) _))
    · exact .refl slot s
  · exact .refl slot s

theorem deliverInputs_keeps (slot : Nat) (s : State) (tcs : List Nat) : DeliveryKeeps slot s (deliverInputs s slot tcs) := by
  rw [deliverInputs]
  refine (foldl_related (DeliveryKeeps.refl slot) DeliveryKeeps.trans (fun s n => serveWaitev_keeps slot s n) allChans _).trans (foldl_related (DeliveryKeeps.refl slot) DeliveryKeeps.trans (fun s i => ?_) (List.finRange 551) s)
  split
  · exact deliverInput_keeps slot s i
  · exact .refl slot s

theorem countDelivery_keeps (slot : Nat) (s : State) (k : Fin 128) (raised delivered : Nat) :
    BoundaryKeeps slot s (countDelivery s k raised delivered) := by
  rw [countDelivery]
  split
  · exact (DeliveryKeeps.of_tr (offerDevice_tb ..) (offerDevice_queues ..) (offerDevice_tr ..)).toBoundaryKeeps.trans ⟨rfl, rfl, rfl, rfl, rfl, rfl⟩
  · exact ⟨rfl, rfl, rfl, rfl, rfl, rfl⟩

/-- A delivery is counted in its channel, whoever listens to it (R259). -/
theorem countDelivery_tc (s : State) (k : Fin 128) (raised delivered : Nat) :
    (countDelivery s k raised delivered).tr.tc = s.tr.tc.set k { s.tr.tc[k] with flag := true, count := (s.tr.tc[k].count + 1) % 65536 } := by
  rw [countDelivery]
  split
  · rw [offerDevice_tr]
    rfl
  · rfl

theorem deliverTimed_keeps (slot : Nat) (s : State) : BoundaryKeeps slot s (deliverTimed s slot).1 := by
  rw [deliverTimed]
  dsimp only
  refine (deliverInputs_keeps slot _ _).toBoundaryKeeps.trans ?_
  refine (foldl_related (BoundaryKeeps.refl slot) BoundaryKeeps.trans (fun s d => ?_) _ _).trans ?_
  · exact countDelivery_keeps slot s d.1 d.2 (16 * slot)
  · exact ⟨rfl, rfl, rfl, rfl, rfl, rfl⟩

theorem acceptChannel_keeps (slot at_ : Nat) (due : List Ingress) (s : State) (k : Fin 128) :
    BoundaryKeeps slot s (acceptChannel at_ due s k) := by
  rw [acceptChannel]
  dsimp only
  split
  · exact .refl slot s
  · exact ⟨rfl, rfl, rfl, rfl, rfl, rfl⟩

theorem sendTokens_keeps (slot at_ : Nat) (s : State) (l : List Flight) : BoundaryKeeps slot s (sendTokens s at_ l) := by
  rw [sendTokens]
  split
  · exact .refl slot s
  · refine foldl_related (BoundaryKeeps.refl slot) BoundaryKeeps.trans (fun s k => ?_) _ _
    exact ⟨rfl, rfl, rfl, rfl, rfl, rfl⟩

/-- Of the edges that came in, those of a later slot stay. -/
theorem acceptTokens_keeps (s : State) (slot : Nat) :
    BoundaryKeeps slot { s with tr := { s.tr with ingress := s.tr.ingress.filter fun i => slot < i.slot } } (acceptTokens s slot) := by
  rw [acceptTokens]
  exact (sendTokens_keeps slot slot _ _).trans (foldl_related (BoundaryKeeps.refl slot) BoundaryKeeps.trans
    (fun s k => acceptChannel_keeps slot slot _ s k) _ _)

theorem acceptChannel_grpTokens (slot : Nat) (due : List Ingress) (s : State) (k : Fin 128) :
    (acceptChannel slot due s k).tr.grpTokens = s.tr.grpTokens := by
  rw [acceptChannel]
  dsimp only
  split <;> rfl

theorem sendTokens_tr (s : State) (slot : Nat) (l : List Flight) : (sendTokens s slot l).tr = s.tr := by
  rw [sendTokens]
  split
  · rfl
  · refine foldl_related (R := fun s t => t.tr = s.tr) (fun _ => rfl) (fun h k => h.trans k) (fun s k => ?_) _ _
    exact sendBlock_tr ..

theorem acceptTokens_grpTokens (s : State) (slot : Nat) : (acceptTokens s slot).tr.grpTokens = s.tr.grpTokens := by
  rw [acceptTokens]
  dsimp only
  rw [sendTokens_tr]
  exact foldl_related (R := fun s t => t.tr.grpTokens = s.tr.grpTokens) (fun _ => rfl) (fun h k => h.trans k)
    (fun s k => acceptChannel_grpTokens slot _ s k) _ _

/-- What stands after the boundary of a slot (R257): the counter at its tick, and what came too late for it. -/
theorem slotTick_spec (s : State) (tick : Nat) :
    let t := slotTick s tick
    let slot := tick / 16
    t.tb = { s.tb with now := tick, lastSlot := some tick } ∧ t.tr.grpWrite = s.tr.grpWrite.filter (fun w => slot < w.2)
      ∧ t.tr.grpTokens = s.tr.grpTokens.filter (fun k => slot < k.2) ∧ t.tr.timedTokens = s.tr.timedTokens.filter (fun k => slot < k.2)
      ∧ t.tr.ingress = s.tr.ingress.filter (fun i => slot < i.slot) := by
  have delivered := deliverTimed_keeps (tick / 16) { s with tb := { s.tb with now := tick, lastSlot := some tick } }
  rw [slotTick]
  dsimp only
  generalize deliverTimed _ _ = d at delivered ⊢
  obtain ⟨htb, -, hwrite, htokens, htimed, hin⟩ := delivered
  refine ⟨(acceptTokens_keeps _ _).tb.trans htb, ?_, (acceptTokens_grpTokens _ _).trans htokens, ?_, ?_⟩
  · exact (acceptTokens_keeps _ _).grpWrite.trans (congrArg (List.filter fun w : BitVec 16 × Nat => tick / 16 < w.2) hwrite)
  · exact (acceptTokens_keeps _ _).timedTokens.trans (congrArg (List.filter fun k : Nat × Nat => tick / 16 < k.2) htimed)
  · exact (acceptTokens_keeps _ _).ingress.trans (congrArg (List.filter fun i : Ingress => tick / 16 < i.slot) hin)

theorem slotBoundary_completes {s : State} (hl : s.tb.lock = true) (hs : nextSlot s < nextSample s) :
    exec .slotBoundary s = .next (slotTick s (nextSlot s)) := by
  rw [exec, execSlotBoundary, hl, Bool.true_and, if_pos (decide_eq_true hs)]

/-- A token that a delivery leaves for the next slot boundary. -/
def timedToken (k : Nat) (t : State) : State :=
  { t with tr := { t.tr with timedTokens := t.tr.timedTokens ++ [(k, slotTarget t)] } }

theorem forwardDirect_cons {s : State} {tc : Fin 128} {raised : Nat} {rest : List Nat} (h : s.tr.tc[tc].queue = raised :: rest) :
    ∃ slot, forwardDirect s tc = timedToken tc.val
      (deliverInputs (countDelivery (updTc s tc fun t => { t with queue := rest }) tc raised s.tb.now) slot [tc.val]) := by
  rw [forwardDirect, h]
  dsimp only
  rw [updTc_tb]
  exact ⟨_, rfl⟩

/-- A DIRECT channel has forwarded its oldest token and counted it (R259). -/
structure Forwarded (s : State) (tc : Fin 128) (rest : List Nat) (t : State) : Prop where
  channel : t.tr.tc[tc] = { s.tr.tc[tc] with queue := rest, flag := true, count := (s.tr.tc[tc].count + 1) % 65536 }
  tb : t.tb = s.tb
  queues : t.queues = s.queues

theorem countDelivery_forwarded (s : State) (tc : Fin 128) (raised delivered : Nat) (rest : List Nat) :
    Forwarded s tc rest (countDelivery (updTc s tc fun t => { t with queue := rest }) tc raised delivered) := by
  obtain ⟨htb, hq, -, -, -, -⟩ := countDelivery_keeps 0 (updTc s tc fun t => { t with queue := rest }) tc raised delivered
  exact ⟨by rw [countDelivery_tc]; simp [updTc], htb, hq⟩

theorem Forwarded.of_deliveryKeeps {s t u : State} {tc : Fin 128} {rest : List Nat} {slot : Nat} (h : Forwarded s tc rest t)
    (hk : DeliveryKeeps slot t u) : Forwarded s tc rest (timedToken tc.val u) :=
  ⟨(congrArg (·[tc]) hk.tc).trans h.channel, hk.tb.trans h.tb, hk.queues.trans h.queues⟩

theorem forwardDirect_forwarded {s : State} {tc : Fin 128} {raised : Nat} {rest : List Nat} (h : s.tr.tc[tc].queue = raised :: rest) :
    Forwarded s tc rest (forwardDirect s tc) := by
  obtain ⟨slot, hrun⟩ := forwardDirect_cons h
  rw [hrun]
  exact (countDelivery_forwarded s tc raised s.tb.now rest).of_deliveryKeeps (deliverInputs_keeps slot _ _)

/-! ### Pins, injection and MERGE -/

theorem eviEdge_reached {s : State} (pin : Fin 8) (rising : Bool) {tick : Nat} (ht : tick ≤ s.tb.now) :
    exec (.eviEdge pin rising tick) s =
      .next (if eviSelected s.tr.evi pin.val rising then raiseAt s (312 + pin.val) (some tick) else s) := by
  rw [exec, execEviEdge, reach, if_pos ht]

/-- The bits of a power of two. -/
theorem flag_two_pow {k j : Nat} (hk : k < 32) : flag (BitVec.ofNat 32 (2 ^ k)) j = decide (j = k) := by
  rw [flag_eq_getLsbD, BitVec.getLsbD_ofNat, Nat.testBit_two_pow]
  by_cases h : j = k
  · subst h; simp [hk]
  · simp [h, Ne.symm h]

/-- Of the bits of a range, only the one that is set has an effect. -/
theorem foldl_flag_one (f : State → Nat → State) {w : Word} {k : Nat} (hw : ∀ j, flag w j = decide (j = k)) (l : List Nat) (hl : l.Nodup)
    (s : State) : l.foldl (fun s j => if flag w j then f s j else s) s = if k ∈ l then f s k else s := by
  induction l generalizing s with
  | nil => rfl
  | cons j l ih =>
    obtain ⟨hj, hl⟩ := List.nodup_cons.mp hl
    rw [List.foldl_cons, ih hl, hw]
    by_cases h : j = k
    · subst h
      simp [hj]
    · simp [h, Ne.symm h]

theorem softwareInject_one {s : State} (p : Path) {k : Nat} (hk : k < 16) (hrec : s.fw.recovery = false) :
    exec (.softwareInject p (BitVec.ofNat 32 (2 ^ k))) s = .next (raise s (304 + k)) := by
  rw [exec, execSoftwareInject, accessed_running hrec, injectSources,
    foldl_flag_one (fun s j => raise s (304 + j)) (fun j => flag_two_pow (by omega)) _ List.nodup_range, if_pos (List.mem_range.mpr hk)]

theorem tcMergeWrite_zero {s : State} (p : Path) {v : Word} (h : v.toNat % 65536 = 0) (hrec : s.fw.recovery = false) :
    exec (.tcMergeWrite p v) s = .next (updTc s (pathTc s p) fun t => { t with merge := 0 }) := by
  rw [exec, execTcMergeWrite, accessed_running hrec, writeMerge, if_pos (by simpa [field] using h)]

/-! ### The interrupt mapper -/

theorem imAck_freed {s : State} (p : Path) {v : Word} (hrec : s.fw.recovery = false)
    (h : (s.tr.im.any fun e => e.pend && e.vector.toNat == v.toNat % 64) = false) :
    exec (.imAck p v) s = .next { s with
      tr := { s.tr with unacked := s.tr.unacked.filter (· != v.toNat % 64) }
      hht := { s.hht with events := s.hht.events.filter fun e => e.1 != v.toNat % 64 } } := by
  have hv : field v 5 0 = v.toNat % 64 := by simp [field]
  rw [exec, execImAck, accessed_running hrec, hv, ackVector]
  dsimp only
  rw [h]
  rfl

theorem raiseIm_idle {s : State} {src : Fin 320} (h : s.tr.im[src].en = false ∨ s.tr.im[src].pend = true) : raiseIm s src.val = s := by
  rw [raiseIm, dif_pos src.isLt]
  exact if_neg (by rcases h with h | h <;> simp_all)

theorem raiseIm_pending {s : State} {src : Fin 320} (he : s.tr.im[src].en = true) (hp : s.tr.im[src].pend = false) :
    raiseIm s src.val = sendVector { s with tr := { s.tr with im := s.tr.im.set src { s.tr.im[src] with pend := true } } }
      s.tr.im[src].vector.toNat := by
  rw [raiseIm, dif_pos src.isLt]
  exact if_pos (by simp_all)

theorem sendVector_unacked {s : State} {v : Nat} (h : s.tr.unacked.contains v = true) : sendVector s v = s := by
  rw [sendVector, if_pos h]

/-- A message that nothing holds goes out. -/
theorem sendVector_sent {s : State} {v : Nat} (h : s.tr.unacked.contains v = false) (hm : vectorHeld s.tr v = false) :
    (sendVector s v).tr = { s.tr with unacked := s.tr.unacked ++ [v], sent := s.tr.sent ++ [v] } := by
  rw [sendVector, if_neg (by rw [h]; decide), hm]
  rfl

/-- A message that its entry masks, or that finds MSI-X not enabled, waits. -/
theorem sendVector_held {s : State} {v : Nat} (h : s.tr.unacked.contains v = false) (hm : vectorHeld s.tr v = true)
    (hw : s.tr.masked.contains v = false) :
    (sendVector s v).tr = { s.tr with unacked := s.tr.unacked ++ [v], masked := s.tr.masked ++ [v] } := by
  rw [sendVector, if_neg (by rw [h]; decide), hm, hw]
  rfl

/-- Settles O25: the boundary keeps what is due later, through every delivery that it makes; of the injected bits one is set, and the message of an
enabled source goes out, waits, or is out already. -/
theorem tracerAndInterrupts : Obligations.TracerAndInterrupts := by
  unfold Obligations.TracerAndInterrupts
  refine ⟨fun s p v => ⟨?slot, ?direct, ?pin, ?inject, ?merge, ?ack⟩, fun s src => ⟨?sent, ?held, ?out, ?idle⟩⟩
  case slot => exact fun hl hs => ⟨_, slotBoundary_completes hl hs, slotTick_spec s (nextSlot s)⟩
  case direct =>
    intro tc raised rest h
    obtain ⟨hchannel, htb, hqueues⟩ := forwardDirect_forwarded h
    exact ⟨_, rfl, hchannel, htb, hqueues⟩
  case pin =>
    intro pin rising tick ht
    rw [eviEdge_reached pin rising ht]
    exact ⟨fun h => by rw [if_pos h], fun h => by rw [h]; rfl⟩
  case inject =>
    rintro k hk rfl hrec
    exact softwareInject_one p hk hrec
  case merge => exact tcMergeWrite_zero p
  case ack => exact fun h hrec => imAck_freed p hrec h
  case sent =>
    intro he hp hu hm hx
    rw [raiseIm_pending he hp]
    exact sendVector_sent hu (by rw [vectorHeld]; simp [hx]; exact hm)
  case held =>
    intro he hp hu hm hw
    rw [raiseIm_pending he hp]
    exact sendVector_held hu (by rw [vectorHeld]; rcases hm with hm | hm <;> simp [hm]; exact .inl hm) hw
  case out =>
    intro he hp hu
    rw [raiseIm_pending he hp]
    exact sendVector_unacked hu
  case idle => exact raiseIm_idle

end Sys2Proof.Machine
end

section
/-!
PROOFS. O26: the control of frames, snapshots and gates (R272, R273, R276, R283, R286).
-/
namespace Sys2Proof.Machine

/-- A write of FRM_CTRL that does not start frames asks for a snapshot, and may end the frames. -/
theorem frmCtrlWrite_continues {s : State} {v : Word} (h : (flag v 0 && !s.ht.en) = false)
    (ht : flag v 1 = s.ht.token) :
    frmCtrlWrite s v =
      let s := updHt s fun h => { h with
        snapRej := h.snapRej || (flag v 2 && (s.ht.en || s.ht.armed)), snapReq := h.snapReq || (flag v 2 && !(s.ht.en || s.ht.armed)) }
      if flag v 0 then s else endFrames s := by
  rw [frmCtrlWrite, h, ht]
  simp [updHt]

/-- A start that is refused says so, and does nothing else. -/
theorem frmCtrlWrite_refused {s : State} {v : Word} (hen : s.ht.en = false) (h0 : flag v 0 = true)
    (hkeep : flag v 1 = s.ht.token ∨ s.ht.armed = false) (hg : gridOk s.ht (flag v 1) = false) :
    frmCtrlWrite s v = { s with ht := { s.ht with frmRej := true } } := by
  have hrefused : (flag v 1 != s.ht.token && s.ht.armed) = false := by
    rcases hkeep with h | h <;> simp [h]
  rw [frmCtrlWrite, hen, h0, Bool.false_or, hrefused]
  simp [hg, updHt]

/-- A start on a grid inside its limits arms the frames. -/
theorem frmCtrlWrite_starts {s : State} {v : Word} (hen : s.ht.en = false) (ha : s.ht.armed = false) (hk : s.pf.keyend = false)
    (h0 : flag v 0 = true) (h2 : flag v 2 = false) (hg : gridOk s.ht (flag v 1) = true) :
    frmCtrlWrite s v = armFrames (updHt s fun h => { h with token := flag v 1 }) := by
  rw [frmCtrlWrite, hen, ha, hk, h0, h2]
  simp [hg]

/-- Frames that do not run begin at the first boundary that is still to come, or with a token. -/
theorem armFrames_idle {s : State} (h : s.ht.run = false) : armFrames s = { s with ht :=
    if s.ht.token then { s.ht with en := true, armed := true, disarm := false, again := false, num := 0, next := 0 }
    else { s.ht with
      en := true, armed := true, disarm := false, again := false, num := firstFrame s.ht (nextSample s)
      next := s.ht.start + firstFrame s.ht (nextSample s) * s.ht.len } } := by
  rw [armFrames, updHt, if_neg (by simp [h]), armAt]

/-- Frames whose end has yet to apply begin again behind it. -/
theorem armFrames_running {s : State} (h : s.ht.run = true) : armFrames s = { s with ht := { s.ht with en := true, again := true } } := by
  rw [armFrames, updHt, if_pos h]

theorem endFrames_running {s : State} (hen : s.ht.en = true) (ha : s.ht.armed = false) (hb : s.ht.again = false) :
    endFrames s = { s with ht := { s.ht with
      en := false, endAt := some (nextSample s), cut := decide (nextSample s < s.ht.next), next := min s.ht.next (nextSample s) } } := by
  rw [endFrames]
  simp [hen, ha, hb]

theorem framesEnable_writes {s : State} (p : Path) {v : Word} (hrec : s.fw.recovery = false) (h : v.getLsbD 0 = true) :
    exec (.framesEnable p v) s = .next (frmCtrlWrite s v) := by
  rw [exec, execFramesEnable, accessed_running hrec, flag_eq_getLsbD, if_pos h]

theorem framesDisable_writes {s : State} (p : Path) {v : Word} (hrec : s.fw.recovery = false) (h : v.getLsbD 0 = false) :
    exec (.framesDisable p v) s = .next (frmCtrlWrite s v) := by
  rw [exec, execFramesDisable, accessed_running hrec, flag_eq_getLsbD, if_neg (by rw [h]; decide)]

theorem snap_writes {s : State} (p : Path) {v : Word} (hrec : s.fw.recovery = false) (h : v.getLsbD 2 = true) :
    exec (.snap p v) s = .next (frmCtrlWrite s v) := by
  rw [exec, execSnap, accessed_running hrec, flag_eq_getLsbD, if_pos h]

/-- Settles O26: FRM_CTRL starts, refuses, continues or ends by its bits and by what runs. -/
theorem frameControl : Obligations.FrameControl := by
  unfold Obligations.FrameControl
  intro s p v hrec token idle k
  have h1 : flag v 1 = token := flag_eq_getLsbD v 1
  refine ⟨?start, ?restart, ?stop, ?snapTaken, ?snapRefused, ?gateStart, ?gateStop⟩
  case start =>
    rintro ⟨hen, ha, hrun, hk⟩ h0 h2
    have hf0 : flag v 0 = true := (flag_eq_getLsbD v 0).trans h0
    have hf2 : flag v 2 = false := (flag_eq_getLsbD v 2).trans h2
    rw [framesEnable_writes p hrec h0]
    refine ⟨fun hg => ?_, fun hg => ?_⟩
    · rw [frmCtrlWrite_starts hen ha hk hf0 hf2 (h1 ▸ hg), h1]
      refine congrArg Host.Outcome.next ((armFrames_idle (s := updHt s fun h => { h with token := token }) hrun).trans ?_)
      by_cases ht : token = true
      · simp [updHt, ht]
      · simp [updHt, ht, firstFrame, k]
        exact ⟨rfl, rfl⟩
    · rw [frmCtrlWrite_refused hen hf0 (.inr ha) (h1 ▸ hg)]
  case restart =>
    intro hen hrun hk h0 h2 ht
    have hf0 : flag v 0 = true := (flag_eq_getLsbD v 0).trans h0
    have hf2 : flag v 2 = false := (flag_eq_getLsbD v 2).trans h2
    rw [framesEnable_writes p hrec h0]
    refine ⟨fun hg ha => ?_, fun hg => ?_⟩
    · rw [frmCtrlWrite_starts hen ha hk hf0 hf2 (h1 ▸ hg), h1, ht]
      exact congrArg Host.Outcome.next (armFrames_running hrun)
    · rw [frmCtrlWrite_refused hen hf0 (.inl (h1.trans ht)) (h1 ▸ hg)]
  case stop =>
    intro hen ha hb h0 ht h2
    have hf0 : flag v 0 = false := (flag_eq_getLsbD v 0).trans h0
    have hf2 : flag v 2 = false := (flag_eq_getLsbD v 2).trans h2
    rw [framesDisable_writes p hrec h0, frmCtrlWrite_continues (by simp [hf0]) (h1.trans ht)]
    simp only [hf0, hf2, Bool.false_and, Bool.or_false]
    exact congrArg Host.Outcome.next (endFrames_running hen ha hb)
  case snapTaken =>
    rintro ⟨hen, ha, hrun, hk⟩ hv ht
    have bits (i : Nat) (hi : i < 3) : v.getLsbD i = Nat.testBit 4 i := by
      rw [← hv, show (8 : Nat) = 2 ^ 3 from rfl, Nat.testBit_mod_two_pow, decide_eq_true hi, Bool.true_and, BitVec.testBit_toNat]
    have h2 : v.getLsbD 2 = true := bits 2 (by decide)
    have hf0 : flag v 0 = false := (flag_eq_getLsbD v 0).trans (bits 0 (by decide))
    have hf1 : flag v 1 = false := (flag_eq_getLsbD v 1).trans (bits 1 (by decide))
    rw [snap_writes p hrec h2, frmCtrlWrite_continues (by simp [hf0]) (hf1.trans ht.symm)]
    simp [hf0, (flag_eq_getLsbD v 2).trans h2, hen, ha, updHt, endFrames]
  case snapRefused =>
    intro hen h0 h2 ht
    have hf0 : flag v 0 = true := (flag_eq_getLsbD v 0).trans h0
    have hf2 : flag v 2 = true := (flag_eq_getLsbD v 2).trans h2
    rw [snap_writes p hrec h2, frmCtrlWrite_continues (by simp [hen]) (h1.trans ht)]
    simp [hf0, hf2, hen, updHt]
  case gateStart => rw [exec, execHatchStart, accessed_running hrec]; rfl
  case gateStop => rw [exec, execHatchStop, accessed_running hrec]; rfl

end Sys2Proof.Machine
end

section
/-!
PROOFS. What the queues and the streams of the channels leave alone (R116 to R119, R299 to R301).
-/
namespace Sys2Proof.Machine

/-- Two states that differ in queues and reports at most, and in the channels only where `chans` allows it. -/
def SameButPush (chans : Bool) (t s : State) : Prop :=
  t = { s with chans := if chans then t.chans else s.chans, queues := t.queues, tr := t.tr, hht := t.hht }

theorem SameButPush.refl (chans : Bool) (s : State) : SameButPush chans s s := by
  cases chans <;> rfl

theorem SameButPush.trans {chans : Bool} {u t s : State} (h : SameButPush chans u t) (k : SameButPush chans t s) : SameButPush chans u s := by
  unfold SameButPush at *
  cases chans <;> rw [h, k] <;> rfl

theorem SameButReport.push {chans : Bool} {t s : State} (h : SameButReport t s) : SameButPush chans t s := by
  unfold SameButReport at h
  unfold SameButPush
  cases chans <;> rw [h] <;> rfl

section
variable {chans : Bool} {t s : State} (h : SameButPush chans t s)
include h
theorem SameButPush.pending : t.pending = s.pending := by rw [h]
theorem SameButPush.tb : t.tb = s.tb := by rw [h]
theorem SameButPush.banks : t.banks = s.banks := by rw [h]
theorem SameButPush.ht : t.ht = s.ht := by rw [h]
theorem SameButPush.rings : t.rings = s.rings := by rw [h]
theorem SameButPush.mm : t.mm = s.mm := by rw [h]
theorem SameButPush.pf : t.pf = s.pf := by rw [h]
theorem SameButPush.pwr : t.pwr = s.pwr := by rw [h]
theorem SameButPush.fw : t.fw = s.fw := by rw [h]
theorem SameButPush.paths : t.paths = s.paths := by rw [h]
end

theorem SameButPush.chans_eq {t s : State} (h : SameButPush false t s) : t.chans = s.chans := by rw [h]; rfl

theorem SameButPush.widen {chans : Bool} {t s : State} (h : SameButPush chans t s) : SameButPush true t s := by
  unfold SameButPush at *
  cases chans <;> rw [h] <;> rfl

theorem SameButPush.ite {chans : Bool} {c : Prop} [Decidable c] {t u s : State} (ht : SameButPush chans t s) (hu : SameButPush chans u s) :
    SameButPush chans (if c then t else u) s := by
  split
  · exact ht
  · exact hu

theorem updQueue_same (chans : Bool) (s : State) (q : Fin 256) (f : Queue → Queue) : SameButPush chans (updQueue s q f) s := by
  cases chans <;> rfl

theorem updChan_same (s : State) (n : Chan) (f : Channel → Channel) : SameButPush true (updChan s n f) s := rfl

theorem updMeas_same (s : State) (n : Chan) (f : Measure → Measure) : SameButPush true (updMeas s n f) s := rfl

theorem changeQueue_same (chans : Bool) (s : State) (q : Fin 256) (f : Queue → Queue) : SameButPush chans (changeQueue s q f) s := by
  rw [changeQueue]
  have hset : SameButPush chans { s with queues := s.queues.set q ((f s.queues[q]).marks s.queues[q].occ).1 } s := by cases chans <;> rfl
  split
  · exact (raiseAt_same ..).push.trans hset
  · exact hset

/-- Only a result queue of a channel has a chain that a GAP enters. -/
theorem commitGap_same (s : State) (q : Fin 256) (disable : Bool) : SameButPush (queueChan q).isSome (commitGap s q disable) s := by
  rw [commitGap]
  split
  · next n hn =>
    rw [hn]
    exact (raiseAt_same ..).push.trans ((updChan_same ..).trans (changeQueue_same ..))
  · exact (raiseAt_same ..).push.trans (changeQueue_same ..)

theorem pushWord_same (s : State) (q : Fin 256) (w : Word) (hdr : Bool) : SameButPush (queueChan q).isSome (pushWord s q w hdr) s := by
  rw [pushWord]
  refine .ite (updQueue_same ..) (.ite ((updQueue_same ..).trans ?_) (.ite ((changeQueue_same ..).trans ?_) ((changeQueue_same ..).trans ?_)))
  all_goals exact .ite ((commitGap_same ..).trans (updQueue_same ..)) (updQueue_same ..)

theorem pushWords_same (s : State) (q : Fin 256) (ws : List Word) : SameButPush (queueChan q).isSome (pushWords s q ws) s := by
  induction ws generalizing s with
  | nil => exact .refl _ s
  | cons w ws ih => exact (ih (pushWord s q w false)).trans (pushWord_same ..)

theorem pushEnd_same (s : State) (q : Fin 256) (w : Word) : SameButPush (queueChan q).isSome (pushEnd s q w).1 s := by
  rw [pushEnd]
  split
  · dsimp only
    exact (updQueue_same ..).trans (pushWord_same ..)
  · dsimp only
    exact (updQueue_same ..).trans (pushWord_same ..)

theorem pushPacket_same (s : State) (q : Fin 256) (ws : List Word) : SameButPush (queueChan q).isSome (pushPacket s q ws) s := by
  rw [pushPacket.eq_def]
  split
  · exact .refl _ s
  · exact (pushEnd_same ..).trans ((pushWords_same ..).trans (pushWord_same ..))

theorem closePacket_same (s : State) (n : Chan) (status : Nat) : SameButPush true (closePacket s n status) s := by
  rw [closePacket]
  split
  · exact .refl true s
  dsimp only
  have hend := (pushEnd_same s (resultQueue n) (resultWord 0xE status ((‹Packet›).count + 1))).widen
  split
  · exact (updMeas_same ..).trans ((updChan_same ..).trans ((updMeas_same ..).trans hend))
  · exact (updMeas_same ..).trans hend

theorem openPacket_same (s : State) (n : Chan) (b : Batch) : SameButPush true (openPacket s n b) s := by
  rw [openPacket]
  exact (updMeas_same ..).trans ((pushWords_same ..).widen.trans (pushWord_same ..).widen)

theorem commitWords_same (s : State) (n : Chan) (b : Batch) : SameButPush true (commitWords s n b) s := by
  rw [commitWords]
  dsimp only
  split
  · exact (updMeas_same ..).trans ((pushWords_same ..).widen.trans ((openPacket_same ..).trans (.ite (closePacket_same ..) (.refl true s))))
  · exact (updMeas_same ..).trans ((pushWords_same ..).widen.trans (.ite (closePacket_same ..) (.refl true s)))

theorem closeFor_same (s : State) (n : Chan) (c : Nat × Nat) (next : Option Batch) : SameButPush true (closeFor s n c next) s := by
  rw [closeFor]
  split
  · dsimp only
    split
    · exact .refl true s
    · exact closePacket_same ..
  · exact .refl true s

theorem flushUntil_same (fuel : Nat) (s : State) (n : Chan) (coming : Option Batch) (words closes : Nat) :
    SameButPush true (flushUntil fuel s n coming words closes) s := by
  induction fuel generalizing s with
  | zero => exact .refl true s
  | succ fuel ih =>
    rw [flushUntil]
    dsimp only
    split
    · split
      · split
        · exact (ih _).trans ((closeFor_same ..).trans (updMeas_same ..))
        · exact .refl true s
      · exact .refl true s
    · split
      · exact .refl true s
      · split
        · exact (ih _).trans ((commitWords_same ..).trans (updMeas_same ..))
        · exact .refl true s

theorem flushStream_same (s : State) (n : Chan) (coming : Option Batch) (words closes : Nat) :
    SameButPush true (flushStream s n coming words closes) s := flushUntil_same ..

theorem flushIdle_same (s : State) (n : Chan) (words closes : Nat) : SameButPush true (flushIdle s n words closes) s := by
  rw [flushIdle]
  split
  · exact flushStream_same ..
  · exact .refl true s

end Sys2Proof.Machine
end

section
/-!
PROOFS. O27: the boundaries of frames, unit configurations and the collector (R275 to R288).
-/
namespace Sys2Proof.Machine

/-! ### What a boundary does to the frames -/

/-- An operation that leaves the counter and the frames alone. -/
structure FramesKept (s t : State) : Prop where
  tb : t.tb = s.tb
  ht : t.ht = s.ht

theorem FramesKept.refl (s : State) : FramesKept s s := ⟨rfl, rfl⟩

theorem FramesKept.trans {s t u : State} (h : FramesKept t u) (k : FramesKept s t) : FramesKept s u := ⟨h.tb.trans k.tb, h.ht.trans k.ht⟩

theorem SameButPush.framesKept {chans : Bool} {s t : State} (h : SameButPush chans t s) : FramesKept s t := ⟨h.tb, h.ht⟩

theorem channelBoundary_kept (tick : Nat) (s : State) (n : Chan) : FramesKept s (channelBoundary tick s n) :=
  (flushIdle_same ..).framesKept.trans ⟨rfl, rfl⟩

theorem settle_kept (s : State) (n : Chan) (x : Ctx) : FramesKept s (settle s n x) := by
  rw [settle]
  split
  · exact ⟨rfl, rfl⟩
  split
  · exact ⟨rfl, rfl⟩
  · exact .refl s

theorem wakeSyncf_kept (s : State) : FramesKept s (wakeSyncf s) := by
  refine foldl_related FramesKept.refl FramesKept.trans (fun s n => ?_) allChans s
  refine foldl_related FramesKept.refl FramesKept.trans (fun s x => ?_) allCtx s
  split
  · exact (settle_kept ..).trans ⟨rfl, rfl⟩
  · exact .refl s

/-- What every boundary does in the end: packets and latches of the channels, source 273, and the contexts that wait for it. -/
theorem boundaryReports_kept (s : State) (tick : Nat) :
    FramesKept s (wakeSyncf (raiseAt (allChans.foldl (channelBoundary tick) s) 273 (some tick))) :=
  (wakeSyncf_kept _).trans ((SameButPush.framesKept (chans := true) (raiseAt_same ..).push).trans
    (foldl_related FramesKept.refl FramesKept.trans (channelBoundary_kept tick) allChans s))

theorem turnInterval_kept (s : State) (tick num : Nat) (scheduled final : Bool) : FramesKept s (turnInterval s tick num scheduled final) := by
  rw [turnInterval]
  split
  · exact .refl s
  dsimp only
  split
  · exact ⟨raise_tb .., raise_ht ..⟩
  split
  · split
    · exact ⟨rfl, rfl⟩
    · exact ⟨rfl, rfl⟩
  · exact .refl s

/-- A boundary has begun a frame at a tick. -/
structure FrameBegun (tick : Nat) (s t : State) : Prop where
  tb : t.tb = s.tb
  armed : t.ht.armed = false
  run : t.ht.run = true
  frameStart : t.ht.frameStart = tick
  len : t.ht.len = s.ht.len
  next : t.ht.next = tick + s.ht.len
  num : t.ht.num = s.ht.num
  held : t.ht.held = s.ht.held

theorem firstBoundary_begun (s : State) (tick : Nat) : FrameBegun tick s (firstBoundary s tick) := by
  rw [firstBoundary]
  split
  · exact ⟨rfl, rfl, rfl, rfl, rfl, rfl, rfl, rfl⟩
  · exact ⟨rfl, rfl, rfl, rfl, rfl, rfl, rfl, rfl⟩

/-- A boundary has ended a frame, which the collector holds, and begun the next one. -/
structure FrameTurned (tick : Nat) (s t : State) : Prop where
  tb : t.tb = s.tb
  run : t.ht.run = s.ht.run
  frameStart : t.ht.frameStart = tick
  len : t.ht.len = s.ht.len
  next : t.ht.next = tick + s.ht.len
  num : t.ht.num = s.ht.num + 1
  held : t.ht.held = s.ht.held ++ [endedFrame s tick false]

theorem frameEnd_turned {s : State} {tick : Nat} (h : s.ht.endAt = none) : FrameTurned tick s (frameEnd s tick) := by
  have hfinal : (s.ht.endAt = some tick) = False := by rw [h]; simp
  rw [frameEnd]
  simp only [hfinal, decide_false, Bool.false_and, Bool.not_false, if_false]
  obtain ⟨htb, hht⟩ := turnInterval_kept (updHt (turnUnits s tick true) fun h =>
    { h with held := h.held ++ [endedFrame s tick false], frameStart := tick, num := s.ht.num + 1, ran := s.ht.num + 1, next := tick + h.len })
    tick s.ht.num true false
  exact ⟨htb, by rw [hht]; rfl, by rw [hht]; rfl, by rw [hht]; rfl, by rw [hht]; rfl, by rw [hht]; rfl, by rw [hht]; rfl⟩

theorem FrameBegun.of_kept {tick : Nat} {s t u : State} (h : FrameBegun tick s t) (hk : FramesKept t u) : FrameBegun tick s u := by
  obtain ⟨htb, hht⟩ := hk
  exact ⟨htb.trans h.tb, by rw [hht, h.armed], by rw [hht, h.run], by rw [hht, h.frameStart], by rw [hht, h.len], by rw [hht, h.next],
    by rw [hht, h.num], by rw [hht, h.held]⟩

/-- Where the next boundary comes at the same tick, the frame begins again. -/
theorem FrameBegun.again {tick : Nat} {s t : State} (h : FrameBegun tick s t) :
    FrameBegun tick s (if boundaryDue t tick then firstBoundary t tick else t) := by
  split
  · obtain ⟨htb, ha, hr, hf, hl, hn, hu, hd⟩ := firstBoundary_begun t tick
    exact ⟨htb.trans h.tb, ha, hr, hf, hl.trans h.len, hn.trans (by rw [h.len]), hu.trans h.num, hd.trans h.held⟩
  · exact h

theorem FrameTurned.of_kept {tick : Nat} {s t u : State} (h : FrameTurned tick s t) (hk : FramesKept t u) : FrameTurned tick s u := by
  obtain ⟨htb, hht⟩ := hk
  exact ⟨htb.trans h.tb, by rw [hht, h.run], by rw [hht, h.frameStart], by rw [hht, h.len], by rw [hht, h.next], by rw [hht, h.num],
    by rw [hht, h.held]⟩

theorem FrameTurned.again {tick : Nat} {s t : State} (h : FrameTurned tick s t) (hrun : s.ht.run = true) :
    FrameTurned tick s (if boundaryDue t tick then firstBoundary t tick else t) := by
  split
  · obtain ⟨htb, -, hr, hf, hl, hn, hu, hd⟩ := firstBoundary_begun t tick
    exact ⟨htb.trans h.tb, hr.trans hrun.symm, hf, hl.trans h.len, hn.trans (by rw [h.len]), hu.trans h.num, hd.trans h.held⟩
  · exact h

/-- The state in which a boundary at a tick finds the counter. -/
def atBoundary (s : State) (tick : Nat) : State := { s with tb := { s.tb with now := max s.tb.now tick } }

/-- What a boundary does to the frames first: it begins the first frame, or ends one. -/
def boundaryTurn (s : State) (tick : Nat) : State :=
  if s.ht.armed then firstBoundary (atBoundary s tick) tick else frameEnd (atBoundary s tick) tick

/-- A boundary that is due and within reach. -/
theorem frameBoundaryOp_due {s : State} (hdue : boundaryDue s s.ht.next = true) (hs : s.ht.next ≤ nextSample s) :
    FramesKept (if boundaryDue (boundaryTurn s s.ht.next) s.ht.next then firstBoundary (boundaryTurn s s.ht.next) s.ht.next
      else boundaryTurn s s.ht.next) (frameBoundaryOp s) := by
  have hrun : frameBoundaryOp s = wakeSyncf (raiseAt (allChans.foldl (channelBoundary s.ht.next)
      (if boundaryDue (boundaryTurn s s.ht.next) s.ht.next then firstBoundary (boundaryTurn s s.ht.next) s.ht.next
        else boundaryTurn s s.ht.next)) 273 (some s.ht.next)) := by
    rw [frameBoundaryOp, if_neg (by simp [hdue, hs])]
    simp only [boundaryTurn, atBoundary]
    rfl
  rw [hrun]
  exact boundaryReports_kept ..

theorem frameBoundary_armed {s : State} (hdue : boundaryDue s s.ht.next = true) (hs : s.ht.next ≤ nextSample s) (ha : s.ht.armed = true) :
    FrameBegun s.ht.next (atBoundary s s.ht.next) (frameBoundaryOp s) := by
  have hturn : FrameBegun s.ht.next (atBoundary s s.ht.next) (boundaryTurn s s.ht.next) := by
    rw [boundaryTurn, if_pos ha]
    exact firstBoundary_begun ..
  exact hturn.again.of_kept (frameBoundaryOp_due hdue hs)

theorem frameBoundary_running {s : State} (hdue : boundaryDue s s.ht.next = true) (hs : s.ht.next ≤ nextSample s) (ha : s.ht.armed = false)
    (he : s.ht.endAt = none) : FrameTurned s.ht.next (atBoundary s s.ht.next) (frameBoundaryOp s) := by
  have hturn : FrameTurned s.ht.next (atBoundary s s.ht.next) (boundaryTurn s s.ht.next) := by
    rw [boundaryTurn, if_neg (by simp [ha])]
    exact frameEnd_turned he
  have hrun : s.ht.run = true := by
    rw [boundaryDue, ha] at hdue
    simpa using (Bool.and_eq_true_iff.mp (Bool.and_eq_true_iff.mp hdue).1).1
  exact (hturn.again hrun).of_kept (frameBoundaryOp_due hdue hs)

/-! ### Units -/

theorem hatchUnitCfgWrite_unit {s : State} {p : Path} {u : Fin 144} (base : Bool) (v : Word) (hu : (s.path p).unitIdx = u.val)
    (hrec : s.fw.recovery = false) :
    exec (.hatchUnitCfgWrite p base v) s = .next (if base then writeUnitBase s u v else writeUnitCfg s u v) := by
  have hpath : pathUnit s p = some u := by
    rw [pathUnit, dif_pos (by omega)]
    exact congrArg some (Fin.ext hu)
  rw [exec, execHatchUnitCfgWrite, accessed_running hrec, hpath]

theorem writeUnitCfg_refused {s : State} {u : Fin 144} {v : Word} (h : unitRangeOk u (v.toNat / 2 ^ 16 % 16) = false) :
    writeUnitCfg s u v = updUnit s u fun k => { k with cfgRej := true } := by
  have hr : unitRangeOk u (field v 19 16) = false := h
  rw [writeUnitCfg]
  simp [hr]

theorem writeUnitBase_staged {s : State} {u : Fin 144} {v : Word} (hs : s.ht.units[u].staged = none)
    (hb : s.ht.units[u].cfg.base ≠ (v.extractLsb' 0 24).toInt) :
    writeUnitBase s u v = updUnit s u fun k => { k with staged := some { k.cfg with base := (v.extractLsb' 0 24).toInt } } := by
  rw [writeUnitBase, updUnit, updUnit, stageCfg, hs, if_neg ?_, sfield_eq_toInt]
  · rfl
  · intro h
    rw [sfield_eq_toInt] at h
    exact hb (congrArg UnitCfg.base (eq_of_beq h))

/-! ### The collector -/

theorem foldDelayed_held (h : Frames) (m : Fin 8 × Nat × Nat) : (foldDelayed h m).held = h.held := rfl

theorem arriveDelayed_held (boundary : Nat) (h : Frames) : (arriveDelayed boundary h).held = h.held := by
  rw [arriveDelayed]
  generalize h.inFlight.filter (fun m => m.2.2 < boundary) = l
  generalize hk : ({ h with inFlight := h.inFlight.filter fun m => boundary ≤ m.2.2 } : Frames) = k
  have : k.held = h.held := by rw [← hk]
  rw [← this]
  clear hk this
  induction l generalizing k with
  | nil => rfl
  | cons m l ih => exact (ih _).trans (foldDelayed_held k m)

theorem deviceUnitsReady_first {s : State} {f : HeldFrame} {rest : List HeldFrame} (hh : s.ht.held = f :: rest) (hf : f.deviceReady = false) :
    deviceUnitsReady s = { s with ht := { arriveDelayed f.boundary s.ht with held := { f with deviceReady := true } :: rest } } := by
  rw [deviceUnitsReady, hh, List.findIdx?_cons, hf]
  simp only [Bool.not_false, if_true, updHt, hh, arriveDelayed_held]
  rfl

theorem timeOut_slot (s : State) (f : HeldFrame) (i : Nat) (h : i < 76) :
    (timeOut s f).slots[i] = if f.slots[i] == .empty then .absent (absentReason s ⟨i, h⟩ f) else f.slots[i] := by
  rw [timeOut, Vector.getElem_mapFinIdx]

theorem timeOut_filled (s : State) (f : HeldFrame) : (timeOut s f).slots.any (· == .empty) = false := by
  rw [Vector.any_eq_false]
  intro i hi
  rw [timeOut_slot]
  split
  · simp
  · assumption

theorem timeOut_kept (s : State) {f : HeldFrame} {slot : Fin 76} (h : f.slots[slot] ≠ .empty) : (timeOut s f).slots[slot] = f.slots[slot] := by
  refine (timeOut_slot s f slot.val slot.isLt).trans (if_neg ?_)
  simpa using h

theorem timeOutFrame_first {s : State} {f : HeldFrame} {rest : List HeldFrame} (hh : s.ht.held = f :: rest)
    (hf : f.slots.any (· == .empty) = true) : timeOutFrame s = { s with ht := { s.ht with held := timeOut s f :: rest } } := by
  rw [timeOutFrame, hh, List.findIdx?_cons, hf]
  simp [updHt, hh]

theorem releaseBufs_fold (us : List (Fin 144)) (s : State) :
    ∃ units, us.foldl (fun s u => updUnit s u fun k => { k with closed := none }) s = { s with ht := { s.ht with units := units } }
      ∧ (∀ u ∈ us, units[u].closed = none) ∧ ∀ u : Fin 144, s.ht.units[u].closed = none → units[u].closed = none := by
  induction us generalizing s with
  | nil => exact ⟨s.ht.units, rfl, by simp, fun _ h => h⟩
  | cons v us ih =>
    obtain ⟨units, hrun, hus, hkeep⟩ := ih (updUnit s v fun k => { k with closed := none })
    refine ⟨units, hrun, fun u hu => ?_, fun u hu => hkeep u ?_⟩
    · rcases List.mem_cons.mp hu with rfl | hu
      · exact hkeep u (by simp [updUnit])
      · exact hus u hu
    · by_cases huv : v = u
      · subst huv
        simp [updUnit]
      · simp [updUnit, Fin.val_ne_of_ne huv]
        exact hu

/-- The units of a slot give up their buffers, and nothing else happens. -/
theorem releaseBufs_same (s : State) (slot : Fin 76) :
    ∃ units, releaseBufs s slot = { s with ht := { s.ht with units := units } } ∧ ∀ u ∈ slotUnits slot, units[u].closed = none := by
  obtain ⟨units, hrun, hus, -⟩ := releaseBufs_fold (slotUnits slot) s
  exact ⟨units, hrun, hus⟩

theorem filterMap_length {α β : Type} {f : α → Option β} {l : List α} (h : ∀ a ∈ l, (f a).isSome = true) : (l.filterMap f).length = l.length := by
  induction l with
  | nil => rfl
  | cons a l ih =>
    obtain ⟨b, hb⟩ := Option.isSome_iff_exists.mp (h a List.mem_cons_self)
    rw [List.filterMap_cons_some hb, List.length_cons, List.length_cons, ih fun a ha => h a (List.mem_cons_of_mem _ ha)]

/-- Every slot has a unit. -/
theorem slotUnits_cons (slot : Fin 76) : ∃ u us, slotUnits slot = u :: us := by
  rw [slotUnits]
  split
  · exact ⟨_, _, rfl⟩
  · exact ⟨_, _, rfl⟩

/-- The oldest frame takes the records of a slot that its boundary closed. -/
theorem storeSlot_first {s : State} {slot : Fin 76} {f : HeldFrame} {rest : List HeldFrame} (hh : s.ht.held = f :: rest)
    (he : f.slots[slot] = .empty) (hr : slotReady s slot f = true)
    (hu : ∀ u ∈ slotUnits slot, s.ht.units[u].closed.isSome = true ∧ s.ht.units[u].closedAt = f.boundary) :
    ∃ ws bufs, bufs.length = (slotUnits slot).length ∧
      storeSlot s slot = releaseBufs (updHt s fun h => { h with held := { f with slots := f.slots.set slot (.stored ws bufs) } :: rest }) slot := by
  have hlen := filterMap_length (f := fun u => s.ht.units[u].closed) fun u h => (hu u h).1
  obtain ⟨u, us, hcons⟩ := slotUnits_cons slot
  have htick : (((slotUnits slot).head?.map fun u => s.ht.units[u].closedAt).getD 0) = f.boundary := by
    rw [hcons]
    exact (hu u (by rw [hcons]; exact List.mem_cons_self)).2
  have hfirst : (f.boundary = f.boundary && slotEmpty f slot) = true := by simp [slotEmpty, he]
  refine ⟨slotWords s slot f ((slotUnits slot).filterMap fun u => s.ht.units[u].closed), (slotUnits slot).filterMap fun u => s.ht.units[u].closed, hlen, ?_⟩
  rw [storeSlot]
  rw [if_neg (by rw [hlen, bne_self_eq_false]; decide), htick, hh, List.findIdx?_cons, hfirst]
  simp only [if_true, List.getElem?_cons_zero, hr, Bool.not_true]
  simp [updHt, hh]

/-- The packets of a summary go to a queue that no channel owns. -/
theorem summaryPackets_same (ps : List (List Word)) (s : State) : SameButPush false (ps.foldl (fun s p => pushPacket s summaryQueue p) s) s :=
  foldl_related (R := fun s t => SameButPush false t s) (SameButPush.refl false) SameButPush.trans (fun s p => pushPacket_same s summaryQueue p) ps s

theorem handOver_same (s : State) (words : List Word) (frame : Bool) (boundary : Nat) (absent : Bool)
    (recs : Nat → Option (HatchBuf × UnitCfg)) :
    ∃ pf, handOver s words frame boundary absent recs = { s with pf := pf }
      ∧ pf.summaryHead = Config.shake256 ([0x21] ++ digestBytes s.pf.summaryHead ++ chainBytes words) := by
  rw [handOver]
  dsimp only
  split
  · exact ⟨_, rfl, rfl⟩
  split
  · exact ⟨_, rfl, rfl⟩
  · refine ⟨_, rfl, ?_⟩
    dsimp only
    split
    · split
      · rfl
      · rfl
    · rfl

/-- The frame that leaves the collector goes to the queue of the summaries and to the interval of the Proofs. -/
theorem emitFrame_first {s : State} {f : HeldFrame} {rest : List HeldFrame} (hh : s.ht.held = f :: rest) (hf : f.slots.any (· == .empty) = false) :
    let t := emitFrame s
    t.ht = { s.ht with held := rest, incomplete := if absentCount f = 0 then s.ht.incomplete else min 255 (s.ht.incomplete + 1) }
      ∧ t.pf.summaryHead = Config.shake256 ([0x21] ++ digestBytes s.pf.summaryHead ++ chainBytes (summaryPackets f).flatten)
      ∧ t.mm = s.mm ∧ t.chans = s.chans := by
  intro t
  have hpush := summaryPackets_same (summaryPackets f) (updHt s fun h =>
    { h with held := rest, incomplete := if absentCount f != 0 then min 255 (h.incomplete + 1) else h.incomplete })
  generalize hp : (summaryPackets f).foldl _ _ = pushed at hpush
  obtain ⟨pf, hrun, hhead⟩ := handOver_same pushed (summaryPackets f).flatten f.proofed f.boundary (absentCount f != 0) (frameRecord f)
  have ht : t = raise { pushed with pf := pf } 272 := by
    simp only [t, emitFrame, hh]
    rw [if_neg (by simp [hf]), hp, hrun]
  rw [ht, raise_ht, raise_pf, raise_mm, raise_chans]
  refine ⟨hpush.ht.trans ?_, hhead.trans ?_, hpush.mm, hpush.chans_eq⟩
  · by_cases h : absentCount f = 0 <;> simp [updHt, h]
  · rw [hpush.pf]
    rfl

/-- Settles O27: what a boundary turns lies in the frames alone; the collector's slots belong to the oldest frame. -/
theorem boundariesAndCollector : Obligations.BoundariesAndCollector := by
  unfold Obligations.BoundariesAndCollector
  refine ⟨fun s p v u => ⟨?armed, ?running, ?cfg, ?base, ?clear, ?device, ?timeout⟩, fun s => ⟨?store, ?emit⟩⟩
  case armed =>
    intro hdue hs ha
    obtain ⟨htb, harmed, hrun, hstart, -, hnext, hnum, hheld⟩ := frameBoundary_armed hdue hs ha
    exact ⟨_, rfl, by rw [htb]; rfl, harmed, hrun, hstart, hnext, hnum, hheld⟩
  case running =>
    intro hdue hs ha he
    obtain ⟨-, hrun, hstart, -, hnext, hnum, hheld⟩ := frameBoundary_running hdue hs ha he
    exact ⟨_, rfl, hnum, hrun, hstart, hnext, _, hheld, rfl, rfl, rfl, rfl⟩
  case cfg =>
    intro hu hrec hr
    rw [hatchUnitCfgWrite_unit false v hu hrec]
    exact congrArg Host.Outcome.next (writeUnitCfg_refused hr)
  case base =>
    intro hu hrec hs hb
    rw [hatchUnitCfgWrite_unit true v hu hrec]
    exact congrArg Host.Outcome.next (writeUnitBase_staged hs hb)
  case clear =>
    intro hrec
    rw [exec, execCollStatClr, accessed_running hrec]
    rfl
  case device => exact fun f rest hh hf => congrArg Host.Outcome.next (deviceUnitsReady_first hh hf)
  case timeout =>
    intro f rest hh hf
    refine ⟨_, congrArg Host.Outcome.next (timeOutFrame_first hh hf), timeOut s f, rfl, rfl, timeOut_filled s f, fun slot h => timeOut_kept s h⟩
  case store =>
    intro slot f rest hh he hr hu
    obtain ⟨ws, bufs, hlen, hrun⟩ := storeSlot_first hh he hr hu
    obtain ⟨units, hrelease, hnone⟩ := releaseBufs_same
      (updHt s fun h => { h with held := { f with slots := f.slots.set slot (.stored ws bufs) } :: rest }) slot
    exact ⟨_, congrArg Host.Outcome.next (hrun.trans hrelease), hnone, ws, bufs, rfl, hlen, rfl, rfl⟩
  case emit =>
    intro f rest hh hf
    exact ⟨_, rfl, emitFrame_first hh hf⟩

end Sys2Proof.Machine
end

section
/-!
PROOFS. O28: the Proofs, their control, their ring and the nonces (R333 to R348).
-/
namespace Sys2Proof.Machine

/-! ### Control -/

theorem pfCtrl_disabled {s : State} {v : Word} (h : (s.ht.en || s.ht.armed || s.ht.run) = false) :
    pfCtrl s v = { s with pf := { s.pf with en := v.getLsbD 31, frames := v.toNat % 65536 } } := by
  rw [pfCtrl, updPf, if_neg (by rw [h]; decide), flag_eq_getLsbD]
  simp [field]

theorem pfCtrl_enabled {s : State} {v : Word} (h : (s.ht.en || s.ht.armed || s.ht.run) = true) :
    pfCtrl s v = { s with pf := { s.pf with ctrlRej := true } } := by
  rw [pfCtrl, updPf, if_pos h]

/-! ### Sealing and signing -/

theorem proofSeal_seals {s : State} {w : Interval} {e : EndState} {rest : List Interval} (he : s.pf.ended = w :: rest) (ha : w.atEnd = some e)
    (hh : w.handed = true) (hl : s.pf.held.length < 8) : exec .proofSeal s = .next (sealProof s w e) := by
  rw [exec, execProofSeal, he]
  dsimp only
  rw [ha]
  dsimp only
  rw [hh, if_pos (by simpa using hl)]

theorem sealProof_spec {s : State} {w : Interval} (e : EndState) {rest : List Interval} (he : s.pf.ended = w :: rest) :
    let t := sealProof s w e
    ∃ q, t.pf.held = s.pf.held ++ [q] ∧ q.interval = w ∧ q.seq = s.pf.proofSeq ∧ q.signed = false ∧ q.sigIndex = none
      ∧ t.pf.proofSeq = s.pf.proofSeq + 1 ∧ t.pf.ended = rest ∧ t.ht = s.ht ∧ t.mm = s.mm :=
  ⟨_, rfl, rfl, rfl, rfl, rfl, rfl, congrArg (List.drop 1) he, rfl, rfl⟩

theorem takeIndex_reserved {p : Trust} (fails : Nat) (h : p.sigNext < 2 ^ 40) (hb : p.sigNext < p.bound) :
    takeIndex p fails = some (p.sigNext, { p with sigNext := p.sigNext + 1 }) := by
  rw [takeIndex, if_neg (by omega)]
  dsimp only
  rw [if_neg (by omega)]

theorem checkKeyEnd_far {s : State} (h : s.pf.sigNext + 16 < 2 ^ 40) : checkKeyEnd s = s := by
  rw [checkKeyEnd, keyEnds, if_neg (by simp; omega)]

/-- A Proof whose signature with the next index has begun. -/
def beingSigned (p : Trust) (q : Proof) : Proof := { q with prevDigest := prevDigest p, sigIndex := some p.sigNext }

theorem proofSignStart_first {s : State} {q : Proof} {rest : List Proof} (fails : Nat) (hh : s.pf.held = q :: rest) (hq : q.sigIndex = none)
    (hs : s.pf.signing = false) (hr : s.pf.ready = true) (hm : mpStopped s = false) (hf : faultWork s = false) (hn : s.pf.sigNext + 17 < 2 ^ 40)
    (hb : s.pf.sigNext < s.pf.bound) :
    exec (.proofSignStart fails) s = .next { offerDevice s 0 q.sealedAt s.tb.now with pf := { s.pf with
      sigNext := s.pf.sigNext + 1, held := beingSigned s.pf q :: rest, signing := true
      lastDigest := some (proofDigest (beingSigned s.pf q)) } } := by
  have hfirst : unsigned s.pf = some 0 := by rw [unsigned, hh, List.findIdx?_cons, hq]; rfl
  rw [exec, execProofSignStart, hs, hr, hm, hf, hfirst, takeIndex_reserved fails (by omega) hb]
  simp only [hh, Bool.false_or, Bool.not_true, Bool.false_eq_true, if_false, List.getElem?_cons_zero, List.set_cons_zero]
  refine congrArg Host.Outcome.next (checkKeyEnd_far ?_)
  dsimp only
  omega

theorem proofSigned_first {s : State} {q : Proof} {rest : List Proof} (hh : s.pf.held = q :: rest) (hq : q.sigIndex.isSome = true)
    (hs : q.signed = false) (hg : s.pf.signing = true) :
    exec .proofSigned s = .next (offerDevice (updPf s fun f => { f with signing := false, held := { q with signed := true } :: rest }) 5
      q.interval.tEnd s.tb.now) := by
  rw [exec, execProofSigned, hg, hh, List.findIdx?_cons, hq, hs]
  simp [updPf, hh]

/-! ### The ring -/

theorem memRead_storeWords_ne (ws : List (Nat × Word)) (m : Mem) (a : Nat) (h : ∀ w ∈ ws, a < w.1 ∨ w.1 + 4 ≤ a) :
    memRead (storeWords m ws) a = memRead m a := by
  induction ws generalizing m with
  | nil => rfl
  | cons w ws ih =>
    obtain ⟨pa, w⟩ := w
    rw [storeWords, ih _ fun w hw => h w (List.mem_cons_of_mem _ hw)]
    exact memRead_writeBytes_ne _ m pa a (h (pa, w) List.mem_cons_self)

/-- A signed Proof goes into its ring, whose translations enter the IOTLB. -/
theorem proofWritten_first {s : State} {q : Proof} {rest : List Proof} {pas : List Nat} (hh : s.pf.held = q :: rest) (hq : q.signed = true)
    (hen : s.pf.ring.en = true) (hf : s.pf.ring.fault = false) (hd : ddrAsleep s = false) (hm : mpStopped s = false) (hw : faultWork s = false)
    (hl : s.pf.ring.lacks 23808 = false) (hp : ringPas s.mm s.pf.ring 5952 s.pf.ring.wr [] = .inl pas) :
    ∃ t, exec .proofWritten s = .next t ∧ t.mm = { s.mm with mem := storeWords s.mm.mem (pas.zip (wordsOf (proofRecord q))) }
      ∧ t.pf = { s.pf with
        held := rest, seq := s.pf.seq + 1, lastWritten := proofDigest q, ring := { s.pf.ring with wr := s.pf.ring.wr + 23808 } } := by
  have htakes : ringTakes s = true := by rw [ringTakes, hen, hf, hd, hl]; rfl
  refine ⟨writeProof s q, ?_, ?_⟩
  · rw [exec, execProofWritten, hh]
    dsimp only
    rw [hq, hm, hw]
    rfl
  · rw [writeProof]
    dsimp only
    rw [htakes, hp]
    simp only [Bool.not_true, Bool.false_eq_true, if_false]
    rw [raise_mm, raise_pf, updPf_mm, updPf_pf, cacheXlate_same, cacheXlates_same]
    exact ⟨rfl, by rw [hh]; rfl⟩

/-- EN = 1 of a ring that is off, within its limits, begins it anew (R308). -/
theorem ringCfg_enabled {r : RingState} {v : Word} {top bits : Nat} (hv : v.getLsbD 31 = true) (hr : r.en = false)
    (hok : ringRefused { r with asid := v.extractLsb' 24 4, log2size := field v (bits - 1) 0 } top = false) :
    let t := ringCfg r v top bits
    t.en = true ∧ t.wr = 0 ∧ t.rd = 0 ∧ t.trig = if bits = 6 then v.getLsbD 30 else r.trig := by
  have hasid : BitVec.ofNat 4 (field v 27 24) = v.extractLsb' 24 4 := ofNat_field
  have hok' (rej trig : Bool) : ringRefused { r with
      rdRej := rej, trig := trig, asid := BitVec.ofNat 4 (field v 27 24), log2size := field v (bits - 1) 0 } top = false := by
    rw [hasid]
    exact hok
  rw [ringCfg, if_neg (by simp [hr])]
  dsimp only
  rw [flag_eq_getLsbD v 31, hv, hok', if_pos (by decide), flag_eq_getLsbD]
  exact ⟨rfl, rfl, rfl, rfl⟩

theorem ringCommit_taken {r : RingState} {v : Word} {rd : Nat} (hrd : rd = v.toNat * 2 ^ 32 + r.rdLo.toNat) (h : r.rd ≤ rd) (hw : rd ≤ r.wr)
    (h4 : rd % 4 = 0) : ringCommit r v = { r with rd := rd } := by
  rw [ringCommit, ← hrd]
  rw [if_neg (by simp; omega)]

/-- A nonce is not old from its issue until 60 seconds later (R348). -/
theorem not_nonceOld (now issued : Nat) : (!nonceOld now issued) = decide (issued ≤ now ∧ now < issued + 96000000000) := by
  rw [nonceOld, Bool.eq_iff_iff]
  simp

/-- Settles O28: each command of the sequence applies to the oldest Proof, and the ring takes its record word by word. -/
theorem proofSequence : Obligations.ProofSequence := by
  unfold Obligations.ProofSequence
  intro s p v
  refine ⟨?taken, ?refused, ?sealed, ?sign, ?signed, ?written, ?ring, ?rd, ?nonce⟩
  case taken =>
    intro h hrec
    rw [exec, execPfCtrlWrite, accessed_running hrec, pfCtrl_disabled h]
  case refused =>
    intro h hrec
    rw [exec, execPfCtrlWrite, accessed_running hrec, pfCtrl_enabled h]
  case sealed => exact fun w e rest he ha hh hl => ⟨_, proofSeal_seals he ha hh hl, sealProof_spec e he⟩
  case sign =>
    intro q rest fails hh hq hs hr hm hf hn hb
    exact ⟨_, proofSignStart_first fails hh hq hs hr hm hf hn hb, rfl, rfl, rfl, rfl, offerDevice_mm ..⟩
  case signed =>
    intro q rest hh hq hs hg
    refine ⟨_, proofSigned_first hh hq hs hg, ?_, ?_, ?_⟩
    · rw [offerDevice_pf]
      rfl
    · rw [offerDevice_pf]
      rfl
    · exact offerDevice_mm ..
  case written =>
    intro q rest pas hh hq hen hf hd hm hw hl hp
    obtain ⟨t, hrun, hmm, hpf⟩ := proofWritten_first hh hq hen hf hd hm hw hl hp
    refine ⟨t, hrun, by rw [hpf], by rw [hpf], by rw [hpf], fun h => ?_, fun a ha => ?_⟩
    · rw [hmm]
      exact storeWords_wf _ _ h
    · rw [hmm]
      exact memRead_storeWords_ne _ _ _ fun w hw => ha w.1 (List.of_mem_zip hw).1
  case ring =>
    intro h31 hrec hen hok
    obtain ⟨hen', hwr, hrd, -⟩ := ringCfg_enabled (top := 30) (bits := 5) h31 hen (by rw [show field v (5 - 1) 0 = v.toNat % 32 by simp [field]]; exact hok)
    refine ⟨updPf s fun f => { f with ring := ringCfg f.ring v 30 5 }, ?_, hen', hwr, hrd, rfl, rfl⟩
    rw [exec, execProofRingEnable, accessed_running hrec, flag_eq_getLsbD, if_pos h31]
  case rd =>
    intro hst hrec rd hrd h hw h4
    rw [exec, execProofRingRdCommit, accessed_running hrec, pfRdWrite, updPf, if_neg (by rw [hst]; decide), ringCommit_taken hrd h hw h4]
  case nonce =>
    intro kept
    rw [exec, execNonceExpiry, updPf]
    simp only [not_nonceOld]
    rfl

end Sys2Proof.Machine
end

section
/-!
PROOFS. O29 and O32: commands, configuration and occupancy of the queues (R296 to R307).
-/
namespace Sys2Proof.Machine

/-! ### Changing one queue -/

theorem updQueue_updQueue (s : State) (q : Fin 256) (f g : Queue → Queue) : updQueue (updQueue s q f) q g = updQueue s q fun k => g (f k) := by
  simp [updQueue]

theorem updQueue_get (s : State) (q : Fin 256) (f : Queue → Queue) : (updQueue s q f).queues[q] = f s.queues[q] := by
  simp [updQueue]

theorem updQueue_get_ne (s : State) {q r : Fin 256} (h : r ≠ q) (f : Queue → Queue) : (updQueue s q f).queues[r] = s.queues[r] := by
  simp [updQueue, Ne.symm (Fin.val_ne_of_ne h)]

theorem updQueue_self {s : State} {q : Fin 256} {f : Queue → Queue} (h : f s.queues[q] = s.queues[q]) : updQueue s q f = s := by
  rw [updQueue, h]
  simp

theorem updQueue_congr {s : State} {q : Fin 256} {f g : Queue → Queue} (h : f s.queues[q] = g s.queues[q]) : updQueue s q f = updQueue s q g := by
  rw [updQueue, updQueue, h]

theorem changeQueue_queues (s : State) (q : Fin 256) (f : Queue → Queue) :
    (changeQueue s q f).queues = s.queues.set q ((f s.queues[q]).marks s.queues[q].occ).1 := by
  rw [changeQueue]
  split
  · exact raise_queues ..
  · rfl

theorem changeQueue_get (s : State) (q : Fin 256) (f : Queue → Queue) :
    (changeQueue s q f).queues[q] = ((f s.queues[q]).marks s.queues[q].occ).1 := by
  simp [changeQueue_queues]

theorem changeQueue_get_ne (s : State) {q r : Fin 256} (h : r ≠ q) (f : Queue → Queue) : (changeQueue s q f).queues[r] = s.queues[r] := by
  simp [changeQueue_queues, Ne.symm (Fin.val_ne_of_ne h)]

/-- A change that no mark notices. -/
theorem changeQueue_unmarked {s : State} {q : Fin 256} {f : Queue → Queue} (h : ((f s.queues[q]).marks s.queues[q].occ).2 = false) :
    changeQueue s q f = updQueue s q fun k => ((f k).marks k.occ).1 := by
  rw [changeQueue, h]
  rfl

/-- A queue without a high-water mark has no marks at all. -/
theorem marks_of_hwm {k : Queue} (h : k.hwm = 0) (before : Nat) : k.marks before = ({ k with peak := max k.peak k.occ }, false) := by
  simp [Queue.marks, h]

theorem changeQueue_of_hwm {s : State} {q : Fin 256} {f : Queue → Queue} (h : (f s.queues[q]).hwm = 0) :
    changeQueue s q f = updQueue s q fun k => { f k with peak := max (f k).peak (f k).occ } := by
  rw [changeQueue_unmarked (by rw [marks_of_hwm h])]
  exact updQueue_congr (by rw [marks_of_hwm h])

/-- An empty queue stays below every mark. -/
theorem marks_of_empty {k : Queue} (h : k.occ = 0) : k.marks 0 = (k, false) := by
  by_cases hk : k.hwm = 0
  · simp [marks_of_hwm hk, h]
  · have hmark : ¬ k.hwm * 256 = 0 := by omega
    simp [Queue.marks, h, hmark]

/-- A register read outside recovery mode is carried out. -/
theorem accessedRead_running {s : State} (h : s.fw.recovery = false) (p : Path) (t : State) : accessedRead s p t = t := by
  rw [accessedRead, if_neg (by rw [h]; decide)]

/-! ### Commands -/

theorem pathQueue_eq {s : State} {p : Path} {q : Fin 256} (h : (s.path p).qIdx = q.val) : pathQueue s p = q :=
  Fin.ext (by rw [pathQueue]; simp [h, Nat.mod_eq_of_lt q.isLt])

/-- What a write of Q_CTRL sets beside its command. -/
def told (v : Word) (k : Queue) : Queue := { k with wmie := v.getLsbD 12, drn := v.getLsbD 11, eng := v.toNat / 256 % 8 }

/-- A write of Q_CTRL that this path may make. -/
theorem qCtrlWrite_told {s : State} {p : Path} {v : Word} {q : Fin 256} (hw : queueWritable p q = true) :
    (v.toNat % 16 = 1 → qCtrlWrite s p q v = enableQueue (updQueue s q (told v)) q)
      ∧ (v.toNat % 16 = 2 → qCtrlWrite s p q v = disableQueue (updQueue s q (told v)) q)
      ∧ (v.toNat % 16 = 3 → qCtrlWrite s p q v = flushQueue (updQueue s q (told v)) q)
      ∧ (v.toNat % 16 = 4 → qCtrlWrite s p q v = dropRem (updQueue s q (told v)) p q) := by
  have htold : (fun k : Queue => { k with wmie := flag v 12, drn := flag v 11, eng := field v 10 8 }) = told v := by
    funext k
    simp [told, flag_eq_getLsbD, field]
  refine ⟨fun h => ?_, fun h => ?_, fun h => ?_, fun h => ?_⟩
  all_goals
    rw [qCtrlWrite, if_neg (by rw [hw]; decide), htold, field_3_0, h]
    rfl

theorem closeIfEmpty_other {s : State} {q : Fin 256} (h : s.queues[q].state ≠ .closing) : closeIfEmpty s q = s :=
  updQueue_self (if_neg fun hc => h (eq_of_beq (Bool.and_eq_true_iff.mp hc).1))

theorem enableQueue_disabled {s : State} {q : Fin 256} (h : s.queues[q].state = .disabled) :
    enableQueue s q = updQueue s q fun k => { k with state := .enabled, discarding := true, drop := false, p := 0, opened := [] } :=
  updQueue_congr (if_pos (beq_iff_eq.mpr h))

/-- An empty queue closes at once. -/
theorem disableQueue_empty {s : State} {q : Fin 256} (he : s.queues[q].state = .enabled) (hc : s.queues[q].committed = [])
    (ho : s.queues[q].opened = []) (hp : s.queues[q].p = 0) :
    disableQueue s q = updQueue s q fun k => { k with state := .disabled, discarding := true, midPaths := [], headPartial := false } := by
  have hocc : s.queues[q].occ = 0 := by rw [Queue.occ, hc, ho]; rfl
  have hrewind : rewind s.queues[q] = s.queues[q] := by
    generalize s.queues[q] = k at *
    cases k
    simp only at ho
    subst ho
    rfl
  have hmarks : (rewind s.queues[q]).marks s.queues[q].occ = (s.queues[q], false) := by rw [hrewind, hocc, marks_of_empty hocc]
  have hchange : changeQueue s q rewind = s := by
    rw [changeQueue_unmarked (congrArg Prod.snd hmarks)]
    exact updQueue_self (congrArg Prod.fst hmarks)
  rw [disableQueue, if_neg (by rw [he]; decide), hchange]
  dsimp only
  rw [if_neg (by rw [hp]; decide), closeIfEmpty, updQueue_updQueue]
  refine updQueue_congr ?_
  generalize s.queues[q] = k at *
  simp [hc]

/-- FLUSH of a queue that nobody reads takes every committed word. -/
theorem flushQueue_idle {s : State} {q : Fin 256} (he : s.queues[q].state = .enabled) (hd : s.queues[q].draining = 0)
    (hp : s.queues[q].headPartial = false) (hh : s.queues[q].hwm = 0) :
    ∃ peak, flushQueue s q = updQueue s q fun k =>
      { k with
        committed := [], ticks := [], midPaths := [], headPartial := false, peak := peak
        discnt := satAdd max32 k.discnt k.committed.length } := by
  have hkeep : flushKeeps s.queues[q] = 0 := by
    generalize s.queues[q] = k at *
    simp [flushKeeps, hd, hp]
  refine ⟨max s.queues[q].peak ({ s.queues[q] with committed := s.queues[q].committed.take 0 } : Queue).occ, ?_⟩
  rw [flushQueue, if_neg (by rw [he]; decide)]
  dsimp only
  rw [hkeep, changeQueue_of_hwm (by exact hh), closeIfEmpty_other]
  · exact updQueue_congr rfl
  · rw [updQueue_get]
    exact fun h => nomatch he.symm.trans h

/-- DROP_REM of the path that reads the packet. -/
theorem dropRem_reading {s : State} {p : Path} {q : Fin 256} (he : s.queues[q].state = .enabled) (hm : s.queues[q].midPaths.contains p = true)
    (hh : s.queues[q].hwm = 0) :
    ∃ peak, dropRem s p q = updQueue s q fun k =>
      { dropUnit k with peak := peak, discnt := satAdd max32 k.discnt (splitUnit k.committed).1.length } := by
  refine ⟨max s.queues[q].peak (dropUnit s.queues[q]).occ, ?_⟩
  rw [dropRem, if_neg (by rw [hm]; decide), changeQueue_of_hwm (by exact hh), closeIfEmpty_other]
  · exact updQueue_congr rfl
  · rw [updQueue_get]
    exact fun h => nomatch he.symm.trans h

section
variable {s : State} {p : Path} {v : Word} {q : Fin 256} {base size : Nat} (hw : queueWritable p q = true) (hbase : field v 13 0 = base)
  (hsize : field v 30 16 = size)
include hw hbase hsize

theorem qCfgWrite_taken (hs : s.queues[q].state = .disabled) (ho : overlapsQueue s q base size = false) (hr : base + size ≤ 16384) (h5 : 5 ≤ size) :
    qCfgWrite s p q v = updQueue s q fun k => { k with base := base, size := size } := by
  rw [qCfgWrite, if_neg (by rw [hw]; decide), hbase, hsize, hs, ho, if_neg]
  simp
  omega

theorem qCfgWrite_refused (h : s.queues[q].state ≠ .disabled ∨ overlapsQueue s q base size = true ∨ 16384 < base + size) :
    qCfgWrite s p q v = updQueue s q fun k => { k with cfgRej := true } := by
  rw [qCfgWrite, if_neg (by rw [hw]; decide), hbase, hsize, if_pos]
  rcases h with h | h | h
  · have hne : (s.queues[q].state != .disabled) = true := bne_iff_ne.mpr h
    rw [hne]
    simp
  · simp [h]
  · simp [h]

end

theorem satAdd_eq_min (top a b : Nat) : satAdd top a b = min top (a + b) := by
  rw [satAdd]
  split <;> omega

/-- Settles O29: each command changes the queue that the path addresses, and a queue without marks reports nothing. -/
theorem queueCommands : Obligations.QueueCommands := by
  unfold Obligations.QueueCommands
  intro s p v q hq hw hrec k told'
  have hbase : field v 13 0 = v.toNat % 2 ^ 14 := by simp [field]
  have hsize : field v 30 16 = v.toNat / 2 ^ 16 % 2 ^ 15 := rfl
  obtain ⟨henable, hdisable, hflush, hdrop⟩ := qCtrlWrite_told (s := s) (v := v) hw
  have hget : (updQueue s q (told v)).queues[q] = told v k := updQueue_get ..
  refine ⟨?enable, ?disable, ?flush, ?drop, ⟨?cfg, ?refused⟩, ?peak⟩
  case enable =>
    intro h hs
    rw [exec, execQueueEnable, accessed_running hrec, field_3_0, if_pos h, pathQueue_eq hq, henable h,
      enableQueue_disabled (by rw [hget]; exact hs), updQueue_updQueue]
    rfl
  case disable =>
    intro h hs hc ho hp
    have hrun := disableQueue_empty (by rw [hget]; exact hs) (by rw [hget]; exact hc) (by rw [hget]; exact ho) (by rw [hget]; exact hp)
    have hexec : exec (.queueDisable p v) s = .next (disableQueue (updQueue s q (told v)) q) := by
      rw [exec, execQueueDisable, accessed_running hrec, field_3_0, if_pos h, pathQueue_eq hq, hdisable h]
    refine completes_of (hexec.trans (congrArg Host.Outcome.next (hrun.trans (updQueue_updQueue ..)))) ?_
    rw [updQueue_get]
    exact ⟨rfl, hc, rfl, fun r hr => updQueue_get_ne s hr _⟩
  case flush =>
    intro h hs hd hp hh
    obtain ⟨peak, hrun⟩ := flushQueue_idle (by rw [hget]; exact hs) (by rw [hget]; exact hd) (by rw [hget]; exact hp) (by rw [hget]; exact hh)
    have hexec : exec (.queueFlush p v) s = .next (flushQueue (updQueue s q (told v)) q) := by
      rw [exec, execQueueFlush, accessed_running hrec, field_3_0, if_pos h, pathQueue_eq hq, hflush h]
    refine completes_of (hexec.trans (congrArg Host.Outcome.next (hrun.trans (updQueue_updQueue ..)))) ?_
    rw [updQueue_get]
    exact ⟨rfl, hs, satAdd_eq_min .., rfl⟩
  case drop =>
    intro h hs hm hh
    obtain ⟨peak, hrun⟩ := dropRem_reading (p := p) (by rw [hget]; exact hs) (by rw [hget]; exact hm) (by rw [hget]; exact hh)
    have hexec : exec (.queueDropRem p v) s = .next (dropRem (updQueue s q (told v)) p q) := by
      rw [exec, execQueueDropRem, accessed_running hrec, field_3_0, if_pos h, pathQueue_eq hq, hdrop h]
    refine completes_of (hexec.trans (congrArg Host.Outcome.next (hrun.trans (updQueue_updQueue ..)))) ?_
    rw [updQueue_get]
    exact ⟨rfl, rfl, rfl, rfl⟩
  case cfg =>
    intro hs ho hr h5
    rw [exec, execQueueCfgWrite, accessed_running hrec, pathQueue_eq hq, qCfgWrite_taken hw hbase hsize hs ho hr h5]
    rfl
  case refused =>
    intro h
    rw [exec, execQueueCfgWrite, accessed_running hrec, pathQueue_eq hq, qCfgWrite_refused hw hbase hsize h]
    rfl
  case peak =>
    rw [exec, execQueuePeakRead, accessedRead_running hrec]
    simp only [pathQueue_eq hq]
    rfl

/-! ### Pushes -/

/-- A push has added at most `n` committed words behind those of a queue, within its capacity, and changed no other queue. -/
structure Pushed (n : Nat) (q : Fin 256) (s t : State) : Prop where
  capacity : t.queues[q].capacity = s.queues[q].capacity
  fits : s.queues[q].occ ≤ s.queues[q].capacity → t.queues[q].occ ≤ t.queues[q].capacity
  committed : ∃ more, t.queues[q].committed = s.queues[q].committed ++ more ∧ more.length ≤ n
  others : ∀ r : Fin 256, r ≠ q → t.queues[r] = s.queues[r]

theorem Pushed.trans {m n : Nat} {q : Fin 256} {s t u : State} (h : Pushed m q s t) (k : Pushed n q t u) : Pushed (m + n) q s u := by
  obtain ⟨a, ha, hla⟩ := h.committed
  obtain ⟨b, hb, hlb⟩ := k.committed
  refine ⟨k.capacity.trans h.capacity, fun hf => k.fits (h.fits hf), ⟨a ++ b, ?_, ?_⟩, fun r hr => (k.others r hr).trans (h.others r hr)⟩
  · rw [hb, ha, List.append_assoc]
  · rw [List.length_append]
    exact Nat.add_le_add hla hlb

theorem Pushed.mono {m n : Nat} {q : Fin 256} {s t : State} (h : Pushed m q s t) (hmn : m ≤ n) : Pushed n q s t := by
  obtain ⟨more, hmore, hl⟩ := h.committed
  exact ⟨h.capacity, h.fits, ⟨more, hmore, Nat.le_trans hl hmn⟩, h.others⟩

/-- What a queue is for a push: its size, its committed words, and room for what it holds. -/
structure QueuePushed (n : Nat) (k l : Queue) : Prop where
  size : l.size = k.size
  fits : k.occ ≤ k.capacity → l.occ ≤ k.capacity
  committed : ∃ more, l.committed = k.committed ++ more ∧ more.length ≤ n

theorem updQueue_pushed {n : Nat} {q : Fin 256} {s : State} {f : Queue → Queue} (h : QueuePushed n s.queues[q] (f s.queues[q])) :
    Pushed n q s (updQueue s q f) := by
  have hcap : (f s.queues[q]).capacity = s.queues[q].capacity := congrArg (· * 1024) h.size
  refine ⟨?_, ?_, ?_, fun r hr => updQueue_get_ne s hr f⟩
  all_goals rw [updQueue_get]
  · exact hcap
  · rw [hcap]
    exact h.fits
  · exact h.committed

theorem changeQueue_pushed {n : Nat} {q : Fin 256} {s : State} {f : Queue → Queue} (h : QueuePushed n s.queues[q] (f s.queues[q])) :
    Pushed n q s (changeQueue s q f) := by
  have hcap : ((f s.queues[q]).marks s.queues[q].occ).1.capacity = s.queues[q].capacity := congrArg (· * 1024) h.size
  refine ⟨?_, ?_, ?_, fun r hr => changeQueue_get_ne s hr f⟩
  all_goals rw [changeQueue_get]
  · exact hcap
  · rw [hcap]
    exact h.fits
  · exact h.committed

/-- A change of what is counted only. -/
theorem QueuePushed.counts {k l : Queue} (hs : l.size = k.size) (hc : l.committed = k.committed) (ho : l.opened = k.opened) : QueuePushed 0 k l :=
  ⟨hs, by rw [Queue.occ, Queue.occ, hc, ho]; exact id, [], by simp [hc], Nat.le_refl 0⟩

theorem Pushed.of_queues {n : Nat} {q : Fin 256} {s t u : State} (h : Pushed n q s t) (hq : u.queues = t.queues) : Pushed n q s u := by
  obtain ⟨hcap, hfit, hcom, hoth⟩ := h
  exact ⟨by rw [show u.queues[q] = t.queues[q] by simp [hq], hcap], by rw [show u.queues[q] = t.queues[q] by simp [hq]]; exact hfit,
    by rw [show u.queues[q] = t.queues[q] by simp [hq]]; exact hcom, fun r hr => by rw [show u.queues[r] = t.queues[r] by simp [hq], hoth r hr]⟩

/-- A GAP that a queue with room for three words takes. -/
theorem commitGap_pushed {s : State} {q : Fin 256} (h : 3 ≤ s.queues[q].capacity - s.queues[q].occ) : Pushed 1 q s (commitGap s q) := by
  have hgap (w : Word) : QueuePushed 1 s.queues[q] { s.queues[q] with
      committed := s.queues[q].committed ++ [w], ticks := s.queues[q].ticks ++ [s.tb.now], ncommit := s.queues[q].ncommit + 1, p := 0, drop := false } := by
    refine ⟨rfl, fun _ => ?_, [w], rfl, Nat.le_refl 1⟩
    rw [Queue.occ, List.length_append]
    rw [Queue.occ] at h
    simp only [List.length_singleton]
    omega
  rw [commitGap]
  split
  · exact (changeQueue_pushed (hgap _)).of_queues (raise_queues ..)
  · exact (changeQueue_pushed (hgap _)).of_queues (raise_queues ..)

/-- What a push does once a pending GAP has been committed where it can be. -/
theorem placeWord_pushed (s : State) (q : Fin 256) (w : Word) : Pushed 0 q s (
    if s.queues[q].drop then updQueue s q fun k => { k with p := k.p + 1, gapcnt := satAdd max32 k.gapcnt 1 }
    else if s.queues[q].capacity - s.queues[q].occ ≥ 2 then changeQueue s q fun k => { k with opened := k.opened ++ [w] }
    else changeQueue s q fun k =>
      { rewind k with drop := true, p := k.p + (k.opened.length + 1), gapcnt := satAdd max32 k.gapcnt (k.opened.length + 1) }) := by
  split
  · exact updQueue_pushed (.counts rfl rfl rfl)
  split
  · next hroom =>
    refine changeQueue_pushed ⟨rfl, fun _ => ?_, [], by simp, Nat.le_refl 0⟩
    rw [Queue.occ, List.length_append]
    rw [Queue.occ] at hroom
    simp only [List.length_singleton]
    omega
  · refine changeQueue_pushed ⟨rfl, fun hfit => ?_, [], by simp [rewind], Nat.le_refl 0⟩
    rw [Queue.occ] at hfit ⊢
    simp only [rewind, List.length_nil]
    omega

theorem pushWord_pushed (s : State) (q : Fin 256) (w : Word) (hdr : Bool) : Pushed 1 q s (pushWord s q w hdr) := by
  have hdiscard : Pushed 0 q s (updQueue s q fun k => { k with discarding := false }) := updQueue_pushed (.counts rfl rfl rfl)
  rw [pushWord]
  dsimp only
  split
  · exact (updQueue_pushed (.counts rfl rfl rfl)).mono (Nat.zero_le 1)
  · refine Pushed.trans (m := 1) ?_ (placeWord_pushed _ q w)
    split
    · next h =>
      refine hdiscard.trans (n := 1) (commitGap_pushed ?_)
      rw [updQueue_get]
      simp at h
      exact h.2
    · exact hdiscard.mono (Nat.zero_le 1)

/-- Settles O32: a GAP takes one word of the three that are free, a word one of the two, and a packet without room gives up what it holds. -/
theorem pushesKeepCapacity : Obligations.PushesKeepCapacity := by
  unfold Obligations.PushesKeepCapacity
  intro s q w hdr
  obtain ⟨-, hfits, hcommitted, hothers⟩ := pushWord_pushed s q w hdr
  exact ⟨hfits, hcommitted, hothers⟩

end Sys2Proof.Machine
end

section
/-!
PROOFS. O30 and O31: what takes packets from the queues: pops and drain engines (R121 to R123, R302 to R311).
-/
namespace Sys2Proof.Machine

/-! ### Pops -/

theorem checkPacket_clean (s : State) (q : Fin 256) : checkPacket s q .clean = s := by
  rw [checkPacket]
  split
  · rfl
  · exact if_neg (by decide)

theorem checkPacket_empty {s : State} {q : Fin 256} (h : s.queues[q].committed = []) (ecc : EccResult) : checkPacket s q ecc = s := by
  rw [checkPacket, h]
  rfl

theorem countResidency_other {s : State} {w : Word} (q : Fin 256) (h : endsUnit w = false) : countResidency s q w = s := by
  rw [countResidency, if_neg]
  intro ht
  rw [endsUnit, ht] at h
  exact absurd h (by decide)

theorem chResultPop_pops {s : State} (p : Path) (n : Chan) (ecc : EccResult) (hrec : s.fw.recovery = false) :
    exec (.chResultPop p n ecc) s = .next (returned (popQueue s p (resultQueue n) ecc).2 p [(popQueue s p (resultQueue n) ecc).1]) := by
  rw [exec, execChResultPop, accessedRead_running hrec]

theorem popQueue_disabled {s : State} {q : Fin 256} (p : Path) (ecc : EccResult) (h : s.queues[q].state = .disabled) :
    popQueue s p q ecc = (notValid 2 q, s) := by
  rw [popQueue, if_pos (by rw [h]; decide)]

/-- A queue after a pop of a word from the middle of its front packet. -/
def popped (p : Path) (peak : Nat) (k : Queue) : Queue :=
  { k with
    committed := k.committed.drop 1, headPartial := true, peak := peak
    midPaths := if k.midPaths.contains p then k.midPaths else k.midPaths ++ [p] }

section
variable {s : State} {q : Fin 256} (p : Path) (he : s.queues[q].state = .enabled) (hd : s.queues[q].drn = false) (hr : s.queues[q].draining = 0)
include he hd hr

theorem popQueue_empty (ecc : EccResult) (hc : s.queues[q].committed = []) : popQueue s p q ecc = (notValid 0 q, s) := by
  rw [popQueue, if_neg (by rw [he]; decide), if_neg (by rw [hd, hr]; simp)]
  dsimp only
  rw [checkPacket_empty hc, hc]

/-- A pop that leaves more of its packet behind. -/
theorem popQueue_middle {w : Word} {ws : List Word} (hc : s.queues[q].committed = w :: ws) (hh : s.queues[q].hwm = 0) (hw : endsUnit w = false) :
    ∃ peak, popQueue s p q .clean = (w, updQueue s q (popped p peak)) := by
  refine ⟨max s.queues[q].peak ({ s.queues[q] with committed := s.queues[q].committed.drop 1 } : Queue).occ, ?_⟩
  rw [popQueue, if_neg (by rw [he]; decide), if_neg (by rw [hd, hr]; simp)]
  dsimp only
  rw [checkPacket_clean, hc]
  dsimp only
  rw [countResidency_other q hw, changeQueue_of_hwm (by rw [if_neg (by rw [hw]; decide)]; exact hh), closeIfEmpty_other]
  · refine congrArg (Prod.mk w) (updQueue_congr ?_)
    rw [if_neg (by rw [hw]; decide), popped, hc]
    rfl
  · rw [updQueue_get, if_neg (by rw [hw]; decide)]
    exact fun h => nomatch he.symm.trans h

end

/-- The NOTVALID word of a result queue (R121). -/
theorem notValid_resultQueue {qual : Nat} (hq : qual < 16) (n : Chan) : notValid qual (resultQueue n) = BitVec.ofNat 32 (qual * 2 ^ 24 + n.val) := by
  have hn : (resultQueue n).val % 2 ^ 24 = n.val := Nat.mod_eq_of_lt (by rw [resultQueue]; omega)
  rw [notValid, resultWord, hn, Nat.mod_eq_of_lt hq]
  simp [pack, word]

/-- Settles O30: what a pop returns depends on the state of the queue and its front; the rest of the packet stays for the path. -/
theorem resultReads : Obligations.ResultReads := by
  unfold Obligations.ResultReads
  intro s p n hrec q k
  refine ⟨?word, ?disabled, ?empty, ?seq⟩
  case word =>
    intro w ws he hd hr hc hh hw
    obtain ⟨peak, hpop⟩ := popQueue_middle p he hd hr hc hh hw
    have hrun : exec (.chResultPop p n .clean) s = .next (returned (updQueue s q (popped p peak)) p [w]) := by
      rw [chResultPop_pops p n .clean hrec, hpop]
    have hq : (returned (updQueue s q (popped p peak)) p [w]).queues[q] = popped p peak k := updQueue_get ..
    refine ⟨_, hrun, ?_, ?_, ?_, rfl, rfl, fun r hr => updQueue_get_ne s hr _⟩
    · rw [returned, updPath_path_self]
    · rw [hq, popped, hc]
      rfl
    · rw [hq, popped]
  case disabled =>
    intro ecc h
    rw [chResultPop_pops p n ecc hrec, popQueue_disabled p ecc h, notValid_resultQueue (by decide)]
    rfl
  case empty =>
    intro ecc he hd hr hc
    rw [chResultPop_pops p n ecc hrec, popQueue_empty p he hd hr ecc hc, notValid_resultQueue (by decide), Nat.zero_mul, Nat.zero_add]
    rfl
  case seq =>
    rw [exec, execChLatestSeqRead, accessedRead_running hrec]
    rfl

/-! ### Drain engines -/

theorem updRing_get (s : State) (d : Ring) (f : RingState → RingState) : (updRing s d f).rings[d] = f s.rings[d] := by
  simp [updRing]

theorem updRing_get_ne (s : State) {d e : Ring} (h : e ≠ d) (f : RingState → RingState) : (updRing s d f).rings[e] = s.rings[e] := by
  simp [updRing, Ne.symm (Fin.val_ne_of_ne h)]

theorem takeTriggers_free {s : State} {d : Ring} (h : s.rings[d].trig = false) (fuel : Nat) : takeTriggers fuel s d = s := by
  cases fuel with
  | zero => rfl
  | succ fuel => rw [takeTriggers, if_pos (by rw [h]; simp)]

/-- An engine that is on, idle and has room takes the packet in front of its next queue. -/
theorem engineStart_takes {s : State} {d : Ring} {q : Fin 256} {pas : List Nat} (hen : s.rings[d].en = true) (hs : s.rings[d].stopping = false)
    (ht : s.rings[d].transfer = none) (hf : s.rings[d].fault = false) (hg : s.rings[d].trig = false) (ha : ddrAsleep s = false)
    (hq : nextQueue s d = some q) {ws : List Word} (hws : ringWords q.val (splitUnit s.queues[q].committed).1 = ws)
    (hl : s.rings[d].lacks (4 * ws.length) = false) (hp : ringPas s.mm s.rings[d] ws.length s.rings[d].wr [] = .inl pas) :
    engineStart s d .clean = updQueue (updRing (cacheXlates s s.rings[d].asid.toNat ((List.range ws.length).map fun i => s.rings[d].va (s.rings[d].wr + 4 * i))) d
      fun r => { r with fault := false, transfer := some ⟨q.val, ws, pas, s.tb.now⟩, owed := servedQueue (readyQueues s d) q r.owed }) q
      fun k => { k with draining := (splitUnit k.committed).1.length } := by
  rw [engineStart, hen, hs, ht, hf, ha]
  simp only [takeTriggers_free hg, hq]
  rw [startTransfer, checkPacket_clean]
  dsimp only
  rw [hws, hl, hp]
  dsimp only
  rw [cacheXlates_same, if_neg (by decide), if_neg (by decide)]
  exact updQueue_congr rfl

theorem ringThreshold_same (s : State) (d : Ring) (before : Nat) : SameButReport (ringThreshold s d before) s := by
  rw [ringThreshold]
  split
  · exact raiseAt_same ..
  · exact .refl s

theorem countResidency_same (s : State) (q : Fin 256) (w : Word) : (countResidency s q w) = { s with ht := (countResidency s q w).ht } := by
  rw [countResidency]
  split
  · split
    · exact offerDevice_same ..
    · rfl
  · rfl

/-- A transfer has ended: its words stand in the ring. -/
structure TransferEnded (d : Ring) (t : Transfer) (s u : State) : Prop where
  rings : u.rings = (updRing s d fun r => { r with
    wr := r.wr + 4 * t.words.length, transfer := none, en := r.en && !r.stopping, stopping := false }).rings
  mm : u.mm = { s.mm with mem := storeWords s.mm.mem ((t.pas.map (retiredTo s.mm)).zip t.words) }
  chans : u.chans = s.chans

theorem TransferEnded.of_same {d : Ring} {t : Transfer} {s u v : State} (h : TransferEnded d t s u) (hr : v.rings = u.rings) (hm : v.mm = u.mm)
    (hc : v.chans = u.chans) : TransferEnded d t s v := ⟨hr.trans h.rings, hm.trans h.mm, hc.trans h.chans⟩

theorem TransferEnded.push {d : Ring} {t : Transfer} {s u v : State} (h : TransferEnded d t s u) (hp : SameButPush false v u) :
    TransferEnded d t s v := h.of_same hp.rings hp.mm hp.chans_eq

theorem engineEnd_ended {s : State} {d : Ring} {t : Transfer} (h : s.rings[d].transfer = some t) : TransferEnded d t s (engineEnd s d) := by
  rw [engineEnd, h]
  dsimp only
  generalize hw : updRing { s with mm := { s.mm with mem := storeWords s.mm.mem ((t.pas.map (retiredTo s.mm)).zip t.words) } } d _ = written
  have hwritten : TransferEnded d t s written := by
    rw [← hw]
    exact ⟨rfl, rfl, rfl⟩
  have hoffer : TransferEnded d t s (offerDevice written 3 t.start written.tb.now) :=
    hwritten.of_same (offerDevice_rings ..) (offerDevice_mm ..) (offerDevice_chans ..)
  have hthr := hoffer.push (ringThreshold_same _ d (s.rings[d].wr - s.rings[d].rd)).push
  generalize ringThreshold _ _ _ = u at hthr ⊢
  split
  · have hcount (q : Fin 256) (w : Word) : TransferEnded d t s (countResidency u q w) := by
      rw [countResidency_same]
      exact hthr.of_same rfl rfl rfl
    exact ((hcount _ _).push (changeQueue_same ..)).push (updQueue_same ..)
  · exact hthr

theorem ringCfg_refused {r : RingState} {v : Word} {top bits : Nat} (hr : r.en = false) (ha : v.extractLsb' 24 4 = (0 : BitVec 4)) :
    (ringCfg r v top bits).en = false := by
  have hasid : BitVec.ofNat 4 (field v 27 24) = v.extractLsb' 24 4 := ofNat_field
  rw [ringCfg, if_neg (by simp [hr])]
  dsimp only
  rw [hasid, ha, if_neg (by simp [ringRefused])]
  exact hr

theorem ringCfg_off {r : RingState} {v : Word} {top bits : Nat} (hv : v.getLsbD 31 = false) (hr : r.en = true) (ht : r.transfer = none) :
    (ringCfg r v top bits).en = false ∧ (ringCfg r v top bits).wr = r.wr := by
  rw [ringCfg, if_pos (by simp [hr])]
  dsimp only
  rw [flag_eq_getLsbD v 31, hv, if_neg (by decide), ht, if_neg (by decide)]
  exact ⟨rfl, rfl⟩

theorem ringCommit_refused {r : RingState} {v : Word} {rd : Nat} (hrd : rd = v.toNat * 2 ^ 32 + r.rdLo.toNat)
    (h : rd < r.rd ∨ r.wr < rd ∨ rd % 4 ≠ 0) : ringCommit r v = { r with rdRej := true } := by
  rw [ringCommit, ← hrd]
  rw [if_pos (by simp; omega)]

theorem ringEnable_writes {s : State} (p : Path) (d : Ring) {v : Word} (hv : v.getLsbD 31 = true) (hrec : s.fw.recovery = false) :
    exec (.ringEnable p d v) s = .next (updRing s d fun r => ringCfg r v 33 6) := by
  rw [exec, execRingEnable, accessed_running hrec, flag_eq_getLsbD, if_pos hv, ringCfgWrite]

theorem ringDisable_writes {s : State} (p : Path) (d : Ring) {v : Word} (hv : v.getLsbD 31 = false) (hrec : s.fw.recovery = false) :
    exec (.ringDisable p d v) s = .next (updRing s d fun r => ringCfg r v 33 6) := by
  rw [exec, execRingDisable, accessed_running hrec, flag_eq_getLsbD, if_neg (by rw [hv]; decide), ringCfgWrite]

/-- Settles O31: an engine takes a packet whole, and its ring advances by the bytes of it. -/
theorem drainEngines : Obligations.DrainEngines := by
  unfold Obligations.DrainEngines
  intro s p d v r
  refine ⟨?start, ?ended, ?enable, ?refused, ?off, ?commit⟩
  case start =>
    intro q pas hen hs ht hf hg ha hq ws hl hp
    rw [exec, execDrainTransferStart]
    exact congrArg Host.Outcome.next (engineStart_takes hen hs ht hf hg ha hq rfl hl hp)
  case ended =>
    intro t ht _
    obtain ⟨hrings, hmm, hchans⟩ := engineEnd_ended ht
    have hring : (engineEnd s d).rings[d] = { r with
        wr := r.wr + 4 * t.words.length, transfer := none, en := r.en && !r.stopping, stopping := false } :=
      (congrArg (·[d]) hrings).trans (updRing_get ..)
    exact ⟨engineEnd s d, rfl, by rw [hring], by rw [hring], by rw [hmm], hchans,
      fun e he => (congrArg (·[e]) hrings).trans (updRing_get_ne s he _)⟩
  case enable =>
    intro hv hrec hen hok
    obtain ⟨hen', hwr, hrd, htrig⟩ := ringCfg_enabled (top := 33) (bits := 6) hv hen
      (by rw [show field v (6 - 1) 0 = v.toNat % 64 by simp [field]]; exact hok)
    refine completes_of (ringEnable_writes p d hv hrec) ?_
    rw [updRing_get]
    exact ⟨hen', hwr, hrd, htrig, rfl, fun e he => updRing_get_ne s he _⟩
  case refused =>
    intro hv hrec hen ha
    exact ⟨_, ringEnable_writes p d hv hrec, (congrArg RingState.en (updRing_get ..)).trans (ringCfg_refused hen ha)⟩
  case off =>
    intro hv hrec hen ht
    obtain ⟨hen', hwr⟩ := ringCfg_off (top := 33) (bits := 6) hv hen ht
    exact ⟨_, ringDisable_writes p d hv hrec, (congrArg RingState.en (updRing_get ..)).trans hen', (congrArg RingState.wr (updRing_get ..)).trans hwr⟩
  case commit =>
    intro hst hrec rd hrd
    have hrun : exec (.ringRdCommit p d v) s = .next (updRing s d fun r => ringCommit r v) := by
      rw [exec, execRingRdCommit, accessed_running hrec, ringRdWrite]
      simp only [hst, Bool.false_eq_true, if_false]
    refine ⟨fun hlo hhi h4 => ?_, fun h => ?_⟩
    · rw [hrun, updRing, ringCommit_taken hrd hlo hhi h4]
    · rw [hrun, updRing, ringCommit_refused hrd h]

end Sys2Proof.Machine
end

section
/-!
PROOFS. O33: errors of the memories and their repair, the fault log, invalidations and demand faults (R294, R295, R314 to R323).
-/
namespace Sys2Proof.Machine

/-! ### Errors -/

/-- The second corrected error of a page within a day calls for its retirement. -/
theorem noteError_second {m : Memory} {pa before now : Nat} (he : m.errs = [(.page pa, before)]) (ht : now < before + dayTicks)
    (hh : m.house = []) : (noteError (.page pa) false now m).house = [(.page pa, now)] := by
  rw [noteError, he, hh]
  have hkept : [(ErrPlace.page pa, before)].filter (fun e => now < e.2 + dayTicks) = [(.page pa, before)] := by simp [ht]
  rw [hkept, if_pos (by simp [errLimit])]
  rfl

/-! ### Repair -/

theorem housekeep_takes {s : State} {q : ErrPlace} {since : Nat} {rest : List (ErrPlace × Nat)} {p : ErrPlace → Bool} (f : State → State)
    (hfree : mpStopped s = false ∧ faultWork s = false ∧ proofWork s = false ∧ hostWork s = false) (hh : s.mm.house = (q, since) :: rest)
    (hp : p q = true) : housekeep s p f = f (offerDevice (updMm s fun m => { m with house := rest }) 0 since s.tb.now) := by
  obtain ⟨hm, hf, hw, ho⟩ := hfree
  rw [housekeep, hh]
  dsimp only
  rw [hp, hm, hf, hw, ho]
  rfl

theorem repairRow_first {s : State} {k : Nat} (h : s.mm.spares = []) :
    repairRow s k = updMm s fun m => { m with spares := [(k, 1)], rowrep := m.rowrep + 1 } := by
  rw [repairRow, h]
  simp [updMm, h]

theorem repairRow_used {s : State} {k : Nat} {others : List (Nat × Nat)} (h : s.mm.spares = (k, 4) :: others) :
    repairRow s k = updMm s fun m => { m with spareOut := true } := by
  rw [repairRow, h]
  simp

/-! ### A retired page -/

theorem memReadBytes_get (m : Mem) (a n i : Nat) (h : i < n) : (memReadBytes m a n)[i]? = some (memRead m (a + i)) := by
  rw [memReadBytes, List.getElem?_map, List.getElem?_range h]
  rfl

theorem memReadBytes_length (m : Mem) (a n : Nat) : (memReadBytes m a n).length = n := by rw [memReadBytes, List.length_map, List.length_range]

/-- What an invalidation that begins changes of the memory's state. -/
theorem startInv_mm (s : State) (i : Inv) : (startInv s i).mm = { s.mm with invPending := s.mm.invPending ++ [i] } := rfl

/-- The first page to retire moves to the top of the reserved range. -/
theorem retirePage_first {s : State} {pa : Nat} (he : paExternal pa = true) (hx : paExists s.mm pa = true) (hr : s.mm.retired = []) :
    ∃ maps tables inv, (retirePage s pa).mm = { s.mm with
      mem := memWriteBytes s.mm.mem 0x3FFFF000 (memReadBytes s.mm.mem pa 0x1000)
      maps := maps, tables := tables, retired := [(pa, 0x3FFFF000)], invPending := inv } := by
  have hspare : sparePage s.mm = 0x3FFFF000 := by rw [sparePage, hr]; rfl
  rw [retirePage, he, hx, hr, hspare]
  dsimp only
  rw [if_neg (by simp)]
  split
  · refine ⟨splitAround s.mm.maps pa, s.mm.tables ++ splitTables s.mm.maps pa, s.mm.invPending ++ [⟨none, 0, 0, 0, some pa⟩], ?_⟩
    rw [startInv_mm]
    simp [updMm, dropPage, hr]
  · refine ⟨splitAround s.mm.maps pa, s.mm.tables ++ splitTables s.mm.maps pa, s.mm.invPending, ?_⟩
    simp [updMm, dropPage, hr]

theorem retiredTo_first {m : Memory} {pa spare i : Nat} (hr : m.retired = [(pa, spare)]) (ha : pa % 4096 = 0) (hi : i < 4096) :
    retiredTo m (pa + i) = spare + i := by
  have hpage : (pa + i) / 4096 * 4096 = pa := by omega
  have hin : (pa + i) % 4096 = i := by omega
  rw [retiredTo, hr, hpage, hin]
  simp [followSpare]

/-! ### The fault log and invalidations -/

theorem flogPop_first {s : State} {r : List Word} {rest : List (List Word)} (p : Path) (h : s.mm.flog = r :: rest) :
    (flogPop s p).2 = updPath { s with mm := { s.mm with flog := rest } } p fun k => { k with flog := r.drop 1, readLog := [r.headD 0] } := by
  rw [flogPop, h, List.headD_eq_head?_getD]
  rfl

theorem flogPop_empty {s : State} (p : Path) (h : s.mm.flog = []) : (flogPop s p).2 = updPath s p fun k => { k with readLog := [0] } := by
  rw [flogPop, h]

theorem invalidated_free {s : State} {i : Inv} {rest : List Inv} (h : s.mm.invPending = i :: rest) (hw : i.who = none) (hh : invHeld s i = false) :
    invalidated s = { s with mm := { s.mm with invPending := rest, invSeq := (s.mm.invSeq + 1) % 2 ^ 32 } } := by
  rw [invalidated, h]
  dsimp only
  rw [hh, hw]
  rfl

/-! ### Demand faults -/

theorem memRead_memZero_in {m : Mem} {a n c : Nat} (h : a ≤ c) (hn : c < a + n) : memRead (memZero m a n) c = 0 := by
  induction m with
  | nil => rfl
  | cons b m ih =>
    rw [memZero, List.filter_cons]
    split
    · next hb =>
      rw [memRead, if_neg (by simp at hb; omega)]
      exact ih
    · exact ih

theorem memRead_memZero_out {m : Mem} {a n c : Nat} (h : c < a ∨ a + n ≤ c) : memRead (memZero m a n) c = memRead m c := by
  induction m with
  | nil => rfl
  | cons b m ih =>
    rw [memZero, List.filter_cons, memRead]
    split
    · rw [memRead]
      split
      · rfl
      · exact ih
    · next hb =>
      rw [if_neg (by simp at hb; omega)]
      exact ih

theorem endWaits_none {s : State} (who : Waiter) (h : s.mm.waits = []) : endWaits s who = s := by
  rw [endWaits, h]
  simp only [List.filter_nil, List.foldl_nil, h]
  rw [← h]

theorem releaseCured_none {s : State} (h : s.mm.waits = []) : releaseCured s = s := by
  rw [releaseCured, h]
  rfl

/-- A suspended context that nothing else holds runs again where it stands. -/
theorem releaseWaiter_context {s : State} {n : Chan} {x : Ctx} {c : Cause} {demand : Bool} (hs : (s.context n x).state = .suspended c demand)
    (hh : (s.context n x).haltReq = false) (hi : inImm s.chans[n].graver x = false) (hw : s.mm.waits = []) :
    releaseWaiter s (.context n x) = updCtx s n x fun k => { k with state := .ready } := by
  rw [releaseWaiter, hs]
  dsimp only
  rw [endWaits_none _ hw, wake_window s n x hh hi]

/-- The MP resolves the only demand fault with the first page of the pool. -/
theorem resolveDemand_pool {s : State} {d : Demand} {e : Mapping} {pa k : Nat} {pool : List (Nat × Nat)} (hd : s.mm.demand = [d])
    (he : findMapping s.mm.maps d.asid d.va = some e) (hp : e.pa = none) (hpool : s.mm.pool = (pa, k) :: pool) :
    ∃ left, resolveDemand s = releaseCured (releaseWaiter (mapDemand (offerDevice (updMm s fun m => { m with demand := [] }) 0 d.since s.tb.now)
      d.asid d.va pa left) d.who) := by
  have hmm : (offerDevice (updMm s fun m => { m with demand := [] }) 0 d.since s.tb.now).mm = { s.mm with demand := [] } := offerDevice_mm ..
  refine ⟨if k ≤ 1 then pool else (pa + 0x1000, k - 1) :: pool, ?_⟩
  rw [resolveDemand, hd]
  dsimp only
  rw [hmm, he]
  dsimp only
  rw [hp, hpool, takePage]
  rfl

/-- Settles O33: an error is noted by its place, and the MP's repair moves no byte but those of the page that it takes. -/
theorem memoryUpkeep : Obligations.MemoryUpkeep := by
  unfold Obligations.MemoryUpkeep
  refine ⟨fun s p => ⟨?scrub, ?second, ?row, ?page, ?pop, ?empty, ?inv⟩, ?demand⟩
  case scrub => exact fun place q cured => ⟨rfl, rfl, fun pa k row => ⟨rfl, rfl, rfl⟩⟩
  case second =>
    intro pa before q cured he ht hh
    refine completes_of (t := mpAtOnce (eccCorrected s (.page pa))) rfl ?_
    rw [mpAtOnce, offerDevice_mm, eccCorrected, raise_mm]
    exact noteError_second he ht hh
  case row =>
    intro k row since rest hfree hh
    refine ⟨fun hs => ?_, fun others hs => ?_⟩
    all_goals
      have hrun : exec (.sramRowRepair k) s = .next (repairRow (offerDevice (updMm s fun m => { m with house := rest }) 0 since s.tb.now) k.val) :=
        congrArg Host.Outcome.next (housekeep_takes _ hfree hh (beq_self_eq_true _))
      refine completes_of hrun ?_
    · rw [repairRow_first (by rw [offerDevice_mm]; exact hs)]
      simp [updMm]
    · rw [repairRow_used (by rw [offerDevice_mm]; exact hs)]
      simp [updMm]
  case page =>
    intro pa since rest hfree hh hext hddr hexists hr hpa hlo hwf
    have hrun : exec (.pageRetire pa) s = .next (retirePage (offerDevice (updMm s fun m => { m with house := rest }) 0 since s.tb.now) pa) := by
      rw [exec, execPageRetire, demandMemory, hddr, Bool.and_false, if_neg Bool.false_ne_true,
        housekeep_takes (p := fun p => p == .page pa) _ hfree hh (beq_self_eq_true _)]
    have hmm : (offerDevice (updMm s fun m => { m with house := rest }) 0 since s.tb.now).mm = { s.mm with house := rest } := offerDevice_mm ..
    obtain ⟨maps, tables, inv, hretired⟩ := retirePage_first (s := offerDevice (updMm s fun m => { m with house := rest }) 0 since s.tb.now) hext
      (by rw [hmm]; exact hexists) (by rw [hmm]; exact hr)
    rw [hmm] at hretired
    refine completes_of hrun ?_
    rw [hretired]
    dsimp only
    refine ⟨rfl, rfl, fun i hi => ?_, fun a ha => ?_⟩
    · rw [retiredTo_first rfl hpa hi]
      exact memRead_writeBytes (memReadBytes s.mm.mem pa 0x1000) s.mm.mem 0x3FFFF000 i _ hwf (memReadBytes_get _ _ _ _ hi)
    · exact memRead_writeBytes_ne (memReadBytes s.mm.mem pa 0x1000) s.mm.mem 0x3FFFF000 a (by rw [memReadBytes_length]; omega)
  case pop =>
    intro r rest h hrec
    rw [exec, execMmuFlogPop, accessedRead_running hrec, flogPop_first p h]
  case empty =>
    intro h hrec
    rw [exec, execMmuFlogPop, accessedRead_running hrec, flogPop_empty p h]
  case inv => exact fun i rest h hw hh => congrArg Host.Outcome.next (invalidated_free h hw hh)
  case demand =>
    intro s n x c asid va since pa page wr split k pool e hd hm hpage he hp hpool hs hh hi hw hwf
    obtain ⟨left, hres⟩ := resolveDemand_pool hd he hp hpool
    have hmm : (offerDevice (updMm s fun m => { m with demand := [] }) 0 since s.tb.now).mm = { s.mm with demand := [] } := offerDevice_mm ..
    have hchans : (offerDevice (updMm s fun m => { m with demand := [] }) 0 since s.tb.now).chans = s.chans := offerDevice_chans ..
    generalize offerDevice _ _ _ _ = u at hres hmm hchans
    have hctx : (mapDemand u asid va pa left).context n x = s.context n x := by
      rw [State.context, State.context, show (mapDemand u asid va pa left).chans = s.chans from hchans]
    have hmem : (mapDemand u asid va pa left).mm.mem = memZero s.mm.mem page 0x1000 := by
      rw [mapDemand, updMm_mm, hmm, ← hpage]
      rfl
    have hwaits : (mapDemand u asid va pa left).mm.waits = [] := (congrArg Memory.waits hmm).trans hw
    have hrun := releaseWaiter_context (hctx ▸ hs) (hctx ▸ hh) (by rw [show (mapDemand u asid va pa left).chans = s.chans from hchans]; exact hi) hwaits
    rw [hrun, releaseCured_none (by rw [updCtx_mm]; exact hwaits)] at hres
    refine completes_of (t := resolveDemand s) ?_ ?_
    · rw [exec, execDemandFaultResolved, hm, if_neg Bool.false_ne_true]
    · rw [hres, updCtx_context_self]
      refine ⟨rfl, congrArg Memory.demand hmm, fun i hi => ?_, fun a ha => ?_, (congrArg Context.pc hctx :)⟩
      · rw [updCtx_mm, hmem]
        exact memRead_memZero_in (Nat.le_add_right ..) (by omega)
      · rw [updCtx_mm, hmem]
        exact memRead_memZero_out ha

end Sys2Proof.Machine
end

section
/-!
PROOFS. O34: host commands on address spaces, mappings and the pool (R318, R323, R432, Table 9.9).
-/
namespace Sys2Proof.Machine

/-! ### A command that the MP takes -/

section
variable {s : State} {h : Hdr} {args : Nat} (ha : Accepted s h args) (opcode : Nat) (inRecovery : Bool)
  {body : State → Option (Nat × List Byte) × State} {t : State}
include ha

theorem refusedAtOnce_accepted : refusedAtOnce (takeMessage s h) h args inRecovery = none := by
  obtain ⟨-, hdead, hlen, hrec⟩ := ha
  have hrec' : (takeMessage s h).fw.recovery = false := by rw [takeMessage_answers s h]; exact hrec
  have hpast : pastDeadline (takeMessage s h) h.deadline = false := by
    rw [pastDeadline, takeMessage_tb]
    simp
    omega
  rw [refusedAtOnce, hpast, hlen, hrec']
  rfl

theorem hostCommand_accepted : hostCommand s h opcode args inRecovery body =
    (body (takeMessage s h)).1.elim (body (takeMessage s h)).2
      fun r => answered (body (takeMessage s h)).2 s h opcode r.1 r.2 := by
  rw [hostCommand, ha.1]
  simp only [refusedAtOnce_accepted ha inRecovery]
  rcases body (takeMessage s h) with ⟨_ | ⟨st, data⟩, t⟩ <;> rfl

/-- A command whose answer the operation gives. -/
theorem hostCommand_answers {st : Nat} {data : List Byte} (hb : body (takeMessage s h) = (some (st, data), t)) :
    hostCommand s h opcode args inRecovery body = answered t s h opcode st data := by
  rw [hostCommand_accepted ha, hb]
  rfl

/-- A command whose answer waits. -/
theorem hostCommand_waits (hb : body (takeMessage s h) = (none, t)) : hostCommand s h opcode args inRecovery body = t := by
  rw [hostCommand_accepted ha, hb]
  rfl

end

/-! ### Mappings -/

theorem addMapping_last {s : State} {e : Mapping} (hl : e.len ≠ 0) (hw : s.mm.waits = []) :
    addMapping s e = updMm s fun m => { m with maps := m.maps ++ [e], tables := m.tables ++ [(e.asid, e.va, e.len, e.page)] } := by
  rw [addMapping, if_neg hl, releaseCured_none (by rw [updMm_mm]; exact hw)]

section
variable {s : State} {asid va pa len : Nat} {flags : Word}

theorem asidCreateOp_new (hlo : 1 ≤ asid) (hhi : asid ≤ 15) (hnew : s.mm.asids.contains asid = false) :
    asidCreateOp s asid = (stOk, { s with mm := { s.mm with asids := s.mm.asids ++ [asid] } }) := by
  rw [asidCreateOp, if_neg (by simp; omega), if_neg (by rw [hnew]; decide)]
  rfl

/-- What ASID_DESTROY leaves: nothing mapped, and the invalidation of the whole space under way. -/
theorem asidDestroyOp_idle (hl : asidLive s.mm asid = true) (hu : asidUsed s asid = false) (who : Option (Path × Word × Nat × Nat)) :
    asidDestroyOp s asid who = (stOk, updMm (unmapRange s asid 0 (2 ^ 48) who) fun m =>
      { m with asids := m.asids.filter (· != asid), tables := m.tables.filter fun t => t.1 != asid }) := by
  rw [asidDestroyOp, hl, hu]
  rfl

theorem mapOp_free (hl : asidLive s.mm asid = true) (hf : flagsReserved flags = false) (hv : vaOk va len (pageOf flags) = true)
    (hp : pa % pageOf flags = 0) (hr : rangeMappable s.mm pa len = true) (hm : anyMapped s.mm asid va len = false) (hlen : len ≠ 0)
    (hw : s.mm.waits = []) :
    mapOp s asid flags va pa len = (stOk, updMm s fun m => { m with
      maps := m.maps ++ [⟨asid, va, len, pageOf flags, some pa, flag flags 4, flag flags 5, flag flags 6⟩]
      tables := m.tables ++ [(asid, va, len, pageOf flags)] }) := by
  rw [mapOp, hl, hf, hv, hp, hr, hm, addMapping_last hlen hw]
  rfl

theorem mapDzOp_free (hl : asidLive s.mm asid = true) (hv : vaOk va len 4096 = true) (hm : anyMapped s.mm asid va len = false) (hlen : len ≠ 0)
    (hw : s.mm.waits = []) :
    mapDzOp s asid flags va len = (stOk, updMm s fun m => { m with
      maps := m.maps ++ [⟨asid, va, len, 4096, none, flag flags 4, flag flags 5, false⟩], tables := m.tables ++ [(asid, va, len, 4096)] }) := by
  rw [mapDzOp, hl, hv, hm, addMapping_last hlen hw]
  rfl

theorem protectOp_mapped (hf : flagsReserved flags = false) (hm : len ≤ mappedBytes s.mm asid va len) (hw : s.mm.waits = [])
    (who : Option (Path × Word × Nat × Nat)) :
    protectOp s asid flags va len who = (stOk, startInv (updMm s fun m => { m with
      maps := changeMappings m.maps asid va len fun e => some { e with r := flag flags 4, w := flag flags 5, x := flag flags 6 } })
      ⟨who, asid, va, len, none⟩) := by
  rw [protectOp, hf, if_neg Bool.false_ne_true, if_neg (by omega)]
  dsimp only
  rw [releaseCured_none]
  exact hw

theorem poolAddOp_mappable {pages : Nat} (hp : pages ≠ 0) (ha : pa % 4096 = 0) (hr : rangeMappable s.mm pa (4096 * pages) = true) :
    poolAddOp s pa pages = (stOk, updMm s fun m => { m with pool := m.pool ++ [(pa, pages)] }) := by
  rw [poolAddOp, if_neg (by simp [ha, hr]), if_neg hp]

end

/-- What UNMAP changes of the memory's state. -/
theorem unmapRange_mm (s : State) (asid va len : Nat) (who : Option (Path × Word × Nat × Nat)) : (unmapRange s asid va len who).mm = { s.mm with
    maps := changeMappings s.mm.maps asid va len fun _ => none, invPending := s.mm.invPending ++ [⟨who, asid, va, len, none⟩] } := rfl

theorem unmapRange_eq (s : State) (asid va len : Nat) (who : Option (Path × Word × Nat × Nat)) :
    unmapRange s asid va len who = { dropXlates s asid va len with mm := { s.mm with
      maps := changeMappings s.mm.maps asid va len fun _ => none, invPending := s.mm.invPending ++ [⟨who, asid, va, len, none⟩] } } := rfl

/-- An invalidation that begins after the mappings of its range have changed. -/
theorem startInv_updMm (s : State) (asid va len : Nat) (who : Option (Path × Word × Nat × Nat)) (f : Mapping → Option Mapping) :
    startInv (updMm s fun m => { m with maps := changeMappings m.maps asid va len f }) ⟨who, asid, va, len, none⟩ =
      { dropXlates s asid va len with mm := { s.mm with
        maps := changeMappings s.mm.maps asid va len f, invPending := s.mm.invPending ++ [⟨who, asid, va, len, none⟩] } } := rfl

theorem waiting_takeMessage (s : State) (h : Hdr) (opcode : Nat) :
    waiting (takeMessage s h) h opcode = some (h.path, h.tag, opcode, s.tb.now) := by
  rw [waiting, takeMessage_tb]

/-- Settles O34: each command finds the memory's state that it was sent to, and its answer comes at once or with its invalidation. -/
theorem mappingCommands : Obligations.MappingCommands := by
  unfold Obligations.MappingCommands
  intro s h asid va pa len flags u wait live
  have hmm : u.mm = s.mm := takeMessage_mm s h
  have asidLive_of (hl : live) : asidLive u.mm asid = true := by
    rw [hmm, asidLive, hl.2.2]
    simp [hl.1, hl.2.1]
  refine ⟨?create, ?destroy, ?map, ?mapDz, ?unmap, ?protect, ?pool⟩
  case create =>
    intro ha hlo hhi hnew
    have hop : asidCreateOp u asid = _ := asidCreateOp_new hlo hhi (hmm ▸ hnew)
    rw [hmm] at hop
    exact congrArg Host.Outcome.next (hostCommand_answers ha 0x20 false (congrArg statusOnly hop))
  case destroy =>
    intro ha hl hu
    have hop := asidDestroyOp_idle (asidLive_of hl) hu (waiting u h 0x21)
    refine completes_of (congrArg Host.Outcome.next (hostCommand_waits ha 0x21 false (congrArg afterInvalidation hop))) ?_
    rw [updMm_mm, unmapRange_mm, hmm, waiting_takeMessage]
    exact ⟨rfl, rfl, rfl, rfl⟩
  case map =>
    intro ha hl hf hv hp hr hm hlen hw
    have hop := mapOp_free (asidLive_of hl) hf hv hp (hmm ▸ hr) (hmm ▸ hm) hlen (hmm ▸ hw)
    rw [updMm, hmm] at hop
    exact congrArg Host.Outcome.next (hostCommand_answers ha 0x22 false (congrArg statusOnly hop))
  case mapDz =>
    intro ha hl hv hm hlen hw
    have hop := mapDzOp_free (flags := flags) (asidLive_of hl) hv (hmm ▸ hm) hlen (hmm ▸ hw)
    rw [updMm, hmm] at hop
    exact congrArg Host.Outcome.next (hostCommand_answers ha 0x23 false (congrArg statusOnly hop))
  case unmap =>
    intro ha
    have hrun : exec (.unmap h asid va len) s = .next (unmapRange u asid va len (waiting u h 0x24)) :=
      congrArg Host.Outcome.next (hostCommand_waits ha 0x24 false rfl)
    rw [hrun, waiting_takeMessage, unmapRange_eq, hmm]
  case protect =>
    intro ha hf hm hw
    have hop := protectOp_mapped (flags := flags) hf (by rw [hmm]; exact hm) (hmm ▸ hw) (waiting u h 0x25)
    rw [waiting_takeMessage, startInv_updMm, hmm] at hop
    have hrun : exec (.protect h asid flags va len) s = .next _ :=
      congrArg Host.Outcome.next (hostCommand_waits ha 0x25 false ((congrArg (fun w => afterInvalidation (protectOp u asid flags va len w))
        (waiting_takeMessage s h 0x25)).trans (congrArg afterInvalidation hop)))
    exact hrun
  case pool =>
    intro ha pages hp hpa hr
    have hop := poolAddOp_mappable hp hpa (hmm ▸ hr)
    rw [updMm, hmm] at hop
    exact congrArg Host.Outcome.next (hostCommand_answers ha 0x26 false (congrArg statusOnly hop))

end Sys2Proof.Machine
end

section
/-!
PROOFS. O35: ECHO, register access, cache invalidation and RESUME by command (R130, R149, R431, Table 14.7).
-/
namespace Sys2Proof.Machine

/-! ### A command that is refused at once -/

/-- A command that the MP takes and refuses is answered with the status, and a deadline that has passed is counted. -/
theorem hostCommand_refused {s : State} {h : Hdr} {args st : Nat} (hf : takesFrom s h.path = true) (opcode : Nat) (inRecovery : Bool)
    {body : State → Option (Nat × List Byte) × State} (hr : refusedAtOnce (takeMessage s h) h args inRecovery = some st) :
    hostCommand s h opcode args inRecovery body =
      answered (if st = stTimeout then countTimeout (takeMessage s h) else takeMessage s h) s h opcode st [] := by
  rw [hostCommand, hf]
  simp only [hr]
  rfl

theorem refusedAtOnce_late {s : State} {h : Hdr} {args : Nat} {inRecovery : Bool} (hd : h.deadline ≠ 0) (hl : h.deadline < s.tb.now) :
    refusedAtOnce (takeMessage s h) h args inRecovery = some stTimeout := by
  rw [refusedAtOnce, pastDeadline, takeMessage_tb, if_pos (by simp [hd, hl])]

theorem refusedAtOnce_short {s : State} {h : Hdr} {args : Nat} {inRecovery : Bool} (hd : h.deadline = 0) (hl : h.len < 24 + args) :
    refusedAtOnce (takeMessage s h) h args inRecovery = some stBadLen := by
  rw [refusedAtOnce, pastDeadline, if_neg (by simp [hd]), badLength, if_pos (by simp [hl])]

/-! ### RESUME -/

theorem resumeOp_retry {s : State} {n : Chan} {x : Ctx} {c : Cause} {demand : Bool} (hs : (s.context n x).state = .suspended c demand)
    (hw : s.mm.waits = []) (hh : (s.context n x).haltReq = false) (hi : inImm s.chans[n].graver x = false) :
    resumeOp s n x .retry = (stOk, updCtx (updMm s fun m => { m with demand := m.demand.filter fun d => d.who != .context n x }) n x
      fun k => { k with state := .ready }) := by
  rw [resumeOp, hs]
  dsimp only
  rw [endWaits_none _ (by rw [updMm_mm]; exact hw)]
  exact congrArg (Prod.mk stOk) (wake_window _ n x hh hi)

theorem resumeOp_ready {s : State} {n : Chan} {x : Ctx} (hs : (s.context n x).state = .ready) (a : ResumeAction) : resumeOp s n x a = (stState, s) := by
  rw [resumeOp, hs]

theorem regRange_within {addr count : Nat} (h4 : addr % 4 = 0) (hhi : addr < 0x400000) (h1 : 1 ≤ count) (hc : count ≤ 1024) :
    regRange addr count = true := by
  rw [regRange, h4, decide_eq_true hhi, decide_eq_true h1, decide_eq_true hc]
  rfl

/-- Settles O35: a command that is taken acts on the state that its message leaves, and one that is refused on the path alone. -/
theorem hostCommands : Obligations.HostCommands := by
  unfold Obligations.HostCommands
  intro s h addr u
  have hmm : u.mm = s.mm := takeMessage_mm s h
  have hchans : u.chans = s.chans := takeMessage_chans s h
  refine ⟨?echo, ?regRead, ?regWrite, ?cacheInv, ?resume, ?late, ?short⟩
  case echo => exact fun bytes ha => congrArg Host.Outcome.next (hostCommand_answers ha 0x01 true rfl)
  case regRead =>
    intro count ha h4 hhi h1 hc ws t ht
    refine congrArg Host.Outcome.next (hostCommand_answers ha 0x10 false ?_)
    rw [if_pos (regRange_within h4 hhi h1 hc), ht]
    rfl
  case regWrite =>
    intro words ha h4 hhi h1 hc
    refine congrArg Host.Outcome.next (hostCommand_answers ha 0x11 false ?_)
    rw [if_pos (regRange_within h4 hhi h1 hc)]
    rfl
  case cacheInv =>
    intro asid va len ha
    have hbanks : u.banks = s.banks := takeMessage_banks s h
    rw [← hbanks]
    exact congrArg Host.Outcome.next (hostCommand_answers ha 0x27 false rfl)
  case resume =>
    intro n x ha
    have hctx : u.context n x = s.context n x := by rw [State.context, State.context, hchans]
    refine ⟨fun c r hs hw hh hi => ?_, fun hs a => ?_⟩
    · have hop := resumeOp_retry (by rw [hctx]; exact hs) (by rw [hmm]; exact hw) (by rw [hctx]; exact hh) (by rw [hchans]; exact hi)
      rw [updMm, hmm] at hop
      exact congrArg Host.Outcome.next (hostCommand_answers ha 0x28 false (congrArg statusOnly hop))
    · exact congrArg Host.Outcome.next (hostCommand_answers ha 0x28 false (congrArg statusOnly (resumeOp_ready (hctx ▸ hs) a)))
  case late =>
    intro hf hd hl bytes
    refine (congrArg Host.Outcome.next (hostCommand_refused hf 0x01 true (refusedAtOnce_late hd hl))).trans ?_
    rw [if_pos rfl, countTimeout, satAdd_eq_min]
    rfl
  case short =>
    intro hf hd bytes hl
    exact congrArg Host.Outcome.next (hostCommand_refused hf 0x01 true (refusedAtOnce_short hd hl))

end Sys2Proof.Machine
end

section
/-!
PROOFS. O36: register words, pair snapshots, the ring window and recovery mode (R42, R312, R423, R434, R450, R467 to R471).
-/
namespace Sys2Proof.Machine

/-! ### Single registers -/

theorem reachable_running {s : State} (h : s.fw.recovery = false) (a : Nat) : reachable s a = true := by
  rw [reachable, h]
  rfl

theorem writeReg_misaligned (s : State) (p : Path) {a : Nat} (v : Word) (h : a % 4 ≠ 0) : writeReg s p a v = s := by
  rw [writeReg, if_pos (by simp [h])]

theorem readReg_misaligned (s : State) (p : Path) {a : Nat} (h : a % 4 ≠ 0) : readReg s p a = (0, s) := by
  rw [readReg, if_pos (by simp [h])]

/-- The scratch register keeps what is written. -/
theorem writeReg_scratch {s : State} (p : Path) (v : Word) (h : s.fw.recovery = false) :
    writeReg s p 0x20 v = { s with fw := { s.fw with scratch := v } } := by
  rw [writeReg, reachable_running h]
  rfl

theorem readReg_scratch {s : State} (p : Path) (h : s.fw.recovery = false) : readReg s p 0x20 = (s.fw.scratch, s) := by
  rw [readReg, reachable_running h]
  rfl

theorem writeReg_sysId (s : State) (p : Path) (v : Word) : writeReg s p 0 v = s := by
  rw [writeReg, reachable]
  simp
  rfl

theorem registerWrite_whole (s : State) (p : Path) (a : Nat) (v : Word) : exec (.registerWrite p a v 0xF) s = .next (writeReg s p a v) := by
  rw [exec, execRegisterWrite, if_neg (by simp)]

theorem registerWrite_partial (s : State) (a : Nat) (v : Word) {be : BitVec 4} (h : be ≠ 0xF) : exec (.registerWrite .pcie a v be) s = .next s := by
  rw [exec, execRegisterWrite, if_pos (by simpa using h)]

/-! ### Pairs -/

/-- The counter as a read of its lower half keeps it. -/
theorem pairSnapshotRead_now {s : State} (p : Path) (h : s.fw.recovery = false) :
    exec (.pairSnapshotRead p (.pair .tbNow)) s = .next (returned (updPath s p fun k =>
      { k with snaps := (.tbNow, s.tb.now) :: k.snaps.filter fun x => x.1 != .tbNow }) p [word s.tb.now]) := by
  rw [exec, execPairSnapshotRead]
  dsimp only
  rw [if_neg (by decide), accessedRead_running h]
  rfl

/-- The upper half belongs to the value that is kept. -/
theorem readReg_nowHigh {s : State} (p : Path) {v : Nat} {rest : List (PairId × Nat)} (h : s.fw.recovery = false)
    (hs : (s.path p).snaps = (.tbNow, v) :: rest) : (readReg s p 0x1000C).1 = word (v / 2 ^ 32) := by
  have hpair : pairAt 0x1000C = none := by decide
  have hlow : pairAt (0x1000C - 4) = some .tbNow := by decide
  rw [readReg, reachable_running h, if_neg (by decide), hpair, hlow]
  dsimp only
  rw [readHigh, snapOf, hs]
  rfl

/-! ### The ring window BAR2 -/

section
variable {s : State} {d : Ring} {y : Nat} (hy : y < 2 ^ 33)
include hy

theorem barRing_offset : barRing s (d.val * 2 ^ 33 + y) = s.rings[d] := by
  have hd : (⟨(d.val * 2 ^ 33 + y) / 2 ^ 33 % 8, Nat.mod_lt _ (by decide)⟩ : Ring) = d := Fin.ext (by simp only; omega)
  rw [barRing]
  simp only [hd]

theorem barVa_offset (r : RingState) : r.va ((d.val * 2 ^ 33 + y) % 2 ^ 33) = r.base + y % 2 ^ r.log2size := by
  rw [show (d.val * 2 ^ 33 + y) % 2 ^ 33 = y by omega]
  rfl

theorem barPa_found {pa : Nat} (ha : s.rings[d].asid ≠ 0)
    (hf : translate s.mm s.rings[d].asid.toNat (s.rings[d].base + y % 2 ^ s.rings[d].log2size) .r = .ok pa) :
    barPa s (d.val * 2 ^ 33 + y) = some pa := by
  rw [barPa, barRing_offset hy, barVa_offset hy, hf, if_neg (by simpa using ha)]

theorem barPa_none (h : s.rings[d].asid = 0 ∨
      ∀ pa, translate s.mm s.rings[d].asid.toNat (s.rings[d].base + y % 2 ^ s.rings[d].log2size) .r ≠ .ok pa) :
    barPa s (d.val * 2 ^ 33 + y) = none := by
  rw [barPa, barRing_offset hy, barVa_offset hy]
  split
  · rfl
  · next hne =>
    split
    · next pa hpa => exact absurd hpa (h.resolve_left (by simpa using hne) pa)
    · rfl

end

theorem window_reads (s : State) (offset : Nat) (ecc : EccResult) :
    exec (.pairSnapshotRead .pcie (.window offset 1 ecc)) s = .next (returned (barRead s offset 1 ecc).2 .pcie (barRead s offset 1 ecc).1) := rfl

/-- The word that the window shows, where its address translates and memory gives it. -/
theorem barRead_found {s : State} {offset pa : Nat} (ha : ddrAsleep s = false) (hp : barPa s offset = some pa) :
    barRead s offset 1 .clean = ([memReadWord s.mm.mem pa],
      cacheXlate s (barRing s offset).asid.toNat ((barRing s offset).va (offset % 2 ^ 33))) := by
  have hword : (List.range 1).map (fun i => barWord s (offset + 4 * i)) = [some (memReadWord s.mm.mem pa)] := by
    simp [barWord, hp]
  rw [barRead, ha, if_neg Bool.false_ne_true]
  dsimp only
  rw [hword, barEcc, hp]
  rfl

theorem barRead_uncorrectable {s : State} {offset pa : Nat} (ha : ddrAsleep s = false) (hp : barPa s offset = some pa) :
    let t := eccMet (cacheXlate s (barRing s offset).asid.toNat ((barRing s offset).va (offset % 2 ^ 33))) pa .uncorrectable
    barRead s offset 1 .uncorrectable = ([BitVec.allOnes 32], { t with fw := { t.fw with bar2flt := true } }) := by
  rw [barRead, ha, if_neg Bool.false_ne_true]
  dsimp only
  rw [barEcc, hp, if_neg (by simp)]
  rfl

theorem barRead_faults {s : State} {offset : Nat} (ha : ddrAsleep s = false) (hp : barPa s offset = none) (ecc : EccResult) :
    barRead s offset 1 ecc = ([BitVec.allOnes 32], { s with fw := { s.fw with bar2flt := true } }) := by
  have hword : (List.range 1).map (fun i => barWord s (offset + 4 * i)) = [none] := by
    simp [barWord, hp]
  rw [barRead, ha, if_neg Bool.false_ne_true]
  dsimp only
  rw [hword, barEcc, hp, if_neg (by simp)]
  rfl

/-! ### Recovery mode -/

theorem accessed_recovery {s : State} (h : s.fw.recovery = true) (t : State) : accessed s t = s := if_pos h

theorem accessedRead_recovery {s : State} (h : s.fw.recovery = true) (p : Path) (t : State) : accessedRead s p t = returned s p [0] := if_pos h

theorem reachable_recovery {s : State} {a : Nat} (h : s.fw.recovery = true) (h0 : a ≠ 0) (hb : ¬(0x90000 ≤ a ∧ a < 0xA0000)) :
    reachable s a = false := by
  rw [reachable, h]
  simp [h0]
  omega

/-- Settles O36: every access goes through the word at its address, and recovery mode closes all but block FW. -/
theorem registerAccess : Obligations.RegisterAccess := by
  unfold Obligations.RegisterAccess
  refine ⟨fun s p v => ⟨?scratch, ?misaligned, ?sysId, ?bytes, ?spiWrite, ?spiRead, ?pair, ?window⟩,
    fun s p n k d v hrec => ⟨?writes, ?reads, ?register⟩⟩
  case scratch =>
    intro hrec
    rw [registerWrite_whole, writeReg_scratch p v hrec]
    exact ⟨rfl, congrArg Prod.fst (readReg_scratch (s := { s with fw := { s.fw with scratch := v } }) p hrec)⟩
  case misaligned =>
    intro a h
    rw [registerWrite_whole, writeReg_misaligned s p v h]
    exact ⟨rfl, readReg_misaligned s p h⟩
  case sysId => rw [registerWrite_whole, writeReg_sysId]
  case bytes => exact fun a be h => registerWrite_partial s a v h
  case spiWrite =>
    intro hrec
    exact congrArg Host.Outcome.next (writeReg_scratch .spi v hrec)
  case spiRead =>
    intro hrec
    have hread : readRegs s .spi 0x20 1 = ([s.fw.scratch], s) := by
      rw [readRegs, readReg_scratch .spi hrec]
      rfl
    rw [exec, execSpiReadTransaction, hread]
    rfl
  case pair =>
    intro hrec
    refine ⟨_, pairSnapshotRead_now p hrec, ?_, fun now => readReg_nowHigh p hrec (rest := (s.path p).snaps.filter fun x => x.1 != .tbNow) ?_⟩
    · rw [returned, updPath_path_self]
      rfl
    · change ((returned (updPath s p _) p _).path p).snaps = _
      rw [returned, updPath_path_self, updPath_path_self]
  case window =>
    intro d y hy ha r va found read ones
    refine ⟨fun pa hasid hfound => ⟨?_, ?_⟩, fun ecc h => ?_⟩
    · have hrun : read .clean = _ := window_reads s _ .clean
      rw [barRead_found ha (barPa_found hy hasid hfound), barRing_offset hy, barVa_offset hy] at hrun
      exact hrun
    · have hrun : read .uncorrectable = _ := window_reads s _ .uncorrectable
      rw [barRead_uncorrectable ha (barPa_found hy hasid hfound), barRing_offset hy, barVa_offset hy] at hrun
      exact hrun
    · have hrun : read ecc = _ := window_reads s _ ecc
      rw [barRead_faults ha (barPa_none hy h)] at hrun
      exact hrun
  case writes =>
    simp only [List.forall_mem_cons, List.not_mem_nil, false_implies, implies_true, and_true]
    have closed (t : State) : (Host.Outcome.next (accessed s t) : Host.Outcome State Fault Refusal) = .next s :=
      congrArg Host.Outcome.next (accessed_recovery hrec t)
    repeat' apply And.intro
    all_goals exact closed _
  case reads =>
    simp only [List.forall_mem_cons, List.not_mem_nil, false_implies, implies_true, and_true]
    have closed (t : State) : (Host.Outcome.next (accessedRead s p t) : Host.Outcome State Fault Refusal) = .next (returned s p [0]) :=
      congrArg Host.Outcome.next (accessedRead_recovery hrec p t)
    repeat' apply And.intro
    all_goals exact closed _
  case register =>
    intro a h0 hb
    have hreach := reachable_recovery hrec h0 hb
    have hwrite (q : Path) : writeReg s q a v = s := by rw [writeReg, hreach]; rfl
    have hread (q : Path) : readReg s q a = (0, s) := by rw [readReg, hreach]; rfl
    refine ⟨by rw [registerWrite_whole, hwrite], hread p, fun h4 hhi => ⟨?_, ?_⟩⟩
    · rw [exec, execSpiReadTransaction, if_pos (by simp [h4, hhi]), readRegs, hread]
      rfl
    · rw [exec, execSpiWriteTransaction, if_pos (by simp [h4, hhi]), writeRegs, hwrite]
      rfl

end Sys2Proof.Machine
end

section
/-!
PROOFS. O37, O38: nonces, attestation and the operations of the owner (R347 to R352, Tables 10.10 to 10.12).
-/
namespace Sys2Proof.Machine

/-! ### Nonces, tokens and signatures -/

section
variable {s : State} {p : Path}

/-- The state once the nonce of a path is consumed. -/
def nonceConsumed (s : State) (p : Path) : State := { s with pf := { s.pf with nonces := s.pf.nonces.filter fun k => k.1 != p } }

theorem consumeNonce_held {n : Digest} (h : nonceOf s.pf p = some n) : consumeNonce s p n = nonceConsumed s p := by
  rw [consumeNonce, h]
  exact if_pos (beq_self_eq_true _)

theorem attestRecord_reserved {k : Nat} (nonce : Digest) (fails : Nat) (hk : s.pf.sigNext = k) (hb : k < s.pf.bound) (hn : k + 17 < 2 ^ 40) :
    attestRecord s nonce fails = some (attestBody s nonce k ++ deviceSignature k (attestBody s nonce k), { s with pf := { s.pf with sigNext := k + 1 } }) := by
  subst hk
  rw [attestRecord, takeIndex_reserved fails (by omega) hb]
  refine congrArg (fun t => some (_, t)) (checkKeyEnd_far ?_)
  dsimp only
  omega

theorem attestOp_signs {nonce : Digest} (fails : Nat) (hn : nonceOf s.pf p = some nonce) (he : s.pf.keyend = false) (hb : s.pf.sigNext < s.pf.bound)
    (hk : s.pf.sigNext + 17 < 2 ^ 40) :
    let c := nonceConsumed s p
    attestOp s p nonce fails = (some (0, attestBody c nonce s.pf.sigNext ++ deviceSignature s.pf.sigNext (attestBody c nonce s.pf.sigNext)),
      { c with pf := { c.pf with sigNext := s.pf.sigNext + 1 } }) := by
  have he' : (nonceConsumed s p).pf.keyend = false := he
  rw [attestOp, hn, if_neg (by simp), consumeNonce_held hn]
  dsimp only
  rw [if_neg (ne_true_of_eq_false he'), attestRecord_reserved (s := nonceConsumed s p) (k := s.pf.sigNext) nonce fails rfl hb hk]
  rfl

section
variable {t : Token} {op : Nat} {key arg : List Byte}

theorem tokenSigned_presented (hk : t.signer = keyDigest key) (ha : t.argDigest = Config.shake256 ([0x51] ++ arg)) :
    tokenSigned t key arg = if verify ownerSets key (tokenBytes t) t.signature then stOk else stBadSig := by
  rw [tokenSigned, hk, ha]
  cases verify ownerSets key (tokenBytes t) t.signature <;> simp

theorem useToken_presented {newKey : Option (List Byte)} (h : Presents s p t op key arg) (hown : (newKey = none ∧ s.pf.owner = some key) ∨ (newKey = some key ∧ s.pf.owner = none)) :
    useToken s p t op newKey arg = (if verify ownerSets key (tokenBytes t) t.signature then stOk else stBadSig, nonceConsumed s p) := by
  obtain ⟨hform, hnonce, hop, hsigner, harg⟩ := h
  have hstatus : tokenStatus s p t op newKey arg = tokenSigned t key arg := by
    rcases hown with ⟨hkey, howner⟩ | ⟨hkey, howner⟩ <;> simp [tokenStatus, hform, hnonce, hop, hkey, howner]
  rw [useToken, hstatus, tokenSigned_presented hsigner harg, consumeNonce_held hnonce]

/-- An operation with a token of the owner's takes effect where the signature verifies. -/
theorem authorise_presented (f : State → Nat × State) (h : Presents s p t op key arg) (hown : s.pf.owner = some key) :
    authorise s p t op arg f = if verify ownerSets key (tokenBytes t) t.signature
      then (some (0, leBytes 4 (f (nonceConsumed s p)).1), (f (nonceConsumed s p)).2) else (some (0x16, []), nonceConsumed s p) := by
  rw [authorise, useToken_presented h (.inl ⟨rfl, hown⟩)]
  cases verify ownerSets key (tokenBytes t) t.signature
  · rfl
  · rfl

theorem enrollOp_presented (fails : Nat) (h : Presents s p t 0x0001 key key) (hown : s.pf.owner = none) (he : s.pf.keyend = false)
    (hb : s.pf.sigNext < s.pf.bound) (hk : s.pf.sigNext + 17 < 2 ^ 40) :
    let c : State := updPf (nonceConsumed s p) fun f => { f with owner := some key }
    enrollOp s p key t fails = if verify ownerSets key (tokenBytes t) t.signature
      then (some (0, attestBody c t.nonce s.pf.sigNext ++ deviceSignature s.pf.sigNext (attestBody c t.nonce s.pf.sigNext)),
        { c with pf := { c.pf with sigNext := s.pf.sigNext + 1 } })
      else (some (0x16, []), nonceConsumed s p) := by
  have he' : (nonceConsumed s p).pf.keyend = false := he
  rw [enrollOp, useToken_presented (op := opEnrol) h (.inr ⟨rfl, hown⟩)]
  cases verify ownerSets key (tokenBytes t) t.signature
  · rfl
  · dsimp only
    rw [if_neg (by simp), he', attestRecord_reserved (s := updPf (nonceConsumed s p) fun f => { f with owner := some key }) (k := s.pf.sigNext) t.nonce fails rfl hb hk]
    rfl

theorem transferOp_presented {e : Token} {newKey : List Byte} (h : Presents s p t 0x0002 key newKey) (hown : s.pf.owner = some key)
    (hnew : Presents s p e 0x0001 newKey newKey) :
    transferOp s p t newKey e = if verify ownerSets key (tokenBytes t) t.signature && verify ownerSets newKey (tokenBytes e) e.signature
      then (some (0, leBytes 4 0), updPf (nonceConsumed s p) fun f => { f with owner := some newKey }) else (some (0x16, []), nonceConsumed s p) := by
  obtain ⟨hform, hnonce, hop, hsigner, harg⟩ := hnew
  have hsame : e.nonce = t.nonce := Option.some.inj (hnonce.symm.trans h.2.1)
  have henrol : enrolStatus t e newKey = if verify ownerSets newKey (tokenBytes e) e.signature then stOk else stBadSig := by
    rw [enrolStatus, hform, hsame, hop, tokenSigned_presented hsigner harg]
    simp [opEnrol]
  rw [transferOp, useToken_presented (op := opTransfer) h (.inl ⟨rfl, hown⟩), henrol]
  cases verify ownerSets key (tokenBytes t) t.signature
  · rfl
  · cases verify ownerSets newKey (tokenBytes e) e.signature
    · rfl
    · rfl

end

end

theorem presents_takeMessage {s : State} {h : Hdr} {p : Path} {t : Token} {op : Nat} {key arg : List Byte} :
    Presents (takeMessage s h) p t op key arg ↔ Presents s p t op key arg := by
  rw [Presents, takeMessage_pf]

theorem nonceConsumed_takeMessage (s : State) (h : Hdr) :
    nonceConsumed (takeMessage s h) h.path = { takeMessage s h with pf := { s.pf with nonces := s.pf.nonces.filter fun k => k.1 != h.path } } := by
  rw [nonceConsumed, takeMessage_pf]

theorem issueNonce_takeMessage (s : State) (h : Hdr) :
    issueNonce (takeMessage s h) h.path = (Config.entropy s.pf.draws, { takeMessage s h with pf := { s.pf with
      draws := s.pf.draws + 1, nonces := (s.pf.nonces.filter fun k => k.1 != h.path) ++ [(h.path, Config.entropy s.pf.draws, s.tb.now)] } }) := by
  rw [issueNonce, drawEntropy, takeMessage_pf]
  exact congrArg (fun b : Nat => (Config.entropy s.pf.draws, ({ takeMessage s h with pf := { s.pf with
      draws := s.pf.draws + 1, nonces := (s.pf.nonces.filter fun k => k.1 != h.path) ++ [(h.path, Config.entropy s.pf.draws, b)] } } : State)))
    (congrArg Timebase.now (takeMessage_tb s h))

/-- Settles O37: each command is accepted, and what its operation answers is sent. -/
theorem noncesAndAttestation : Obligations.NoncesAndAttestation := by
  unfold Obligations.NoncesAndAttestation
  intro s h nonce key t fails u rest taken signable record
  refine ⟨fun ha => ?challenge, fun ha => ?identity, fun ha hs hn => ?attest, fun args hargs ha hs hown hp => ?enroll⟩
  case challenge =>
    refine congrArg Host.Outcome.next (hostCommand_answers ha 0x30 true ?_)
    dsimp only
    rw [issueNonce_takeMessage]
    rfl
  case identity => exact congrArg Host.Outcome.next (hostCommand_answers ha 0x31 true rfl)
  case attest =>
    obtain ⟨hready, he, hb, hk⟩ := hs
    change Host.Outcome.next (if s.pf.ready then _ else s) = _
    rw [if_pos hready]
    refine congrArg Host.Outcome.next (hostCommand_answers ha 0x32 false ?_)
    dsimp only
    rw [attestOp_signs fails (by rw [takeMessage_pf]; exact hn) (by rw [takeMessage_pf]; exact he) (by rw [takeMessage_pf]; exact hb)
      (by rw [takeMessage_pf]; exact hk), nonceConsumed_takeMessage, takeMessage_pf]
  case enroll =>
    obtain ⟨hready, he, hb, hk⟩ := hs
    intro owned
    subst hargs
    change Host.Outcome.next (if s.pf.ready then _ else s) = _
    rw [if_pos hready]
    have hop := enrollOp_presented (s := takeMessage s h) fails (presents_takeMessage.2 hp) (by rw [takeMessage_pf]; exact hown)
      (by rw [takeMessage_pf]; exact he) (by rw [takeMessage_pf]; exact hb) (by rw [takeMessage_pf]; exact hk)
    rw [nonceConsumed_takeMessage, takeMessage_pf] at hop
    by_cases hv : verify ownerSets key (tokenBytes t) t.signature = true
    · rw [if_pos hv]
      exact congrArg Host.Outcome.next (hostCommand_answers ha 0x33 false (hop.trans (if_pos hv)))
    · rw [if_neg hv]
      exact congrArg Host.Outcome.next (hostCommand_answers ha 0x33 false (hop.trans (if_neg hv)))

section
variable {s : State} {h : Hdr} {t : Token} {key arg : List Byte}

/-- A command of the owner's answers the outcome of its operation, or BADSIG. -/
theorem hostCommand_authorise {op : Nat} (f : State → Nat × State) (ha : Accepted s h (authoriseArgs t arg)) (hown : s.pf.owner = some key)
    (hp : Presents s h.path t op key arg) {o : Nat} {v : State}
    (hf : f { takeMessage s h with pf := { s.pf with nonces := s.pf.nonces.filter fun k => k.1 != h.path } } = (o, v)) :
    hostCommand s h 0x34 (authoriseArgs t arg) false (fun s => authorise s h.path t op arg f) =
      if verify ownerSets key (tokenBytes t) t.signature then answered v s h 0x34 0 (leBytes 4 o)
      else answered { takeMessage s h with pf := { s.pf with nonces := s.pf.nonces.filter fun k => k.1 != h.path } } s h 0x34 0x16 [] := by
  have hop := authorise_presented (s := takeMessage s h) f (presents_takeMessage.2 hp) (by rw [takeMessage_pf]; exact hown)
  rw [nonceConsumed_takeMessage, hf] at hop
  by_cases hv : verify ownerSets key (tokenBytes t) t.signature = true
  · rw [if_pos hv] at hop ⊢
    exact hostCommand_answers ha 0x34 false hop
  · rw [if_neg hv] at hop ⊢
    exact hostCommand_answers ha 0x34 false hop

end

theorem boundsOp_inside {param : BitVec 64} (c : State) (h1 : 700 ≤ param.toNat % 65536) (h2 : param.toNat % 65536 ≤ param.toNat / 65536 % 65536)
    (h3 : param.toNat / 65536 % 65536 ≤ 950) :
    boundsOp c param.toNat = (0, setBounds c (param.toNat % 65536) (param.toNat / 65536 % 65536)) := by
  rw [boundsOp]
  exact if_pos (by simp [h1, h2, h3])

theorem boundsOp_outside {param : BitVec 64} (c : State) (h : param.toNat % 65536 < 700 ∨ param.toNat / 65536 % 65536 < param.toNat % 65536
    ∨ 950 < param.toNat / 65536 % 65536) : boundsOp c param.toNat = (5, c) := by
  rw [boundsOp]
  refine if_neg ?_
  simp
  omega

theorem debugOp_noPins {param : BitVec 64} (c : State) (h : param.getLsbD 2 = false) :
    debugOp c param.toNat = (0, { c with pf := { c.pf with debug := true, scopes := c.pf.scopes ||| param.extractLsb' 0 3 } }) := by
  have hbit : param.toNat.testBit 2 = false := h
  have hscope : BitVec.ofNat 3 param.toNat = param.extractLsb' 0 3 := by
    apply BitVec.eq_of_toNat_eq
    simp
  rw [debugOp, hbit, hscope]
  rfl

/-- Settles O38: each operation of the owner's through the token it presents. -/
theorem ownerOperations : Obligations.OwnerOperations := by
  unfold Obligations.OwnerOperations
  refine ⟨fun s h t key arg hown ha => ?_, fun s h t e key newKey hown ha hp he => ?_⟩
  · intro c done
    refine ⟨fun hp => ?release, fun hp fails o v hf => ?calWrite, fun hp => ?life, fun hp => ⟨fun h1 h2 h3 => ?inside, fun hout => ?outside⟩, fun hp h2 => ?debug⟩
    case release => exact congrArg Host.Outcome.next (hostCommand_authorise (fun s => (0, releaseOwner s)) ha hown hp rfl)
    case calWrite => exact congrArg Host.Outcome.next (hostCommand_authorise (fun s => calWriteOp s (tokenChans t) arg fails) ha hown hp hf)
    case life => exact congrArg Host.Outcome.next (hostCommand_authorise (fun s => (0, overrideLife s arg t.param0.toNat)) ha hown hp rfl)
    case inside => exact congrArg Host.Outcome.next (hostCommand_authorise (fun s => boundsOp s t.param0.toNat) ha hown hp (boundsOp_inside (param := t.param0) c h1 h2 h3))
    case outside => exact congrArg Host.Outcome.next (hostCommand_authorise (fun s => boundsOp s t.param0.toNat) ha hown hp (boundsOp_outside (param := t.param0) c hout))
    case debug => exact congrArg Host.Outcome.next (hostCommand_authorise (fun s => debugOp s t.param0.toNat) ha hown hp (debugOp_noPins (param := t.param0) c h2))
  · intro c
    have hop := transferOp_presented (s := takeMessage s h) (presents_takeMessage.2 hp) (by rw [takeMessage_pf]; exact hown) (presents_takeMessage.2 he)
    rw [nonceConsumed_takeMessage] at hop
    cases hv : verify ownerSets key (tokenBytes t) t.signature && verify ownerSets newKey (tokenBytes e) e.signature
    · rw [hv, if_neg Bool.false_ne_true] at hop
      exact congrArg Host.Outcome.next (hostCommand_answers ha 0x34 false hop)
    · rw [hv, if_pos rfl] at hop
      exact congrArg Host.Outcome.next (hostCommand_answers ha 0x34 false hop)

end Sys2Proof.Machine
end

section
/-!
PROOFS. What a safe-state trigger does to the channel that it names, and what it leaves alone (R83 to R86, R373, R405, Table 2.13).
-/
namespace Sys2Proof.Machine

/-! ### What a channel keeps beside its force path's latch -/

/-- A force path with the intent in force and with what requests for INERT and reliefs keep taken from another. -/
def withRequests (d f : Force) : Force :=
  { f with applied := d.applied, deferred := d.deferred, relieved := d.relieved, inertReq := d.inertReq, parkCtx := d.parkCtx }

/-- What changes a force path whatever its intent in force and its requests are. -/
def Apart (g : Force → Force) : Prop := ∀ d f, g (withRequests d f) = withRequests d (g f)

theorem apart_id : Apart id := fun _ _ => rfl

/-- The force path of a channel that has become d: what `g` makes of it, but for the intent in force and the requests. -/
structure SafeChan (g : Force → Force) (d c : Channel) : Prop where
  meas : d.meas = { c.meas with dated := d.meas.dated }
  pwr : d.pwr = c.pwr
  force : d.force = withRequests d.force (g c.force)
  inert : ∀ x : Ctx, c.graver.ctx[x].intent.mode = .inert → d.graver.ctx[x].intent.mode = .inert

theorem SafeChan.refl (c : Channel) : SafeChan id c c := ⟨rfl, rfl, rfl, fun _ h => h⟩

theorem SafeChan.trans {g k : Force → Force} {e d c : Channel} (hk : Apart k) (h : SafeChan k e d) (h' : SafeChan g d c) :
    SafeChan (fun f => k (g f)) e c where
  meas := by rw [h.meas, h'.meas]
  pwr := h.pwr.trans h'.pwr
  force :=
    have hd : k d.force = withRequests d.force (k (g c.force)) := (congrArg k h'.force).trans (hk ..)
    h.force.trans (congrArg (withRequests e.force) hd : withRequests e.force (k d.force) = withRequests e.force (withRequests d.force (k (g c.force))))
  inert x hx := h.inert x (h'.inert x hx)

/-- Two states that differ in what a safe-state trigger reaches; `g` says what it does to the force path of each channel. -/
structure SafeRun (g : Chan → Force → Force) (t s : State) : Prop where
  rest : t = { s with
    chans := t.chans, banks := t.banks, reliefs := t.reliefs, tr := t.tr, hht := t.hht
    mm := { s.mm with demand := t.mm.demand, waits := t.mm.waits }, pf := { s.pf with ended := t.pf.ended } }
  bank : ∀ b : Bank, t.banks[b] = { s.banks[b] with queue := t.banks[b].queue }
  chan : ∀ m : Chan, SafeChan (g m) t.chans[m] s.chans[m]

/-- Two states that differ in what a safe-state trigger reaches outside the force path that it acts on. -/
abbrev SafeStep (t s : State) : Prop := SafeRun (fun _ => id) t s

theorem SafeStep.refl (s : State) : SafeStep s s := ⟨rfl, fun _ => rfl, fun _ => .refl _⟩

theorem SafeRun.trans {g k : Chan → Force → Force} {u t s : State} (hk : ∀ m, Apart (k m)) (h : SafeRun k u t) (h' : SafeRun g t s) :
    SafeRun (fun m f => k m (g m f)) u s where
  rest := by rw [h.rest, h'.rest]
  bank b := by rw [h.bank b, h'.bank b]
  chan m := (h.chan m).trans (hk m) (h'.chan m)

theorem SafeStep.then {g : Chan → Force → Force} {u t s : State} (h : SafeStep u t) (h' : SafeRun g t s) : SafeRun g u s :=
  SafeRun.trans (k := fun _ => id) (fun _ => apart_id) h h'

theorem SafeStep.ite {c : Prop} [Decidable c] {t u s : State} (ht : SafeStep t s) (hu : SafeStep u s) : SafeStep (if c then t else u) s := by
  split
  · exact ht
  · exact hu

section
variable {g : Chan → Force → Force} {t s : State} (h : SafeRun g t s)
include h
theorem SafeRun.pending : t.pending = s.pending := by rw [h.rest]
theorem SafeRun.tb : t.tb = s.tb := by rw [h.rest]
theorem SafeRun.mem : t.mm.mem = s.mm.mem := by rw [h.rest]
theorem SafeRun.queues : t.queues = s.queues := by rw [h.rest]
theorem SafeRun.rings : t.rings = s.rings := by rw [h.rest]
theorem SafeRun.ht : t.ht = s.ht := by rw [h.rest]
theorem SafeRun.pl : t.pl = s.pl := by rw [h.rest]
theorem SafeRun.pwr : t.pwr = s.pwr := by rw [h.rest]
theorem SafeRun.fw : t.fw = s.fw := by rw [h.rest]
theorem SafeRun.debug : t.pf.debug = s.pf.debug := by rw [h.rest]
end

/-! ### The steps of a trigger -/

theorem updChan_get (s : State) (n m : Chan) (f : Channel → Channel) : (updChan s n f).chans[m] = if m = n then f s.chans[n] else s.chans[m] := by
  by_cases h : m = n
  · rw [h, if_pos rfl]
    exact updChan_chans_self s n f
  · rw [if_neg h]
    exact updChan_chans_ne s n m f (fun k => h k.symm)

/-- The force path of one channel only. -/
def onlyAt (n : Chan) (g : Force → Force) (m : Chan) : Force → Force := if m = n then g else id

theorem onlyAt_self (n : Chan) (g : Force → Force) : onlyAt n g n = g := if_pos rfl

theorem onlyAt_ne {n m : Chan} (g : Force → Force) (h : m ≠ n) : onlyAt n g m = id := if_neg h

theorem onlyAt_id (n : Chan) : onlyAt n id = fun _ => id := funext fun _ => ite_self id

theorem apart_onlyAt {n : Chan} {g : Force → Force} (h : Apart g) (m : Chan) : Apart (onlyAt n g m) := by
  unfold onlyAt
  split
  · exact h
  · exact apart_id

theorem updChan_run {s : State} {n : Chan} {f : Channel → Channel} {g : Force → Force} (h : SafeChan g (f s.chans[n]) s.chans[n]) :
    SafeRun (onlyAt n g) (updChan s n f) s where
  rest := rfl
  bank _ := rfl
  chan m := by
    by_cases hm : m = n
    · rw [updChan_get, if_pos hm, hm, onlyAt_self]
      exact h
    · rw [updChan_get, if_neg hm, onlyAt_ne g hm]
      exact .refl _

theorem updChan_safe {s : State} {n : Chan} {f : Channel → Channel} (h : SafeChan id (f s.chans[n]) s.chans[n]) : SafeStep (updChan s n f) s := by
  have hrun := updChan_run h
  rw [onlyAt_id] at hrun
  exact hrun

theorem updForce_run (s : State) (n : Chan) (g : Force → Force) : SafeRun (onlyAt n g) (updForce s n g) s := updChan_run ⟨rfl, rfl, rfl, fun _ h => h⟩

theorem SameButReport.safe {t s : State} (h : SameButReport t s) : SafeStep t s := by
  unfold SameButReport at h
  rw [h]
  exact ⟨rfl, fun _ => rfl, fun _ => .refl _⟩

theorem cpsSend_safe (s : State) (b : Bank) (slot op arg : Nat) : SafeStep (cpsSend s b slot op arg) s where
  rest := rfl
  bank c := by
    by_cases h : b.val = c.val
    · simp [cpsSend, updBank, h]
    · simp [cpsSend, updBank, h]
  chan _ := .refl _

theorem updGraver_safe {s : State} {n : Chan} {f : Graver → Graver}
    (h : ∀ (g : Graver) (x : Ctx), g.ctx[x].intent.mode = .inert → (f g).ctx[x].intent.mode = .inert) : SafeStep (updGraver s n f) s :=
  updChan_safe ⟨rfl, rfl, rfl, fun x => h _ x⟩

theorem updCtx_safe {s : State} {n : Chan} {x : Ctx} {f : Context → Context} (h : ∀ k, (f k).intent = k.intent) : SafeStep (updCtx s n x f) s :=
  updGraver_safe fun g y hy => by
    by_cases e : x = y
    · subst e
      simpa [h] using hy
    · have : x.val ≠ y.val := fun k => e (Fin.ext k)
      simpa [Vector.getElem_set, this] using hy

theorem dateWord_safe (s : State) (n : Chan) (tick order : Nat) (w : Word) : SafeStep (dateWord s n tick order w) s := by
  rw [dateWord]
  refine .ite (.refl s) ?_
  rw [holdWord]
  exact .ite (updChan_safe ⟨rfl, rfl, rfl, fun _ h => h⟩) (.refl s)

theorem abortRun_safe (s : State) (n : Chan) (code : Nat) : SafeStep (abortRun s n code) s := by
  have hrun : SafeStep (updChan s n fun c => if runActive c.cal (reliefForRun s n) then { c with cal := endRun c.force.relieved code c.cal } else c) s := by
    refine updChan_safe ?_
    split
    · exact ⟨rfl, rfl, rfl, fun _ h => h⟩
    · exact .refl _
  rw [abortRun]
  split
  · exact SafeStep.then ⟨rfl, fun _ => rfl, fun _ => .refl _⟩ hrun
  · exact hrun

theorem noteCflag_safe (s : State) (n : Chan) (i tick : Nat) : SafeStep (noteCflag s n i tick) s := by
  rw [noteCflag]
  split
  · exact ⟨rfl, fun _ => rfl, fun _ => .refl _⟩
  · exact updChan_safe ⟨rfl, rfl, rfl, fun _ h => h⟩

theorem haltCtx_safe (s : State) (n : Chan) (x : Ctx) : SafeStep (haltCtx s n x) s := by
  rw [haltCtx]
  refine SafeStep.then (updGraver_safe fun _ _ h => h) (SafeStep.then (updCtx_safe fun _ => rfl) ?_)
  exact ⟨rfl, fun _ => rfl, fun _ => .refl _⟩

/-- What a request or a relief keeps of the force path of a channel changes. -/
theorem updForce_requests {s : State} {n : Chan} {f : Force → Force} (h : ∀ g : Force, f g = withRequests (f g) g) : SafeStep (updForce s n f) s :=
  updChan_safe ⟨rfl, rfl, h _, fun _ h => h⟩

theorem dropRelief_safe (s : State) (b : Bank) : SafeStep (dropRelief s b) s := by
  rw [dropRelief]
  split
  · exact .refl s
  · refine SafeStep.then (t := haltCtx (haltCtx _ _ 3) _ 3) ⟨rfl, fun _ => rfl, fun _ => .refl _⟩ ?_
    refine SafeStep.then (haltCtx_safe ..) (SafeStep.then (haltCtx_safe ..) (SafeStep.then (updChan_safe ⟨rfl, rfl, rfl, fun _ h => h⟩) ?_))
    refine SafeStep.then (updForce_requests fun _ => rfl) (SafeStep.then (updForce_requests fun _ => rfl) ?_)
    exact SafeStep.then (cpsSend_safe ..) (cpsSend_safe ..)

theorem inertIntents_safe (s : State) (n : Chan) : SafeStep (inertIntents s n) s := by
  rw [inertIntents]
  refine SafeStep.then (updForce_requests fun _ => rfl) (updGraver_safe fun g x _ => ?_)
  simp [Intent.withMode]

theorem requestInert_safe (s : State) (n : Chan) (who : Option Ctx) : SafeStep (requestInert s n who) s :=
  updForce_requests fun _ => rfl

theorem holdOne_safe (s : State) (n : Chan) : SafeStep (holdOne s n) s := by
  rw [holdOne, holdChannel]
  exact SafeStep.then (requestInert_safe ..) (SafeStep.then (inertIntents_safe ..) (SafeStep.ite (abortRun_safe ..) (.refl s)))

/-! ### The trigger -/

/-- The outputs as a safe state that opens at once leaves them. -/
def outputsOff (f : Force) : Force :=
  { oenLow f with cpsen := false, bridge := none, waitingAuto := none, switching := false, endedEarly := f.endedEarly || f.bridge.isSome }

theorem apart_outputsOff : Apart outputsOff := fun _ _ => rfl

theorem updForce_updForce (s : State) (n : Chan) (f g : Force → Force) :
    updForce (updForce s n f) n g = updForce s n fun k => g (f k) := by
  simp [updForce, updChan]

/-- What the command ENABLE 0 does to the force path. -/
def outputsDisabled (f : Force) : Force :=
  { f with cpsen := false, bridge := none, waitingAuto := none, switching := false, endedEarly := f.endedEarly || f.bridge.isSome }

/-- Both of what a safe state that opens does to the force path. -/
theorem sendDisable_off (s : State) (n : Chan) :
    sendDisable (updForce s n oenLow) n = updForce (cpsFor s n opEnable 0) n outputsOff := by
  change updForce (updForce (cpsFor s n opEnable 0) n oenLow) n outputsDisabled = _
  rw [updForce_updForce]
  rfl

theorem openNow_run (s : State) (n : Chan) (cause : Nat) : SafeRun (onlyAt n (if opensAtOnce cause then outputsOff else id)) (openNow s n cause) s := by
  rw [openNow]
  split
  · refine ⟨rfl, fun b => (cpsSend_safe (updForce s n oenLow) ..).bank b, fun m => ?_⟩
    have hget : (sendDisable (updForce s n oenLow) n).chans[m] =
        if m = n then { s.chans[n] with force := outputsOff s.chans[n].force } else s.chans[m] := by
      rw [sendDisable_off]
      exact updChan_get ..
    rw [hget]
    by_cases hm : m = n
    · rw [if_pos hm, hm, onlyAt_self]
      exact ⟨rfl, rfl, rfl, fun _ h => h⟩
    · rw [if_neg hm, onlyAt_ne _ hm]
      exact .refl _
  · rw [onlyAt_id]
    exact SafeStep.refl s

/-- The force path of a channel that a trigger latches. -/
def latched (now cause : Nat) (f : Force) : Force :=
  { f with
    fltLatch := true, fcause := cause, fltAt := now, causes := [cause], bridge := none, waitingAuto := none, switching := false
    inertReq := false, parkCtx := none, endedEarly := f.endedEarly || f.bridge.isSome
    seq := .idle, safe := some ⟨cause, safeCode cause f.safety, opensAtOnce cause, decide (cause = 6)⟩ }

/-- What the first trigger does to the force path of its channel. -/
def firstTrigger (now cause : Nat) (f : Force) : Force := (if opensAtOnce cause then outputsOff else id) (latched now cause f)

theorem fenceSafe_intent (k : Context) : (fenceSafe k).intent = k.intent := by
  rw [fenceSafe]
  split
  · rfl
  · rfl

theorem apart_opened (cause : Nat) : Apart (if opensAtOnce cause then outputsOff else id) := by
  split
  · exact apart_outputsOff
  · exact apart_id

theorem safeTrigger_latched {s : State} {n : Chan} (cause : Nat) (h : s.chans[n].force.fltLatch = false) :
    ∃ u, SafeStep (safeTrigger s n cause) (openNow (inertIntents u n) n cause)
      ∧ SafeRun (onlyAt n (latched s.tb.now cause)) u s := by
  refine ⟨updGraver (updForce s n (latched s.tb.now cause)) n fun g => { g with ctx := g.ctx.map fenceSafe }, ?_, ?_⟩
  · rw [safeTrigger, h, if_neg Bool.false_ne_true]
    refine SafeStep.then (raiseAt_same ..).safe (SafeStep.then (dateWord_safe ..) ?_)
    exact SafeStep.then (SafeStep.ite (dropRelief_safe ..) (.refl _)) (SafeStep.then (noteCflag_safe ..) (abortRun_safe ..))
  · refine SafeStep.then (updGraver_safe fun g x hx => ?_) (updForce_run ..)
    simpa [fenceSafe_intent] using hx

theorem onlyAt_comp (n : Chan) (k g : Force → Force) : (fun m f => onlyAt n k m (onlyAt n g m f)) = onlyAt n (fun f => k (g f)) := by
  funext m f
  unfold onlyAt
  split
  · rfl
  · rfl

theorem safeTrigger_first {s : State} {n : Chan} (cause : Nat) (h : s.chans[n].force.fltLatch = false) :
    SafeRun (onlyAt n (firstTrigger s.tb.now cause)) (safeTrigger s n cause) s := by
  obtain ⟨u, hlast, hu⟩ := safeTrigger_latched cause h
  have hopen := SafeRun.trans (apart_onlyAt (apart_opened cause)) (openNow_run (inertIntents u n) n cause) ((inertIntents_safe u n).then hu)
  rw [onlyAt_comp] at hopen
  exact hlast.then hopen

theorem inertIntents_inert (s : State) (n : Chan) (x : Ctx) : ((inertIntents s n).context n x).intent.mode = .inert := by
  have hget (u : State) (f : Force → Force) : (updForce u n f).chans[n].graver = u.chans[n].graver := by
    rw [updForce, updChan_get, if_pos rfl]
  rw [inertIntents, State.context, hget]
  simp [Intent.withMode]

/-- The first trigger makes every intent of its channel INERT. -/
theorem safeTrigger_inert {s : State} {n : Chan} (cause : Nat) (h : s.chans[n].force.fltLatch = false) (x : Ctx) :
    ((safeTrigger s n cause).context n x).intent.mode = .inert := by
  obtain ⟨u, hlast, -⟩ := safeTrigger_latched cause h
  exact (hlast.chan n).inert x (((openNow_run (inertIntents u n) n cause).chan n).inert x (inertIntents_inert u n x))

/-! ### A trigger on a channel that is latched -/

/-- The force path of a channel that is latched, after a trigger at the tick of its latch. -/
def latchedAgain (cause : Nat) (q : Safe) (f : Force) : Force :=
  { f with
    causes := f.causes ++ [cause], fcause := min f.fcause cause
    safe := some ⟨min f.fcause cause, safeCode (min f.fcause cause) f.safety, q.opened || opensAtOnce cause, q.imm || cause = 6⟩ }

theorem concurrentTrigger_settled {s : State} {n : Chan} (cause : Nat) (h : s.chans[n].force.safe = none) : concurrentTrigger s n cause = s := by
  rw [concurrentTrigger]
  simp only [h]

theorem concurrentTrigger_later {s : State} {n : Chan} {q : Safe} (cause : Nat) (h : s.chans[n].force.safe = some q)
    (hat : s.chans[n].force.fltAt ≠ s.tb.now) : concurrentTrigger s n cause = updForce s n fun f => { f with causes := f.causes ++ [cause] } := by
  rw [concurrentTrigger]
  simp only [h]
  exact if_pos (bne_iff_ne.2 hat)

/-- A trigger at the tick of the latch takes the lower of the two causes. -/
theorem concurrentTrigger_together {s : State} {n : Chan} {q : Safe} (cause : Nat) (h : s.chans[n].force.safe = some q)
    (hat : s.chans[n].force.fltAt = s.tb.now) :
    ∃ u, SafeRun (onlyAt n (latchedAgain cause q)) u s ∧ u.mm = s.mm ∧ concurrentTrigger s n cause = if q.opened then u else openNow u n cause := by
  refine ⟨updMeas (updForce s n (latchedAgain cause q)) n fun m =>
    { m with dated := m.dated.map (recause s.tb.now s.chans[n].force.fcause (min s.chans[n].force.fcause cause)) }, ?_, rfl, ?_⟩
  · exact SafeStep.then (updChan_safe ⟨rfl, rfl, rfl, fun _ h => h⟩) (updForce_run ..)
  · rw [concurrentTrigger]
    simp only [h]
    rw [if_neg (by rw [updForce_tb, hat]; simp), updForce_updForce]
    have hboth : updForce s n (fun k => { k with
          causes := k.causes ++ [cause], fcause := min s.chans[n].force.fcause cause
          safe := some ⟨min s.chans[n].force.fcause cause, safeCode (min s.chans[n].force.fcause cause) k.safety, q.opened || opensAtOnce cause,
            q.imm || decide (cause = 6)⟩ }) = updForce s n (latchedAgain cause q) := updForce_congr rfl
    rw [hboth, updForce_tb]

/-- What any trigger does to the latch of its channel. -/
structure LatchStep (cause : Nat) (g f : Force) : Prop where
  held : f.fltLatch = true → g.fltLatch = true ∧ (f.fcause ≤ cause → g.fcause = f.fcause)
  first : f.fltLatch = false → g.fltLatch = false ∨ (g.fltLatch = true ∧ g.fcause = cause)

theorem LatchStep.refl (cause : Nat) (f : Force) : LatchStep cause f f := ⟨fun h => ⟨h, fun _ => rfl⟩, .inl⟩

theorem LatchStep.of_eq {cause : Nat} {g f : Force} (hl : g.fltLatch = f.fltLatch) (hc : g.fcause = f.fcause) : LatchStep cause g f :=
  ⟨fun h => ⟨hl.trans h, fun _ => hc⟩, fun h => .inl (hl.trans h)⟩

theorem LatchStep.trans {cause : Nat} {h g f : Force} (k : LatchStep cause h g) (l : LatchStep cause g f) : LatchStep cause h f where
  held hf := by
    obtain ⟨hg, hc⟩ := l.held hf
    obtain ⟨hh, hc'⟩ := k.held hg
    exact ⟨hh, fun hle => by rw [hc' (by rw [hc hle]; exact hle), hc hle]⟩
  first hf := by
    rcases l.first hf with hg | ⟨hg, hc⟩
    · exact k.first hg
    · obtain ⟨hh, hc'⟩ := k.held hg
      exact .inr ⟨hh, by rw [hc' (Nat.le_of_eq hc), hc]⟩

/-- Two states between which triggers of one cause came. -/
structure Latches (cause : Nat) (t s : State) : Prop where
  rest : t = { s with
    chans := t.chans, banks := t.banks, reliefs := t.reliefs, tr := t.tr, hht := t.hht
    mm := { s.mm with demand := t.mm.demand, waits := t.mm.waits }, pf := { s.pf with ended := t.pf.ended } }
  bank : ∀ b : Bank, t.banks[b] = { s.banks[b] with queue := t.banks[b].queue }
  convs : ∀ m : Chan, t.chans[m].meas.convs = s.chans[m].meas.convs
  power : ∀ m : Chan, t.chans[m].pwr = s.chans[m].pwr
  latch : ∀ m : Chan, LatchStep cause t.chans[m].force s.chans[m].force

theorem Latches.refl (cause : Nat) (s : State) : Latches cause s s := ⟨rfl, fun _ => rfl, fun _ => rfl, fun _ => rfl, fun _ => .refl ..⟩

theorem Latches.trans {cause : Nat} {u t s : State} (h : Latches cause u t) (k : Latches cause t s) : Latches cause u s where
  rest := by rw [h.rest, k.rest]
  bank b := by rw [h.bank b, k.bank b]
  convs m := (h.convs m).trans (k.convs m)
  power m := (h.power m).trans (k.power m)
  latch m := (h.latch m).trans (k.latch m)

section
variable {cause : Nat} {t s : State} (h : Latches cause t s)
include h
theorem Latches.pending : t.pending = s.pending := by rw [h.rest]
theorem Latches.tb : t.tb = s.tb := by rw [h.rest]
theorem Latches.mem : t.mm.mem = s.mm.mem := by rw [h.rest]
theorem Latches.queues : t.queues = s.queues := by rw [h.rest]
theorem Latches.ht : t.ht = s.ht := by rw [h.rest]
theorem Latches.pl : t.pl = s.pl := by rw [h.rest]
theorem Latches.pwr : t.pwr = s.pwr := by rw [h.rest]
theorem Latches.fw : t.fw = s.fw := by rw [h.rest]
theorem Latches.debug : t.pf.debug = s.pf.debug := by rw [h.rest]
end

theorem SafeChan.latch {cause : Nat} {g : Force → Force} {d c : Channel} (h : SafeChan g d c) : LatchStep cause d.force (g c.force) := by
  rw [h.force]
  exact .of_eq rfl rfl

theorem SafeRun.latches {n : Chan} {g : Force → Force} {cause : Nat} {t s : State} (h : SafeRun (onlyAt n g) t s)
    (hg : LatchStep cause (g s.chans[n].force) s.chans[n].force) : Latches cause t s where
  rest := h.rest
  bank := h.bank
  convs m := by rw [(h.chan m).meas]
  power m := (h.chan m).pwr
  latch m := by
    have hreq : LatchStep cause t.chans[m].force (onlyAt n g m s.chans[m].force) :=
      (h.chan m).latch
    refine hreq.trans ?_
    by_cases hm : m = n
    · rw [hm, onlyAt_self]
      exact hg
    · rw [onlyAt_ne g hm]
      exact .refl ..

theorem SafeRun.steps {cause : Nat} {t s : State} (h : SafeStep t s) : Latches cause t s where
  rest := h.rest
  bank := h.bank
  convs m := by rw [(h.chan m).meas]
  power m := (h.chan m).pwr
  latch m := (h.chan m).latch

theorem firstTrigger_latch (now cause : Nat) (f : Force) : (firstTrigger now cause f).fltLatch = true ∧ (firstTrigger now cause f).fcause = cause := by
  rw [firstTrigger]
  split
  · exact ⟨rfl, rfl⟩
  · exact ⟨rfl, rfl⟩

theorem openNow_latches (s : State) (n : Chan) (cause : Nat) : Latches cause (openNow s n cause) s := by
  refine (openNow_run s n cause).latches ?_
  split
  · exact .of_eq rfl rfl
  · exact .refl ..

theorem concurrentTrigger_latches {s : State} {n : Chan} (cause : Nat) (h : s.chans[n].force.fltLatch = true) :
    Latches cause (concurrentTrigger s n cause) s := by
  rcases hq : s.chans[n].force.safe with _ | q
  · rw [concurrentTrigger_settled cause hq]
    exact .refl ..
  by_cases hat : s.chans[n].force.fltAt = s.tb.now
  · obtain ⟨u, hu, -, heq⟩ := concurrentTrigger_together cause hq hat
    have hlatch : Latches cause u s := hu.latches ⟨fun hl => ⟨hl, fun hle => Nat.min_eq_left hle⟩, fun hl => absurd h (by rw [hl]; decide)⟩
    rw [heq]
    split
    · exact hlatch
    · exact (openNow_latches ..).trans hlatch
  · rw [concurrentTrigger_later cause hq hat]
    exact (updForce_run ..).latches (.of_eq rfl rfl)

theorem safeTrigger_latches (s : State) (n : Chan) (cause : Nat) : Latches cause (safeTrigger s n cause) s := by
  cases h : s.chans[n].force.fltLatch with
  | true =>
    rw [safeTrigger, h, if_pos rfl]
    exact concurrentTrigger_latches cause h
  | false =>
    refine (safeTrigger_first cause h).latches ⟨fun hl => absurd h (by rw [hl]; decide), fun _ => .inr (firstTrigger_latch ..)⟩

theorem safeTrigger_fltLatch (s : State) (n : Chan) (cause : Nat) : (safeTrigger s n cause).chans[n].force.fltLatch = true := by
  cases h : s.chans[n].force.fltLatch with
  | true => exact (((safeTrigger_latches s n cause).latch n).held h).1
  | false =>
    have hforce := ((safeTrigger_first cause h).chan n).force
    rw [onlyAt_self] at hforce
    rw [hforce]
    exact (firstTrigger_latch ..).1

/-! ### DISABLE -/

/-- What a change of the settings and the closes of a channel leaves alone. -/
theorem updMeas_latches {s : State} {n : Chan} {cause : Nat} {f : Measure → Measure} (h : ∀ m, (f m).convs = m.convs) : Latches cause (updMeas s n f) s where
  rest := rfl
  bank _ := rfl
  convs m := by
    rw [updMeas, updChan_get]
    split
    · next e => rw [e]; exact h _
    · rfl
  power m := by
    rw [updMeas, updChan_get]
    split
    · next e => rw [e]
    · rfl
  latch m := by
    rw [updMeas, updChan_get]
    split
    · next e => rw [e]; exact .of_eq rfl rfl
    · exact .refl ..

theorem haltRequest_safe (s : State) (n : Chan) (x : Ctx) : SafeStep (haltRequest s n x) s := by
  rw [haltRequest]
  split
  · exact .ite (updCtx_safe fun _ => rfl) (haltCtx_safe ..)
  · exact haltCtx_safe ..

theorem haltAll_safe (s : State) (n : Chan) : SafeStep (allCtx.foldl (fun s x => haltRequest s n x) s) s :=
  foldl_related (R := fun s t => SafeStep t s) SafeStep.refl (fun h k => h.then k) (fun s x => haltRequest_safe s n x) allCtx s

theorem askClose_latches (s : State) (n : Chan) (cause tick status : Nat) : Latches cause (askClose s n tick status) s := by
  rw [askClose]
  exact updMeas_latches fun _ => rfl

theorem setMeas_latches (s : State) (n : Chan) (cause : Nat) (f : MeasCfg → MeasCfg) : Latches cause (setMeas s n f) s := by
  rw [setMeas]
  exact updMeas_latches fun _ => rfl

theorem disableChannel_latches (s : State) (n : Chan) : Latches 7 (disableChannel s n) s ∧ (disableChannel s n).chans[n].force.fltLatch = true := by
  have hrest : Latches 7 (disableChannel s n) (safeTrigger s n 7) := by
    rw [disableChannel]
    generalize safeTrigger s n 7 = t
    exact (setMeas_latches ..).trans ((askClose_latches ..).trans (SafeRun.steps (haltAll_safe ..)))
  exact ⟨hrest.trans (safeTrigger_latches ..), ((hrest.latch n).held (safeTrigger_fltLatch ..)).1⟩

/-- Triggers on the channels of a list, one after another. -/
theorem foldl_latches {cause : Nat} {f : State → Chan → State} (hf : ∀ s n, Latches cause (f s n) s ∧ (f s n).chans[n].force.fltLatch = true)
    (l : List Chan) (s : State) : Latches cause (l.foldl f s) s ∧ ∀ n ∈ l, (l.foldl f s).chans[n].force.fltLatch = true := by
  induction l generalizing s with
  | nil => exact ⟨.refl .., fun n hn => absurd hn (by simp)⟩
  | cons m l ih =>
    obtain ⟨hkept, hall⟩ := ih (f s m)
    obtain ⟨hstep, hm⟩ := hf s m
    refine ⟨hkept.trans hstep, fun n hn => ?_⟩
    rcases List.mem_cons.1 hn with rfl | hl
    · exact ((hkept.latch n).held hm).1
    · exact hall n hl

end Sys2Proof.Machine
end

section
/-!
PROOFS. O39: presence of a Plate and contact cycles (R355 to R375, Tables 11.4 and 11.5).
-/
namespace Sys2Proof.Machine

/-! ### What a raised source depends on -/

/-- Two states with the same counter and reports. -/
structure SameReports (u s : State) : Prop where
  tb : u.tb = s.tb
  tr : u.tr = s.tr
  hht : u.hht = s.hht

/-- What a state looks like beside its counter and its reports. -/
theorem SameReports.eq {u s : State} (h : SameReports u s) : u = { u with tb := s.tb, tr := s.tr, hht := s.hht } := by
  obtain ⟨htb, htr, hhht⟩ := h
  rw [← htb, ← htr, ← hhht]

theorem sendVector_reports {u s : State} (h : SameReports u s) (v : Nat) : SameReports (sendVector u v) (sendVector s v) := by
  rw [h.eq]
  generalize u = t
  by_cases hv : s.tr.unacked.contains v = true
  · have hu : sendVector { t with tb := s.tb, tr := s.tr, hht := s.hht } v = { t with tb := s.tb, tr := s.tr, hht := s.hht } := if_pos hv
    rw [hu, sendVector, if_pos hv]
    exact ⟨rfl, rfl, rfl⟩
  · rw [sendVector, sendVector, if_neg hv]
    dsimp only
    rw [if_neg hv]
    exact ⟨rfl, rfl, rfl⟩

theorem SameReports.withTr {u s : State} (h : SameReports u s) (f : State → Tracer) (hf : f u = f s) :
    SameReports { u with tr := f u } { s with tr := f s } := ⟨h.tb, hf, h.hht⟩

theorem slotTarget_reports {u s : State} (h : SameReports u s) : slotTarget u = slotTarget s := by
  rw [slotTarget, slotTarget, nextSlot, nextSlot, h.tb]

theorem raiseIm_reports {u s : State} (h : SameReports u s) (src : Nat) : SameReports (raiseIm u src) (raiseIm s src) := by
  by_cases hsrc : src < 320
  · by_cases he : (s.tr.im[src].en && !s.tr.im[src].pend) = true
    · have hu : (u.tr.im[src].en && !u.tr.im[src].pend) = true := by rw [h.tr]; exact he
      rw [raiseIm, raiseIm, dif_pos hsrc, dif_pos hsrc]
      dsimp only
      rw [if_pos hu, if_pos he]
      have hvec : u.tr.im[src].vector.toNat = s.tr.im[src].vector.toNat := by rw [h.tr]
      rw [hvec]
      exact sendVector_reports (h.withTr (fun w => { w.tr with im := w.tr.im.set src { w.tr.im[src] with pend := true } }) (by rw [h.tr])) _
    · have hu : ¬(u.tr.im[src].en && !u.tr.im[src].pend) = true := by rw [h.tr]; exact he
      rw [raiseIm, raiseIm, dif_pos hsrc, dif_pos hsrc]
      dsimp only
      rw [if_neg hu, if_neg he]
      exact h
  · rw [raiseIm, raiseIm, dif_neg hsrc, dif_neg hsrc]
    exact h

/-- What a source offers to the Tracer's channels, with its mark in the ingress. -/
def offered (src tick : Nat) (mark : Ingress) (t : Tracer) : Tracer × Nat := offerAll { t with ingress := t.ingress ++ [mark] } src tick

theorem raiseTrips_reports (fuel : Nat) : ∀ (trips : Nat) {u s : State}, SameReports u s → SameReports (raiseTrips fuel trips u) (raiseTrips fuel trips s) := by
  induction fuel with
  | zero => exact fun _ _ _ h => h
  | succ fuel ih =>
    intro trips u s h
    cases trips with
    | zero => exact h
    | succ trips =>
      have hone := raiseIm_reports h 303
      have hmark : (offered 303 (raiseIm u 303).tb.now ⟨303, slotTarget (raiseIm u 303), false, (raiseIm u 303).tb.now⟩ (raiseIm u 303).tr) =
          offered 303 (raiseIm s 303).tb.now ⟨303, slotTarget (raiseIm s 303), false, (raiseIm s 303).tb.now⟩ (raiseIm s 303).tr := by
        rw [hone.tr, hone.tb, slotTarget_reports hone]
      have hnext := ih (trips + (offered 303 (raiseIm u 303).tb.now ⟨303, slotTarget (raiseIm u 303), false, (raiseIm u 303).tb.now⟩ (raiseIm u 303).tr).2)
        (hone.withTr (fun w => (offered 303 w.tb.now ⟨303, slotTarget w, false, w.tb.now⟩ w.tr).1) (congrArg Prod.fst hmark))
      have hboth := congrArg (fun r : Tracer × Nat => raiseTrips fuel (trips + r.2)
        { raiseIm s 303 with tr := (offered 303 (raiseIm s 303).tb.now ⟨303, slotTarget (raiseIm s 303), false, (raiseIm s 303).tb.now⟩ (raiseIm s 303).tr).1 }) hmark
      exact hboth ▸ hnext

theorem raiseAt_reports {u s : State} (h : SameReports u s) (src : Nat) (d : Option Nat) : SameReports (raiseAt u src d) (raiseAt s src d) := by
  have hone := raiseIm_reports h src
  have hslot := slotTarget_reports hone
  rw [raiseAt, raiseAt]
  generalize raiseIm u src = v at *
  generalize raiseIm s src = w at *
  obtain ⟨htb, htr, hhht⟩ := hone
  cases v
  cases w
  dsimp only at *
  subst htb htr hhht
  rw [hslot]
  exact raiseTrips_reports _ _ ⟨rfl, rfl, rfl⟩

/-- A source that is raised finds the rest of the state as it is. -/
theorem raise_apart {u s : State} (h : SameReports u s) (src : Nat) : raise u src = { u with tr := (raise s src).tr, hht := (raise s src).hht } := by
  obtain ⟨-, htr, hhht⟩ := raiseAt_reports h src none
  rw [raise, raise, ← htr, ← hhht]
  exact raiseAt_same u src none

theorem raise_updPl (s : State) (f : Plate → Plate) (src : Nat) : raise (updPl s f) src = updPl (raise s src) f := by
  rw [raise_apart (u := updPl s f) (s := s) ⟨rfl, rfl, rfl⟩, updPl, updPl, raise_pl]
  have hrest := raiseAt_same s src none
  rw [raise]
  conv => rhs; rw [hrest]

theorem raisePlate_awake {s : State} (h : s.pwr.vigil = false) (src : Nat) : raisePlate s src = raise s src := by
  rw [raisePlate, wakeVigil, h]
  split
  · rfl
  · rfl

/-! ### The plate hold -/

/-- Two states that differ in what a plate hold reaches, and in reports. -/
def SameButHold (t s : State) : Prop :=
  t = { s with chans := t.chans, reliefs := t.reliefs, tr := t.tr, hht := t.hht, pl := { s.pl with eolhold := t.pl.eolhold } }

theorem SameButHold.refl (s : State) : SameButHold s s := rfl

theorem SameButHold.trans {u t s : State} (h : SameButHold u t) (k : SameButHold t s) : SameButHold u s := by
  unfold SameButHold at *
  rw [h, k]

theorem SameButHold.ite {c : Prop} [Decidable c] {t u s : State} (ht : SameButHold t s) (hu : SameButHold u s) : SameButHold (if c then t else u) s := by
  split
  · exact ht
  · exact hu

theorem SameButReport.hold {t s : State} (h : SameButReport t s) : SameButHold t s := by
  unfold SameButReport at h
  unfold SameButHold
  rw [h]

section
variable {t s : State} (h : SameButHold t s)
include h
theorem SameButHold.mm : t.mm = s.mm := by rw [h]
theorem SameButHold.queues : t.queues = s.queues := by rw [h]
theorem SameButHold.pl : t.pl = { s.pl with eolhold := t.pl.eolhold } := by rw [h]
end

/-- A hold changes the channels and the reliefs only. -/
theorem abortRun_rest (s : State) (n : Chan) (code : Nat) : abortRun s n code = { s with chans := (abortRun s n code).chans, reliefs := (abortRun s n code).reliefs } := by
  rw [abortRun]
  split
  · rfl
  · rfl

theorem holdOne_rest (s : State) (n : Chan) : holdOne s n = { s with chans := (holdOne s n).chans, reliefs := (holdOne s n).reliefs } := by
  rw [holdOne]
  split
  · have h := abortRun_rest s n 0x15
    generalize abortRun s n 0x15 = t at h
    rw [h]
    rfl
  · rfl

theorem holdAll_rest (s : State) : allChans.foldl holdOne s = { s with chans := (allChans.foldl holdOne s).chans, reliefs := (allChans.foldl holdOne s).reliefs } :=
  foldl_related (R := fun s t => t = { s with chans := t.chans, reliefs := t.reliefs }) (fun _ => rfl) (fun h k => by rw [h, k]) holdOne_rest allChans s

/-- What a change of a session does beside itself: the hold of the channels. -/
theorem withHold_rest (s : State) (f : State → State) :
    withHold s f = { f s with chans := (withHold s f).chans, reliefs := (withHold s f).reliefs } := by
  rw [withHold]
  dsimp only
  split
  · exact holdAll_rest (f s)
  · rfl

section
variable (s : State) (f : State → State)
theorem withHold_pl : (withHold s f).pl = (f s).pl := by rw [withHold_rest]
theorem withHold_tr : (withHold s f).tr = (f s).tr := by rw [withHold_rest]
theorem withHold_mm : (withHold s f).mm = (f s).mm := by rw [withHold_rest]
end

theorem withHold_safe (s : State) (f : State → State) : SafeStep (withHold s f) (f s) := by
  rw [withHold]
  exact .ite (foldl_related (R := fun s t => SafeStep t s) SafeStep.refl (fun h k => h.then k) holdOne_safe allChans (f s)) (.refl _)

theorem withHold_latch (s : State) (f : State → State) (m : Chan) (h : (f s).chans[m].force.fltLatch = true) :
    (withHold s f).chans[m].force.fltLatch = true :=
  ((((withHold_safe s f).chan m).latch (cause := 4)).held h).1

/-! ### Sessions -/

/-- The Plate of a session that is refused. -/
theorem refusePlate_pl (s : State) (code : Nat) : (refusePlate s code).pl = { keepUnsent (closeMemory s.pl) with
    sess := .refused, pstate := 3, refuse := code, writing := none, writeNext := false, attested := false, secret := none, advancing := false } :=
  withHold_pl ..

theorem refusePlate_refused (s : State) (code : Nat) :
    (refusePlate s code).pl.sess = .refused ∧ (refusePlate s code).pl.refuse = code ∧ (refusePlate s code).pl.pstate = 3 := by
  rw [refusePlate_pl]
  exact ⟨rfl, rfl, rfl⟩

theorem beginReading_pl (s : State) : (beginReading s).pl = { forgetPlate (closeMemory s.pl) with sess := .reading, frame := tokenFrame 0x01 [] } := withHold_pl ..

theorem keepUnsent_keeps (p : Plate) : keepUnsent p = { p with unconfirmed := (keepUnsent p).unconfirmed, unsent := (keepUnsent p).unsent } := by
  rw [keepUnsent]
  split
  · rfl
  · rfl

theorem closeMemory_keeps (p : Plate) : closeMemory p = { p with memory := (closeMemory p).memory } := by
  rw [closeMemory]
  split
  · rfl
  · rfl

/-- Whatever its session, a Plate that is closed is ABSENT, and its presence stands. -/
theorem closeSession_absent (s : State) : (closeSession s).pl.sess = .absent ∧ (closeSession s).pl.pldet = s.pl.pldet ∧ (closeSession s).mm = s.mm := by
  rw [closeSession]
  split
  · next h => exact ⟨beq_iff_eq.1 h, rfl, rfl⟩
  · rw [withHold_pl, withHold_mm]
    refine ⟨rfl, ?_, rfl⟩
    have hkept : (forgetPlate (closeMemory s.pl)).pldet = s.pl.pldet := by
      rw [forgetPlate, keepUnsent_keeps, closeMemory_keeps]
    exact hkept

theorem closeSession_latch (s : State) (m : Chan) (h : s.chans[m].force.fltLatch = true) : (closeSession s).chans[m].force.fltLatch = true := by
  rw [closeSession]
  split
  · exact h
  · exact withHold_latch _ _ m h

theorem mem_allChans (n : Chan) : n ∈ allChans := by
  rw [allChans]
  exact List.mem_finRange n

/-- The trigger of one channel as the Plate leaves. -/
def leaveTrigger (s : State) (n : Chan) : State := safeTrigger (abortRun s n 0x15) n 4

/-- The triggers of a Plate that leaves. -/
def plateTriggered (s : State) : State := allChans.foldl leaveTrigger s

theorem leaveTrigger_latches (s : State) (n : Chan) : Latches 4 (leaveTrigger s n) s ∧ (leaveTrigger s n).chans[n].force.fltLatch = true :=
  ⟨(safeTrigger_latches ..).trans (SafeRun.steps (abortRun_safe ..)), safeTrigger_fltLatch ..⟩

theorem plateTriggered_latches (s : State) : Latches 4 (plateTriggered s) s ∧ ∀ n : Chan, (plateTriggered s).chans[n].force.fltLatch = true := by
  have h := foldl_latches leaveTrigger_latches allChans s
  rw [← plateTriggered] at h
  generalize plateTriggered s = t at h ⊢
  exact ⟨h.1, fun n => h.2 n (mem_allChans n)⟩

theorem pldetFalls_armed {s : State} (hp : s.pl.pldet = true) (hd : s.pl.deten = true) :
    pldetFalls s = raisePlate (closeSession (plateTriggered (updPl s fun p => { p with pldet := false }))) 280 := by
  rw [pldetFalls, hp]
  exact if_neg (by simp [updPl, hd])

theorem pldetFall_leaves {s : State} (hv : s.pwr.vigil = false) (hp : s.pl.pldet = true) (hd : s.pl.deten = true) :
    Completes .pldetFall s fun t => t.pl.pldet = false ∧ t.pl.sess = .absent ∧ (∀ n : Chan, t.chans[n].force.fltLatch = true) ∧ t.mm.mem = s.mm.mem := by
  refine ⟨_, congrArg Host.Outcome.next (pldetFalls_armed hp hd), ?_⟩
  obtain ⟨hkept, hall⟩ := plateTriggered_latches (updPl s fun p => { p with pldet := false })
  generalize plateTriggered (updPl s fun p => { p with pldet := false }) = u at hkept hall
  obtain ⟨habs, hdet, hmm⟩ := closeSession_absent u
  have hvig : (closeSession u).pwr.vigil = false := by
    have hpwr : (closeSession u).pwr = u.pwr := by
      rw [closeSession]
      split
      · rfl
      · rw [withHold_rest]
        rfl
    rw [hpwr, hkept.pwr]
    exact hv
  rw [raisePlate_awake hvig, raise_pl, raise_chans, raise_mm, hmm, hdet, hkept.pl, hkept.mem]
  exact ⟨rfl, habs, fun n => closeSession_latch u n (hall n), rfl⟩

theorem pldetRise_arrives {s : State} (hv : s.pwr.vigil = false) (hp : s.pl.pldet = false) (hd : s.pl.deten = true) (ha : s.pl.sess = .absent) :
    exec .pldetRise s = .next (raise { s with pl := { s.pl with pldet := true, sess := if s.pl.en then .settling else .absent } } 280) := by
  refine congrArg Host.Outcome.next ?_
  have hstart : startSession (updPl s fun p => { p with pldet := true }) =
      { s with pl := { s.pl with pldet := true, sess := if s.pl.en then .settling else .absent } } := by
    cases he : s.pl.en <;> simp [startSession, updPl, hd, ha, he]
  rw [pldetRises, hp]
  dsimp only
  rw [if_neg (by simp [updPl, hd]), hstart]
  exact raisePlate_awake (s := { s with pl := { s.pl with pldet := true, sess := if s.pl.en then .settling else .absent } }) hv 280

/-! ### Contact cycles -/

theorem lifeChecks_hold (s : State) (c : Nat) : SameButHold (lifeChecks s c) s := by
  have hnear : SameButHold (if c = s.pl.warn then raise s 283 else s) s := .ite (raiseAt_same ..).hold (.refl s)
  rw [lifeChecks]
  generalize (if c = s.pl.warn then raise s 283 else s) = t at hnear
  have hend : SameButHold (if c = t.pl.life then raise t 283 else t) s := (SameButHold.ite (raiseAt_same ..).hold (.refl t)).trans hnear
  generalize (if c = t.pl.life then raise t 283 else t) = u at hend
  refine .ite ((raiseAt_same ..).hold.trans (SameButHold.trans ?_ hend)) hend
  unfold SameButHold
  rw [withHold_rest]
  rfl

theorem countCycle_waits {s : State} (hv : s.pwr.vigil = false) (hs : s.pl.sess = .reading) (hp : s.pl.pend < 255) :
    countCycle s = updPl (raise s 281) fun p => { p with pend := p.pend + 1 } := by
  rw [countCycle]
  simp only [hs]
  rw [raisePlate_awake hv, updPl, updPl, raise_pl, if_pos hp]

theorem countCycle_live {s : State} (hv : s.pwr.vigil = false) (hs : s.pl.sess = .live) (hg : s.pl.gen ≠ 3) (hw : s.pl.writing = none) :
    SameButHold (countCycle s) (updPl (raise s 281) fun p => writeCount { p with cyc := p.cyc + 1 } (p.cyc + 1)) := by
  have heq : countCycle s = lifeChecks (updPl (raise s 281) fun p => writeCount { p with cyc := p.cyc + 1 } (p.cyc + 1)) (s.pl.cyc + 1) := by
    rw [countCycle]
    simp only [hs]
    rw [raisePlate_awake hv, countLive, raise_pl, if_neg hg]
    simp only [updPl, storeCount, raise_pl, hw, Option.isSome_none, Bool.false_eq_true, if_false]
    rfl
  rw [heq]
  exact lifeChecks_hold ..

section
variable {s : State} (p : Path)

theorem cycle_live (hv : s.pwr.vigil = false) (hc : s.pl.csrc = true) (hr : s.fw.recovery = false) (hs : s.pl.sess = .live) (hg : s.pl.gen ≠ 3)
    (hw : s.pl.writing = none) :
    Completes (.cycle p) s fun t => t.pl.cyc = s.pl.cyc + 1 ∧ t.pl.writing = some (s.pl.cyc + 1)
      ∧ t.pl.slotOut.1 = 0x3E00 + 32 * ((s.pl.slotSeq + 1) % 16) ∧ t.mm = s.mm ∧ t.queues = s.queues := by
  have hrun : exec (.cycle p) s = .next (countCycle s) := by
    rw [exec, execCycle, accessed_running hr, hostCycle, hc, hs]
    rfl
  refine completes_of hrun ?_
  have hkept := countCycle_live hv hs hg hw
  rw [hkept.mm, hkept.queues, hkept.pl]
  simp only [updPl, raise_pl, writeCount, raise_mm, raise_queues, and_self]

theorem cycle_waits (hv : s.pwr.vigil = false) (hc : s.pl.csrc = true) (hr : s.fw.recovery = false) (hs : s.pl.sess = .reading) (hp : s.pl.pend < 255) :
    exec (.cycle p) s = .next { raise s 281 with pl := { s.pl with pend := s.pl.pend + 1 } } := by
  rw [exec, execCycle, accessed_running hr, hostCycle, hc, hs, countCycle_waits hv hs hp, updPl, raise_pl]
  rfl

end

theorem plateContactCycle_waits {s : State} (hv : s.pwr.vigil = false) (ho : s.pl.contact = false) (hc : s.pl.csrc = false) (hs : s.pl.sess = .reading)
    (hp : s.pl.pend < 255) :
    exec .plateContactCycle s = .next { raise s 281 with pl := { s.pl with contact := true, pend := s.pl.pend + 1 } } := by
  have hclosed : countCycle (updPl s fun p => { p with contact := true }) =
      updPl (raise (updPl s fun p => { p with contact := true }) 281) fun p => { p with pend := p.pend + 1 } := countCycle_waits hv hs hp
  rw [exec, execPlateContactCycle, ho]
  dsimp only
  rw [if_neg Bool.false_ne_true, if_neg (by simp [updPl, hc]), hclosed, raise_updPl, updPl, updPl, raise_pl]

/-- Settles O39: a Plate's presence and its contact cycles, each through the step that it takes. -/
theorem platePresenceAndCycles : Obligations.PlatePresenceAndCycles := by
  unfold Obligations.PlatePresenceAndCycles
  refine ⟨fun s p hv => ⟨pldetFall_leaves hv, pldetRise_arrives hv, fun hs => ?settles, fun ht => ?acked, fun ht h0 => ?retry, fun hs => ?silent,
      fun hs hr => ?reopens, fun hl hf hr => ?refused⟩,
    fun s p hv => ⟨rfl, fun hc => ?closed, fun ho hc => ?hostCounts, fun ho hc hs hp => ⟨_, plateContactCycle_waits hv ho hc hs hp, rfl⟩,
      fun hc hr hs hp => cycle_waits p hv hc hr hs hp, fun hc hr => ?noCycle, fun hc hr hs hg hw => cycle_live p hv hc hr hs hg hw⟩⟩
  case settles =>
    refine completes_of (t := beginReading s) (by rw [exec, execPlateSettleEnd, hs]; rfl) ?_
    have htr : (beginReading s).tr = s.tr := withHold_tr ..
    rw [beginReading_pl]
    exact ⟨rfl, rfl, rfl, htr⟩
  case acked => rw [exec, execPlateBusRetry, busRetry, ht]; rfl
  case retry =>
    rw [exec, execPlateBusRetry, busRetry, ht, h0]
    simp [updPl, h0]
  case silent =>
    have hrun : exec .tokenAnswerTimeout s = .next (refusePlate (updPl s fun p => { p with busTry := 0 }) 1) := by
      rw [exec, execTokenAnswerTimeout, tokenSilent, exchanging, hs]
      simp [noAnswer, updPl, hs]
    exact ⟨_, hrun, refusePlate_refused ..⟩
  case reopens =>
    have hrun : exec (.reopen p) s = .next (noteSession (beginReading s)) := by
      rw [exec, execReopen, accessed_running hr, reopenPlate, if_pos (by simpa using hs)]
    refine completes_of hrun ?_
    have hpl : (noteSession (beginReading s)).pl = (beginReading s).pl := rfl
    rw [hpl, beginReading_pl]
    exact ⟨rfl, rfl⟩
  case refused =>
    rw [exec, execReopen, accessed_running hr, reopenPlate, if_neg (by simp [hl, hf])]
    rfl
  case closed => rw [exec, execPlateContactCycle, hc]; rfl
  case hostCounts =>
    rw [exec, execPlateContactCycle, ho]
    dsimp only
    rw [if_neg Bool.false_ne_true, if_pos (by simp [updPl, hc])]
    rfl
  case noCycle =>
    rw [exec, execCycle, accessed_running hr, hostCycle, hc]
    rfl

end Sys2Proof.Machine
end

section
/-!
PROOFS. O40: records, tokens, attestation and counts of a Plate session (R358 to R370, Table 11.3).
-/
namespace Sys2Proof.Machine

theorem advance_keeps (p : Plate) : advance p = { p with advancing := (advance p).advancing, frame := (advance p).frame } := by
  rw [advance]
  split
  · rfl
  · rfl

theorem setLife_keeps (p : Plate) : setLife p = { p with life := (setLife p).life, warn := (setLife p).warn, ovr := (setLife p).ovr } := by
  rw [setLife]
  split
  · rfl
  · rfl

theorem relieveLife_keeps (p : Plate) : relieveLife p =
    { p with life := (relieveLife p).life, warn := (relieveLife p).warn, ovr := (relieveLife p).ovr, eolhold := (relieveLife p).eolhold } := by
  rw [relieveLife, setLife_keeps]

theorem takeUnsent_keeps (p : Plate) : takeUnsent p = { p with unconfirmed := (takeUnsent p).unconfirmed, unsent := (takeUnsent p).unsent } := by
  rw [takeUnsent]
  split
  · rfl
  · rfl

/-- A Plate whose session goes LIVE. -/
def goneLive (p : Plate) : Plate := advance (relieveLife { takeUnsent p with sess := .live, pstate := if p.vouched then 2 else 1 })

theorem goneLive_keeps (p : Plate) : (goneLive p).sess = .live ∧ (goneLive p).pstate = (if p.vouched then 2 else 1) ∧ (goneLive p).cyc = p.cyc
    ∧ (goneLive p).body = p.body ∧ (goneLive p).tokenNonce = p.tokenNonce ∧ (goneLive p).pend = p.pend := by
  rw [goneLive]
  have hlife := relieveLife_keeps { takeUnsent p with sess := .live, pstate := if p.vouched then 2 else 1 }
  generalize relieveLife { takeUnsent p with sess := .live, pstate := if p.vouched then 2 else 1 } = q at hlife
  have hsent := advance_keeps q
  generalize advance q = a at hsent
  rw [hsent, hlife, takeUnsent_keeps]
  exact ⟨rfl, rfl, rfl, rfl, rfl, rfl⟩

/-- The state as the cycles that waited are about to be applied. -/
def liveWarned (s : State) : State :=
  let t := updPl (noteSession s) goneLive
  if t.pl.cyc ≥ t.pl.warn then raise t 283 else t

theorem liveWarned_pl (s : State) : (liveWarned s).pl = goneLive s.pl := by
  rw [liveWarned]
  split
  · rw [raise_pl]
    rfl
  · rfl

theorem goLive_pl {s : State} (h : s.pl.pend = 0) : (goLive s).pl = goneLive s.pl := by
  obtain ⟨-, -, -, -, -, hpend⟩ := goneLive_keeps s.pl
  have heq : goLive s = applyPending (liveWarned s).pl.pend (liveWarned s) := rfl
  rw [heq, liveWarned_pl, hpend, h]
  exact liveWarned_pl s

theorem currentSlot_one {serial : BitVec 128} {count seq : Nat} {check : BitVec 128} (h : serialBytes check = counterCheck serial count seq) :
    currentSlot serial [(count, seq, check)] = some (count, seq) := by
  rw [currentSlot]
  simp [h]

/-- A Plate whose record has been read and has passed. -/
def recordTaken (r : PlateRead) (vouched : Bool) (p : Plate) : Plate :=
  setLife { p with body := r.body, signature := r.signature, busTry := 0, busToken := false, reads := [], gen := recGen r.body, vouched := vouched }

theorem recordTaken_keeps (r : PlateRead) (vouched : Bool) (p : Plate) : (recordTaken r vouched p).body = r.body ∧ (recordTaken r vouched p).pend = p.pend
    ∧ (recordTaken r vouched p).memory = p.memory ∧ (recordTaken r vouched p).vouched = vouched := by
  rw [recordTaken, setLife_keeps]
  exact ⟨rfl, rfl, rfl, rfl⟩

theorem openEeprom_unremembered {s : State} {count seq : Nat} {check : BitVec 128} (hm : s.pl.memory = [])
    (h : serialBytes check = counterCheck (plateSerial s.pl.body) count seq) :
    openEeprom s [(count, seq, check)] = goLive (updPl s fun p => { p with cyc := count, slotSeq := seq }) := by
  have hnone : remembered s.pl (plateSerial s.pl.body) = 0 := by
    rw [remembered, hm]
    rfl
  rw [openEeprom, currentSlot_one h, hnone]
  rfl

theorem recordRead_passes {s : State} {r : PlateRead} (hs : s.pl.sess = .reading) (ha : r.answers = true) (ht : r.token = false)
    (h0 : recRefusal s.pf s.pl.reqv false r.body r.signature = 0) :
    recordRead s r = openEeprom (updPl s (recordTaken r (recVouched s.pf r.body))) r.slots := by
  rw [recordRead, hs, ha, ht, h0]
  rfl

section
variable {s : State} {r : PlateRead}

theorem plateRecordRead_silent (hs : s.pl.sess = .reading) (ha : r.answers = false) :
    Completes (.plateRecordRead r) s fun t => t.pl.sess = .refused ∧ t.pl.refuse = 1 := by
  refine ⟨refusePlate s 1, by rw [exec, execPlateRecordRead, recordRead, hs, ha]; rfl, ?_⟩
  obtain ⟨hsess, hcode, -⟩ := refusePlate_refused s 1
  exact ⟨hsess, hcode⟩

theorem plateRecordRead_opens (hs : s.pl.sess = .reading) (ha : r.answers = true) (ht : r.token = false)
    (h0 : recRefusal s.pf s.pl.reqv false r.body r.signature = 0) (hp : s.pl.pend = 0) (hm : s.pl.memory = []) {count seq : Nat} {check : BitVec 128}
    (hslot : r.slots = [(count, seq, check)]) (hcheck : serialBytes check = counterCheck (plateSerial r.body) count seq) :
    Completes (.plateRecordRead r) s fun t => t.pl.sess = .live ∧ t.pl.cyc = count ∧ t.pl.body = r.body ∧ t.pl.pstate = recState s.pf r.body := by
  obtain ⟨hbody, hpend, hmem, hvouch⟩ := recordTaken_keeps r (recVouched s.pf r.body) s.pl
  have hopen := openEeprom_unremembered (s := updPl s (recordTaken r (recVouched s.pf r.body))) (hmem.trans hm) (hcheck.trans (by rw [updPl, hbody]))
  rw [← hslot, ← recordRead_passes hs ha ht h0] at hopen
  refine completes_of (congrArg Host.Outcome.next hopen) ?_
  have hpl := goLive_pl (s := updPl (updPl s (recordTaken r (recVouched s.pf r.body))) fun p => { p with cyc := count, slotSeq := seq }) (hpend.trans hp)
  rw [hpl]
  obtain ⟨hsess, hstate, hcyc, hb, -, -⟩ := goneLive_keeps { recordTaken r (recVouched s.pf r.body) s.pl with cyc := count, slotSeq := seq }
  refine ⟨hsess, hcyc, hb.trans hbody, hstate.trans ?_⟩
  dsimp only
  rw [hvouch, recState]

end

theorem tokenAuthAnswer_judges {s : State} {sig : List Byte} (hs : s.pl.sess = .auth) (hk : s.pf.keyend = false) :
    Completes (.tokenAuthAnswer sig) s fun t =>
      if verify [plateSet] ((s.pl.body.drop 0x158).take 68) (authMessage s.pl) sig then
        t.pl.sess = .opening ∧ t.pl.secret = some (Config.entropy s.pf.draws) ∧ t.pl.attested = false
      else t.pl.sess = .refused ∧ t.pl.refuse = 6 := by
  refine completes_of (t := authAnswer s sig) rfl ?_
  have hsess : ¬(s.pl.sess != .auth) = true := by rw [hs]; decide
  rw [authAnswer, if_neg hsess]
  cases hv : verify [plateSet] ((s.pl.body.drop 0x158).take 68) (authMessage s.pl) sig
  · obtain ⟨hsess, hcode, -⟩ := refusePlate_refused s 6
    exact ⟨hsess, hcode⟩
  · have hopen : beginOpen s = withHold (drawEntropy s).2 fun s => updPl s fun p => { p with
        sess := .opening, secret := some (Config.entropy (s.pf.draws - 1)), advances := 0, attested := false, advFails := 0, advancing := false, askedAt := s.tb.now } := by
      rw [beginOpen, hk]
      rfl
    rw [if_pos rfl, if_neg (by decide), hopen, withHold_pl]
    exact ⟨rfl, rfl, rfl⟩

theorem plateAttestationSigned_opens {s : State} (fails : Nat) (hs : s.pl.sess = .opening) (ha : s.pl.attested = false) (hb : s.pf.sigNext < s.pf.bound)
    (hk : s.pf.sigNext + 17 < 2 ^ 40) (ht : takesCommands s = true) :
    let body := attestBody s (openNonce s.pl) s.pf.sigNext
    exec (.plateAttestationSigned fails) s = .next { offerDevice s 0 s.pl.askedAt s.tb.now with
      pl := { s.pl with
        attested := true
        frame := tokenFrame 0x04 (digestBytes (openAnchor s.pl) ++ leBytes 4 65536 ++ deviceCertificate ++ (body ++ deviceSignature s.pf.sigNext body)) }
      pf := { s.pf with sigNext := s.pf.sigNext + 1 } } := by
  intro body
  refine congrArg Host.Outcome.next ?_
  have hsame : attestBody (offerDevice s 0 s.pl.askedAt s.tb.now) (openNonce s.pl) s.pf.sigNext = body := by
    rw [offerDevice_same]
    rfl
  have hrecord := attestRecord_reserved (s := offerDevice s 0 s.pl.askedAt s.tb.now) (openNonce s.pl) fails (congrArg Trust.sigNext (offerDevice_pf ..))
    (by rw [offerDevice_pf]; exact hb) hk
  rw [hsame] at hrecord
  rw [openSigned, hs, ha, ht]
  simp only [hrecord, bne_self_eq_false, Bool.or_self, Bool.not_true, Bool.false_eq_true, if_false]
  rw [updPl, offerDevice_pf]
  dsimp only
  rw [offerDevice_pl]

theorem tokenOpenAnswer_answers {s : State} (hs : s.pl.sess = .opening) (ha : s.pl.attested = true) (hp : s.pl.pend = 0) (tn : Digest) :
    Completes (.tokenOpenAnswer true tn) s (fun t => t.pl.sess = .live ∧ t.pl.cyc = s.pl.cyc ∧ t.pl.tokenNonce = tn)
      ∧ Completes (.tokenOpenAnswer false tn) s (fun t => t.pl.sess = .refused ∧ t.pl.refuse = 8) := by
  have hanswer (ok : Bool) : openAnswer s ok tn = if ok then goLive (updPl s fun p => { p with tokenNonce := tn }) else refusePlate s 8 := by
    rw [openAnswer, hs, ha]
    rfl
  constructor
  · refine completes_of (congrArg Host.Outcome.next (hanswer true)) ?_
    rw [if_pos rfl, goLive_pl (s := updPl s fun p => { p with tokenNonce := tn }) hp]
    obtain ⟨hsess, -, hcyc, -, hn, -⟩ := goneLive_keeps { s.pl with tokenNonce := tn }
    exact ⟨hsess, hcyc, hn⟩
  · refine ⟨_, congrArg Host.Outcome.next (hanswer false), ?_⟩
    obtain ⟨hsess, hcode, -⟩ := refusePlate_refused s 8
    exact ⟨hsess, hcode⟩

theorem tokenAdvanceAnswer_confirms {s : State} (hs : s.pl.sess = .live) (ha : s.pl.advancing = true) (hn : s.pl.advances + 1 < 65536) :
    exec (.tokenAdvanceAnswer true) s = .next { s with pl := advance { s.pl with
      cyc := s.pl.cyc + 1, unconfirmed := s.pl.unconfirmed - 1, advances := s.pl.advances + 1, advFails := 0, advancing := false } } := by
  have hfew : ¬(updPl s fun p => { p with cyc := p.cyc + 1, unconfirmed := p.unconfirmed - 1, advances := p.advances + 1, advFails := 0, advancing := false }).pl.advances ≥ 65536 :=
    Nat.not_le.2 hn
  rw [exec, execTokenAdvanceAnswer, advanceAnswer, hs, ha]
  change Host.Outcome.next (advanced s) = _
  rw [advanced, if_neg hfew]
  rfl

/-- Settles O40: each answer that a session waits for, through the Plate that it leaves. -/
theorem plateSessions : Obligations.PlateSessions := by
  unfold Obligations.PlateSessions
  intro s r sig fails
  refine ⟨plateRecordRead_silent, fun hs ha ht h0 hp hm count seq check hslot hcheck => plateRecordRead_opens hs ha ht h0 hp hm hslot hcheck,
    tokenAuthAnswer_judges, fun hs ha hb hk ht => plateAttestationSigned_opens fails hs ha hb hk ht, tokenOpenAnswer_answers, tokenAdvanceAnswer_confirms,
    fun c hw => ⟨fun hn => ?_, fun hn => ?_⟩⟩
  · rw [exec, execEepromCountWriteDone, countWritten, hw]
    simp [updPl, hn]
  · rw [exec, execEepromCountWriteDone, countWritten, hw]
    simp [updPl, hn]

end Sys2Proof.Machine
end

section
/-!
PROOFS. What the link states of the serial lanes reach (R39, R41, R422, R430).
-/
namespace Sys2Proof.Machine

/-- Two states that differ in one lane, in reports and in holdover: what the link of that lane reaches. -/
structure LinkStep (k : Lane) (t s : State) : Prop where
  rest : t = { s with
    tb := { s.tb with holdover := t.tb.holdover }, lanes := t.lanes, tr := t.tr, hht := t.hht
    pf := { s.pf with interval := t.pf.interval }, ht := { s.ht with holdover := t.ht.holdover }, fw := { s.fw with ltssm := t.fw.ltssm } }
  other : ∀ j : Lane, j ≠ k → t.lanes[j] = s.lanes[j]
  en : t.lanes[k].en = s.lanes[k].en
  proto : t.lanes[k].proto = s.lanes[k].proto
  lps : t.lanes[k].lps = s.lanes[k].lps

namespace LinkStep
variable {k : Lane} {u t s : State}

theorem refl (k : Lane) (s : State) : LinkStep k s s := ⟨rfl, fun _ _ => rfl, rfl, rfl, rfl⟩

theorem trans (h : LinkStep k u t) (h' : LinkStep k t s) : LinkStep k u s where
  rest := by rw [h.rest, h'.rest]
  other j hj := (h.other j hj).trans (h'.other j hj)
  en := h.en.trans h'.en
  proto := h.proto.trans h'.proto
  lps := h.lps.trans h'.lps

theorem ite {c : Prop} [Decidable c] (ht : LinkStep k t s) (hu : LinkStep k u s) : LinkStep k (if c then t else u) s := by
  split
  · exact ht
  · exact hu

/-- What leaves the lanes alone. -/
theorem of_lanes (hrest : t = { s with
    tb := { s.tb with holdover := t.tb.holdover }, tr := t.tr, hht := t.hht
    pf := { s.pf with interval := t.pf.interval }, ht := { s.ht with holdover := t.ht.holdover }, fw := { s.fw with ltssm := t.fw.ltssm } }) : LinkStep k t s := by
  rw [hrest]
  exact ⟨rfl, fun _ _ => rfl, rfl, rfl, rfl⟩

section
variable (h : LinkStep k t s)
include h
theorem chans : t.chans = s.chans := by rw [h.rest]
theorem mm : t.mm = s.mm := by rw [h.rest]
theorem queues : t.queues = s.queues := by rw [h.rest]
theorem pwr : t.pwr = s.pwr := by rw [h.rest]
theorem paths : t.paths = s.paths := by rw [h.rest]
end

end LinkStep

theorem updLane_get (s : State) (k j : Lane) (f : LaneState → LaneState) : (updLane s k f).lanes[j] = if j = k then f s.lanes[k] else s.lanes[j] := by
  by_cases h : j = k
  · rw [h, if_pos rfl]
    simp [updLane]
  · have hv : k.val ≠ j.val := fun e => h (Fin.ext e.symm)
    rw [if_neg h]
    simp [updLane, hv]

theorem updLane_self (s : State) (k : Lane) (f : LaneState → LaneState) : (updLane s k f).lanes[k] = f s.lanes[k] := by
  rw [updLane_get, if_pos rfl]

theorem updLane_link {s : State} {k : Lane} {f : LaneState → LaneState} (he : (f s.lanes[k]).en = s.lanes[k].en)
    (hp : (f s.lanes[k]).proto = s.lanes[k].proto) (hl : (f s.lanes[k]).lps = s.lanes[k].lps) : LinkStep k (updLane s k f) s where
  rest := rfl
  other j hj := by rw [updLane_get, if_neg hj]
  en := by rw [updLane_self, he]
  proto := by rw [updLane_self, hp]
  lps := by rw [updLane_self, hl]

theorem raiseAt_link (k : Lane) (s : State) (src : Nat) (d : Option Nat) : LinkStep k (raiseAt s src d) s := by
  refine .of_lanes ?_
  rw [raiseAt_same]

theorem noteAlign_link (k : Lane) (s : State) : LinkStep k (noteAlign s) s := by
  refine .of_lanes ?_
  unfold noteAlign
  dsimp only
  split
  · rfl
  · rfl

theorem enterHoldover_link (k : Lane) (s : State) : LinkStep k (enterHoldover s) s := by
  rw [enterHoldover]
  exact .ite (.refl k s) ((raiseAt_link ..).trans ((noteAlign_link ..).trans (.of_lanes rfl)))

theorem setLState_link (s : State) (k : Lane) (st : LState) : LinkStep k (setLState s k st) s := by
  rw [setLState]
  dsimp only
  refine .ite (.refl k s) (.ite ((enterHoldover_link ..).trans ?_) ?_)
  all_goals exact (noteAlign_link ..).trans ((raiseAt_link ..).trans (updLane_link rfl rfl rfl))

theorem enterHoldover_lanes (s : State) : (enterHoldover s).lanes = s.lanes := by
  rw [enterHoldover]
  split
  · rfl
  · rw [raise_lanes, noteAlign_lanes]
    rfl

/-- The lane whose link state is set. -/
theorem setLState_lane (s : State) (k : Lane) (st : LState) : (setLState s k st).lanes[k] =
    { s.lanes[k] with
      lstate := st, downs := if s.lanes[k].lstate == .up && st != .up then satAdd 65535 s.lanes[k].downs 1 else s.lanes[k].downs } := by
  by_cases h : s.lanes[k].lstate = st
  · have hno : (s.lanes[k].lstate == .up && st != .up) = false := by
      rw [h]
      cases st <;> rfl
    rw [setLState, if_pos (beq_iff_eq.2 h), hno, if_neg Bool.false_ne_true, ← h]
  · have hset : (noteAlign (raise (updLane s k fun l => { l with
          lstate := st, downs := if s.lanes[k].lstate == .up then satAdd 65535 l.downs 1 else l.downs }) (288 + k.val))).lanes[k] =
        { s.lanes[k] with lstate := st, downs := if s.lanes[k].lstate == .up then satAdd 65535 s.lanes[k].downs 1 else s.lanes[k].downs } := by
      rw [noteAlign_lanes, raise_lanes, updLane_self]
    have hdown : (s.lanes[k].lstate == .up && st != .up) = (s.lanes[k].lstate == .up) := by
      cases hl : s.lanes[k].lstate <;> cases hs : st <;> first | rfl | exact absurd (hl.trans hs.symm) h
    have hite (c : Prop) [Decidable c] (t : State) : (if c then enterHoldover t else t).lanes = t.lanes := by
      split
      · exact enterHoldover_lanes t
      · rfl
    rw [setLState, if_neg (by simpa using h), hdown]
    exact (congrArg (fun v : Vector LaneState 8 => v[k]) (hite _ _)).trans hset

/-- Only a Sibia lane brings the device into holdover. -/
theorem setLState_tb {s : State} {k : Lane} (st : LState) (h : s.lanes[k].proto ≠ 6) : (setLState s k st).tb = s.tb := by
  rw [setLState]
  dsimp only
  split
  · rfl
  · have hproto : decide (s.lanes[k].proto = protoSibia) = false := decide_eq_false h
    rw [hproto, Bool.and_false, Bool.false_and, Bool.false_and, if_neg Bool.false_ne_true, noteAlign_tb, raise_tb]
    rfl

theorem stopLink_link (s : State) (k : Lane) (st : LState) : LinkStep k (stopLink s k st) s := by
  rw [stopLink]
  exact (setLState_link ..).trans (updLane_link rfl rfl rfl)

theorem sleepLane_link (s : State) (k : Lane) (p : Nat) : LinkStep k (sleepLane s k p) s := by
  have hfw : LinkStep k (if s.lanes[k].proto = protoPcie && s.lanes[k].lstate == .up then { s with fw := { s.fw with ltssm := pcieAsleep p } } else s) s :=
    .ite (.of_lanes rfl) (.refl k s)
  rw [sleepLane]
  dsimp only
  refine .ite ((stopLink_link ..).trans ?_) ?_
  all_goals exact (updLane_link rfl rfl rfl).trans hfw

theorem sendBlock_link (s : State) (k : Lane) (b : BitVec 64) : LinkStep k (sendBlock s k b) s := by
  rw [sendBlock]
  exact updLane_link rfl rfl rfl

end Sys2Proof.Machine
end

section
/-!
PROOFS. O41: the core regulator, the pace, power periods, temperatures and vigil (R381 to R393).
-/
namespace Sys2Proof.Machine

/-! ### The regulator and the pace -/

theorem pmbusDone_fails {s : State} (h : s.pwr.pmbusFails < 2) : pmbusDone s true = { s with pwr := { s.pwr with pmbusFails := s.pwr.pmbusFails + 1 } } := by
  rw [pmbusDone, if_pos rfl]
  dsimp only
  rw [if_neg (by omega), if_neg (by omega)]
  rfl

theorem pmbusDone_third {s : State} (h : s.pwr.pmbusFails = 2) :
    pmbusDone s true = raise { s with pwr := { s.pwr with pmbusFails := 0, regflt := true } } 287 := by
  rw [pmbusDone, if_pos rfl, h]
  rfl

theorem statusPoll_failed (s : State) (fault : Bool) : statusPoll s true fault = pmbusDone s true := by
  rw [statusPoll, Bool.not_true, Bool.and_false]
  rfl

theorem stalledWithin_iff (p : Power) (now ticks : Nat) : stalledWithin p now ticks = true ↔ ∃ t, p.lastStall = some t ∧ now < t + ticks := by
  rw [stalledWithin, Option.any_eq_true]
  simp

theorem not_stalledWithin {p : Power} {now ticks : Nat} (h : ∀ t, p.lastStall = some t → t + ticks ≤ now) : stalledWithin p now ticks = false := by
  rw [Bool.eq_false_iff, Ne, stalledWithin_iff]
  rintro ⟨t, ht, hlt⟩
  exact absurd (h t ht) (by omega)

section
variable {p : Power} {f : Firmware} {now : Nat} (hman : p.paceMan = false) (hv : p.vigil = false) (hns : p.regns = false) (hflt : p.regflt = false)
  (h1 : p.set ≤ p.readVout + 10) (h2 : p.readVout ≤ p.set + 10)
include hman hv h1 h2

/-- The pace moves with the load where READ_VOUT is near. -/
theorem paceMove_near : paceMove p f now =
    if mpSaturated f || stalledWithin p now 1600000 then
      if anyAt (coreTemps p) p.twarn || p.set + 10 > p.highest then p else paceTo p (p.set + 10)
    else if f.load100 < 40 && !stalledWithin p now 160000000 && p.lowest + 10 ≤ p.set then paceTo p (p.set - 10)
    else p := by
  rw [paceMove, hman, hv]
  exact if_neg (by simp; omega)

theorem paceMove_held (hbusy : (mpSaturated f || stalledWithin p now 1600000) = true) (hno : anyAt (coreTemps p) p.twarn = true ∨ p.highest < p.set + 10) :
    paceMove p f now = p := by
  rw [paceMove_near hman hv h1 h2, if_pos hbusy]
  exact if_pos (by simpa using hno)

include hns hflt

theorem paceMove_up (hbusy : (mpSaturated f || stalledWithin p now 1600000) = true) (hcool : anyAt (coreTemps p) p.twarn = false)
    (hroom : p.set + 10 ≤ p.highest) : paceMove p f now = { p with set := p.set + 10 } := by
  rw [paceMove_near hman hv h1 h2, if_pos hbusy, hcool, if_neg (by simp; omega), paceTo, hns, hflt]
  rfl

theorem paceMove_down (hidle : mpSaturated f = false) (hload : f.load100 < 40) (hstall : ∀ t, p.lastStall = some t → t + 160000000 ≤ now)
    (hroom : p.lowest + 10 ≤ p.set) : paceMove p f now = { p with set := p.set - 10 } := by
  have hshort : stalledWithin p now 1600000 = false := not_stalledWithin fun t ht => (by have := hstall t ht; omega)
  rw [paceMove_near hman hv h1 h2, hidle, hshort, if_neg (by simp), not_stalledWithin hstall, if_pos (by simp [hload, hroom]), paceTo, hns, hflt]
  rfl

end

theorem paceStep_done (s : State) (v : Nat) :
    exec (.paceStep false v) s = .next { s with pwr := paceMove { s.pwr with pmbusFails := 0, readVout := v } s.fw s.tb.now } := rfl

theorem paceStep_failed (s : State) (v : Nat) : exec (.paceStep true v) s = .next (pmbusDone s true) := rfl

/-! ### The power of a millisecond -/

/-- The load and the sums that the end of a millisecond leaves. -/
def periodClosed (s : State) : State :=
  let w := drawFree s
  let u := { w.2 with fw := noteLoad (w.1.toNat % 101) w.2.fw }
  updPwr { u with chans := u.chans.map fun c => { c with pwr := closePower c.pwr } } fun p => { p with period := s.tb.now / 1600000 * 1600000 }

/-- What the banks' budgets, their reports and their actions leave alone. -/
structure PeriodKeeps (t s : State) : Prop where
  pwr : t.pwr = s.pwr
  fw : t.fw = s.fw
  power : ∀ n : Chan, t.chans[n].pwr = s.chans[n].pwr

theorem PeriodKeeps.refl (s : State) : PeriodKeeps s s := ⟨rfl, rfl, fun _ => rfl⟩

theorem PeriodKeeps.trans {u t s : State} (h : PeriodKeeps u t) (k : PeriodKeeps t s) : PeriodKeeps u s :=
  ⟨h.pwr.trans k.pwr, h.fw.trans k.fw, fun n => (h.power n).trans (k.power n)⟩

theorem PeriodKeeps.ite {c : Prop} [Decidable c] {t u s : State} (ht : PeriodKeeps t s) (hu : PeriodKeeps u s) : PeriodKeeps (if c then t else u) s := by
  split
  · exact ht
  · exact hu

theorem Latches.period {cause : Nat} {t s : State} (h : Latches cause t s) : PeriodKeeps t s := ⟨h.pwr, h.fw, h.power⟩

theorem updBank_period (s : State) (b : Bank) (f : BankState → BankState) : PeriodKeeps (updBank s b f) s := ⟨rfl, rfl, fun _ => rfl⟩

theorem raise_period (s : State) (src : Nat) : PeriodKeeps (raise s src) s := ⟨raise_pwr s src, raise_fw s src, fun n => by rw [raise_chans]⟩

theorem mpAtOnce_period (s : State) : PeriodKeeps (mpAtOnce s) s := by
  rw [mpAtOnce]
  exact ⟨offerDevice_pwr .., offerDevice_fw .., fun n => by rw [offerDevice_chans]⟩

theorem disableAll_period (l : List Chan) (s : State) : PeriodKeeps (l.foldl disableChannel s) s :=
  (foldl_latches disableChannel_latches l s).1.period

theorem banks_period {f : State → Bank → State} (hf : ∀ s b, PeriodKeeps (f s b) s) (s : State) : PeriodKeeps (allBanks.foldl f s) s :=
  foldl_related (R := fun s t => PeriodKeeps t s) PeriodKeeps.refl (fun h k => h.trans k) hf allBanks s

/-- The banks' power and budgets of a millisecond. -/
def banksClosed (s : State) : State :=
  allBanks.foldl (fun s b => updBank s b fun k => { k with budx := k.budx || bankOver s b })
    (allBanks.foldl (fun s b => updBank s b fun k => { k with power := bankPower s b }) s)

/-- The report and the actions of the budgets. -/
def budgetsActed (s : State) : State :=
  let t := if allChans.any (chanOver s) || allBanks.any (bankOver s) then raise s 284 else s
  let acts := allChans.filter (budgetActs t)
  if acts.isEmpty then t else acts.foldl disableChannel (mpAtOnce t)

theorem budgetsActed_period (s : State) : PeriodKeeps (budgetsActed s) s := by
  rw [budgetsActed]
  have hraise : PeriodKeeps (if allChans.any (chanOver s) || allBanks.any (bankOver s) then raise s 284 else s) s := .ite (raise_period ..) (.refl s)
  generalize (if allChans.any (chanOver s) || allBanks.any (bankOver s) then raise s 284 else s) = t at hraise
  exact .ite hraise ((disableAll_period ..).trans ((mpAtOnce_period t).trans hraise))

theorem banksClosed_period (s : State) : PeriodKeeps (banksClosed s) s :=
  (banks_period (fun _ _ => updBank_period ..) _).trans (banks_period (fun _ _ => updBank_period ..) s)

theorem powerPeriod_ends {s : State} (h : s.pwr.period < s.tb.now / 1600000 * 1600000)
    (hc : s.chans.any (fun c => c.meas.convs.any fun k => decide (k.tick < s.tb.now / 1600000 * 1600000)) = false) :
    PeriodKeeps (powerPeriod s) (periodClosed s) := by
  have heq : powerPeriod s = budgetsActed (banksClosed (periodClosed s)) := by
    rw [powerPeriod]
    dsimp only
    rw [hc, if_neg (by simpa using h)]
    rfl
  rw [heq]
  exact (budgetsActed_period ..).trans (banksClosed_period ..)

theorem powerBudgetPeriod_computes {s : State} (h : s.pwr.period < s.tb.now / 1600000 * 1600000)
    (hc : s.chans.any (fun c => c.meas.convs.any fun k => decide (k.tick < s.tb.now / 1600000 * 1600000)) = false) :
    Completes .powerBudgetPeriod s fun u => u.pwr.period = s.tb.now / 1600000 * 1600000
      ∧ u.fw.loads = (u.fw.load1 :: s.fw.loads).take 100 ∧ u.fw.load100 = u.fw.loads.sum / 100 ∧ u.fw.load1 ≤ 100
      ∧ ∀ n : Chan, u.chans[n].pwr.power = chanPower s.chans[n].pwr ∧ u.chans[n].pwr.samples = 0 ∧ u.chans[n].pwr.sum = 0 := by
  obtain ⟨hpwr, hfw, hpower⟩ := powerPeriod_ends h hc
  refine completes_of (t := powerPeriod s) rfl ?_
  rw [hpwr, hfw]
  refine ⟨rfl, rfl, rfl, Nat.le_of_lt_succ (Nat.mod_lt _ (by decide)), fun n => ?_⟩
  have hclosed : (periodClosed s).chans[n].pwr = closePower s.chans[n].pwr := by
    simp [periodClosed, updPwr, drawFree]
  rw [hpower, hclosed]
  exact ⟨rfl, rfl, rfl⟩

/-! ### Temperatures -/

theorem warnStep_temps (p : Power) : (warnStep p).temps = p.temps := by
  rw [warnStep]
  split
  · rfl
  · split
    · rfl
    · split
      · rfl
      · rfl

theorem bankShutdown_pwr (s : State) (b : Bank) : (bankShutdown s b).pwr = s.pwr := by
  have htriggers (t : State) : ((bankChans b).foldl (fun s n => safeTrigger s n 5) t).pwr = t.pwr :=
    (foldl_latches (cause := 5) (fun s n => ⟨safeTrigger_latches s n 5, safeTrigger_fltLatch s n 5⟩) (bankChans b) t).1.pwr
  rw [bankShutdown]
  dsimp only
  split
  · rfl
  · split
    · rw [htriggers]
      rfl
    · rw [raise_pwr, htriggers]
      rfl

theorem coreShutdown_temps (s : State) (was : Bool) : (coreShutdown s was).pwr.temps = s.pwr.temps := by
  have hends (t : State) : (endFrames (allChans.foldl disableChannel (mpAtOnce t))).pwr = t.pwr := by
    have hkept := (disableAll_period allChans (mpAtOnce t)).trans (mpAtOnce_period t)
    generalize allChans.foldl disableChannel (mpAtOnce t) = u at hkept
    have hframes : (endFrames u).pwr = u.pwr := by
      rw [endFrames]
      split
      · rfl
      · split
        · rfl
        · split
          · rfl
          · rfl
    rw [hframes, hkept.pwr]
  rw [coreShutdown]
  split
  · rfl
  · split
    · rw [hends]
      rfl
    · rw [raise_pwr, hends]
      rfl

theorem readTemps_temps {s : State} {temps : List (BitVec 16)} (h : temps.length = 44) : (readTemps s temps).pwr.temps = temps.map some := by
  have hbanks (t : State) : (allBanks.foldl bankShutdown t).pwr = t.pwr :=
    foldl_related (R := fun s t => t.pwr = s.pwr) (fun _ => rfl) (fun k l => k.trans l) bankShutdown_pwr allBanks t
  have hraise (c : Prop) [Decidable c] (t : State) : (if c then raise t 285 else t).pwr = t.pwr := by
    split
    · exact raise_pwr ..
    · rfl
  have hlist : (List.range 44).map (fun i => temps[i]?) = temps.map some := by
    refine List.ext_getElem? fun i => ?_
    rw [List.getElem?_map, List.getElem?_map]
    by_cases hi : i < 44
    · have hlt : i < temps.length := h.symm ▸ hi
      simp [List.getElem?_range hi, hlt]
    · rw [List.getElem?_eq_none (by simpa using hi), List.getElem?_eq_none (by rw [h]; omega)]
      rfl
  rw [readTemps]
  rw [coreShutdown_temps, hbanks, hraise]
  exact (warnStep_temps _).trans hlist

/-! ### Vigil -/

/-- What the steps into vigil before the pace falls leave alone. -/
structure VigilKeeps (t s : State) : Prop where
  pwr : t.pwr = s.pwr
  mm : t.mm = s.mm
  queues : t.queues = s.queues

theorem VigilKeeps.refl (s : State) : VigilKeeps s s := ⟨rfl, rfl, rfl⟩

theorem VigilKeeps.trans {u t s : State} (h : VigilKeeps u t) (k : VigilKeeps t s) : VigilKeeps u s :=
  ⟨h.pwr.trans k.pwr, h.mm.trans k.mm, h.queues.trans k.queues⟩

theorem foldl_vigil {α : Type} {f : State → α → State} (hf : ∀ s a, VigilKeeps (f s a) s) (l : List α) (s : State) : VigilKeeps (l.foldl f s) s :=
  foldl_related (R := fun s t => VigilKeeps t s) VigilKeeps.refl (fun h k => h.trans k) hf l s

theorem askClose_vigil (s : State) (n : Chan) (tick status : Nat) : VigilKeeps (askClose s n tick status) s := ⟨rfl, rfl, rfl⟩

/-- The parts of the channels' units that the way into vigil marks. -/
def unitsMarked (s : State) : State :=
  (List.finRange 136).foldl (fun s (i : Fin 136) =>
    let u : Fin 144 := ⟨i.val, by omega⟩
    if s.ht.units[u].en && s.ht.units[u].cfg.inp then markPart s u else s) s

theorem unitsMarked_keeps (s : State) : VigilKeeps (unitsMarked s) s := by
  refine foldl_vigil (fun u i => ?_) _ s
  dsimp only
  split
  · exact ⟨rfl, rfl, rfl⟩
  · exact .refl u

/-- The closes and the marks of the way into vigil. -/
def vigilMarked (s : State) : State :=
  let t := unitsMarked (allChans.foldl (fun s n => askClose s n (nextSample s) 6) s)
  { t with chans := t.chans.map fun c => { c with cmpA := enterM3 c.cmpA, cmpB := enterM3 c.cmpB } }

theorem vigilMarked_keeps (s : State) : VigilKeeps (vigilMarked s) s := by
  have hcloses : VigilKeeps (allChans.foldl (fun s n => askClose s n (nextSample s) 6) s) s := foldl_vigil (fun t n => askClose_vigil t n _ 6) allChans s
  rw [vigilMarked]
  generalize allChans.foldl (fun s n => askClose s n (nextSample s) 6) s = t at hcloses
  have hmarks := (unitsMarked_keeps t).trans hcloses
  generalize unitsMarked t = u at hmarks
  exact ⟨hmarks.pwr, hmarks.mm, hmarks.queues⟩

theorem enterVigil_keeps (s : State) :
    VigilKeeps (enterVigil s) (updPwr (vigilMarked s) fun p => { paceTo { p with paceBefore := p.set } p.lowest with vigil := true, ddrReady := false }) := by
  have heq : enterVigil s = allLanes.foldl (fun s k => if s.lanes[k].en then sleepLane s k 2 else s)
    (updPwr (vigilMarked s) fun p => { paceTo { p with paceBefore := p.set } p.lowest with vigil := true, ddrReady := false }) := rfl
  rw [heq]
  refine foldl_vigil (fun t k => ?_) allLanes _
  split
  · exact ⟨(sleepLane_link t k 2).pwr, (sleepLane_link t k 2).mm, (sleepLane_link t k 2).queues⟩
  · exact .refl t

theorem paceTo_free {p : Power} (hns : p.regns = false) (hflt : p.regflt = false) (mv : Nat) : paceTo p mv = { p with set := mv } := by
  rw [paceTo]
  exact if_neg (by simp [hns, hflt])

theorem wakeVigil_asleep {s : State} (h : s.pwr.vigil = true) (cause : Nat) : wakeVigil s cause = { s with
    pwr := { paceTo s.pwr s.pwr.paceBefore with vigil := false, wake := cause, ddrReady := false }
    chans := s.chans.map fun c => { c with cmpA := leaveM3 c.cmpA, cmpB := leaveM3 c.cmpB
                                           meas := { c.meas with since := 0, aperture := none, trigPending := false } } } := by
  rw [wakeVigil]
  exact if_neg (by simp [h])

theorem paceTo_before (p : Power) (mv : Nat) : (paceTo p mv).paceBefore = p.paceBefore := by
  rw [paceTo]
  split
  · rfl
  · rfl

section
variable {s : State} (p : Path)

theorem vigil_enters (hv : s.pwr.vigil = false) (hr : s.fw.recovery = false) (hno : vigilRefused s = false) :
    Completes (.vigil p) s fun u => u.pwr.vigil = true ∧ u.pwr.ddrReady = false ∧ u.pwr.paceBefore = s.pwr.set ∧ u.mm = s.mm ∧ u.queues = s.queues := by
  have hrun : exec (.vigil p) s = .next (enterVigil s) := by
    rw [exec, execVigil, accessed_running hr, vigilCmd, hv, hno]
    rfl
  refine completes_of hrun ?_
  have hkept := enterVigil_keeps s
  generalize enterVigil s = t at hkept
  obtain ⟨hpwr, hmm, hq⟩ := hkept
  have hmarked := vigilMarked_keeps s
  generalize vigilMarked s = v at hpwr hmm hq hmarked
  obtain ⟨hpwr', hmm', hq'⟩ := hmarked
  rw [hpwr, hmm, hq]
  refine ⟨rfl, rfl, ?_, hmm', hq'⟩
  have hbefore : (paceTo { v.pwr with paceBefore := v.pwr.set } v.pwr.lowest).paceBefore = s.pwr.set := by
    rw [paceTo_before, hpwr']
  exact hbefore

theorem run_wakes (hv : s.pwr.vigil = true) (hr : s.fw.recovery = false) (hns : s.pwr.regns = false) (hflt : s.pwr.regflt = false) :
    Completes (.run p) s fun u => u.pwr = { s.pwr with set := s.pwr.paceBefore, vigil := false, wake := 3, ddrReady := false } ∧ u.mm = s.mm ∧ u.tb = s.tb := by
  have hrun : exec (.run p) s = .next (wakeVigil s 3) := by
    rw [exec, execRun, accessed_running hr]
    rfl
  refine completes_of hrun ?_
  rw [wakeVigil_asleep hv, paceTo_free hns hflt]
  exact ⟨rfl, rfl, rfl⟩

end

theorem vigilWakeTimer_wakes {s : State} (hv : s.pwr.vigil = true) (ht : s.pwr.wakeTimer = true) (hlt : s.tb.now < s.pwr.wakeT)
    (hn : s.pwr.wakeT + 4 ≤ nextSample s) :
    Completes .vigilWakeTimer s fun u => u.tb = { s.tb with now := s.pwr.wakeT } ∧ u.pwr.vigil = false ∧ u.pwr.wake = 4 := by
  have hreach : reach s s.pwr.wakeT = some { s with tb := { s.tb with now := s.pwr.wakeT } } := by
    rw [reach, if_neg (by omega)]
    exact if_pos hn
  have hrun : timerWake s = wakeVigil { s with tb := { s.tb with now := s.pwr.wakeT } } 4 := by
    rw [timerWake, hv, ht, hreach]
    rfl
  refine completes_of (congrArg Host.Outcome.next hrun) ?_
  rw [wakeVigil_asleep (s := { s with tb := { s.tb with now := s.pwr.wakeT } }) hv]
  exact ⟨rfl, rfl, rfl⟩

/-- Settles O41: the regulator's transactions and the pace by their cases, the rest through what its steps leave alone. -/
theorem powerAndVigil : Obligations.PowerAndVigil := by
  unfold Obligations.PowerAndVigil
  refine ⟨fun s => ⟨rfl, rfl, fun fault h => ⟨?_, fun v => ?_⟩, fun fault h => ⟨?_, fun v => ?_⟩, rfl, fun v hman hv hns hflt h1 h2 => ?pace⟩,
    fun s p => ⟨fun h hc => powerBudgetPeriod_computes h hc, fun temps h => ⟨_, rfl, readTemps_temps h⟩, fun hv hr hno => ?refused,
      vigil_enters p, run_wakes p, vigilWakeTimer_wakes, fun hv => ?ready⟩⟩
  · rw [exec, execRegulatorStatusPoll, statusPoll_failed, pmbusDone_fails h]
  · rw [paceStep_failed, pmbusDone_fails h]
  · rw [exec, execRegulatorStatusPoll, statusPoll_failed, pmbusDone_third h]
  · rw [paceStep_failed, pmbusDone_third h]
  case pace =>
    have hbusy (h : mpSaturated s.fw = true ∨ ∃ t, s.pwr.lastStall = some t ∧ s.tb.now < t + 1600000) :
        (mpSaturated s.fw || stalledWithin { s.pwr with pmbusFails := 0, readVout := v } s.tb.now 1600000) = true := by
      rw [Bool.or_eq_true, stalledWithin_iff]
      exact h
    refine ⟨fun hb hcool hroom => ?_, fun hb hno => ?_, fun hidle hload hstall hroom => ?_⟩
    · rw [paceStep_done]
      exact congrArg (fun q => Host.Outcome.next { s with pwr := q })
        (paceMove_up (p := { s.pwr with pmbusFails := 0, readVout := v }) hman hv hns hflt h1 h2 (hbusy hb) hcool hroom)
    · rw [paceStep_done]
      exact congrArg (fun q => Host.Outcome.next { s with pwr := q })
        (paceMove_held (p := { s.pwr with pmbusFails := 0, readVout := v }) hman hv h1 h2 (hbusy hb) hno)
    · rw [paceStep_done]
      exact congrArg (fun q => Host.Outcome.next { s with pwr := q })
        (paceMove_down (p := { s.pwr with pmbusFails := 0, readVout := v }) hman hv hns hflt h1 h2 hidle hload hstall hroom)
  case refused =>
    rw [exec, execVigil, accessed_running hr, vigilCmd, hv, hno]
    rfl
  case ready => rw [exec, execVigilDdrReady, hv]; rfl

end Sys2Proof.Machine
end

section
/-!
PROOFS. O42: requests of the calibration (R397 to R399, R411, R412).
-/
namespace Sys2Proof.Machine

/-! ### What leaves the calibration of a channel alone -/

theorem updChan_cal {s : State} {m : Chan} {f : Channel → Channel} (h : ∀ c, (f c).cal = c.cal) (n : Chan) : (updChan s m f).chans[n].cal = s.chans[n].cal := by
  rw [updChan_get]
  split
  · next e => rw [h, e]
  · rfl

theorem updMeas_cal (s : State) (m : Chan) (f : Measure → Measure) (n : Chan) : (updMeas s m f).chans[n].cal = s.chans[n].cal := by
  rw [updMeas]
  refine updChan_cal ?_ n
  exact fun _ => rfl

theorem updForce_cal (s : State) (m : Chan) (f : Force → Force) (n : Chan) : (updForce s m f).chans[n].cal = s.chans[n].cal := by
  rw [updForce]
  refine updChan_cal ?_ n
  exact fun _ => rfl

theorem updCal_self (s : State) (n : Chan) (f : Calib → Calib) : (updCal s n f).chans[n].cal = f s.chans[n].cal := by
  rw [updCal, updChan_get, if_pos rfl]

theorem updCal_force (s : State) (m : Chan) (f : Calib → Calib) (n : Chan) : (updCal s m f).chans[n].force = s.chans[n].force := by
  rw [updCal, updChan_get]
  split
  · next e => rw [e]
  · rfl

theorem setRelief_self (s : State) (b : Bank) (r : Option Relief) : (setRelief s b r).reliefs[b] = r := by
  simp [setRelief]

/-! ### Requests -/

theorem calCommand_awake {s : State} (h : s.pwr.vigil = false) (p : Path) (n : Chan) (a : CalAsk) :
    calCommand s p n a = updPath (calRequest s n a).2 p fun k => { k with calStatus := some (calRequest s n a).1 } := by
  rw [calCommand, wakeVigil, h]
  rfl

theorem calCommand_refused {s : State} {n : Chan} {a : CalAsk} {code : Nat} (h : s.pwr.vigil = false) (p : Path) (hc : calRefusal s n a = code) (h0 : code ≠ 0) :
    calCommand s p n a = updPath s p fun k => { k with calStatus := some code } := by
  rw [calCommand_awake h, calRequest, hc]
  dsimp only
  rw [if_neg h0]

theorem calCommand_accepted {s : State} {n : Chan} {a : CalAsk} (h : s.pwr.vigil = false) (p : Path) (hc : calRefusal s n a = 0) :
    calCommand s p n a = updPath (calAccept s n a) p fun k => { k with calStatus := some 0 } := by
  rw [calCommand_awake h, calRequest, hc]
  rfl

/-- A run of a channel at rest starts at once. -/
theorem beginRun_cal (s : State) (n : Chan) :
    (beginRun s n).chans[n].cal = { s.chans[n].cal with phase := .run, step := .precheck, epoch := s.fw.calEpoch } := by
  rw [beginRun, updCal_self, updMeas_cal]
  have hunits (t : State) : (markPart (markPart t (unitV n)) (unitI n)).chans = t.chans := rfl
  rw [hunits, askClose, updMeas_cal]
  rfl

theorem beginTakeover_starts (s : State) (n : Chan) (forRun : Bool) :
    (beginTakeover s n forRun).chans[n].cal.phase = .takeover
      ∧ (beginTakeover s n forRun).reliefs[bankOf n] = some ⟨slotOf n, .bringUp, { s.chans[n].force.applied with staged := none }, 0, 0, forRun⟩ := by
  rw [beginTakeover]
  refine ⟨?_, ?_⟩
  · rw [updCal_self]
  · rw [updCal]
    exact setRelief_self ..

theorem beginHandback_starts {s : State} {b : Bank} {r : Relief} {n : Chan} (hn : chanAt b r.slot = n) (h : modeBlocked s n = false) :
    (beginHandback s b r).chans[n].cal.phase = .handback ∧ (beginHandback s b r).reliefs[b] = some { r with phase := .backUp } := by
  subst hn
  rw [beginHandback]
  dsimp only
  rw [h, if_neg Bool.false_ne_true]
  refine ⟨?_, ?_⟩
  · rw [updCal_self]
  · rw [updCal]
    exact setRelief_self ..

section
variable {s : State} {n : Chan} (p : Path) (hv : s.pwr.vigil = false)
include hv

/-- An accepted run on a channel that needs no relief. -/
theorem run_starts (a : CalAsk) (ha : a.isRun = true) (hc : calRefusal s n a = 0) (hn : needsRelief s n a = false) :
    ∃ t, calCommand s p n a = t ∧ (t.path p).calStatus = some 0
      ∧ t.chans[n].cal = { s.chans[n].cal with full := a == .full, handback := false, phase := .run, step := .precheck, epoch := s.fw.calEpoch } := by
  refine ⟨_, calCommand_accepted hv p hc, ?_, ?_⟩
  · rw [updPath_path_self]
  · have hrun : calAccept s n a = beginRun (updCal s n fun c => { c with full := a == .full, handback := false }) n := by
      cases a
      case full =>
        rw [← hn]
        exact if_neg (ne_true_of_eq_false hn)
      case quick =>
        rw [← hn]
        exact if_neg (ne_true_of_eq_false hn)
      case relieve => exact absurd ha (by decide)
      case ret => exact absurd ha (by decide)
    change (calAccept s n a).chans[n].cal = _
    rw [hrun, beginRun_cal, updCal_self]
    rfl

end

/-- Settles O42: a request is refused with its code, or it starts what it asks for. -/
theorem calibrationRequests : Obligations.CalibrationRequests := by
  unfold Obligations.CalibrationRequests
  intro s p n hv status
  refine ⟨fun code h0 => ⟨fun hc => ?full, fun hc => ?quick, fun hc => ?relieve, fun hc => ?ret⟩, fun hc hn => ?runFull, fun hc hn => ?runQuick,
    fun hc => ?takeover, fun r hc hr hn hb => ?handback⟩
  case full => exact congrArg Host.Outcome.next (calCommand_refused hv p hc h0)
  case quick => exact congrArg Host.Outcome.next (calCommand_refused hv p hc h0)
  case relieve => exact congrArg Host.Outcome.next (calCommand_refused hv p hc h0)
  case ret => exact congrArg Host.Outcome.next (calCommand_refused hv p hc h0)
  case runFull =>
    obtain ⟨t, hrun, hstatus, hcal⟩ := run_starts p hv .full rfl hc hn
    exact ⟨t, congrArg Host.Outcome.next hrun, hstatus, hcal⟩
  case runQuick =>
    obtain ⟨t, hrun, hstatus, hcal⟩ := run_starts p hv .quick rfl hc hn
    exact ⟨t, congrArg Host.Outcome.next hrun, hstatus, hcal⟩
  case takeover =>
    refine ⟨_, congrArg Host.Outcome.next (calCommand_accepted hv p hc), ?_⟩
    obtain ⟨hphase, hrelief⟩ := beginTakeover_starts s n false
    exact ⟨congrArg PathRegs.calStatus (updPath_path_self ..), hphase, hrelief⟩
  case handback =>
    have hback : calAccept s n .ret = beginHandback s (bankOf n) r := by
      rw [calAccept]
      simp only [hr]
    have hstart := beginHandback_starts hn hb
    have hrun := calCommand_accepted hv p hc
    rw [hback] at hrun
    exact ⟨_, congrArg Host.Outcome.next hrun, congrArg PathRegs.calStatus (updPath_path_self ..), hstart⟩

end Sys2Proof.Machine
end

section
/-!
PROOFS. O43: calibration runs, their results and stores, and the phases of a relief (R401 to R404, R408, R411, R412).
-/
namespace Sys2Proof.Machine

/-! ### Runs -/

/-- A run that needs no handback ends with a code. -/
theorem finishRun_alone {s : State} {n : Chan} (code : Nat) (h : s.chans[n].cal.handback = false) :
    finishRun s n code = updCal s n (endRun s.chans[n].force.relieved code) := by
  rw [finishRun, h, Bool.false_and]
  split
  · rfl
  · rfl

/-- The calibration of a channel whose run has ended, where no takeover is under way. -/
theorem endRun_ended {c : Calib} {relieved : Bool} {code : Nat} (h : c.phase ≠ .takeover) :
    (endRun relieved code c).last = code ∧ (endRun relieved code c).phase = if relieved then .relieved else .idle := by
  refine ⟨rfl, ?_⟩
  change (if relieved then CalPhase.relieved else if (c.phase == .takeover) = true then .takeover else .idle) = _
  rw [if_neg (c := (c.phase == CalPhase.takeover) = true) (by simpa using h)]

/-- A run that has nothing to write ends with its slots as they are. -/
theorem endRun_slots {c : Calib} {relieved : Bool} {code : Nat} (h : c.storing = none) : (endRun relieved code c).slots = c.slots := by
  rw [endRun, h]
  rfl

theorem setInForce_endRun {c : Calib} {relieved : Bool} {code : Nat} (h : c.storing = none) : setInForce (endRun relieved code c) = setInForce c := by
  rw [setInForce, endRun_slots h]
  rfl

theorem finishRun_cal {s : State} {n : Chan} {code : Nat} (h : s.chans[n].cal.handback = false) (hp : s.chans[n].cal.phase ≠ .takeover) :
    (finishRun s n code).chans[n].cal.last = code
      ∧ (finishRun s n code).chans[n].cal.phase = (if s.chans[n].force.relieved then .relieved else .idle) := by
  rw [finishRun_alone code h, updCal_self]
  exact endRun_ended hp

theorem precheckFails_iff (raws : List (Int × Int)) : precheckFails raws = true ↔
    2000 * 5000 * 2 ^ 23 < (raws.map Prod.fst).sum.natAbs * 2500000 ∨ 2000 * 50 * 2 ^ 23 < (raws.map Prod.snd).sum.natAbs * 1000 := by
  rw [precheckFails]
  simp only [Bool.or_eq_true, decide_eq_true_eq]
  omega

section
variable {s : State} {n : Chan}

theorem precheckEnd_judges (raws : List (Int × Int)) (hp : s.chans[n].cal.phase = .run) (hs : s.chans[n].cal.step = .precheck) :
    precheckEnd s n raws = if precheckFails raws then finishRun s n 0x10 else updCal s n fun c => { c with step := .adc } := by
  rw [precheckEnd, hp, hs]
  rfl

theorem runEnd_phase (hp : s.chans[n].cal.phase = .run) : runEnd s n .phaseEnd = updCal s n fun c => { c with step := nextStep c.full c.step } := by
  rw [runEnd.eq_def]
  simp only [hp]

theorem runEnd_results (r : CalResult) (hp : s.chans[n].cal.phase = .run) (hs : s.chans[n].cal.step = .check) : runEnd s n (.results r) = runResults s n r := by
  rw [runEnd.eq_def]
  simp only [hp, hs, beq_self_eq_true, if_true]

theorem runEnd_stored {t : CalSet} (fails : Nat) (hp : s.chans[n].cal.phase = .store) (ht : s.chans[n].cal.storing = some t) :
    runEnd s n (.stored fails) = runStored s n t fails := by
  rw [runEnd.eq_def]
  simp only [hp, ht]

end

/-! ### Stores -/

theorem noteCflag_chan (s : State) (n : Chan) (i tick : Nat) (m : Chan) :
    (noteCflag s n i tick).chans[m].force = s.chans[m].force ∧ (noteCflag s n i tick).chans[m].cal = s.chans[m].cal := by
  rw [noteCflag]
  split
  · exact ⟨rfl, rfl⟩
  · rw [updChan_get]
    split
    · next e => rw [e]; exact ⟨rfl, rfl⟩
    · exact ⟨rfl, rfl⟩

theorem updForce_get (s : State) (n m : Chan) (f : Force → Force) : (updForce s n f).chans[m].force = if m = n then f s.chans[n].force else s.chans[m].force := by
  rw [updForce, updChan_get]
  split
  · rfl
  · rfl

theorem storeSet_keeps (c : Calib) (new : CalSet) (fails : Nat) :
    (storeSet c new fails).phase = c.phase ∧ (storeSet c new fails).storing = c.storing ∧ (storeSet c new fails).handback = c.handback := by
  rw [storeSet]
  split
  · exact ⟨rfl, rfl, rfl⟩
  · exact ⟨rfl, rfl, rfl⟩

/-- The force path of a channel whose set is stored. -/
def takeStored (new : CalSet) (old trim : Int) (f : Force) : Force := { takeSafety new.safety f with trim := if trim = old then f.trim else trim }

/-- A set is stored: its slots come to the calibration, and its safety record to the force path. -/
theorem storeOn_chan (s : State) (n : Chan) (new : CalSet) (fails : Nat) :
    (storeOn s n new fails).chans[n].cal = storeSet s.chans[n].cal new fails
      ∧ (storeOn s n new fails).chans[n].force.relieved = s.chans[n].force.relieved := by
  have hstored := updCal_self s n fun c => storeSet c new fails
  have hforce := congrArg Force.relieved (updCal_force s n (fun c => storeSet c new fails) n)
  rw [storeOn]
  generalize updCal s n (fun c => storeSet c new fails) = t at hstored hforce
  generalize htrim : loopTrim s.chans[n].cal = old
  cases setWritten fails
  · exact ⟨hstored, hforce⟩
  · have hget := updForce_get t n n (takeStored new old (loopTrim t.chans[n].cal))
    have hcal := updForce_cal t n (takeStored new old (loopTrim t.chans[n].cal)) n
    rw [if_pos rfl] at hget
    obtain ⟨hf, hc⟩ := noteCflag_chan (updInterval (updForce t n (takeStored new old (loopTrim t.chans[n].cal))) fun v => { v with calchg := true }) n 2
      t.tb.now n
    exact ⟨(hc.trans hcal).trans hstored, ((congrArg Force.relieved hf).trans (congrArg Force.relieved hget)).trans hforce⟩

section
variable {c : Calib} {new : CalSet} {fails : Nat}

theorem storeSet_passes (h : fails < 2) (hlen : c.slots.length = 2) :
    (storeSet c new fails).slot = 1 - c.slot
      ∧ setInForce (storeSet c new fails) = some { new with seq := topSeq c + 1, calcnt := ((setInForce c).getD {}).calcnt + 1 } := by
  have hw : setWritten fails = true := decide_eq_true h
  rw [storeSet, hw]
  have hin : 1 - c.slot < 2 := by omega
  refine ⟨rfl, ?_⟩
  simp [setInForce, otherSlot, hlen, hin]

theorem storeSet_fails (h : 2 ≤ fails) (hslot : c.slot < 2) (hlen : c.slots.length = 2) :
    (storeSet c new fails).slot = c.slot ∧ setInForce (storeSet c new fails) = setInForce c ∧ (storeSet c new fails).slots[1 - c.slot]? = some none := by
  have hw : setWritten fails = false := decide_eq_false (by omega)
  have hne : 1 - c.slot ≠ c.slot := by omega
  have hin : 1 - c.slot < 2 := by omega
  rw [storeSet, hw]
  refine ⟨rfl, ?_, ?_⟩
  · simp [setInForce, otherSlot, List.getElem?_set_ne hne]
  · simp [otherSlot, hlen, hin]

end

theorem runStored_ends {s : State} {n : Chan} {new : CalSet} (fails : Nat) (hp : s.chans[n].cal.phase = .store) (hb : s.chans[n].cal.handback = false) :
    let stored := storeSet { s.chans[n].cal with storing := none } new fails
    let code := if setWritten fails then 0 else 0x16
    (runStored s n new fails).chans[n].cal = endRun s.chans[n].force.relieved code stored ∧ stored.phase ≠ .takeover ∧ stored.storing = none := by
  intro stored code
  obtain ⟨hphase, hstoring, hback⟩ := storeSet_keeps { s.chans[n].cal with storing := none } new fails
  obtain ⟨hcal, hrel⟩ := storeOn_chan (updCal s n fun c => { c with storing := none }) n new fails
  rw [updCal_self] at hcal
  rw [updCal_force] at hrel
  refine ⟨?_, ?_, hstoring⟩
  · rw [runStored, finishRun_alone _ ((congrArg Calib.handback hcal).trans (hback.trans hb)), updCal_self, hrel, hcal]
  · change (storeSet { s.chans[n].cal with storing := none } new fails).phase ≠ .takeover
    rw [hphase]
    change s.chans[n].cal.phase ≠ .takeover
    rw [hp]
    decide

/-! ### Reliefs -/

/-- What the switches and the ramps of a relief look at and set in a force path. -/
def reliefView (f : Force) : Bool × Bool × Bool := (f.fltLatch, f.relieved, f.oen)

/-- What leaves the reliefs and what they look at alone. -/
structure ReliefKeeps (t s : State) : Prop where
  reliefs : t.reliefs = s.reliefs
  view : ∀ m : Chan, reliefView t.chans[m].force = reliefView s.chans[m].force

theorem ReliefKeeps.trans {u t s : State} (h : ReliefKeeps u t) (k : ReliefKeeps t s) : ReliefKeeps u s :=
  ⟨h.reliefs.trans k.reliefs, fun m => (h.view m).trans (k.view m)⟩

theorem updChan_relief {s : State} {n : Chan} {f : Channel → Channel} (h : ∀ c, reliefView (f c).force = reliefView c.force) : ReliefKeeps (updChan s n f) s where
  reliefs := rfl
  view m := by
    rw [updChan_get]
    split
    · next e => rw [h, e]
    · rfl

theorem noteCflag_relief (s : State) (n : Chan) (i tick : Nat) : ReliefKeeps (noteCflag s n i tick) s where
  reliefs := by
    rw [noteCflag]
    split
    · rfl
    · rfl
  view m := congrArg reliefView (noteCflag_chan ..).1

theorem updCtx_relief (s : State) (n : Chan) (x : Ctx) (f : Context → Context) : ReliefKeeps (updCtx s n x f) s := by
  rw [updCtx, updGraver]
  exact updChan_relief fun _ => rfl

theorem updFirmware_relief (s : State) (n : Chan) (f : Intent → Intent) : ReliefKeeps (updFirmware s n f) s := by
  have hctx := updCtx_relief s n 3 fun k => { k with intent := f k.intent }
  rw [updFirmware, updIntent]
  generalize updCtx s n 3 (fun k => { k with intent := f k.intent }) = t at hctx ⊢
  have happlied : ReliefKeeps (updForce t n fun p => { p with applied := f p.applied }) t := by
    rw [updForce]
    exact updChan_relief fun _ => rfl
  split
  · exact happlied.trans hctx
  · exact hctx

theorem requestInert_relief (s : State) (n : Chan) (who : Option Ctx) : ReliefKeeps (requestInert s n who) s := by
  rw [requestInert, updForce]
  exact updChan_relief fun _ => rfl

theorem haltCtx_relief (s : State) (n : Chan) (x : Ctx) : ReliefKeeps (haltCtx s n x) s := by
  rw [haltCtx, updGraver]
  refine ReliefKeeps.trans (updChan_relief fun _ => rfl) ((updCtx_relief ..).trans ⟨rfl, fun _ => rfl⟩)

theorem chanAt_ne_relief {b : Bank} {slot : Nat} (h : slot < 16) : chanAt b slot ≠ chanAt b 16 := by
  rw [chanAt, chanAt, if_pos h, if_neg (by decide)]
  intro e
  have hv := congrArg Fin.val e
  have hb := b.isLt
  dsimp only at hv
  omega

/-- Both switches of a relief. -/
theorem setRelieved_view {s : State} {b : Bank} {r : Relief} (h : r.slot < 16) (v : Bool) :
    reliefView (setRelieved s b r v).chans[chanAt b r.slot].force =
        (s.chans[chanAt b r.slot].force.fltLatch, v, s.chans[chanAt b r.slot].force.oen)
      ∧ (setRelieved s b r v).chans[chanAt b 16].force.relieved = v ∧ (setRelieved s b r v).reliefs = s.reliefs := by
  rw [setRelieved]
  rw [updForce_get, if_neg (chanAt_ne_relief h), updForce_get, if_pos rfl, updForce_get, if_pos rfl]
  exact ⟨rfl, rfl, rfl⟩

section
variable {s : State} {b : Bank} {r : Relief}

/-- The flags and the slew of a relief whose switches are made. -/
def reliefNoted (s : State) (b : Bank) (r : Relief) : State :=
  let u := setRelieved s b r true
  updFirmware (noteCflag (noteCflag u (chanAt b r.slot) 0 u.tb.now) (chanAt b 16) 0 u.tb.now) (chanAt b 16) fun i => { i with slew := r.captured.slew }

theorem reliefNoted_keeps (s : State) (b : Bank) (r : Relief) : ReliefKeeps (reliefNoted s b r) (setRelieved s b r true) := by
  rw [reliefNoted]
  exact (updFirmware_relief ..).trans ((noteCflag_relief ..).trans (noteCflag_relief ..))

theorem reliefMade_isolates (hr : s.reliefs[b] = some r) (hslot : r.slot < 16) (hp : r.phase = .switching) (hd : switchesDone s b r = true)
    (hf : s.chans[chanAt b r.slot].force.fltLatch = false) (hm : r.captured.mode = .meas) :
    reliefMade s b = setRelief (updForce (reliefNoted s b r) (chanAt b r.slot) oenLow) b (some { r with phase := .isolating }) := by
  have hlatch : (reliefNoted s b r).chans[chanAt b r.slot].force.fltLatch = false := by
    have hview := (reliefNoted_keeps s b r).view (chanAt b r.slot)
    rw [(setRelieved_view hslot true).1] at hview
    exact (congrArg Prod.fst hview).trans hf
  rw [reliefMade]
  simp only [hr]
  rw [hp, hd, hm]
  change (if (reliefNoted s b r).chans[chanAt b r.slot].force.fltLatch then _ else _) = _
  rw [hlatch]
  rfl

theorem reliefSwitchMade_isolates (hr : s.reliefs[b] = some r) (hslot : r.slot < 16) (hp : r.phase = .switching) (hd : switchesDone s b r = true)
    (hf : s.chans[chanAt b r.slot].force.fltLatch = false) (hm : r.captured.mode = .meas) :
    Completes (.reliefSwitchMade b) s fun t => t.reliefs[b] = some { r with phase := .isolating }
      ∧ t.chans[chanAt b r.slot].force.relieved = true ∧ t.chans[chanAt b 16].force.relieved = true ∧ t.chans[chanAt b r.slot].force.oen = false := by
  refine ⟨_, congrArg Host.Outcome.next (reliefMade_isolates hr hslot hp hd hf hm), ?_⟩
  obtain ⟨hmain, hrelief, -⟩ := setRelieved_view (s := s) (b := b) hslot true
  obtain ⟨-, hview⟩ := reliefNoted_keeps s b r
  have hself := updForce_get (reliefNoted s b r) (chanAt b r.slot) (chanAt b r.slot) oenLow
  have hother := updForce_get (reliefNoted s b r) (chanAt b r.slot) (chanAt b 16) oenLow
  rw [if_pos rfl] at hself
  rw [if_neg (chanAt_ne_relief hslot).symm] at hother
  refine ⟨setRelief_self .., ?_, ?_, congrArg Force.oen hself⟩
  · exact (congrArg Force.relieved hself).trans (congrArg (fun v => v.2.1) ((hview (chanAt b r.slot)).trans hmain))
  · exact (congrArg Force.relieved hother).trans ((congrArg (fun v => v.2.1) (hview (chanAt b 16))).trans hrelief)

theorem reliefRampEnd_isolates (hr : s.reliefs[b] = some r) (hp : r.phase = .ramp) (ht : 400 ≤ r.rampTick) :
    Completes (.reliefRampEnd b) s fun t => t.reliefs[b] = some { r with phase := .isolating } ∧ t.chans[chanAt b r.slot].force.oen = false := by
  have hrun : reliefRamped s b = setRelief (updForce (updFirmware s (chanAt b 16) fun i => { i with slew := r.captured.slew }) (chanAt b r.slot) oenLow) b
      (some { r with phase := .isolating }) := by
    rw [reliefRamped]
    simp only [hr, hp]
    rw [if_neg (by omega)]
  refine ⟨_, congrArg Host.Outcome.next hrun, setRelief_self .., ?_⟩
  have hself := updForce_get (updFirmware s (chanAt b 16) fun i => { i with slew := r.captured.slew }) (chanAt b r.slot) (chanAt b r.slot) oenLow
  rw [if_pos rfl] at hself
  exact congrArg Force.oen hself

theorem reliefRampEnd_toMode (hr : s.reliefs[b] = some r) (hp : r.phase = .backRamp) (ht : 400 ≤ r.rampTick) :
    Completes (.reliefRampEnd b) s fun t => t.reliefs[b] = some { r with phase := .toMode } := by
  have hrun : reliefRamped s b = setRelief (updFirmware (updFirmware s (chanAt b 16) fun i => { i with slew := r.captured.slew }) (chanAt b r.slot)
      fun i => { i with slew := r.captured.slew }) b (some { r with phase := .toMode }) := by
    rw [reliefRamped]
    simp only [hr, hp]
    rw [if_neg (by omega)]
  exact ⟨_, congrArg Host.Outcome.next hrun, setRelief_self ..⟩

theorem reliefBroken_releases (hr : s.reliefs[b] = some r) (hp : r.phase = .releasing) (hd : switchesDone s b r = true) :
    reliefBroken s b = updCal (haltCtx (haltCtx (setRelief (requestInert (updFirmware (setRelieved s b r false) (chanAt b 16) (·.withMode .inert))
      (chanAt b 16) none) b none) (chanAt b 16) 3) (chanAt b r.slot) 3) (chanAt b r.slot) fun c => { c with phase := .idle } := by
  have hno : ¬(r.phase != .releasing || !switchesDone s b r) = true := by
    rw [hp, hd]
    decide
  rw [reliefBroken]
  simp only [hr]
  rw [if_neg hno]

theorem reliefSwitchBroken_ends (hr : s.reliefs[b] = some r) (hslot : r.slot < 16) (hp : r.phase = .releasing) (hd : switchesDone s b r = true) :
    Completes (.reliefSwitchBroken b) s fun t => t.reliefs[b] = none ∧ t.chans[chanAt b r.slot].force.relieved = false
      ∧ t.chans[chanAt b 16].force.relieved = false ∧ t.chans[chanAt b r.slot].cal.phase = .idle := by
  have hrun := reliefBroken_releases hr hp hd
  refine ⟨_, congrArg Host.Outcome.next hrun, ?_⟩
  obtain ⟨hmain, hrelief, -⟩ := setRelieved_view (s := s) (b := b) hslot false
  have hinert := (requestInert_relief (updFirmware (setRelieved s b r false) (chanAt b 16) (·.withMode .inert)) (chanAt b 16) none).trans (updFirmware_relief ..)
  generalize requestInert (updFirmware (setRelieved s b r false) (chanAt b 16) (·.withMode .inert)) (chanAt b 16) none = u at hinert ⊢
  have hhalt := (haltCtx_relief (haltCtx (setRelief u b none) (chanAt b 16) 3) (chanAt b r.slot) 3).trans (haltCtx_relief ..)
  generalize haltCtx (haltCtx (setRelief u b none) (chanAt b 16) 3) (chanAt b r.slot) 3 = v at hhalt ⊢
  have hview (m : Chan) : (updCal v (chanAt b r.slot) fun c => { c with phase := .idle }).chans[m].force.relieved = (setRelieved s b r false).chans[m].force.relieved :=
    (congrArg Force.relieved (updCal_force v _ _ m)).trans (congrArg (fun w => w.2.1) ((hhalt.view m).trans (hinert.view m)))
  refine ⟨?_, (hview _).trans (congrArg (fun w => w.2.1) hmain), (hview _).trans hrelief, congrArg Calib.phase (updCal_self ..)⟩
  have hnone : v.reliefs[b] = (setRelief u b none).reliefs[b] := congrArg (fun w : Vector (Option Relief) 4 => w[b]) hhalt.reliefs
  exact hnone.trans (setRelief_self ..)

end

/-- Settles O43: each event of a run, of a store and of a relief through the phase that it ends. -/
theorem calibrationRunsAndReliefs : Obligations.CalibrationRunsAndReliefs := by
  unfold Obligations.CalibrationRunsAndReliefs
  intro s n b c ended
  refine ⟨fun raws _ hp hs => ⟨fun hno => ?adc, fun hyes hb => ?tooHigh⟩, fun hp => congrArg Host.Outcome.next (runEnd_phase hp),
    fun r hp hs => ⟨fun h0 => ?passes, fun h0 hb => ?limit⟩, fun new fails hp ht hb hslot hlen => ⟨fun hf => ?stored, fun hf => ?unwritten⟩,
    fun r hr hslot => ⟨reliefSwitchMade_isolates hr hslot, reliefRampEnd_isolates hr, reliefRampEnd_toMode hr, reliefSwitchBroken_ends hr hslot⟩⟩
  case adc =>
    have hpass : precheckFails raws = false := Bool.eq_false_iff.2 fun h => hno ((precheckFails_iff raws).1 h)
    have hrun := precheckEnd_judges raws hp hs
    rw [hpass] at hrun
    exact congrArg Host.Outcome.next hrun
  case tooHigh =>
    have hrun := precheckEnd_judges raws hp hs
    rw [(precheckFails_iff raws).2 hyes] at hrun
    refine ⟨_, congrArg Host.Outcome.next hrun, finishRun_cal hb (by rw [hp]; decide), ?_⟩
    rw [if_pos rfl, finishRun_alone 0x10 hb, updCal_self]
    rfl
  case passes =>
    have hrun := runEnd_results r hp hs
    rw [runResults, h0] at hrun
    exact congrArg Host.Outcome.next hrun
  case limit =>
    have hrun := runEnd_results r hp hs
    rw [runResults] at hrun
    rw [if_pos (bne_iff_ne.2 h0)] at hrun
    exact ⟨_, congrArg Host.Outcome.next hrun, finishRun_cal hb (by rw [hp]; decide)⟩
  case stored =>
    obtain ⟨hcal, hphase, hnone⟩ := runStored_ends (new := new) fails hp hb
    obtain ⟨hnew, hforce⟩ := storeSet_passes (c := { s.chans[n].cal with storing := none }) (new := new) hf hlen
    refine ⟨_, congrArg Host.Outcome.next (runEnd_stored fails hp ht), ?_⟩
    have hw : setWritten fails = true := decide_eq_true hf
    rw [hw, if_pos rfl] at hcal
    obtain ⟨hlast, hph⟩ := endRun_ended (relieved := s.chans[n].force.relieved) (code := 0) hphase
    refine ⟨⟨(congrArg Calib.last hcal).trans hlast, (congrArg Calib.phase hcal).trans hph⟩, (congrArg Calib.slot hcal).trans hnew, ?_⟩
    rw [hcal, setInForce_endRun hnone]
    exact hforce
  case unwritten =>
    obtain ⟨hcal, hphase, hnone⟩ := runStored_ends (new := new) fails hp hb
    obtain ⟨hold, hforce, hgone⟩ := storeSet_fails (c := { s.chans[n].cal with storing := none }) (new := new) hf hslot hlen
    refine ⟨_, congrArg Host.Outcome.next (runEnd_stored fails hp ht), ?_⟩
    have hw : setWritten fails = false := decide_eq_false (by omega)
    rw [hw, if_neg Bool.false_ne_true] at hcal
    obtain ⟨hlast, hph⟩ := endRun_ended (relieved := s.chans[n].force.relieved) (code := 0x16) hphase
    refine ⟨⟨(congrArg Calib.last hcal).trans hlast, (congrArg Calib.phase hcal).trans hph⟩, (congrArg Calib.slot hcal).trans hold, ?_, ?_⟩
    · rw [hcal, setInForce_endRun hnone]
      exact hforce
    · rw [hcal, endRun_slots hnone]
      exact hgone

end Sys2Proof.Machine
end

section
/-!
PROOFS. What the boot, the choice of a slot and the host ports leave alone (R416, R443, R447, R450, R455).
-/
namespace Sys2Proof.Machine

/-! ### The directory of the flash -/

/-- Two states of the firmware that differ in the directory and in the count of writes. -/
def SameButDir (g f : Firmware) : Prop :=
  g = { f with dir := g.dir, dirsValid := g.dirsValid, dirs := g.dirs, dirCopy := g.dirCopy, writes := g.writes }

theorem SameButDir.refl (f : Firmware) : SameButDir f f := rfl

theorem SameButDir.trans {h g f : Firmware} (k : SameButDir h g) (l : SameButDir g f) : SameButDir h f := by
  unfold SameButDir at *
  rw [k, l]

theorem SameButDir.ite {c : Prop} [Decidable c] {h g f : Firmware} (k : SameButDir h f) (l : SameButDir g f) : SameButDir (if c then h else g) f := by
  split
  · exact k
  · exact l

theorem writeDir_same (f : Firmware) (g : Directory → Directory) : SameButDir (writeDir f g) f := by
  rw [writeDir]
  exact .ite rfl rfl

theorem readDirs_same (f : Firmware) : SameButDir (readDirs f) f := by
  rw [readDirs]
  split
  · rfl
  · rfl

theorem endJournal_same (f : Firmware) : SameButDir (endJournal f) f := by
  rw [endJournal]
  exact .ite (writeDir_same ..) (.refl f)

theorem withoutDir_same (f : Firmware) : SameButDir (withoutDir f).1 f := by
  have h : ∃ g o, withoutDir f = (writeDir f g, o) := by
    rw [withoutDir]
    split
    · exact ⟨_, _, rfl⟩
    · split
      · exact ⟨_, _, rfl⟩
      · exact ⟨_, _, rfl⟩
  obtain ⟨g, o, hg⟩ := h
  rw [hg]
  exact writeDir_same f g

theorem pickSlot_same (f : Firmware) : SameButDir (pickSlot f).1 f := by
  rw [pickSlot]
  split
  · split
    · exact writeDir_same ..
    · exact writeDir_same ..
  · exact .refl f

theorem verifySlot_same (f : Firmware) (b : Bool) : SameButDir (verifySlot f b).1 f := by
  rw [verifySlot]
  split
  · exact .refl f
  · dsimp only
    split
    · split
      · exact (writeDir_same ..).trans (writeDir_same ..)
      · exact (writeDir_same ..).trans (writeDir_same ..)
    · exact writeDir_same ..

theorem chooseSlot_same (f : Firmware) : SameButDir (chooseSlot f).1 f := by
  have hread := readDirs_same f
  rw [chooseSlot]
  generalize readDirs f = g at hread ⊢
  have hpick := (pickSlot_same (endJournal g)).trans ((endJournal_same g).trans hread)
  dsimp only
  split
  · exact (withoutDir_same g).trans hread
  · split
    · exact (verifySlot_same ..).trans hpick
    · exact hpick

/-- What a rise of the security version counter leaves alone. -/
def SameButSvn (g f : Firmware) : Prop :=
  g = { f with svnCnt := g.svnCnt, svnSlot := g.svnSlot, svnSlots := g.svnSlots, writes := g.writes }

theorem writeSvn_same (f : Firmware) (v : Nat) : SameButSvn (writeSvn f v) f := by
  have hback : SameButSvn (if (readBack f).1 then readBack f else readBack (readBack f).2).2 f := by
    split
    · rfl
    · rfl
  rw [writeSvn]
  generalize (if (readBack f).1 then readBack f else readBack (readBack f).2) = r at hback ⊢
  unfold SameButSvn at *
  dsimp only
  split
  · rw [hback]
  · rw [hback]

theorem writeSvn_counts (f : Firmware) (v : Nat) : (writeSvn f v).svnCnt = v ∨ (writeSvn f v).svnCnt = f.svnCnt := by
  have hback : (if (readBack f).1 then readBack f else readBack (readBack f).2).2.svnCnt = f.svnCnt := by
    split
    · rfl
    · rfl
  rw [writeSvn]
  generalize (if (readBack f).1 then readBack f else readBack (readBack f).2) = r at hback ⊢
  dsimp only
  split
  · exact .inl rfl
  · exact .inr hback

theorem raiseSvn_same (f : Firmware) : SameButSvn (raiseSvn f) f := by
  rw [raiseSvn]
  split
  · split
    · exact writeSvn_same ..
    · rfl
  · rfl

/-- The counter never falls. -/
theorem raiseSvn_rises (f : Firmware) : f.svnCnt ≤ (raiseSvn f).svnCnt := by
  rw [raiseSvn]
  split
  · split
    · next b _ hlt =>
      rcases writeSvn_counts f (imageSvn (f.slot b)) with h | h
      · rw [h]
        exact Nat.le_of_lt hlt
      · exact Nat.le_of_eq h.symm
    · exact Nat.le_refl _
  · exact Nat.le_refl _

/-! ### Lanes that start and stop -/

/-- Two states that differ in the lanes, in reports and in holdover. -/
def SameButLinks (t s : State) : Prop :=
  t = { s with
    tb := { s.tb with holdover := t.tb.holdover }, lanes := t.lanes, tr := t.tr, hht := { s.hht with events := t.hht.events, out := t.hht.out }
    pf := { s.pf with interval := t.pf.interval }, ht := { s.ht with holdover := t.ht.holdover }, fw := { s.fw with ltssm := t.fw.ltssm } }

namespace SameButLinks
variable {u t s : State}

theorem refl (s : State) : SameButLinks s s := rfl

theorem trans (h : SameButLinks u t) (k : SameButLinks t s) : SameButLinks u s := by
  unfold SameButLinks at *
  rw [h, k]

theorem ite {c : Prop} [Decidable c] (ht : SameButLinks t s) (hu : SameButLinks u s) : SameButLinks (if c then t else u) s := by
  split
  · exact ht
  · exact hu

section
variable (h : SameButLinks t s)
include h
theorem pending : t.pending = s.pending := by rw [h]
theorem now : t.tb.now = s.tb.now := by rw [h]
theorem chans : t.chans = s.chans := by rw [h]
theorem mm : t.mm = s.mm := by rw [h]
theorem queues : t.queues = s.queues := by rw [h]
theorem pwr : t.pwr = s.pwr := by rw [h]
theorem pf : t.pf = { s.pf with interval := t.pf.interval } := by rw [h]
theorem fw : t.fw = { s.fw with ltssm := t.fw.ltssm } := by rw [h]
theorem live : t.hht.live = s.hht.live := by rw [h]
end

end SameButLinks

/-- What a report leaves of the HHT session. -/
def SameButEvents (t s : State) : Prop := t.hht = { s.hht with events := t.hht.events, out := t.hht.out }

theorem SameButEvents.trans {u t s : State} (h : SameButEvents u t) (k : SameButEvents t s) : SameButEvents u s := by
  unfold SameButEvents at *
  rw [h, k]

theorem sendVector_events (s : State) (v : Nat) : SameButEvents (sendVector s v) s := by
  rw [sendVector]
  split
  · rfl
  · unfold SameButEvents
    dsimp only
    split
    · rfl
    · rfl

theorem raiseIm_events (s : State) (src : Nat) : SameButEvents (raiseIm s src) s := by
  rw [raiseIm]
  split
  · dsimp only
    split
    · exact (sendVector_events ..).trans rfl
    · rfl
  · rfl

theorem raiseTrips_events (fuel : Nat) : ∀ (trips : Nat) (s : State), SameButEvents (raiseTrips fuel trips s) s := by
  induction fuel with
  | zero => exact fun _ _ => rfl
  | succ fuel ih =>
    intro trips s
    cases trips with
    | zero => rfl
    | succ trips =>
      simp only [raiseTrips]
      exact (ih ..).trans (SameButEvents.trans rfl (raiseIm_events s 303))

theorem raiseAt_events (s : State) (src : Nat) (d : Option Nat) : SameButEvents (raiseAt s src d) s := by
  rw [raiseAt]
  exact (raiseTrips_events ..).trans (SameButEvents.trans (t := raiseIm s src) rfl (raiseIm_events s src))

theorem raiseAt_links (s : State) (src : Nat) (d : Option Nat) : SameButLinks (raiseAt s src d) s := by
  have hrest := raiseAt_same s src d
  have hevents := raiseAt_events s src d
  unfold SameButReport at hrest
  unfold SameButEvents at hevents
  generalize raiseAt s src d = t at hrest hevents ⊢
  unfold SameButLinks
  rw [hrest, hevents]

theorem noteAlign_links (s : State) : SameButLinks (noteAlign s) s := by
  unfold noteAlign SameButLinks
  dsimp only
  split
  · rfl
  · rfl

theorem updLane_links (s : State) (k : Lane) (f : LaneState → LaneState) : SameButLinks (updLane s k f) s := rfl

theorem enterHoldover_links (s : State) : SameButLinks (enterHoldover s) s := by
  rw [enterHoldover]
  exact .ite (.refl s) ((raiseAt_links ..).trans ((noteAlign_links ..).trans rfl))

theorem setLState_links (s : State) (k : Lane) (st : LState) : SameButLinks (setLState s k st) s := by
  rw [setLState]
  dsimp only
  refine .ite (.refl s) (.ite ((enterHoldover_links ..).trans ?_) ?_)
  all_goals exact (noteAlign_links ..).trans ((raiseAt_links ..).trans (updLane_links ..))

theorem stopLink_links (s : State) (k : Lane) (st : LState) : SameButLinks (stopLink s k st) s := by
  rw [stopLink]
  exact (setLState_links ..).trans (updLane_links ..)

theorem sendBlock_links (s : State) (k : Lane) (b : BitVec 64) : SameButLinks (sendBlock s k b) s := by
  rw [sendBlock]
  exact updLane_links ..

theorem seek_links (s : State) (k : Lane) : SameButLinks (seek s k) s := by
  rw [seek]
  refine .ite ?_ (.refl s)
  rw [sendTrain]
  exact (sendBlock_links ..).trans (updLane_links ..)

theorem beginCycle_links (s : State) (k : Lane) : SameButLinks (beginCycle s k) s := by
  rw [beginCycle, beginAttempt]
  exact (seek_links ..).trans ((updLane_links ..).trans ((updLane_links ..).trans (setLState_links ..)))

theorem startLink_links (s : State) (k : Lane) : SameButLinks (startLink s k) s := by
  rw [startLink]
  exact .ite (.refl s) (.ite (beginCycle_links ..) (setLState_links ..))

theorem takeEq_links (s : State) (k : Lane) : SameButLinks (takeEq s k) s := by
  rw [takeEq]
  exact updLane_links ..

theorem hostLane0_links (s : State) : SameButLinks (hostLane0 s) s := by
  rw [hostLane0]
  exact (startLink_links ..).trans ((takeEq_links ..).trans (updLane_links ..))

theorem enableHost_links (s : State) (k : Lane) (proto : Nat) : SameButLinks (enableHost s k proto) s := by
  rw [enableHost]
  exact .ite (.refl s) ((startLink_links ..).trans ((takeEq_links ..).trans (updLane_links ..)))

theorem leaveRecovery_links (s : State) : SameButLinks (leaveRecovery s) s := by
  rw [leaveRecovery]
  exact .ite ((updLane_links ..).trans (stopLink_links ..)) (.refl s)

theorem startLink_tb {s : State} {k : Lane} (h : s.lanes[k].proto ≠ 6) : (startLink s k).tb = s.tb := by
  rw [startLink]
  split
  · rfl
  · rw [if_neg (show ¬ s.lanes[k].proto = protoSibia from h)]
    exact setLState_tb .down h

theorem hostLane0_tb (s : State) : (hostLane0 s).tb = s.tb := by
  have hproto : (takeEq (updLane s 0 fun l => { l with en := true, proto := 2, hostp := true }) 0).lanes[(0 : Lane)].proto ≠ 6 := by
    rw [takeEq]
    rw [updLane_self, updLane_self]
    change (2 : Nat) ≠ 6
    decide
  rw [hostLane0, startLink_tb hproto]
  rfl

theorem stopLink_tb {s : State} {k : Lane} (st : LState) (h : s.lanes[k].proto ≠ 6) : (stopLink s k st).tb = s.tb := by
  rw [stopLink, setLState_tb st (by rw [updLane_self]; exact h)]
  rfl

end Sys2Proof.Machine
end

section
/-!
PROOFS. O44: PORN, the start of the firmware, host-ready and the warm restart (R332 to R342, R442 to R449, R455 to R459).
-/
namespace Sys2Proof.Machine

/-! ### A full reset -/

section
variable (s : State)

theorem fullReset_chan (n : Chan) : (fullReset s).chans[n] = resetChan (resetTrust s.pf).bootCnt n.val s.chans[n] := by
  simp [fullReset]

/-- A channel after a full reset. -/
theorem resetChan_force (boot n : Nat) (c : Channel) :
    (resetChan boot n c).force.mode = .inert ∧ (resetChan boot n c).force.fltLatch = false ∧ (resetChan boot n c).force.oen = false
      ∧ (resetChan boot n c).force.dac = (resetChan boot n c).force.safety.park ∧ (resetChan boot n c).graver = {} :=
  ⟨rfl, rfl, rfl, rfl, rfl⟩

/-- The current index slot as a power-up finds it. -/
def currentIndex (p : Trust) : IndexSlot := (newestSlot p.slots).getD ⟨p.slotSeq, p.bound, p.bootCnt, 0⟩

theorem resetTrust_slot (p : Trust) (i : Fin 64) (h : i.val = ((currentIndex p).seq + 1) % 64) :
    (resetTrust p).slots[i] = some ⟨(currentIndex p).seq + 1, (resetTrust p).bound, (currentIndex p).boot + 1,
      slotCheck ((currentIndex p).seq + 1) (resetTrust p).bound ((currentIndex p).boot + 1)⟩ := by
  have hslots : (resetTrust p).slots = p.slots.set (((currentIndex p).seq + 1) % 64)
      (some ⟨(currentIndex p).seq + 1, (resetTrust p).bound, (currentIndex p).boot + 1,
        slotCheck ((currentIndex p).seq + 1) (resetTrust p).bound ((currentIndex p).boot + 1)⟩) (Nat.mod_lt _ (by decide)) := rfl
  rw [hslots]
  simp [h]

end

/-! ### The boot ROM -/

theorem enterRecovery_fresh {s : State} (h : s.fw.recovery = false) : enterRecovery s =
    hostLane0 (updLane (stopLink (updHht (updFw s fun f => { f with recovery := true, running := false, chosen := false, ready := false })
      fun h => { h with port := 18520 }) 0 .off) 0 fun l => { sigdet := l.sigdet, downs := l.downs }) := by
  rw [enterRecovery, h]
  rfl

/-- What the boot ROM changes beside the firmware: a lane, reports and the HHT port. -/
structure BootKeeps (t s : State) : Prop where
  pending : t.pending = s.pending
  chans : t.chans = s.chans
  mem : t.mm.mem = s.mm.mem
  queues : t.queues = s.queues
  pf : t.pf = { s.pf with interval := t.pf.interval }
  live : t.hht.live = s.hht.live

theorem BootKeeps.trans {u t s : State} (h : BootKeeps u t) (k : BootKeeps t s) : BootKeeps u s where
  pending := h.pending.trans k.pending
  chans := h.chans.trans k.chans
  mem := h.mem.trans k.mem
  queues := h.queues.trans k.queues
  pf := by rw [h.pf, k.pf]
  live := h.live.trans k.live

theorem SameButLinks.boot {t s : State} (h : SameButLinks t s) : BootKeeps t s := ⟨h.pending, h.chans, congrArg Memory.mem h.mm, h.queues, h.pf, h.live⟩

theorem updFw_boot (s : State) (f : Firmware → Firmware) : BootKeeps (updFw s f) s := ⟨rfl, rfl, rfl, rfl, rfl, rfl⟩

/-- The firmware's registers of recovery mode. -/
structure FwKeeps (g f : Firmware) : Prop where
  porn : g.porn = f.porn
  straps : g.straps = f.straps
  restarting : g.restarting = f.restarting
  update : g.update = f.update

theorem SameButDir.keeps {g f : Firmware} (h : SameButDir g f) : FwKeeps g f := by
  rw [h]
  exact ⟨rfl, rfl, rfl, rfl⟩

theorem enterRecovery_boot (s : State) : BootKeeps (enterRecovery s) s ∧ FwKeeps (enterRecovery s).fw s.fw ∧ (enterRecovery s).fw.recovery = true := by
  have hbase : BootKeeps (updHht (updFw s fun f => { f with recovery := true, running := false, chosen := false, ready := false }) fun h => { h with port := 18520 }) s :=
    ⟨rfl, rfl, rfl, rfl, rfl, rfl⟩
  rw [enterRecovery]
  split
  · exact ⟨hbase, ⟨rfl, rfl, rfl, rfl⟩, rfl⟩
  · have hlinks := (hostLane0_links _).trans ((updLane_links (stopLink (updHht (updFw s fun f => { f with
        recovery := true, running := false, chosen := false, ready := false }) fun h => { h with port := 18520 }) 0 .off) 0
        fun l => { sigdet := l.sigdet, downs := l.downs }).trans (stopLink_links ..))
    refine ⟨hlinks.boot.trans hbase, ?_, ?_⟩
    · rw [hlinks.fw]
      exact ⟨rfl, rfl, rfl, rfl⟩
    · rw [hlinks.fw]
      rfl

theorem leaveRecovery_fresh {s : State} (h : s.fw.recovery = false) : leaveRecovery s = s := if_neg (ne_true_of_eq_false h)

/-- The boot ROM on a device that is not in recovery mode. -/
theorem bootRom_keeps {s : State} (recovery : Bool) (h : s.fw.recovery = false) (hl : s.lanes[(0 : Lane)].proto = 0) :
    BootKeeps (bootRom s recovery) s ∧ (bootRom s recovery).tb = s.tb ∧ (bootRom s recovery).fw.porn = s.fw.porn
      ∧ (bootRom s recovery).fw.straps = s.fw.straps := by
  have hsame := chooseSlot_same s.fw
  have hrec : (chooseSlot s.fw).1.recovery = false := by rw [hsame]; exact h
  obtain ⟨hporn, hstraps, -, -⟩ := hsame.keeps
  have henter : BootKeeps (enterRecovery { s with fw := (chooseSlot s.fw).1 }) s ∧ (enterRecovery { s with fw := (chooseSlot s.fw).1 }).tb = s.tb
      ∧ (enterRecovery { s with fw := (chooseSlot s.fw).1 }).fw.porn = s.fw.porn ∧ (enterRecovery { s with fw := (chooseSlot s.fw).1 }).fw.straps = s.fw.straps := by
    obtain ⟨hboot, hfw, -⟩ := enterRecovery_boot { s with fw := (chooseSlot s.fw).1 }
    refine ⟨hboot.trans ⟨rfl, rfl, rfl, rfl, rfl, rfl⟩, ?_, hfw.porn.trans hporn, hfw.straps.trans hstraps⟩
    rw [enterRecovery_fresh hrec, hostLane0_tb, updLane_tb, stopLink_tb]
    · rfl
    · change s.lanes[(0 : Lane)].proto ≠ 6
      rw [hl]
      decide
  unfold bootRom
  dsimp only
  split
  · rw [leaveRecovery_fresh h]
    exact ⟨updFw_boot .., rfl, hporn, hstraps⟩
  · exact henter

theorem powerOnReset_starts {s : State} (straps : Straps) (h : s.fw.porn = false) :
    Completes (.powerOnReset straps) s fun t =>
      t.fw.porn = true ∧ t.fw.straps = straps ∧ t.pf.bootCnt = (currentIndex s.pf).boot + 1 ∧ t.pf.sigNext = (currentIndex s.pf).bound
        ∧ t.pf.bound = min (2 ^ 40) ((currentIndex s.pf).bound + 16384) ∧ t.pf.slotSeq = (currentIndex s.pf).seq + 1 ∧ t.pf.owner = s.pf.owner
        ∧ (∀ i : Fin 64, i.val = ((currentIndex s.pf).seq + 1) % 64 → t.pf.slots[i] = some ⟨(currentIndex s.pf).seq + 1, t.pf.bound,
            (currentIndex s.pf).boot + 1, slotCheck ((currentIndex s.pf).seq + 1) t.pf.bound ((currentIndex s.pf).boot + 1)⟩)
        ∧ t.tb = State.reset.tb ∧ t.queues = State.reset.queues ∧ t.mm.mem = [] ∧ t.pending = s.pending
        ∧ ∀ n : Chan, t.chans[n].force.mode = .inert ∧ t.chans[n].force.fltLatch = false ∧ t.chans[n].force.oen = false
            ∧ t.chans[n].force.dac = t.chans[n].force.safety.park ∧ t.chans[n].graver = {} := by
  have hlane : (fullReset s).lanes[(0 : Lane)].proto = 0 := by simp [fullReset]
  obtain ⟨hboot, htb, hporn, hstraps⟩ := bootRom_keeps (s := updFw (fullReset s) fun f => { f with porn := true, straps := straps }) straps.recovery rfl hlane
  have hrun : powerOn s straps = bootRom (updFw (fullReset s) fun f => { f with porn := true, straps := straps }) straps.recovery := by
    rw [powerOn, h]
    rfl
  refine ⟨_, congrArg Host.Outcome.next hrun, ?_⟩
  generalize bootRom (updFw (fullReset s) fun f => { f with porn := true, straps := straps }) straps.recovery = t at hboot htb hporn hstraps
  have hpf : t.pf = { resetTrust s.pf with interval := t.pf.interval } := hboot.pf
  rw [hboot.chans, hboot.pending, hboot.mem, hboot.queues, hpf, hporn, hstraps, htb]
  refine ⟨rfl, rfl, rfl, rfl, rfl, rfl, rfl, fun i hi => resetTrust_slot s.pf i hi, rfl, rfl, rfl, rfl, fun n => ?_⟩
  have hchan : (updFw (fullReset s) fun f => { f with porn := true, straps := straps }).chans[n] = resetChan (resetTrust s.pf).bootCnt n.val s.chans[n] :=
    fullReset_chan s n
  rw [hchan]
  exact resetChan_force ..

theorem pornLow_holds (s : State) : Completes .pornLow s fun t =>
    t.fw.porn = false ∧ t.pf.owner = s.pf.owner ∧ t.pf.bound = s.pf.bound ∧ t.pf.bootCnt = s.pf.bootCnt ∧ t.mm.mem = []
      ∧ t.tb = State.reset.tb ∧ t.pending = s.pending
      ∧ ∀ n : Chan, t.chans[n].force.fltLatch = true ∧ t.chans[n].force.fcause = 6 ∧ t.chans[n].force.oen = false
          ∧ t.chans[n].force.dac = t.chans[n].force.safety.fault := by
  refine ⟨holdReset s, rfl, rfl, rfl, rfl, rfl, rfl, rfl, rfl, fun n => ?_⟩
  have hchan : (holdReset s).chans[n] = heldChan (fullReset s).chans[n] := by simp [holdReset]
  rw [hchan, fullReset_chan]
  exact ⟨rfl, rfl, rfl, rfl⟩

/-! ### The firmware starts -/

theorem firmwareStart_runs {s : State} (hp : s.fw.porn = true) (hc : s.fw.chosen = true) (hr : s.fw.running = false) :
    Completes .firmwareStart s fun t => t = { s with fw := t.fw } ∧ t.fw.running = true ∧ t.fw.chosen = false ∧ s.fw.svnCnt ≤ t.fw.svnCnt
      ∧ t.fw.version = word (flashField (s.fw.slot s.fw.runB) 8 4) := by
  have hsvn := raiseSvn_rises (loadImage s.fw s.fw.runB)
  have hsame := raiseSvn_same (loadImage s.fw s.fw.runB)
  have hrun : startFirmware s = updFw s fun f =>
      let g := raiseSvn (loadImage f f.runB)
      { g with running := true, chosen := false, trialStart := if g.dir.state g.runB == .trial then some s.tb.now else none } := by
    rw [startFirmware, hp, hc, hr]
    rfl
  refine ⟨_, congrArg Host.Outcome.next hrun, rfl, rfl, rfl, hsvn, ?_⟩
  change (raiseSvn (loadImage s.fw s.fw.runB)).version = _
  rw [hsame]
  rfl

end Sys2Proof.Machine
end

section
/-!
PROOFS. O44: host-ready, the warm restart and its end (R449, R455 to R459).
-/
namespace Sys2Proof.Machine

/-! ### Host-ready -/

/-- What the firmware leaves as it becomes ready: the counter, the board it has read, and the queues below a bound. -/
structure ReadyKeeps (t s : State) : Prop where
  now : t.tb.now = s.tb.now
  board : t.fw.board = s.fw.board
  boarddef : t.fw.boarddef = s.fw.boarddef
  queues : ∀ q : Fin 256, q.val < 69 → t.queues[q] = s.queues[q]

theorem ReadyKeeps.refl (s : State) : ReadyKeeps s s := ⟨rfl, rfl, rfl, fun _ _ => rfl⟩

theorem ReadyKeeps.trans {u t s : State} (h : ReadyKeeps u t) (k : ReadyKeeps t s) : ReadyKeeps u s where
  now := h.now.trans k.now
  board := h.board.trans k.board
  boarddef := h.boarddef.trans k.boarddef
  queues q hq := (h.queues q hq).trans (k.queues q hq)

theorem ReadyKeeps.ite {c : Prop} [Decidable c] {t u s : State} (ht : ReadyKeeps t s) (hu : ReadyKeeps u s) : ReadyKeeps (if c then t else u) s := by
  split
  · exact ht
  · exact hu

theorem SameButLinks.ready {t s : State} (h : SameButLinks t s) : ReadyKeeps t s where
  now := h.now
  board := by rw [h.fw]
  boarddef := by rw [h.fw]
  queues q _ := by rw [h.queues]

theorem withHold_ready {s : State} {f : State → State} (h : ReadyKeeps (f s) s) : ReadyKeeps (withHold s f) s := by
  rw [withHold_rest]
  exact ⟨h.now, h.board, h.boarddef, h.queues⟩

theorem runSessions_ready (s : State) : ReadyKeeps (runSessions s) s := by
  have hclose : ReadyKeeps (closeSession s) s := by
    rw [closeSession]
    refine .ite (.refl s) ((withHold_ready ?_).trans (t := noteSession s) ?_)
    · exact ⟨rfl, rfl, rfl, fun _ _ => rfl⟩
    · exact ⟨rfl, rfl, rfl, fun _ _ => rfl⟩
  rw [runSessions, startSession]
  exact .ite (.ite ⟨rfl, rfl, rfl, fun _ _ => rfl⟩ (.refl s)) hclose

/-- The state with the board record read. -/
def boardRead (s : State) : State := updFw s fun f => { f with board := readBoard s.fw.boardFlash, boarddef := (readBoard s.fw.boardFlash).isNone }

/-- The sessions of Plates with a board record. -/
def boardSessions (s : State) (b : Board) (ma mb : Nat) : State :=
  runSessions (withHold (updMm (boardRead s) fun m =>
    { m with maGib := if (ddrLimit b.ddrMa).isSome then ma else 0, mbGib := if (ddrLimit b.ddrMb).isSome then mb else 0 })
    fun s => updPl s fun p => { p with deten := b.deten })

theorem boardSessions_ready (s : State) (b : Board) (ma mb : Nat) :
    ReadyKeeps (updHht (updTb (boardSessions s b ma mb) fun t => { t with asym := (b.asym[t.lane.toNat]?).getD 0 }) fun h => { h with port := b.hhtPort }) (boardRead s) := by
  have hsess : ReadyKeeps (boardSessions s b ma mb) (boardRead s) := by
    refine (runSessions_ready _).trans ((withHold_ready ?_).trans ?_)
    · exact ⟨rfl, rfl, rfl, fun _ _ => rfl⟩
    · exact ⟨rfl, rfl, rfl, fun _ _ => rfl⟩
  exact ⟨hsess.now, hsess.board, hsess.boarddef, hsess.queues⟩

theorem applyBoard_ready (s : State) (ma mb : Nat) : ReadyKeeps (applyBoard s ma mb) (boardRead s) := by
  rw [applyBoard]
  split
  · refine (hostLane0_links _).ready.trans ((runSessions_ready _).trans ?_)
    exact withHold_ready ⟨rfl, rfl, rfl, fun _ _ => rfl⟩
  · next b _ =>
    refine ReadyKeeps.trans (foldl_related (R := fun s t => ReadyKeeps t s) ReadyKeeps.refl (fun h k => h.trans k)
      (fun s k => ((enableHost_links ..).trans (takeEq_links ..)).ready) allLanes _) ?_
    exact boardSessions_ready ..

/-- The board record in the log. -/
def boardLogged (s : State) : State :=
  match s.fw.board with
  | some b => updFw s fun f => logAdd f 2 b.boardId.toNat
  | none => s

theorem logAdd_board (f : Firmware) (kind value : Nat) : (logAdd f kind value).board = f.board ∧ (logAdd f kind value).boarddef = f.boarddef := by
  rw [logAdd]
  exact ⟨rfl, rfl⟩

theorem updFw_ready {s : State} {g : Firmware → Firmware} (hb : (g s.fw).board = s.fw.board) (hd : (g s.fw).boarddef = s.fw.boarddef) :
    ReadyKeeps (updFw s g) s := ⟨rfl, hb, hd, fun _ _ => rfl⟩

theorem boardLogged_ready (s : State) : ReadyKeeps (boardLogged s) s := by
  rw [boardLogged]
  split
  · exact updFw_ready (logAdd_board ..).1 (logAdd_board ..).2
  · exact .refl s

/-- What placing the firmware's queues leaves. -/
structure PlaceKeeps (t s : State) : Prop where
  ready : ReadyKeeps t s
  pwr : t.pwr = s.pwr

theorem PlaceKeeps.trans {u t s : State} (h : PlaceKeeps u t) (k : PlaceKeeps t s) : PlaceKeeps u s := ⟨h.ready.trans k.ready, h.pwr.trans k.pwr⟩

/-- The place of one of the firmware's queues. -/
def placeOne (s : State) (q : Fin 256) : State :=
  let c := Config.queuePlace q.val
  if 15760 ≤ c.1 && c.1 + c.2 ≤ 16384 && c.2 != 0 && !overlapsQueue s q c.1 c.2 then updQueue s q fun k => { k with base := c.1, size := c.2 } else s

theorem placeOne_keeps (s : State) {q : Fin 256} (h : 69 ≤ q.val) : PlaceKeeps (placeOne s q) s := by
  have hplaced (k : Queue → Queue) : PlaceKeeps (updQueue s q k) s :=
    ⟨⟨rfl, rfl, rfl, fun r hr => Vector.getElem_set_ne q.isLt r.isLt (by omega)⟩, rfl⟩
  rw [placeOne]
  split
  · exact hplaced _
  · exact ⟨.refl s, rfl⟩

theorem placeQueues_keeps (s : State) : PlaceKeeps (placeQueues s) s := by
  have hall : ∀ (l : List (Fin 256)), (∀ q ∈ l, 69 ≤ q.val) → ∀ s : State, PlaceKeeps (l.foldl placeOne s) s := by
    intro l
    induction l with
    | nil => exact fun _ s => ⟨.refl s, rfl⟩
    | cons q l ih =>
      intro h s
      exact (ih (fun r hr => h r (List.mem_cons_of_mem _ hr)) (placeOne s q)).trans (placeOne_keeps s (h q (List.mem_cons_self ..)))
  exact hall _ (fun q hq => of_decide_eq_true (List.mem_filter.1 hq).2) s

theorem loadSettings_ready (s : State) : ReadyKeeps (loadSettings s) s ∧ (loadSettings s).pwr = s.pwr := by
  have hfw : (loadSettings s).fw.board = s.fw.board ∧ (loadSettings s).fw.boarddef = s.fw.boarddef := by
    rw [loadSettings, updFw]
    dsimp only
    split
    · exact ⟨rfl, rfl⟩
    · split
      · exact ⟨rfl, rfl⟩
      · exact ⟨rfl, rfl⟩
  exact ⟨⟨rfl, hfw.1, hfw.2, fun _ _ => rfl⟩, rfl⟩

theorem paceTo_regns (p : Power) (mv : Nat) : (paceTo p mv).regns = p.regns := by
  rw [paceTo]
  split
  · rfl
  · rfl

/-- The board record taken, logged, and the regulator at its pace. -/
def regulated (s : State) (linear : Bool) (ma mb : Nat) : State :=
  updPwr (boardLogged (applyBoard s ma mb)) fun p =>
    paceTo { p with regns := !linear } (paceGrid { p with regns := !linear }.lowest { p with regns := !linear }.highest { p with regns := !linear }.set)

theorem becomeReady_runs {s : State} (linear : Bool) (ma mb : Nat) (hr : s.fw.running = true) (hn : s.fw.ready = false) (hw : s.fw.restarting = false) :
    becomeReady s linear ma mb = updFw (copyLibrary (loadSettings (placeQueues (regulated s linear ma mb)))) fun f => { f with ready := true } := by
  rw [becomeReady, hr, hn, hw]
  rfl

theorem hostReady_ready {s : State} (linear : Bool) (ma mb : Nat) (hr : s.fw.running = true) (hn : s.fw.ready = false) (hw : s.fw.restarting = false) :
    Completes (.hostReady linear ma mb) s fun t =>
      t.fw.ready = true ∧ t.pwr.regns = !linear ∧ t.fw.board = readBoard s.fw.boardFlash ∧ t.fw.boarddef = (readBoard s.fw.boardFlash).isNone
        ∧ t.tb.now = s.tb.now ∧ ∀ q : Fin 256, q.val < 69 → t.queues[q] = s.queues[q] := by
  obtain ⟨hset, hspwr⟩ := loadSettings_ready (placeQueues (regulated s linear ma mb))
  obtain ⟨hplace, hppwr⟩ := placeQueues_keeps (regulated s linear ma mb)
  have hlog : ReadyKeeps (boardLogged (applyBoard s ma mb)) (boardRead s) :=
    (boardLogged_ready _).trans (applyBoard_ready ..)
  have hreg : ReadyKeeps (regulated s linear ma mb) (boardRead s) := ⟨hlog.now, hlog.board, hlog.boarddef, hlog.queues⟩
  have hns : (regulated s linear ma mb).pwr.regns = !linear := paceTo_regns ..
  have hall := hset.trans (hplace.trans hreg)
  refine ⟨_, congrArg Host.Outcome.next (becomeReady_runs linear ma mb hr hn hw), ?_⟩
  generalize regulated s linear ma mb = u at *
  generalize placeQueues u = v at *
  generalize loadSettings v = w at *
  exact ⟨rfl, (congrArg Power.regns (hspwr.trans hppwr)).trans hns, hall.board, hall.boarddef, hall.now, hall.queues⟩

/-! ### The warm restart -/

theorem fallBack_same (f : Firmware) : SameButDir (fallBack f).1 f := by
  rw [fallBack]
  have htrial : SameButDir (if ((f.running || f.chosen) && f.dir.state f.runB == .trial) then writeDir f (setSlot f.runB .failed 0) else f) f :=
    .ite (writeDir_same ..) (.refl f)
  exact .ite ((writeDir_same ..).trans htrial) htrial

/-- Whether a restart falls back: from a running trial, or from an activation that its journal names. -/
theorem fallBack_falls (f : Firmware) :
    (fallBack f).2 = true ↔ ((f.running = true ∨ f.chosen = true) ∧ f.dir.state f.runB = .trial) ∨ f.dir.journal = true := by
  rw [fallBack]
  by_cases h : ((f.running || f.chosen) && f.dir.state f.runB == .trial) = true
  · have htrial : (f.running = true ∨ f.chosen = true) ∧ f.dir.state f.runB = .trial := by simpa using h
    rw [h]
    exact iff_of_true rfl (.inl htrial)
  · have htrial : ¬((f.running = true ∨ f.chosen = true) ∧ f.dir.state f.runB = .trial) := by simpa using h
    rw [Bool.eq_false_iff.2 h]
    exact ⟨.inr, fun k => k.resolve_left htrial⟩

/-- What the end of a channel's run leaves of the channel. -/
def SameButCal (d c : Channel) : Prop := d.force = c.force ∧ d.graver = c.graver ∧ d.meas = c.meas

/-- Two states that differ in the runs of their channels. -/
structure SameButRuns (t s : State) : Prop where
  rest : t = { s with chans := t.chans, reliefs := t.reliefs }
  chan : ∀ n : Chan, SameButCal t.chans[n] s.chans[n]

theorem SameButRuns.refl (s : State) : SameButRuns s s := ⟨rfl, fun _ => ⟨rfl, rfl, rfl⟩⟩

theorem SameButRuns.trans {u t s : State} (h : SameButRuns u t) (k : SameButRuns t s) : SameButRuns u s where
  rest := by rw [h.rest, k.rest]
  chan n := ⟨(h.chan n).1.trans (k.chan n).1, (h.chan n).2.1.trans (k.chan n).2.1, (h.chan n).2.2.trans (k.chan n).2.2⟩

theorem SameButRuns.ite {c : Prop} [Decidable c] {t u s : State} (ht : SameButRuns t s) (hu : SameButRuns u s) : SameButRuns (if c then t else u) s := by
  split
  · exact ht
  · exact hu

theorem updChan_runs (s : State) (n : Chan) (f : Channel → Channel) (hf : ∀ c, SameButCal (f c) c) : SameButRuns (updChan s n f) s where
  rest := rfl
  chan m := by
    rw [updChan_get]
    split
    · next h => rw [h]; exact hf _
    · exact ⟨rfl, rfl, rfl⟩

theorem abortRun_runs (s : State) (n : Chan) (code : Nat) : SameButRuns (abortRun s n code) s := by
  have hend : SameButRuns (updChan s n fun c => if runActive c.cal (reliefForRun s n) then { c with cal := endRun c.force.relieved code c.cal } else c) s := by
    refine updChan_runs s n _ fun c => ?_
    split
    · exact ⟨rfl, rfl, rfl⟩
    · exact ⟨rfl, rfl, rfl⟩
  rw [abortRun]
  split
  · exact ⟨rfl, hend.chan⟩
  · exact hend

theorem restartRuns_runs (s : State) : SameButRuns (restartRuns s) s :=
  foldl_related (R := fun s t => SameButRuns t s) SameButRuns.refl (fun h k => h.trans k)
    (fun s _ => .ite (.refl s) (abortRun_runs ..)) allChans s

/-- The firmware as a warm restart begins. -/
def restarted (f : Firmware) (cause : Nat) : Firmware :=
  { (fallBack f).1 with
    restarting := true, chosen := false, handover := .none, trialStart := none, wrcause := if (fallBack f).2 then 4 else cause
    wrcnt := satAdd 255 (fallBack f).1.wrcnt 1 }

theorem warmRestart_up {s : State} (cause : Nat) (h : s.fw.porn = true) :
    warmRestart s cause = dropTaken (restartRuns { s with fw := restarted s.fw cause }) := by
  exact if_neg (show ¬(!s.fw.porn) = true by rw [h]; decide)

theorem warmRestart_down {s : State} (cause : Nat) (h : s.fw.porn = false) : warmRestart s cause = s := by
  exact if_pos (show (!s.fw.porn) = true by rw [h]; decide)

theorem warmRestart_restarts {s : State} (cause : Nat) (h : s.fw.porn = true) :
    (warmRestart s cause).fw.restarting = true ∧ (warmRestart s cause).fw.wrcnt = min 255 (s.fw.wrcnt + 1)
      ∧ (warmRestart s cause).fw.wrcause
        = (if ((s.fw.running = true ∨ s.fw.chosen = true) ∧ s.fw.dir.state s.fw.runB = .trial) ∨ s.fw.dir.journal = true then 4 else cause)
      ∧ (warmRestart s cause).mm.mem = s.mm.mem ∧ (warmRestart s cause).tb = s.tb ∧ (warmRestart s cause).queues = s.queues
      ∧ ∀ n : Chan, (warmRestart s cause).chans[n].force = s.chans[n].force ∧ (warmRestart s cause).chans[n].graver = s.chans[n].graver
          ∧ (warmRestart s cause).chans[n].meas = s.chans[n].meas := by
  obtain ⟨hrest, hchan⟩ := restartRuns_runs { s with fw := restarted s.fw cause }
  rw [warmRestart_up cause h]
  generalize restartRuns { s with fw := restarted s.fw cause } = t at hrest hchan
  rw [hrest]
  refine ⟨rfl, ?_, ?_, rfl, rfl, rfl, hchan⟩
  · have hcount : (fallBack s.fw).1.wrcnt = s.fw.wrcnt := by rw [fallBack_same s.fw]
    change satAdd 255 (fallBack s.fw).1.wrcnt 1 = _
    rw [hcount, satAdd]
    split
    · omega
    · omega
  · exact ite_of_iff (fallBack_falls s.fw) rfl rfl

/-! ### The end of a warm restart -/

theorem endHostSessions_ends (s : State) : (endHostSessions s).hht.live = false ∧ (endHostSessions s).fw.update = none
    ∧ (endHostSessions s).mm.mem = s.mm.mem ∧ (endHostSessions s).queues = s.queues ∧ (endHostSessions s).fw.restarting = s.fw.restarting := by
  rw [endHostSessions]
  split
  · exact ⟨rfl, rfl, rfl, rfl, rfl⟩
  · next h => exact ⟨Bool.eq_false_iff.2 h, rfl, rfl, rfl, rfl⟩

/-- The slot that a device begins again with, and the firmware that has looked for it. -/
def verifiedSlot (f : Firmware) : Firmware × Option Bool :=
  match slotIn f.dir .confirmed with
  | some b => verifySlot f b
  | none => chooseSlot f

theorem verifiedSlot_same (f : Firmware) : SameButDir (verifiedSlot f).1 f := by
  rw [verifiedSlot]
  split
  · exact verifySlot_same ..
  · exact chooseSlot_same f

/-- The host sessions after a restart. -/
def sessionsKept (s : State) (adopt : Bool) : State := if adopt then s else endHostSessions s

/-- What stands after a warm restart. -/
def AfterRestart (adopt : Bool) (s t : State) : Prop :=
  t.fw.restarting = false ∧ t.mm.mem = s.mm.mem ∧ t.queues = s.queues
    ∧ (adopt = false ∨ t.fw.recovery = true → t.hht.live = false ∧ t.fw.update = none)
    ∧ (adopt = true → t.fw.recovery = false → t.fw.update = s.fw.update)

/-- The image in its slot begins again. -/
theorem restartInto (s : State) (adopt : Bool) (b : Bool) (h : s.fw.restarting = false) :
    AfterRestart adopt s (updFw (leaveRecovery (sessionsKept s adopt)) fun f => { raiseSvn (loadImage f b) with running := true, recovery := false }) := by
  have hlinks := leaveRecovery_links (sessionsKept s adopt)
  obtain ⟨hlive, hupd, hmem, hqueues, hrest⟩ := endHostSessions_ends s
  have hkept : (sessionsKept s adopt).fw.restarting = false ∧ (sessionsKept s adopt).mm.mem = s.mm.mem ∧ (sessionsKept s adopt).queues = s.queues
      ∧ (adopt = false → (sessionsKept s adopt).hht.live = false ∧ (sessionsKept s adopt).fw.update = none)
      ∧ (adopt = true → (sessionsKept s adopt).fw.update = s.fw.update) := by
    cases adopt with
    | false => exact ⟨hrest.trans h, hmem, hqueues, fun _ => ⟨hlive, hupd⟩, nofun⟩
    | true => exact ⟨h, rfl, rfl, nofun, fun _ => rfl⟩
  generalize sessionsKept s adopt = t at hlinks hkept
  generalize leaveRecovery t = u at hlinks
  obtain ⟨hr, hm, hq, hend, hadopt⟩ := hkept
  have hload : (raiseSvn (loadImage u.fw b)).restarting = t.fw.restarting ∧ (raiseSvn (loadImage u.fw b)).update = t.fw.update := by
    rw [raiseSvn_same, hlinks.fw]
    exact ⟨rfl, rfl⟩
  refine ⟨hload.1.trans hr, (congrArg Memory.mem hlinks.mm).trans hm, hlinks.queues.trans hq, fun k => ?_, fun k _ => hload.2.trans (hadopt k)⟩
  have hno : adopt = false := k.resolve_right (nofun)
  exact ⟨hlinks.live.trans (hend hno).1, hload.2.trans (hend hno).2⟩

/-- No slot begins again, or the strap asks for recovery mode. -/
theorem restartRecovering (s : State) (adopt : Bool) (h : s.fw.restarting = false) : AfterRestart adopt s (enterRecovery (endHostSessions (sessionsKept s adopt))) := by
  have hkept : (sessionsKept s adopt).fw.restarting = false ∧ (sessionsKept s adopt).mm.mem = s.mm.mem ∧ (sessionsKept s adopt).queues = s.queues := by
    obtain ⟨-, -, hmem, hqueues, hrest⟩ := endHostSessions_ends s
    cases adopt with
    | false => exact ⟨hrest.trans h, hmem, hqueues⟩
    | true => exact ⟨h, rfl, rfl⟩
  generalize sessionsKept s adopt = t at hkept
  obtain ⟨hr, hm, hq⟩ := hkept
  obtain ⟨hlive, hupd, hmem, hqueues, hrest⟩ := endHostSessions_ends t
  obtain ⟨hboot, hfw, hrec⟩ := enterRecovery_boot (endHostSessions t)
  exact ⟨hfw.restarting.trans (hrest.trans hr), hboot.mem.trans (hmem.trans hm), hboot.queues.trans (hqueues.trans hq),
    fun _ => ⟨hboot.live.trans hlive, hfw.update.trans hupd⟩, fun _ k => absurd hrec (ne_true_of_eq_false k)⟩

theorem restartDone_ends {s : State} (adopt : Bool) (h : s.fw.restarting = true) : AfterRestart adopt s (restartDone s adopt) := by
  have hsame := verifiedSlot_same s.fw
  have hbase (t : State) (k : AfterRestart adopt (updFw { s with fw := (verifiedSlot s.fw).1 } fun f => { f with restarting := false }) t) :
      AfterRestart adopt s t := by
    obtain ⟨hr, hm, hq, hend, hadopt⟩ := k
    refine ⟨hr, hm, hq, hend, fun ha hrec => (hadopt ha hrec).trans ?_⟩
    change (verifiedSlot s.fw).1.update = s.fw.update
    rw [hsame]
  rw [restartDone, h]
  change AfterRestart adopt s (match (verifiedSlot s.fw).2, _ with | some b, false => updFw _ _ | _, _ => _)
  split
  · exact hbase _ (restartInto _ adopt _ rfl)
  · exact hbase _ (restartRecovering _ adopt rfl)

theorem restartDone_idle {s : State} (adopt : Bool) (h : s.fw.restarting = false) : restartDone s adopt = s := by
  rw [restartDone, h]
  rfl

/-- Settles O44: PORN and the two starts by their tables, host-ready by what its steps leave, the warm restart by the runs it aborts. -/
theorem resetsAndStarts : Obligations.ResetsAndStarts := by
  unfold Obligations.ResetsAndStarts
  refine ⟨fun s straps => ⟨?stays, ?on, pornLow_holds s⟩, fun s => ⟨firmwareStart_runs, hostReady_ready, rfl, ⟨?up, ?down⟩, ?done, ?idle⟩⟩
  case stays =>
    intro h
    have hrun : powerOn s straps = s := if_pos h
    exact congrArg Host.Outcome.next hrun
  case on =>
    intro h
    exact powerOnReset_starts straps h
  case up =>
    intro h
    exact ⟨⟨_, rfl, warmRestart_restarts 1 h⟩, _, rfl, warmRestart_restarts 3 h⟩
  case down =>
    intro h
    exact ⟨congrArg Host.Outcome.next (warmRestart_down 1 h), congrArg Host.Outcome.next (warmRestart_down 3 h)⟩
  case done =>
    intro adopt h
    exact ⟨_, rfl, restartDone_ends adopt h⟩
  case idle =>
    intro adopt h
    exact congrArg Host.Outcome.next (restartDone_idle adopt h)

end Sys2Proof.Machine
end

section
/-!
PROOFS. The ledger of a state: the queue and the addressed memories, which most operations leave as they are (O59, O60).
-/
namespace Sys2Proof.Machine

/-- The memories of the flash and of an update (R445, R454). -/
def flashOf (f : Firmware) : Mem × Mem × Mem × Mem × Vector Mem 2 := (f.slotA, f.slotB, f.boardFlash, f.object, f.libs)

/-- The rings of a command path. -/
def ringsOf (r : PathRegs) : Mem × Mem := (r.cmdRing, r.rspRing)

/-- The queue of commands and the addressed memories of a state, and its timebase. -/
structure Ledger where
  pending : List Instr
  mem : Mem
  flash : Mem × Mem × Mem × Mem × Vector Mem 2
  rings : Vector (Mem × Mem) 4
  clock : Timebase

def ledger (s : State) : Ledger := ⟨s.pending, s.mm.mem, flashOf s.fw, s.paths.map ringsOf, s.tb⟩

/-- The ledger without its timebase. -/
def Ledger.books (l : Ledger) : List Instr × Mem × (Mem × Mem × Mem × Mem × Vector Mem 2) × Vector (Mem × Mem) 4 := (l.pending, l.mem, l.flash, l.rings)

@[simp] theorem ledger_mk (pending : List Instr) (tb : Timebase) (chans : Vector Channel 68) (banks : Vector BankState 4)
    (reliefs : Vector (Option Relief) 4) (mrk : Vector MarkPin 16) (tr : Tracer) (ht : Frames) (queues : Vector Queue 256)
    (rings : Vector RingState 8) (mm : Memory) (pf : Trust) (pl : Plate) (pwr : Power) (lanes : Vector LaneState 8) (hht : Hht)
    (fw : Firmware) (paths : Vector PathRegs 4) (iotlb : List (Nat × Nat)) (free : Nat) :
    ledger ⟨pending, tb, chans, banks, reliefs, mrk, tr, ht, queues, rings, mm, pf, pl, pwr, lanes, hht, fw, paths, iotlb, free⟩ =
      ⟨pending, mm.mem, flashOf fw, paths.map ringsOf, tb⟩ := (rfl)

@[simp] theorem ledger_eta (s : State) : Ledger.mk s.pending s.mm.mem (flashOf s.fw) (s.paths.map ringsOf) s.tb = ledger s := (rfl)

@[simp] theorem books_mk (pending : List Instr) (mem : Mem) (flash : Mem × Mem × Mem × Mem × Vector Mem 2) (rings : Vector (Mem × Mem) 4) (tb : Timebase) :
    (Ledger.mk pending mem flash rings tb).books = (pending, mem, flash, rings) := (rfl)

@[simp] theorem books_eta (s : State) : (s.pending, s.mm.mem, flashOf s.fw, s.paths.map ringsOf) = (ledger s).books := (rfl)

@[simp] theorem books_ite (c : Prop) [Decidable c] (k l : Ledger) : (if c then k else l).books = if c then k.books else l.books :=
  apply_ite Ledger.books c k l

@[simp] theorem ringsOf_mk (tcIdx : Nat) (consIdx : Nat) (imIdx : Nat) (qIdx : Nat) (unitIdx : Nat) (recIdx : Nat) (chIdx : Nat)
    (calIdx : Nat) (calStatus : Option Nat) (snaps : List (PairId × Nat)) (flog : List Word) (cmdWr : Word) (cmdRd : Word) (rspWr : Word)
    (rspRd : Word) (rspirq : Bool) (rej : Bool) (rsps : List Rsp) (unposted : List (Rsp × Nat)) (offers : List (Nat × Nat)) (cmdRing : Mem)
    (rspRing : Mem) (readLog : List Word) :
    ringsOf ⟨tcIdx, consIdx, imIdx, qIdx, unitIdx, recIdx, chIdx, calIdx, calStatus, snaps, flog, cmdWr, cmdRd, rspWr, rspRd, rspirq, rej,
    rsps, unposted, offers, cmdRing, rspRing, readLog⟩ =
      (cmdRing, rspRing) := (rfl)

@[simp] theorem ringsOf_eta (r : PathRegs) : (r.cmdRing, r.rspRing) = ringsOf r := (rfl)

@[simp] theorem ledger_ite (c : Prop) [Decidable c] (s t : State) : ledger (if c then s else t) = if c then ledger s else ledger t :=
  apply_ite ledger c s t

@[simp] theorem ledger_foldl {α : Type} (f : State → α → State) (hf : ∀ s a, ledger (f s a) = ledger s) (xs : List α) :
    ∀ s, ledger (xs.foldl f s) = ledger s := by
  induction xs with
  | nil => exact fun s => rfl
  | cons x xs ih => exact fun s => (ih (f s x)).trans (hf s x)

@[simp] theorem books_foldl {α : Type} (f : State → α → State) (hf : ∀ s a, (ledger (f s a)).books = (ledger s).books) (xs : List α) :
    ∀ s, (ledger (xs.foldl f s)).books = (ledger s).books := by
  induction xs with
  | nil => exact fun s => rfl
  | cons x xs ih => exact fun s => (ih (f s x)).trans (hf s x)

/-- A change of a path's registers that leaves its rings alone. -/
@[simp] theorem ledger_updPath (s : State) (p : Path) (f : PathRegs → PathRegs) (hf : ∀ r, ringsOf (f r) = ringsOf r) :
    ledger (updPath s p f) = ledger s := by
  have h : (s.paths.map ringsOf).set (pathIdx p) (ringsOf s.paths[pathIdx p]) = s.paths.map ringsOf := by
    simpa using Vector.set_getElem_self (xs := s.paths.map ringsOf) (i := pathIdx p) (pathIdx p).isLt
  simp only [updPath, ledger_mk, Vector.map_set, hf, h, ledger_eta]

@[simp] theorem flashOf_mk (straps : Straps) (porn : Bool) (ready : Bool) (running : Bool) (recovery : Bool) (boarddef : Bool) (runB :
    Bool) (setrst : Bool) (wrcause : Nat) (wrcnt : Nat) (restarting : Bool) (version : Word) (svnCnt : Nat) (svnImg : Nat) (autoconf :
    Bool) (trialStart : Option Nat) (digest : Digest) (dir : Directory) (dirsValid : Bool) (dirs : Vector (Option DirCopy) 2) (dirCopy :
    Fin 2) (slotA : Mem) (slotB : Mem) (writes : Nat) (svnSlots : Vector (Option (Nat × Nat)) 2) (svnSlot : Fin 2) (chosen : Bool) (update
    : Option Update) (handover : Handover) (board : Option Board) (boardFlash : Mem) (settings : List Byte) (halves : Vector (Option Saved)
    2) (log : List (Nat × Nat)) (libs : Vector Mem 2) (object : Mem) (load1 : Nat) (load100 : Nat) (loads : List Nat) (timeouts : Nat) (tai
    : Nat × Nat × Nat) (ptpState : Nat) (pcieSpeed : Nat) (pcieWidth : Nat) (ltssm : Nat) (bar2flt : Bool) (scratch : Word) (calEpoch :
    Nat) :
    flashOf ⟨straps, porn, ready, running, recovery, boarddef, runB, setrst, wrcause, wrcnt, restarting, version, svnCnt, svnImg, autoconf,
    trialStart, digest, dir, dirsValid, dirs, dirCopy, slotA, slotB, writes, svnSlots, svnSlot, chosen, update, handover, board,
    boardFlash, settings, halves, log, libs, object, load1, load100, loads, timeouts, tai, ptpState, pcieSpeed, pcieWidth, ltssm, bar2flt,
    scratch, calEpoch⟩ =
      (slotA, slotB, boardFlash, object, libs) := (rfl)

@[simp] theorem flashOf_eta (f : Firmware) : (f.slotA, f.slotB, f.boardFlash, f.object, f.libs) = flashOf f := (rfl)

@[simp] theorem flashOf_ite (c : Prop) [Decidable c] (f g : Firmware) : flashOf (if c then f else g) = if c then flashOf f else flashOf g :=
  apply_ite flashOf c f g

@[simp] theorem readDirs_flash (f : Firmware) : flashOf (readDirs f) = flashOf f := by unfold readDirs; split <;> simp

@[simp] theorem readBack_flash (f : Firmware) : flashOf (readBack f).2 = flashOf f := by simp [readBack]

@[simp] theorem writeDir_flash (f : Firmware) (g : Directory → Directory) : flashOf (writeDir f g) = flashOf f := by
  unfold writeDir
  dsimp only
  split <;> rfl

@[simp] theorem verifySlot_flash (f : Firmware) (b : Bool) : flashOf (verifySlot f b).1 = flashOf f := by
  simp only [verifySlot, apply_ite Prod.fst, flashOf_ite, writeDir_flash, ite_self]

@[simp] theorem withoutDir_flash (f : Firmware) : flashOf (withoutDir f).1 = flashOf f := by
  simp only [withoutDir, apply_ite Prod.fst, flashOf_ite, writeDir_flash, ite_self]

@[simp] theorem endJournal_flash (f : Firmware) : flashOf (endJournal f) = flashOf f := by simp [endJournal]

@[simp] theorem pickSlot_flash (f : Firmware) : flashOf (pickSlot f).1 = flashOf f := by
  unfold pickSlot
  split
  · split <;> simp
  · rfl

@[simp] theorem chooseSlot_flash (f : Firmware) : flashOf (chooseSlot f).1 = flashOf f := by
  unfold chooseSlot
  dsimp only
  split
  · simp
  · split <;> simp

@[simp] theorem saveSettings_flash (f : Firmware) (fmt : Nat) (blob : List Byte) : flashOf (saveSettings f fmt blob) = flashOf f := by
  unfold saveSettings
  dsimp only
  split <;> rfl

@[simp] theorem logAdd_flash (f : Firmware) (kind value : Nat) : flashOf (logAdd f kind value) = flashOf f := by
  simp [logAdd]

@[simp] theorem writeSvn_flash (f : Firmware) (v : Nat) : flashOf (writeSvn f v) = flashOf f := by
  have h (r : Bool × Firmware) (hr : flashOf r.2 = flashOf f) (t e : Firmware) (ht : flashOf t = flashOf r.2) (he : flashOf e = flashOf r.2) :
      flashOf (if r.1 then t else e) = flashOf f := by rw [flashOf_ite, ht, he, hr, ite_self]
  exact h _ (by rw [apply_ite Prod.snd, flashOf_ite, readBack_flash, readBack_flash, readBack_flash, ite_self]) _ _ rfl rfl

@[simp] theorem noteLoad_flash (v : Nat) (f : Firmware) : flashOf (noteLoad v f) = flashOf f := by simp [noteLoad]

@[simp] theorem loadImage_flash (f : Firmware) (b : Bool) : flashOf (loadImage f b) = flashOf f := by simp [loadImage]

@[simp] theorem raiseSvn_flash (f : Firmware) : flashOf (raiseSvn f) = flashOf f := by
  unfold raiseSvn
  split
  · split <;> simp
  · rfl

@[simp] theorem fallBack_flash (f : Firmware) : flashOf (fallBack f).1 = flashOf f := by simp [fallBack]

@[simp] theorem confirmSlot_flash (f : Firmware) (b : Bool) : flashOf (confirmSlot f b) = flashOf f := by simp [confirmSlot]

@[simp] theorem ledger_updFw (s : State) (f : Firmware → Firmware) (hf : ∀ w, flashOf (f w) = flashOf w) : ledger (updFw s f) = ledger s := by
  simp [updFw, hf]

theorem ledger_putFw (s : State) (f : Firmware) (hf : flashOf f = flashOf s.fw) : ledger (updFw s fun _ => f) = ledger s := by
  simp only [updFw, ledger_mk, hf, ledger_eta]

@[simp] theorem ledger_updMm (s : State) (f : Memory → Memory) (hf : ∀ m, (f m).mem = m.mem) : ledger (updMm s f) = ledger s := by
  simp [updMm, hf]

theorem ledger_flash (s : State) : (ledger s).flash = flashOf s.fw := rfl

theorem ledger_of {t s : State} (hp : t.pending = s.pending) (ht : t.tb = s.tb) (hm : t.mm = s.mm) (hf : t.fw = s.fw) (hr : t.paths = s.paths) :
    ledger t = ledger s := by rw [ledger, ledger, hp, ht, hm, hf, hr]

theorem SameButPush.ledger {chans : Bool} {t s : State} (h : SameButPush chans t s) : ledger t = ledger s := ledger_of h.pending h.tb h.mm h.fw h.paths

/-- An instruction's body leaves the ledger, whatever becomes of its context. -/
def DoneKeeps (s : State) : Done → Prop
  | .next t => ledger t = ledger s
  | .jump _ t => ledger t = ledger s
  | .hold t => ledger t = ledger s
  | _ => True

@[simp] theorem noteError_mem (p : ErrPlace) (lost : Bool) (now : Nat) (m : Memory) : (noteError p lost now m).mem = m.mem := by
  unfold noteError
  dsimp only
  split <;> rfl

@[simp] theorem shiftMem_mem (old new : Nat) (m : Memory) : (shiftMem old new m).mem = m.mem := rfl

@[simp] theorem shiftPath_rings (old new : Nat) (r : PathRegs) : ringsOf (shiftPath old new r) = ringsOf r := rfl

end Sys2Proof.Machine
end

section
/-!
PROOFS. What the operations of the model leave of the ledger: one lemma for each operation, in the order of their definitions (O59, O60).
-/
namespace Sys2Proof.Machine

/-! ### Ops -/

@[simp] theorem updChan_ledger (s : State) (n : Chan) (f : Channel → Channel) :
    ledger (updChan s n f) = ledger s := by
  simp [updChan]

@[simp] theorem updForce_ledger (s : State) (n : Chan) (f : Force → Force) :
    ledger (updForce s n f) = ledger s := by
  simp [updForce]

@[simp] theorem updMeas_ledger (s : State) (n : Chan) (f : Measure → Measure) :
    ledger (updMeas s n f) = ledger s := by
  simp [updMeas]

@[simp] theorem updGraver_ledger (s : State) (n : Chan) (f : Graver → Graver) :
    ledger (updGraver s n f) = ledger s := by
  simp [updGraver]

@[simp] theorem updCtx_ledger (s : State) (n : Chan) (x : Ctx) (f : Context → Context) :
    ledger (updCtx s n x f) = ledger s := by
  simp [updCtx]

@[simp] theorem updCmp_ledger (s : State) (n : Chan) (c : Cmp) (f : Comparator → Comparator) :
    ledger (updCmp s n c f) = ledger s := by
  simp [updCmp]

@[simp] theorem updTb_books (s : State) (f : Timebase → Timebase) :
    (ledger (updTb s f)).books = (ledger s).books := by
  simp [updTb]

@[simp] theorem updBank_ledger (s : State) (b : Bank) (f : BankState → BankState) :
    ledger (updBank s b f) = ledger s := by
  simp [updBank]

@[simp] theorem updLane_ledger (s : State) (k : Lane) (f : LaneState → LaneState) :
    ledger (updLane s k f) = ledger s := by
  simp [updLane]

@[simp] theorem sendBlock_ledger (s : State) (k : Lane) (b : BitVec 64) :
    ledger (sendBlock s k b) = ledger s := by
  simp [sendBlock]

@[simp] theorem updRing_ledger (s : State) (d : Ring) (f : RingState → RingState) :
    ledger (updRing s d f) = ledger s := by
  simp [updRing]

@[simp] theorem updQueue_ledger (s : State) (q : Fin 256) (f : Queue → Queue) :
    ledger (updQueue s q f) = ledger s := by
  simp [updQueue]

@[simp] theorem drawFree_ledger (s : State) :
    ledger (drawFree s).2 = ledger s := by
  simp [drawFree]

@[simp] theorem drawEntropy_ledger (s : State) :
    ledger (drawEntropy s).2 = ledger s := by
  simp [drawEntropy]

@[simp] theorem noteCflag_ledger (s : State) (n : Chan) (i tick : Nat) :
    ledger (noteCflag s n i tick) = ledger s := by
  unfold noteCflag
  split <;> simp

@[simp] theorem cacheXlate_ledger (s : State) (asid va : Nat) :
    ledger (cacheXlate s asid va) = ledger s := by
  simp [cacheXlate]

@[simp] theorem cacheXlates_ledger (s : State) (asid : Nat) (vas : List Nat) :
    ledger (cacheXlates s asid vas) = ledger s := by
  simp [cacheXlates]

@[simp] theorem dropPage_ledger (s : State) (pa : Nat) :
    ledger (dropPage s pa) = ledger s := by
  simp [dropPage]

@[simp] theorem dropXlates_ledger (s : State) (asid va len : Nat) :
    ledger (dropXlates s asid va len) = ledger s := by
  simp [dropXlates]

@[simp] theorem returned_ledger (s : State) (p : Path) (ws : List Word) :
    ledger (returned s p ws) = ledger s := by
  simp [returned]

theorem accessed_ledger (s t : State) (h : ledger t = ledger s) : ledger (accessed s t) = ledger s := by simp [accessed, h]

theorem accessedRead_ledger (s : State) (p : Path) (t : State) (h : ledger t = ledger s) : ledger (accessedRead s p t) = ledger s := by
  simp [accessedRead, h]

@[simp] theorem sendVector_ledger (s : State) (v : Nat) :
    ledger (sendVector s v) = ledger s := by
  simp [sendVector]

@[simp] theorem raiseIm_ledger (s : State) (src : Nat) :
    ledger (raiseIm s src) = ledger s := by
  unfold raiseIm
  split <;> simp

@[simp] theorem raiseTrips_ledger (fuel : Nat) : ∀ (trips : Nat) (s : State), ledger (raiseTrips fuel trips s) = ledger s := by
  induction fuel with
  | zero => exact fun trips s => by simp [raiseTrips]
  | succ fuel ih =>
    intro trips s
    cases trips with
    | zero => simp [raiseTrips]
    | succ trips => simp only [raiseTrips, ih, ledger_mk, ledger_eta, raiseIm_ledger]

@[simp] theorem raiseAt_ledger (s : State) (src : Nat) (dated : Option Nat) : ledger (raiseAt s src dated) = ledger s := by
  simp only [raiseAt, raiseTrips_ledger, ledger_mk, ledger_eta, raiseIm_ledger]

@[simp] theorem raise_ledger (s : State) (src : Nat) :
    ledger (raise s src) = ledger s := by
  simp [raise]

@[simp] theorem offerDevice_ledger (s : State) (d : Fin 8) (start stop : Nat) :
    ledger (offerDevice s d start stop) = ledger s := by
  simp [offerDevice]

@[simp] theorem mpAtOnce_ledger (s : State) :
    ledger (mpAtOnce s) = ledger s := by
  simp [mpAtOnce]

@[simp] theorem logFault_ledger (s : State) (w : List Word) :
    ledger (logFault s w) = ledger s := by
  unfold logFault
  split <;> simp

@[simp] theorem forwardFault_ledger (s : State) (who : Waiter) (rec : List Word) :
    ledger (forwardFault s who rec) = ledger s := by
  simp [forwardFault]

@[simp] theorem awaitDemand_ledger (s : State) (who : Waiter) (asid va : Nat) (wr split : Bool) :
    ledger (awaitDemand s who asid va wr split) = ledger s := by
  simp [awaitDemand]

@[simp] theorem endWaits_ledger (s : State) (who : Waiter) :
    ledger (endWaits s who) = ledger s := by
  simp [endWaits]

@[simp] theorem suspendOnly_ledger (s : State) (n : Chan) (x : Ctx) (c : Cause) (resolving : Bool) :
    ledger (suspendOnly s n x c resolving) = ledger s := by
  simp [suspendOnly]

@[simp] theorem suspend_ledger (s : State) (n : Chan) (x : Ctx) (c : Cause) :
    ledger (suspend s n x c) = ledger s := by
  unfold suspend
  dsimp only
  split <;> simp

@[simp] theorem suspendXlate_ledger (s : State) (n : Chan) (x : Ctx) (fetch wr split : Bool) (va : Nat) (f : Xlate) :
    ledger (suspendXlate s n x fetch wr split va f) = ledger s := by
  unfold suspendXlate
  dsimp only
  split <;> simp

@[simp] theorem suspendImm_ledger (s : State) (n : Chan) (x : Ctx) :
    ledger (suspendImm s n x) = ledger s := by
  simp [suspendImm]

@[simp] theorem errPlace_ledger (s : State) (pa : Nat) :
    ledger (errPlace s pa).2 = ledger s := by
  unfold errPlace
  split <;> simp

@[simp] theorem eccCorrected_ledger (s : State) (p : ErrPlace) :
    ledger (eccCorrected s p) = ledger s := by
  simp [eccCorrected]

@[simp] theorem eccUncorrectable_ledger (s : State) (p : ErrPlace) (lost : Bool) :
    ledger (eccUncorrectable s p lost) = ledger s := by
  unfold eccUncorrectable
  split <;> simp

@[simp] theorem eccMet_ledger (s : State) (pa : Nat) (ecc : EccResult) :
    ledger (eccMet s pa ecc) = ledger s := by
  unfold eccMet
  split <;> simp

@[simp] theorem eccMetAt_ledger (s : State) (n : Chan) (x : Ctx) (va : Nat) (ecc : EccResult) :
    ledger (eccMetAt s n x va ecc) = ledger s := by
  simp [eccMetAt]

/-! ### Operands -/

@[simp] theorem haltCtx_ledger (s : State) (n : Chan) (x : Ctx) :
    ledger (haltCtx s n x) = ledger s := by
  simp [haltCtx]

@[simp] theorem settle_ledger (s : State) (n : Chan) (x : Ctx) :
    ledger (settle s n x) = ledger s := by
  simp [settle]

@[simp] theorem haltIfAsked_ledger (s : State) (n : Chan) (x : Ctx) :
    ledger (haltIfAsked s n x) = ledger s := by
  simp [haltIfAsked]

@[simp] theorem wake_ledger (s : State) (n : Chan) (x : Ctx) :
    ledger (wake s n x) = ledger s := by
  simp [wake]

theorem complete_ledger {s : State} (n : Chan) (x : Ctx) (ext : Bool) {d : Done} (h : DoneKeeps s d) : ledger (complete s n x ext d) = ledger s := by
  cases d with
  | next t => exact (settle_ledger ..).trans ((updCtx_ledger ..).trans h)
  | jump a t => exact (settle_ledger ..).trans ((updCtx_ledger ..).trans h)
  | hold t => exact (updGraver_ledger ..).trans h
  | fault c => exact suspend_ledger ..
  | xlate wr va f => rw [complete, suspendXlate_ledger]
  | ecc va => rw [complete, suspendXlate_ledger, eccMetAt_ledger]
  | leaveImm => exact suspendImm_ledger ..

@[simp] theorem finishBusy_ledger (s : State) (n : Chan) (x : Ctx) :
    ledger (finishBusy s n x) = ledger s := by
  simp [finishBusy]

theorem issue_ledger (op : BitVec 6) (n : Chan) (f : Fields) {s : State} {body : Ctx → State → Done} (h : ∀ x t, DoneKeeps t (body x t)) :
    ledger (issue op n f s body) = ledger s := by
  unfold issue
  dsimp only
  split
  · rfl
  · split
    · rfl
    · split
      · rfl
      · exact updGraver_ledger ..
      · exact (suspendImm_ledger ..).trans (updGraver_ledger ..)
      · rw [ledger_ite, complete_ledger _ _ _ (h ..), updGraver_ledger, ite_self]

/-! ### ForceOps -/

@[simp] theorem cpsSend_ledger (s : State) (b : Bank) (slot op arg : Nat) :
    ledger (cpsSend s b slot op arg) = ledger s := by
  simp [cpsSend]

@[simp] theorem cpsFor_ledger (s : State) (n : Chan) (op arg : Nat) :
    ledger (cpsFor s n op arg) = ledger s := by
  simp [cpsFor]

@[simp] theorem holdWord_ledger (mode : SMode) (s : State) (n : Chan) (tick order : Nat) (w : Word) :
    ledger (holdWord mode s n tick order w) = ledger s := by
  simp [holdWord]

@[simp] theorem dateWord_ledger (s : State) (n : Chan) (tick order : Nat) (w : Word) :
    ledger (dateWord s n tick order w) = ledger s := by
  simp [dateWord]

@[simp] theorem eventWord_ledger (s : State) (n : Chan) (tick kind source detail : Nat) :
    ledger (eventWord s n tick kind source detail) = ledger s := by
  simp [eventWord]

@[simp] theorem jumpedWord_ledger (s : State) (n : Chan) (tick kind payload : Nat) :
    ledger (jumpedWord s n tick kind payload) = ledger s := by
  simp [jumpedWord]

@[simp] theorem updIntent_ledger (s : State) (n : Chan) (x : Ctx) (f : Intent → Intent) :
    ledger (updIntent s n x f) = ledger s := by
  simp [updIntent]

@[simp] theorem updApplied_ledger (s : State) (n : Chan) (f : Intent → Intent) :
    ledger (updApplied s n f) = ledger s := by
  simp [updApplied]

@[simp] theorem abortRun_ledger (s : State) (n : Chan) (code : Nat) :
    ledger (abortRun s n code) = ledger s := by
  simp [abortRun]

@[simp] theorem sendDisable_ledger (s : State) (n : Chan) :
    ledger (sendDisable s n) = ledger s := by
  simp [sendDisable]

@[simp] theorem dropRelief_ledger (s : State) (b : Bank) :
    ledger (dropRelief s b) = ledger s := by
  unfold dropRelief
  split <;> simp

@[simp] theorem inertIntents_ledger (s : State) (n : Chan) :
    ledger (inertIntents s n) = ledger s := by
  simp [inertIntents]

@[simp] theorem openNow_ledger (s : State) (n : Chan) (cause : Nat) :
    ledger (openNow s n cause) = ledger s := by
  simp [openNow]

@[simp] theorem concurrentTrigger_ledger (s : State) (n : Chan) (cause : Nat) :
    ledger (concurrentTrigger s n cause) = ledger s := by
  unfold concurrentTrigger
  dsimp only
  split <;> simp

@[simp] theorem safeTrigger_ledger (s : State) (n : Chan) (cause : Nat) :
    ledger (safeTrigger s n cause) = ledger s := by
  simp [safeTrigger]

@[simp] theorem recodeApplied_ledger (s : State) (n : Chan) (new : Ranges) :
    ledger (recodeApplied s n new) = ledger s := by
  simp [recodeApplied]

@[simp] theorem takeRanges_ledger (s : State) (n : Chan) (new : Ranges) (loop : Bool) :
    ledger (takeRanges s n new loop) = ledger s := by
  unfold takeRanges
  dsimp only
  repeat' split
  all_goals simp

@[simp] theorem startBridge_ledger (s : State) (n : Chan) (goal : Ranges) :
    ledger (startBridge s n goal) = ledger s := by
  simp [startBridge]

@[simp] theorem directRange_ledger (s : State) (n : Chan) (new : Ranges) :
    ledger (directRange s n new) = ledger s := by
  simp [directRange]

@[simp] theorem takeMode_ledger (s : State) (n : Chan) (mode : Mode) :
    ledger (takeMode s n mode) = ledger s := by
  simp [takeMode]

@[simp] theorem beginParking_ledger (s : State) (n : Chan) :
    ledger (beginParking s n) = ledger s := by
  simp [beginParking]

@[simp] theorem openAndPark_ledger (s : State) (n : Chan) :
    ledger (openAndPark s n) = ledger s := by
  simp [openAndPark]

@[simp] theorem stayInert_ledger (s : State) (n : Chan) :
    ledger (stayInert s n) = ledger s := by
  simp [stayInert]

@[simp] theorem requestInert_ledger (s : State) (n : Chan) (who : Option Ctx) :
    ledger (requestInert s n who) = ledger s := by
  simp [requestInert]

@[simp] theorem holdChannel_ledger (s : State) (n : Chan) :
    ledger (holdChannel s n) = ledger s := by
  simp [holdChannel]

@[simp] theorem safeTick_ledger (s : State) (n : Chan) (q : Safe) :
    ledger (safeTick s n q) = ledger s := by
  simp [safeTick]

@[simp] theorem takeOwner_ledger (s : State) (n : Chan) :
    ledger (takeOwner s n).1 = ledger s := by
  unfold takeOwner
  dsimp only
  split <;> simp

@[simp] theorem modeTick_ledger (s : State) (n : Chan) :
    ledger (modeTick s n).1 = ledger s := by
  unfold modeTick
  dsimp only
  repeat' split
  all_goals simp

@[simp] theorem rangeTick_ledger (s : State) (n : Chan) :
    ledger (rangeTick s n) = ledger s := by
  unfold rangeTick
  dsimp only
  repeat' split
  all_goals simp

@[simp] theorem levelTaken_ledger (s : State) (n : Chan) :
    ledger (levelTaken s n) = ledger s := by
  simp [levelTaken]

@[simp] theorem supplyLevel_ledger (s : State) (n : Chan) (groups : BitVec 8) (g : Given) :
    ledger (supplyLevel s n groups g).1 = ledger s := by
  unfold supplyLevel
  dsimp only
  repeat' split
  all_goals simp

@[simp] theorem targetTick_ledger (s : State) (n : Chan) (groups : BitVec 8) (stood : Bool) (old : Int) (preloaded newOwner : Bool) (g : Given) (entryStart : Bool) :
    ledger (targetTick s n groups stood old preloaded newOwner g entryStart).1 = ledger s := by
  unfold targetTick
  split <;> simp

@[simp] theorem enterTick_ledger (s : State) (n : Chan) :
    ledger (enterTick s n) = ledger s := by
  simp [enterTick]

@[simp] theorem endSwitching_ledger (s : State) (n : Chan) :
    ledger (endSwitching s n).1 = ledger s := by
  unfold endSwitching
  dsimp only
  split <;> simp

@[simp] theorem strobeOthers_ledger (s : State) (n : Chan) (groups : BitVec 8) :
    ledger (strobeOthers s n groups) = ledger s := by
  simp [strobeOthers]

@[simp] theorem breakTick_ledger (s : State) (n : Chan) (groups : BitVec 8) (newOwner : Bool) (g : Given) (entryStart : Bool) :
    ledger (breakTick s n groups newOwner g entryStart) = ledger s := by
  simp [breakTick]

@[simp] theorem bridgeMade_ledger (s : State) (n : Chan) (b : Bridge) (newOwner : Bool) :
    ledger (bridgeMade s n b newOwner) = ledger s := by
  simp [bridgeMade]

@[simp] theorem forceTick_ledger (s : State) (n : Chan) (groups : BitVec 8) (g : Given) (entryStart : Bool) :
    ledger (forceTick s n groups g entryStart).1 = ledger s := by
  unfold forceTick
  dsimp only
  repeat' split
  all_goals simp

/-! ### StreamOps -/

@[simp] theorem changeQueue_ledger (s : State) (q : Fin 256) (f : Queue → Queue) :
    ledger (changeQueue s q f) = ledger s := by
  simp [changeQueue]

@[simp] theorem chainEntry_ledger (s : State) (n : Chan) (first : Option Nat) (ws : List Word) (gap : Nat) (seq : Option Nat) (disable : Bool) :
    ledger (chainEntry s n first ws gap seq disable) = ledger s := by
  simp [chainEntry]

@[simp] theorem commitGap_ledger (s : State) (q : Fin 256) (disable : Bool) : ledger (commitGap s q disable) = ledger s := (commitGap_same ..).ledger

@[simp] theorem rewindOpen_ledger (s : State) (q : Fin 256) :
    ledger (rewindOpen s q) = ledger s := by
  unfold rewindOpen
  split <;> simp

@[simp] theorem pushWord_ledger (s : State) (q : Fin 256) (w : Word) (hdr : Bool) : ledger (pushWord s q w hdr) = ledger s := (pushWord_same ..).ledger

@[simp] theorem pushEnd_ledger (s : State) (q : Fin 256) (w : Word) :
    ledger (pushEnd s q w).1 = ledger s := by
  unfold pushEnd
  dsimp only
  split <;> simp

@[simp] theorem pushWords_ledger (s : State) (q : Fin 256) (ws : List Word) : ledger (pushWords s q ws) = ledger s := (pushWords_same ..).ledger

@[simp] theorem closePacket_ledger (s : State) (n : Chan) (status : Nat) : ledger (closePacket s n status) = ledger s := (closePacket_same ..).ledger

@[simp] theorem openPacket_ledger (s : State) (n : Chan) (b : Batch) : ledger (openPacket s n b) = ledger s := (openPacket_same ..).ledger

@[simp] theorem commitWords_ledger (s : State) (n : Chan) (b : Batch) : ledger (commitWords s n b) = ledger s := (commitWords_same ..).ledger

@[simp] theorem closeFor_ledger (s : State) (n : Chan) (c : Nat × Nat) (next : Option Batch) : ledger (closeFor s n c next) = ledger s := (closeFor_same ..).ledger

@[simp] theorem flushUntil_ledger (fuel : Nat) (s : State) (n : Chan) (coming : Option Batch) (words closes : Nat) : ledger (flushUntil fuel s n coming words closes) = ledger s := (flushUntil_same ..).ledger

@[simp] theorem flushStream_ledger (s : State) (n : Chan) (coming : Option Batch) (words closes : Nat) :
    ledger (flushStream s n coming words closes) = ledger s := by
  simp [flushStream]

@[simp] theorem flushIdle_ledger (s : State) (n : Chan) (words closes : Nat) :
    ledger (flushIdle s n words closes) = ledger s := by
  simp [flushIdle]

@[simp] theorem askClose_ledger (s : State) (n : Chan) (tick status : Nat) :
    ledger (askClose s n tick status) = ledger s := by
  simp [askClose]

/-! ### MeasureOps -/

@[simp] theorem setMeas_ledger (s : State) (n : Chan) (f : MeasCfg → MeasCfg) :
    ledger (setMeas s n f) = ledger s := by
  simp [setMeas]

@[simp] theorem applyMeasCfg_ledger (s : State) (n : Chan) (tick : Nat) :
    ledger (applyMeasCfg s n tick).1 = ledger s := by
  unfold applyMeasCfg
  dsimp only
  split <;> simp

@[simp] theorem offerChannelUnit_ledger (s : State) (u : Fin 144) (code : Int) (fsNow : Nat) (fsOf : Nat → Nat) (qual tick : Nat) :
    ledger (offerChannelUnit s u code fsNow fsOf qual tick) = ledger s := by
  simp [offerChannelUnit]

@[simp] theorem offerPair_ledger (s : State) (n : Chan) (k : Conv) (inp : Bool) (v i : Int) (r : Ranges) (qv qi : Nat) :
    ledger (offerPair s n k inp v i r qv qi) = ledger s := by
  simp [offerPair]

@[simp] theorem complianceTick_ledger (mode : SMode) (s : State) (n : Chan) (tick : Nat) (clamping upper : Bool) :
    ledger (complianceTick mode s n tick clamping upper) = ledger s := by
  simp [complianceTick]

@[simp] theorem autoRequest_ledger (s : State) (n : Chan) (up : Bool) :
    ledger (autoRequest s n up) = ledger s := by
  unfold autoRequest
  dsimp only
  repeat' split
  all_goals simp

@[simp] theorem autorangeSample_ledger (s : State) (n : Chan) (ranging : Bool) (v i : Int) (vOut iOut : Bool) :
    ledger (autorangeSample s n ranging v i vOut iOut) = ledger s := by
  simp [autorangeSample]

@[simp] theorem completeCounts_ledger (s : State) (n : Chan) (tick : Nat) :
    ledger (completeCounts s n tick) = ledger s := by
  unfold completeCounts
  refine ledger_foldl _ (fun t x => ?_) _ _
  split <;> simp

@[simp] theorem emitOutput_ledger (s : State) (n : Chan) (k : Conv) (w : Nat × Nat) :
    ledger (emitOutput s n k w) = ledger s := by
  unfold emitOutput
  dsimp only
  repeat' split
  all_goals simp

/-! ### PlayOps -/

@[simp] theorem endSupplier_ledger (s : State) (n : Chan) (x : Ctx) :
    ledger (endSupplier s n x) = ledger s := by
  unfold endSupplier
  dsimp only
  split <;> simp

@[simp] theorem setSupplier_ledger (s : State) (n : Chan) (x : Ctx) (p : Supplier) :
    ledger (setSupplier s n x p) = ledger s := by
  simp [setSupplier]

@[simp] theorem driveMarks_ledger (s : State) (n : Chan) (b : BitVec 4) :
    ledger (driveMarks s n b) = ledger s := by
  simp [driveMarks]

@[simp] theorem actEvt_ledger (s : State) (n : Chan) (tick ecode : Nat) :
    ledger (actEvt s n tick ecode) = ledger s := by
  simp [actEvt]

@[simp] theorem startArmed_ledger (s : State) (n : Chan) (x : Ctx) (addr : Nat) (d : Desc) :
    ledger (startArmed s n x addr d) = ledger s := by
  simp [startArmed]

@[simp] theorem recordJump_ledger (s : State) (n : Chan) (x : Ctx) (token : Bool) :
    ledger (recordJump s n x token) = ledger s := by
  unfold recordJump
  split <;> simp

@[simp] theorem decidePass_ledger (s : State) (n : Chan) (x : Ctx) (tick : Nat) (p : Playback) :
    ledger (decidePass s n x tick p).1 = ledger s := by
  unfold decidePass
  dsimp only
  repeat' split
  all_goals simp

@[simp] theorem commitSample_ledger (s : State) (n : Chan) (x : Ctx) (tick : Nat) (p : Playback) :
    ledger (commitSample s n x tick p).1 = ledger s := by
  unfold commitSample
  dsimp only
  repeat' split
  all_goals simp

@[simp] theorem measureHold_ledger (s : State) (tick : Nat) (h : Option Hold) :
    ledger (measureHold s tick h) = ledger s := by
  unfold measureHold
  split <;> simp

@[simp] theorem endBad_ledger (s : State) (n : Chan) (tick : Nat) (h : Option Hold) :
    ledger (endBad s n tick h) = ledger s := by
  simp [endBad]

@[simp] theorem turnPass_ledger (s : State) (n : Chan) (tick : Nat) (p : Playback) :
    ledger (turnPass s n tick p).1 = ledger s := by
  unfold turnPass
  repeat' split
  all_goals simp

theorem playSupply_ledger (s : State) (n : Chan) (x : Ctx) (tick r : Nat) (p : Playback) : ledger (playSupply s n x tick r p).s = ledger s := by
  simp [playSupply]

theorem playUnderrun_ledger (s : State) (n : Chan) (x : Ctx) (tick i : Nat) (p : Playback) : ledger (playUnderrun s n x tick i p).s = ledger s := by
  have hur : ledger (updCtx s n x fun k => { k with ur := true }) = ledger s := updCtx_ledger ..
  unfold playUnderrun
  dsimp only
  split
  · split
    · rw [endSupplier_ledger, jumpedWord_ledger, updGraver_ledger, jumpedWord_ledger, hur]
    · rw [setSupplier_ledger, updGraver_ledger, jumpedWord_ledger, hur]
  · rw [setSupplier_ledger, jumpedWord_ledger, hur]

theorem playStep_ledger (s : State) (n : Chan) (x : Ctx) (tick : Nat) (p : Playback) : ledger (playStep s n x tick p).s = ledger s := by
  unfold playStep
  dsimp only
  split
  · split
    · exact playSupply_ledger ..
    · exact playUnderrun_ledger ..
  · split
    · rw [playSupply_ledger, jumpedWord_ledger, measureHold_ledger]
    · exact setSupplier_ledger ..

theorem playTick_ledger (s : State) (n : Chan) (x : Ctx) (tick : Nat) (p : Playback) : ledger (playTick s n x tick p).s = ledger s := by
  unfold playTick
  dsimp only
  split
  · rw [playStep_ledger, turnPass_ledger]
  · split
    · rw [playStep_ledger, endSupplier_ledger, turnPass_ledger]
    · rw [endSupplier_ledger, turnPass_ledger]

@[simp] theorem endSweepHold_ledger (s : State) (n : Chan) (tick : Nat) (w : Sweep) :
    ledger (endSweepHold s n tick w) = ledger s := by
  unfold endSweepHold
  split <;> simp

theorem startEntry_ledger (s : State) (n : Chan) (x : Ctx) (tick : Nat) (w : Sweep) (e : Entry) (off : Bool) :
    ledger (startEntry s n x tick w e off).s = ledger s := by
  simp [startEntry]

theorem sweepHold_ledger (s : State) (n : Chan) (x : Ctx) (tick : Nat) (w : Sweep) : ledger (sweepHold s n x tick w).s = ledger s := by
  unfold sweepHold
  split
  · rw [setSupplier_ledger, updCtx_ledger, jumpedWord_ledger]
  · exact setSupplier_ledger ..

theorem sweepBoundary_ledger (s : State) (n : Chan) (x : Ctx) (tick : Nat) (off : Bool) (w : Sweep) : ledger (sweepBoundary s n x tick off w).s = ledger s := by
  have hpast (f : Context → Context) : ledger (updCtx s n x f) = ledger s := updCtx_ledger ..
  unfold sweepBoundary
  dsimp only
  split
  · exact sweepHold_ledger ..
  · split
    · rw [playStep_ledger]
      split
      · rw [wake_ledger, endSweepHold_ledger, hpast]
      · rw [endSweepHold_ledger, hpast]
    · split
      · rw [endSupplier_ledger, jumpedWord_ledger, endSweepHold_ledger, hpast]
      · split
        · rw [sweepHold_ledger, hpast]
        · split
          · rw [startEntry_ledger, hpast]
          · rw [endSupplier_ledger, endBad_ledger, hpast]

theorem sweepTick_ledger (s : State) (n : Chan) (x : Ctx) (tick : Nat) (w : Sweep) : ledger (sweepTick s n x tick w).s = ledger s := by
  unfold sweepTick
  dsimp only
  split
  · exact sweepBoundary_ledger ..
  · exact setSupplier_ledger ..

@[simp] theorem startSuppliers_ledger (s : State) (n : Chan) :
    ledger (startSuppliers s n) = ledger s := by
  simp [startSuppliers]

@[simp] theorem takeBuffers_ledger (s : State) (n : Chan) (x : Ctx) :
    ledger (takeBuffers s n x) = ledger s := by
  simp [takeBuffers]

@[simp] theorem abandonPrefetch_ledger (s : State) (n : Chan) :
    ledger (abandonPrefetch s n) = ledger s := by
  unfold abandonPrefetch
  dsimp only
  split <;> simp

theorem supplyTick_ledger (s : State) (n : Chan) (tick : Nat) : ledger (supplyTick s n tick).s = ledger s := by
  have hstart : ledger (abandonPrefetch (startSuppliers s n) n) = ledger s := (abandonPrefetch_ledger ..).trans (startSuppliers_ledger ..)
  unfold supplyTick
  dsimp only
  generalize abandonPrefetch (startSuppliers s n) n = t at hstart ⊢
  split
  · exact hstart
  · split
    · exact hstart
    · exact (updCtx_ledger ..).trans hstart
    · split
      · exact (playTick_ledger ..).trans ((takeBuffers_ledger ..).trans hstart)
      · exact (sweepTick_ledger ..).trans ((takeBuffers_ledger ..).trans hstart)
      · exact (takeBuffers_ledger ..).trans hstart

@[simp] theorem stallPrefetch_ledger (s : State) (n : Chan) (x : Ctx) (va : Nat) (f : Xlate) :
    ledger (stallPrefetch s n x va f) = ledger s := by
  unfold stallPrefetch
  split <;> simp

@[simp] theorem cacheWindow_ledger (s : State) (n : Chan) (x : Ctx) (as : List Nat) :
    ledger (cacheWindow s n x as) = ledger s := by
  simp [cacheWindow]

@[simp] theorem fillEcc_ledger (s : State) (n : Chan) (x : Ctx) (as : List Nat) (ecc : EccResult) (f : State → State) (hf : ∀ v0, ledger (f v0) = ledger v0) :
    ledger (fillEcc s n x as ecc f) = ledger s := by
  simp [fillEcc, hf]

@[simp] theorem loadBlock_ledger (s : State) (n : Chan) (x : Ctx) (as : List Nat) :
    ledger (loadBlock s n x as) = ledger s := by
  unfold loadBlock
  dsimp only
  split <;> simp

@[simp] theorem fillPlayback_ledger (s : State) (n : Chan) (x : Ctx) (p : Playback) (ecc : EccResult) : ledger (fillPlayback s n x p ecc) = ledger s := by
  unfold fillPlayback
  dsimp only
  split
  · rfl
  · refine fillEcc_ledger _ _ _ _ _ _ fun t => ?_
    rw [updGraver_ledger, loadBlock_ledger]
  · refine fillEcc_ledger _ _ _ _ _ _ fun t => ?_
    split
    · exact stallPrefetch_ledger ..
    · exact setSupplier_ledger ..

@[simp] theorem fillSweep_ledger (s : State) (n : Chan) (x : Ctx) (w : Sweep) (ecc : EccResult) :
    ledger (fillSweep s n x w ecc) = ledger s := by
  unfold fillSweep
  dsimp only
  split <;> simp

/-! ### RailOps -/

@[simp] theorem railTick_ledger (s : State) (n : Chan) (tick : Nat) (step : Bool) :
    ledger (railTick s n tick step) = ledger s := by
  simp [railTick]

/-! ### HatchOps -/

@[simp] theorem mapUnits_ledger (s : State) (f : Fin 144 → HatchUnit → HatchUnit) :
    ledger (mapUnits s f) = ledger s := by
  simp [mapUnits]

@[simp] theorem updUnit_ledger (s : State) (u : Fin 144) (f : HatchUnit → HatchUnit) :
    ledger (updUnit s u f) = ledger s := by
  simp [updUnit]

@[simp] theorem markPart_ledger (s : State) (u : Fin 144) :
    ledger (markPart s u) = ledger s := by
  simp [markPart]

@[simp] theorem turnUnits_ledger (s : State) (tick : Nat) (record : Bool) :
    ledger (turnUnits s tick record) = ledger s := by
  simp [turnUnits]

@[simp] theorem tickUnits_ledger (s : State) (tick : Nat) :
    ledger (tickUnits s tick) = ledger s := by
  simp [tickUnits]

@[simp] theorem takeSnapshot_ledger (s : State) (tick : Nat) :
    ledger (takeSnapshot s tick) = ledger s := by
  simp [takeSnapshot]

/-! ### ReliefOps -/

@[simp] theorem setRelief_ledger (s : State) (b : Bank) (r : Option Relief) :
    ledger (setRelief s b r) = ledger s := by
  simp [setRelief]

@[simp] theorem updCal_ledger (s : State) (n : Chan) (f : Calib → Calib) :
    ledger (updCal s n f) = ledger s := by
  simp [updCal]

@[simp] theorem firmwareIntent_ledger (s : State) (n : Chan) (i : Intent) :
    ledger (firmwareIntent s n i) = ledger s := by
  simp [firmwareIntent]

@[simp] theorem updFirmware_ledger (s : State) (n : Chan) (f : Intent → Intent) :
    ledger (updFirmware s n f) = ledger s := by
  simp [updFirmware]

@[simp] theorem beginRun_ledger (s : State) (n : Chan) :
    ledger (beginRun s n) = ledger s := by
  simp [beginRun]

@[simp] theorem beginTakeover_ledger (s : State) (n : Chan) (forRun : Bool) :
    ledger (beginTakeover s n forRun) = ledger s := by
  simp [beginTakeover]

@[simp] theorem restoreRelief_ledger (s : State) (b : Bank) (r : Relief) :
    ledger (restoreRelief s b r) = ledger s := by
  simp [restoreRelief]

@[simp] theorem failHandback_ledger (s : State) (b : Bank) (r : Relief) :
    ledger (failHandback s b r) = ledger s := by
  simp [failHandback]

@[simp] theorem beginHandback_ledger (s : State) (b : Bank) (r : Relief) :
    ledger (beginHandback s b r) = ledger s := by
  simp [beginHandback]

@[simp] theorem cancelTakeover_ledger (s : State) (b : Bank) :
    ledger (cancelTakeover s b) = ledger s := by
  unfold cancelTakeover
  dsimp only
  split <;> simp

@[simp] theorem carryOn_ledger (s : State) (b : Bank) (r : Relief) :
    ledger (carryOn s b r) = ledger s := by
  simp [carryOn]

@[simp] theorem reliefBefore_ledger (s : State) (b : Bank) : ledger (reliefBefore s b) = ledger s := by
  unfold reliefBefore
  split
  · rfl
  · dsimp only
    split
    · split
      · exact cancelTakeover_ledger ..
      · rw [setRelief_ledger, cpsSend_ledger, cpsSend_ledger, ledger_ite, updFirmware_ledger, ite_self]
    · split
      · exact failHandback_ledger ..
      · rw [setRelief_ledger, cpsSend_ledger, cpsSend_ledger, ledger_ite, updFirmware_ledger, ite_self]
    · rw [ledger_ite, updFirmware_ledger, updFirmware_ledger, ite_self]
    · rw [ledger_ite, updFirmware_ledger, updFirmware_ledger, ite_self]
    · rfl

@[simp] theorem reliefAfter_ledger (s : State) (b : Bank) : ledger (reliefAfter s b) = ledger s := by
  unfold reliefAfter
  split
  · rfl
  · dsimp only
    split <;> simp only [ledger_ite, cancelTakeover_ledger, setRelief_ledger, carryOn_ledger, beginRun_ledger, updCal_ledger, failHandback_ledger, updForce_ledger, ite_self]

/-! ### CpsOps -/

@[simp] theorem updSlot_ledger (s : State) (n : Chan) (f : Slot → Slot) :
    ledger (updSlot s n f) = ledger s := by
  simp [updSlot]

@[simp] theorem startIdentity_ledger (s : State) (n : Chan) :
    ledger (startIdentity s n) = ledger s := by
  simp [startIdentity]

@[simp] theorem nextIdentity_ledger (s : State) (n : Chan) (k : Nat) (w : BitVec 14) :
    ledger (nextIdentity s n k w) = ledger s := by
  simp [nextIdentity]

@[simp] theorem endIdentity_ledger (s : State) (n : Chan) :
    ledger (endIdentity s n) = ledger s := by
  simp [endIdentity]

@[simp] theorem openOthers_ledger (s : State) (n : Chan) (w : BitVec 14) :
    ledger (openOthers s n w) = ledger s := by
  simp [openOthers]

@[simp] theorem statusArrives_ledger (s : State) (b : Bank) (slot : Nat) (poll : Bool) (w : BitVec 14) :
    ledger (statusArrives s b slot poll w) = ledger s := by
  simp [statusArrives]

@[simp] theorem pollPassed_ledger (s : State) (b : Bank) (n : Chan) (w : BitVec 14) :
    ledger (pollPassed s b n w) = ledger s := by
  simp [pollPassed]

@[simp] theorem pollCrosses_ledger (s : State) (b : Bank) (n : Chan) (w : BitVec 14) :
    ledger (pollCrosses s b n w) = ledger s := by
  unfold pollCrosses
  dsimp only
  split <;> simp

@[simp] theorem crossStatus_ledger (s : State) (b : Bank) (tick : Nat) :
    ledger (crossStatus s b tick) = ledger s := by
  simp [crossStatus]

@[simp] theorem commandPassed_ledger (s : State) (b : Bank) (c : CpsCmd) (n : Chan) (w : BitVec 14) :
    ledger (commandPassed s b c n w) = ledger s := by
  unfold commandPassed
  repeat' split
  all_goals simp

@[simp] theorem bankLinkDown_ledger (s : State) (b : Bank) :
    ledger (bankLinkDown s b) = ledger s := by
  simp [bankLinkDown]

@[simp] theorem bankLinkUp_ledger (s : State) (b : Bank) :
    ledger (bankLinkUp s b) = ledger s := by
  simp [bankLinkUp]

@[simp] theorem slotFailed_ledger (s : State) (n : Chan) :
    ledger (slotFailed s n) = ledger s := by
  simp [slotFailed]

@[simp] theorem commandFailed_ledger (s : State) (b : Bank) (c : CpsCmd) (n : Chan) :
    ledger (commandFailed s b c n) = ledger s := by
  simp [commandFailed]

@[simp] theorem restartAnswer_ledger (s : State) (b : Bank) (c : CpsCmd) (ok : Bool) (n : Chan) (w : BitVec 14) :
    ledger (restartAnswer s b c ok n w) = ledger s := by
  simp [restartAnswer]

@[simp] theorem receiveResponse_ledger (s : State) (b : Bank) (w : Word) :
    ledger (receiveResponse s b w) = ledger s := by
  unfold receiveResponse
  split <;> simp

@[simp] theorem bankLost_ledger (s : State) (b : Bank) :
    ledger (bankLost s b) = ledger s := by
  simp [bankLost]

@[simp] theorem freshSlots_ledger (s : State) (b : Bank) :
    ledger (freshSlots s b) = ledger s := by
  simp [freshSlots]

@[simp] theorem loadPark_ledger (s : State) (b : Bank) :
    ledger (loadPark s b) = ledger s := by
  simp [loadPark]

@[simp] theorem clearFltLatch_ledger (s : State) (n : Chan) :
    ledger (clearFltLatch s n) = ledger s := by
  simp [clearFltLatch]

@[simp] theorem haltRequest_ledger (s : State) (n : Chan) (x : Ctx) :
    ledger (haltRequest s n x) = ledger s := by
  unfold haltRequest
  split <;> simp

@[simp] theorem disableChannel_ledger (s : State) (n : Chan) :
    ledger (disableChannel s n) = ledger s := by
  simp [disableChannel]

/-! ### CalOps -/

@[simp] theorem calAccept_ledger (s : State) (n : Chan) (a : CalAsk) :
    ledger (calAccept s n a) = ledger s := by
  unfold calAccept
  repeat' split
  all_goals simp

@[simp] theorem calRequest_ledger (s : State) (n : Chan) (a : CalAsk) :
    ledger (calRequest s n a).2 = ledger s := by
  simp [calRequest]

/-! ### SampleOps -/

@[simp] theorem cmpTick_ledger (s : State) (n : Chan) (c : Cmp) (tick : Nat) :
    ledger (cmpTick s n c tick) = ledger s := by
  unfold cmpTick
  dsimp only
  split <;> simp

@[simp] theorem blankTick_ledger (s : State) (n : Chan) (started : Bool) :
    ledger (blankTick s n started) = ledger s := by
  simp [blankTick]

@[simp] theorem issueTriggers_ledger (s : State) (n : Chan) :
    ledger (issueTriggers s n) = ledger s := by
  simp [issueTriggers]

@[simp] theorem countTick_ledger (s : State) (n : Chan) (tick : Nat) (res : Bool) :
    ledger (countTick s n tick res) = ledger s := by
  simp [countTick]

@[simp] theorem offTick_ledger (s : State) (n : Chan) : ledger (offTick s n) = ledger s := by
  unfold offTick
  split
  · rfl
  · refine ledger_foldl _ (fun t x => ?_) _ s
    split
    · exact wake_ledger ..
    · rfl

@[simp] theorem convertTick_ledger (s : State) (n : Chan) (tick : Nat) (held restart : Bool) :
    ledger (convertTick s n tick held restart).1 = ledger s := by
  unfold convertTick
  dsimp only
  repeat' split
  all_goals simp

@[simp] theorem markTick_ledger (s : State) (n : Chan) (tick : Nat) (held : Bool) :
    ledger (markTick s n tick held) = ledger s := by
  simp [markTick]

@[simp] theorem channelTick_ledger (s : State) (n : Chan) (tick : Nat) (strobes : BitVec 8) : ledger (channelTick s n tick strobes) = ledger s := by
  unfold channelTick
  dsimp only
  simp only [ledger_ite, flushIdle_ledger, ite_self]
  rw [countTick_ledger, convertTick_ledger, updMeas_ledger, railTick_ledger, updChan_ledger, updForce_ledger, blankTick_ledger, cmpTick_ledger,
    cmpTick_ledger, updChan_ledger, forceTick_ledger, issueTriggers_ledger, markTick_ledger, supplyTick_ledger, offTick_ledger, applyMeasCfg_ledger,
    updChan_ledger]

@[simp] theorem fineTick_books (s : State) :
    (ledger (fineTick s)).books = (ledger s).books := by
  simp [fineTick]

@[simp] theorem tracerTick_ledger (s : State) :
    ledger (tracerTick s) = ledger s := by
  simp [tracerTick]

@[simp] theorem wakeSyncf_ledger (s : State) :
    ledger (wakeSyncf s) = ledger s := by
  simp [wakeSyncf]

@[simp] theorem crossIdle_ledger (s : State) (b : Bank) :
    ledger (crossIdle s b) = ledger s := by
  simp [crossIdle]

@[simp] theorem deviceTick_books (s : State) (tick : Nat) :
    (ledger (deviceTick s tick)).books = (ledger s).books := by
  simp [deviceTick]

/-! ### ChanRegs -/

@[simp] theorem snapLatest_ledger (s : State) (n : Chan) (i : Fin 8) :
    ledger (snapLatest s n i) = ledger s := by
  simp [snapLatest]

/-! ### KrytgerMeasure -/

@[simp] theorem commitMark_ledger (s : State) (n : Chan) (qual payload : Nat) :
    ledger (commitMark s n qual payload) = ledger s := by
  simp [commitMark]

/-! ### KrytgerTime -/

theorem reach_books {s t : State} {tick : Nat} (h : reach s tick = some t) : (ledger t).books = (ledger s).books := by
  unfold reach at h
  split at h
  · obtain rfl := Option.some.inj h
    rfl
  · split at h
    · obtain rfl := Option.some.inj h
      rfl
    · exact nomatch h

@[simp] theorem updCons_ledger (s : State) (i : Fin 551) (f : Consumer → Consumer) :
    ledger (updCons s i f) = ledger s := by
  simp [updCons]

@[simp] theorem consumeInput_ledger (s : State) (n : Chan) (i : Fin 4) :
    ledger (consumeInput s n i) = ledger s := by
  simp [consumeInput]

@[simp] theorem serveWaitev_ledger (s : State) (n : Chan) : ledger (serveWaitev s n) = ledger s := by
  unfold serveWaitev
  refine ledger_foldl _ (fun t x => ?_) _ s
  split
  · split
    · rw [wake_ledger, updCtx_ledger, consumeInput_ledger]
    · rfl
  · rfl

@[simp] theorem selectCmps_ledger (s : State) (n : Chan) (sel : Nat) (f : Comparator → Comparator) :
    ledger (selectCmps s n sel f) = ledger s := by
  simp [selectCmps]

/-! ### VigilOps -/

@[simp] theorem wakeVigil_ledger (s : State) (cause : Nat) :
    ledger (wakeVigil s cause) = ledger s := by
  simp [wakeVigil]

@[simp] theorem demandMemory_ledger (s : State) (pa : Nat) (f : State → State) (hf : ∀ v0, ledger (f v0) = ledger v0) :
    ledger (demandMemory s pa f) = ledger s := by
  simp [demandMemory, hf]

/-! ### TracerOps -/

@[simp] theorem updTc_ledger (s : State) (k : Fin 128) (f : TracerChan → TracerChan) :
    ledger (updTc s k f) = ledger s := by
  simp [updTc]

@[simp] theorem requestJump_ledger (s : State) (n : Chan) :
    ledger (requestJump s n) = ledger s := by
  unfold requestJump
  split <;> simp

@[simp] theorem requestBlank_ledger (s : State) (n : Chan) (c : Cmp) :
    ledger (requestBlank s n c) = ledger s := by
  simp [requestBlank]

@[simp] theorem startFrames_ledger (s : State) :
    ledger (startFrames s) = ledger s := by
  simp [startFrames]

@[simp] theorem recordTrigger_ledger (s : State) (i : Fin 551) (d : Ring) :
    ledger (recordTrigger s i d) = ledger s := by
  simp [recordTrigger]

@[simp] theorem deliverInput_ledger (slot : Nat) (s : State) (i : Fin 551) :
    ledger (deliverInput slot s i) = ledger s := by
  unfold deliverInput
  dsimp only
  repeat' split
  all_goals simp

@[simp] theorem deliverInputs_ledger (s : State) (slot : Nat) (tcs : List Nat) :
    ledger (deliverInputs s slot tcs) = ledger s := by
  simp [deliverInputs]

@[simp] theorem countDelivery_ledger (s : State) (tc : Fin 128) (raised delivered : Nat) :
    ledger (countDelivery s tc raised delivered) = ledger s := by
  simp [countDelivery]

@[simp] theorem evoTick_ledger (s : State) (tcs : List Nat) :
    ledger (evoTick s tcs) = ledger s := by
  simp [evoTick]

@[simp] theorem groupTick_ledger (s : State) (slot : Nat) :
    ledger (groupTick s slot) = ledger s := by
  simp [groupTick]

@[simp] theorem acceptChannel_ledger (slot : Nat) (due : List Ingress) (s : State) (k : Fin 128) :
    ledger (acceptChannel slot due s k) = ledger s := by
  simp [acceptChannel]

@[simp] theorem sendTokens_ledger (s : State) (slot : Nat) (from_ : List Flight) :
    ledger (sendTokens s slot from_) = ledger s := by
  simp [sendTokens]

@[simp] theorem acceptTokens_ledger (s : State) (slot : Nat) :
    ledger (acceptTokens s slot) = ledger s := by
  simp [acceptTokens]

@[simp] theorem deliverTimed_ledger (s : State) (slot : Nat) :
    ledger (deliverTimed s slot).1 = ledger s := by
  simp [deliverTimed]

@[simp] theorem slotTick_books (s : State) (tick : Nat) :
    (ledger (slotTick s tick)).books = (ledger s).books := by
  simp [slotTick]

@[simp] theorem forwardDirect_ledger (s : State) (k : Fin 128) :
    ledger (forwardDirect s k) = ledger s := by
  unfold forwardDirect
  split <;> simp

@[simp] theorem receiveTokens_ledger (s : State) (lane : Lane) (mask a : Nat) :
    ledger (receiveTokens s lane mask a) = ledger s := by
  simp [receiveTokens]

@[simp] theorem excursion_ledger (s : State) (n : Chan) (c : Cmp) (tick : Nat) (dst : CmpState) :
    ledger (excursion s n c tick dst) = ledger s := by
  simp [excursion]

@[simp] theorem cmpDecide_ledger (s : State) (n : Chan) (c : Cmp) (tick : Nat) (dst : CmpState) :
    ledger (cmpDecide s n c tick dst) = ledger s := by
  simp [cmpDecide]

@[simp] theorem cmpStatusWrite_ledger (s : State) (n : Chan) (v : Word) :
    ledger (cmpStatusWrite s n v) = ledger s := by
  simp [cmpStatusWrite]

@[simp] theorem ackVector_ledger (s : State) (v : Nat) :
    ledger (ackVector s v) = ledger s := by
  simp [ackVector]

@[simp] theorem injectSources_ledger (s : State) (v : Word) :
    ledger (injectSources s v) = ledger s := by
  simp [injectSources]

@[simp] theorem writeConsumer_ledger (s : State) (i : Nat) (v : Word) :
    ledger (writeConsumer s i v) = ledger s := by
  unfold writeConsumer
  split <;> simp

@[simp] theorem dropTokenJumps_ledger (s : State) (n : Chan) :
    ledger (dropTokenJumps s n) = ledger s := by
  simp [dropTokenJumps]

@[simp] theorem writeConsCfg_ledger (s : State) (i : Nat) (v : Word) :
    ledger (writeConsCfg s i v) = ledger s := by
  unfold writeConsCfg
  repeat' split
  all_goals simp

@[simp] theorem writeMerge_ledger (s : State) (p : Path) (v : Word) :
    ledger (writeMerge s p v) = ledger s := by
  simp [writeMerge]

/-! ### QueueOps -/

@[simp] theorem closeIfEmpty_ledger (s : State) (q : Fin 256) :
    ledger (closeIfEmpty s q) = ledger s := by
  simp [closeIfEmpty]

@[simp] theorem replaceByGap_ledger (s : State) (q : Fin 256) :
    ledger (replaceByGap s q) = ledger s := by
  simp [replaceByGap]

@[simp] theorem checkPacket_ledger (s : State) (q : Fin 256) (ecc : EccResult) :
    ledger (checkPacket s q ecc) = ledger s := by
  simp [checkPacket]

@[simp] theorem countResidency_ledger (s : State) (q : Fin 256) (w : Word) :
    ledger (countResidency s q w) = ledger s := by
  unfold countResidency
  repeat' split
  all_goals simp

@[simp] theorem popQueue_ledger (s : State) (p : Path) (q : Fin 256) (ecc : EccResult) :
    ledger (popQueue s p q ecc).2 = ledger s := by
  unfold popQueue
  dsimp only
  repeat' split
  all_goals simp

@[simp] theorem popFree_ledger (s : State) (p : Path) (q : Fin 256) :
    ledger (popFree s p q).2 = ledger s := by
  unfold popFree
  split <;> simp

@[simp] theorem enableQueue_ledger (s : State) (q : Fin 256) :
    ledger (enableQueue s q) = ledger s := by
  simp [enableQueue]

@[simp] theorem disableQueue_ledger (s : State) (q : Fin 256) : ledger (disableQueue s q) = ledger s := by
  unfold disableQueue
  split
  · rfl
  · dsimp only
    rw [closeIfEmpty_ledger, updQueue_ledger, ledger_ite, commitGap_ledger, ite_self, changeQueue_ledger]

@[simp] theorem flushQueue_ledger (s : State) (q : Fin 256) :
    ledger (flushQueue s q) = ledger s := by
  simp [flushQueue]

@[simp] theorem dropRem_ledger (s : State) (p : Path) (q : Fin 256) :
    ledger (dropRem s p q) = ledger s := by
  simp [dropRem]

@[simp] theorem qCtrlWrite_ledger (s : State) (p : Path) (q : Fin 256) (v : Word) :
    ledger (qCtrlWrite s p q v) = ledger s := by
  unfold qCtrlWrite
  repeat' split
  all_goals simp

@[simp] theorem qCfgWrite_ledger (s : State) (p : Path) (q : Fin 256) (v : Word) :
    ledger (qCfgWrite s p q v) = ledger s := by
  simp [qCfgWrite]

@[simp] theorem readPeak_ledger (s : State) (q : Fin 256) :
    ledger (readPeak s q) = ledger s := by
  simp [readPeak]

@[simp] theorem barEcc_ledger (s : State) (offset : Nat) (ecc : EccResult) :
    ledger (barEcc s offset ecc) = ledger s := by
  unfold barEcc
  split <;> simp

@[simp] theorem barRead_ledger (s : State) (offset words : Nat) (ecc : EccResult) :
    ledger (barRead s offset words ecc).2 = ledger s := by
  unfold barRead
  dsimp only
  repeat' split
  all_goals simp

@[simp] theorem ringFault_ledger (s : State) (who : Waiter) (req asid va : Nat) (f : Xlate) :
    ledger (ringFault s who req asid va f) = ledger s := by
  unfold ringFault
  split <;> simp

@[simp] theorem takeTriggers_ledger (fuel : Nat) : ∀ (s : State) (d : Ring), ledger (takeTriggers fuel s d) = ledger s := by
  induction fuel with
  | zero => exact fun s d => rfl
  | succ fuel ih =>
    intro s d
    rw [takeTriggers]
    dsimp only
    split
    · rfl
    · rw [ih, updRing_ledger, updCons_ledger]

@[simp] theorem startTransfer_ledger (s : State) (d : Ring) (q : Fin 256) (ecc : EccResult) :
    ledger (startTransfer s d q ecc) = ledger s := by
  unfold startTransfer
  dsimp only
  repeat' split
  all_goals simp

@[simp] theorem engineStart_ledger (s : State) (d : Ring) (ecc : EccResult) : ledger (engineStart s d ecc) = ledger s := by
  unfold engineStart
  dsimp only
  split
  · rfl
  · split
    · rw [startTransfer_ledger, takeTriggers_ledger]
    · exact takeTriggers_ledger ..

@[simp] theorem ringThreshold_ledger (s : State) (d : Ring) (before : Nat) :
    ledger (ringThreshold s d before) = ledger s := by
  simp [ringThreshold]

@[simp] theorem ringCfgWrite_ledger (s : State) (d : Ring) (v : Word) :
    ledger (ringCfgWrite s d v) = ledger s := by
  simp [ringCfgWrite]

@[simp] theorem ringRdWrite_ledger (s : State) (d : Ring) (hi : Word) :
    ledger (ringRdWrite s d hi) = ledger s := by
  simp [ringRdWrite]

/-! ### MemoryOps -/

@[simp] theorem releaseWaiter_ledger (s : State) (w : Waiter) :
    ledger (releaseWaiter s w) = ledger s := by
  unfold releaseWaiter
  repeat' split
  all_goals simp

@[simp] theorem releaseCured_ledger (s : State) :
    ledger (releaseCured s) = ledger s := by
  simp [releaseCured]

@[simp] theorem asidCreateOp_ledger (s : State) (asid : Nat) :
    ledger (asidCreateOp s asid).2 = ledger s := by
  unfold asidCreateOp
  repeat' split
  all_goals simp

@[simp] theorem addMapping_ledger (s : State) (e : Mapping) :
    ledger (addMapping s e) = ledger s := by
  simp [addMapping]

@[simp] theorem mapOp_ledger (s : State) (asid : Nat) (flags : Word) (va pa len : Nat) :
    ledger (mapOp s asid flags va pa len).2 = ledger s := by
  unfold mapOp
  dsimp only
  repeat' split
  all_goals simp

@[simp] theorem mapDzOp_ledger (s : State) (asid : Nat) (flags : Word) (va len : Nat) :
    ledger (mapDzOp s asid flags va len).2 = ledger s := by
  unfold mapDzOp
  repeat' split
  all_goals simp

@[simp] theorem startInv_ledger (s : State) (i : Inv) :
    ledger (startInv s i) = ledger s := by
  simp [startInv]

@[simp] theorem unmapRange_ledger (s : State) (asid va len : Nat) (who : Option (Path × Word × Nat × Nat)) :
    ledger (unmapRange s asid va len who) = ledger s := by
  simp [unmapRange]

@[simp] theorem protectOp_ledger (s : State) (asid : Nat) (flags : Word) (va len : Nat) (who : Option (Path × Word × Nat × Nat)) :
    ledger (protectOp s asid flags va len who).2 = ledger s := by
  unfold protectOp
  repeat' split
  all_goals simp

@[simp] theorem asidDestroyOp_ledger (s : State) (asid : Nat) (who : Option (Path × Word × Nat × Nat)) :
    ledger (asidDestroyOp s asid who).2 = ledger s := by
  unfold asidDestroyOp
  repeat' split
  all_goals simp

@[simp] theorem poolAddOp_ledger (s : State) (pa pages : Nat) :
    ledger (poolAddOp s pa pages).2 = ledger s := by
  unfold poolAddOp
  split <;> simp

@[simp] theorem cacheInvOp_ledger (s : State) (asid va len : Nat) :
    ledger (cacheInvOp s asid va len) = ledger s := by
  simp [cacheInvOp]

@[simp] theorem demandToPool_ledger (s : State) (d : Demand) :
    ledger (demandToPool s d) = ledger s := by
  unfold demandToPool
  split <;> simp

@[simp] theorem repairRow_ledger (s : State) (k : Nat) :
    ledger (repairRow s k) = ledger s := by
  simp [repairRow]

@[simp] theorem flogPop_ledger (s : State) (p : Path) :
    ledger (flogPop s p).2 = ledger s := by
  unfold flogPop
  split <;> simp

@[simp] theorem resumeOp_ledger (s : State) (n : Chan) (x : Ctx) (a : ResumeAction) :
    ledger (resumeOp s n x a).2 = ledger s := by
  unfold resumeOp
  repeat' split
  all_goals simp

/-! ### ProofOps -/

@[simp] theorem updPf_ledger (s : State) (f : Trust → Trust) :
    ledger (updPf s f) = ledger s := by
  simp [updPf]

@[simp] theorem updInterval_ledger (s : State) (f : Interval → Interval) :
    ledger (updInterval s f) = ledger s := by
  simp [updInterval]

@[simp] theorem noteAlign_ledger (s : State) :
    ledger (noteAlign s) = ledger s := by
  simp [noteAlign]

@[simp] theorem openInterval_ledger (s : State) (tick frame : Nat) :
    ledger (openInterval s tick frame) = ledger s := by
  simp [openInterval]

@[simp] theorem turnInterval_ledger (s : State) (tick num : Nat) (scheduled final : Bool) :
    ledger (turnInterval s tick num scheduled final) = ledger s := by
  unfold turnInterval
  split <;> simp

@[simp] theorem handOver_ledger (s : State) (words : List Word) (frame : Bool) (boundary : Nat) (absent : Bool) (recs : Nat → Option (HatchBuf × UnitCfg)) :
    ledger (handOver s words frame boundary absent recs) = ledger s := by
  unfold handOver
  dsimp only
  repeat' split
  all_goals simp

@[simp] theorem sealProof_ledger (s : State) (v : Interval) (e : EndState) :
    ledger (sealProof s v e) = ledger s := by
  simp [sealProof]

@[simp] theorem pfCtrl_ledger (s : State) (v : Word) :
    ledger (pfCtrl s v) = ledger s := by
  simp [pfCtrl]

@[simp] theorem pfRdWrite_ledger (s : State) (hi : Word) :
    ledger (pfRdWrite s hi) = ledger s := by
  simp [pfRdWrite]

@[simp] theorem endFrames_ledger (s : State) :
    ledger (endFrames s) = ledger s := by
  simp [endFrames]

@[simp] theorem checkKeyEnd_ledger (s : State) :
    ledger (checkKeyEnd s) = ledger s := by
  simp [checkKeyEnd]

/-! ### FrameOps -/

@[simp] theorem updHt_ledger (s : State) (f : Frames → Frames) :
    ledger (updHt s f) = ledger s := by
  simp [updHt]

@[simp] theorem armFrames_ledger (s : State) :
    ledger (armFrames s) = ledger s := by
  simp [armFrames]

@[simp] theorem frmCtrlWrite_ledger (s : State) (v : Word) :
    ledger (frmCtrlWrite s v) = ledger s := by
  simp [frmCtrlWrite]

@[simp] theorem channelBoundary_ledger (tick : Nat) (s : State) (n : Chan) :
    ledger (channelBoundary tick s n) = ledger s := by
  simp [channelBoundary]

@[simp] theorem firstBoundary_ledger (s : State) (tick : Nat) :
    ledger (firstBoundary s tick) = ledger s := by
  unfold firstBoundary
  dsimp only
  split <;> simp

@[simp] theorem frameEnd_ledger (s : State) (tick : Nat) :
    ledger (frameEnd s tick) = ledger s := by
  simp [frameEnd]

@[simp] theorem frameBoundaryOp_books (s : State) :
    (ledger (frameBoundaryOp s)).books = (ledger s).books := by
  simp [frameBoundaryOp]

@[simp] theorem sampleTick_books (s : State) (tick : Nat) :
    (ledger (sampleTick s tick)).books = (ledger s).books := by
  simp [sampleTick]

@[simp] theorem writeUnitCfg_ledger (s : State) (u : Fin 144) (v : Word) :
    ledger (writeUnitCfg s u v) = ledger s := by
  simp [writeUnitCfg]

@[simp] theorem writeUnitBase_ledger (s : State) (u : Fin 144) (v : Word) :
    ledger (writeUnitBase s u v) = ledger s := by
  simp [writeUnitBase]

@[simp] theorem releaseBufs_ledger (s : State) (slot : Fin 76) :
    ledger (releaseBufs s slot) = ledger s := by
  simp [releaseBufs]

@[simp] theorem storeSlot_ledger (s : State) (slot : Fin 76) :
    ledger (storeSlot s slot) = ledger s := by
  unfold storeSlot
  dsimp only
  repeat' split
  all_goals simp

@[simp] theorem timeOutFrame_ledger (s : State) :
    ledger (timeOutFrame s) = ledger s := by
  unfold timeOutFrame
  split <;> simp

@[simp] theorem deviceUnitsReady_ledger (s : State) :
    ledger (deviceUnitsReady s) = ledger s := by
  unfold deviceUnitsReady
  split <;> simp

@[simp] theorem pushPacket_ledger (s : State) (q : Fin 256) (ws : List Word) :
    ledger (pushPacket s q ws) = ledger s := by
  unfold pushPacket
  split <;> simp

@[simp] theorem emitFrame_ledger (s : State) :
    ledger (emitFrame s) = ledger s := by
  unfold emitFrame
  split <;> simp

/-! ### HostOps -/

@[simp] theorem housekeep_ledger (s : State) (p : ErrPlace → Bool) (f : State → State) (hf : ∀ v0, ledger (f v0) = ledger v0) :
    ledger (housekeep s p f) = ledger s := by
  unfold housekeep
  split <;> simp [hf]

@[simp] theorem passMessage_ledger (s : State) (p : Path) (len : Nat) :
    ledger (passMessage s p len) = ledger s := by
  simp [passMessage]

@[simp] theorem countTimeout_ledger (s : State) :
    ledger (countTimeout s) = ledger s := by
  simp [countTimeout]

@[simp] theorem touchSession_ledger (s : State) (p : Path) :
    ledger (touchSession s p) = ledger s := by
  unfold touchSession
  split <;> simp

@[simp] theorem statusOnly_ledger (r : Nat × State) : ledger (statusOnly r).2 = ledger r.2 := rfl

/-! ### TrustOps -/

@[simp] theorem consumeNonce_ledger (s : State) (path : Path) (n : Digest) :
    ledger (consumeNonce s path n) = ledger s := by
  simp [consumeNonce]

@[simp] theorem issueNonce_ledger (s : State) (path : Path) :
    ledger (issueNonce s path).2 = ledger s := by
  simp [issueNonce]

@[simp] theorem useToken_ledger (s : State) (path : Path) (t : Token) (op : Nat) (newKey : Option (List Byte)) (arg : List Byte) :
    ledger (useToken s path t op newKey arg).2 = ledger s := by
  simp [useToken]

theorem authorise_ledger (s : State) (path : Path) (t : Token) (op : Nat) (arg : List Byte) (f : State → Nat × State)
    (hf : ∀ u, ledger (f u).2 = ledger u) : ledger (authorise s path t op arg f).2 = ledger s := by
  have huse := useToken_ledger s path t op none arg
  unfold authorise
  dsimp only
  split
  · exact huse
  · exact (hf _).trans huse

theorem attestRecord_ledger {s : State} {nonce : Digest} {fails : Nat} {r : List Byte × State} (h : attestRecord s nonce fails = some r) :
    ledger r.2 = ledger s := by
  unfold attestRecord at h
  split at h
  · exact nomatch h
  · obtain rfl := Option.some.inj h
    exact checkKeyEnd_ledger ..

@[simp] theorem pinDrive_ledger (s : State) :
    ledger (pinDrive s) = ledger s := by
  simp [pinDrive]

/-! ### CalRunOps -/

@[simp] theorem storeOn_ledger (s : State) (n : Chan) (new : CalSet) (fails : Nat) :
    ledger (storeOn s n new fails) = ledger s := by
  simp [storeOn]

@[simp] theorem finishRun_ledger (s : State) (n : Chan) (code : Nat) :
    ledger (finishRun s n code) = ledger s := by
  unfold finishRun
  dsimp only
  split <;> simp

@[simp] theorem precheckEnd_ledger (s : State) (n : Chan) (raws : List (Int × Int)) :
    ledger (precheckEnd s n raws) = ledger s := by
  simp [precheckEnd]

@[simp] theorem runResults_ledger (s : State) (n : Chan) (r : CalResult) :
    ledger (runResults s n r) = ledger s := by
  simp [runResults]

@[simp] theorem runStored_ledger (s : State) (n : Chan) (t : CalSet) (fails : Nat) :
    ledger (runStored s n t fails) = ledger s := by
  simp [runStored]

@[simp] theorem runEnd_ledger (s : State) (n : Chan) (e : RunEvent) :
    ledger (runEnd s n e) = ledger s := by
  unfold runEnd
  dsimp only
  split <;> simp

@[simp] theorem setRelieved_ledger (s : State) (b : Bank) (r : Relief) (v : Bool) :
    ledger (setRelieved s b r v) = ledger s := by
  simp [setRelieved]

@[simp] theorem reliefMade_ledger (s : State) (b : Bank) :
    ledger (reliefMade s b) = ledger s := by
  unfold reliefMade
  split <;> simp

@[simp] theorem reliefRamped_ledger (s : State) (b : Bank) :
    ledger (reliefRamped s b) = ledger s := by
  unfold reliefRamped
  repeat' split
  all_goals simp

@[simp] theorem reliefBroken_ledger (s : State) (b : Bank) :
    ledger (reliefBroken s b) = ledger s := by
  unfold reliefBroken
  split <;> simp

@[simp] theorem calCommand_ledger (s : State) (p : Path) (n : Chan) (a : CalAsk) :
    ledger (calCommand s p n a) = ledger s := by
  simp [calCommand]

/-! ### TimeOps -/

@[simp] theorem shiftTimers_ledger (old new : Nat) (s : State) :
    ledger (shiftTimers old new s) = ledger s := by
  simp [shiftTimers]

@[simp] theorem setCounter_books (s : State) (t phase : Nat) : (ledger (setCounter s t phase)).books = (ledger s).books := by
  have hpaths : (s.paths.map (shiftPath s.tb.now t)).map ringsOf = s.paths.map ringsOf := by
    rw [Vector.map_map]
    rfl
  unfold setCounter
  dsimp only
  rw [updTb_books, shiftTimers_ledger, ledger_mk, hpaths]
  rfl

@[simp] theorem enterHoldover_books (s : State) :
    (ledger (enterHoldover s)).books = (ledger s).books := by
  simp [enterHoldover]

@[simp] theorem firstLock_books (s : State) :
    (ledger (firstLock s)).books = (ledger s).books := by
  simp [firstLock]

@[simp] theorem loseRef_books (s : State) :
    (ledger (loseRef s)).books = (ledger s).books := by
  simp [loseRef]

@[simp] theorem relock_books (s : State) (phase : Nat) :
    (ledger (relock s phase)).books = (ledger s).books := by
  simp [relock]

@[simp] theorem syncLoad_books (s : State) (held : Bool) :
    (ledger (syncLoad s held)).books = (ledger s).books := by
  simp [syncLoad]

@[simp] theorem syncVerify_books (s : State) :
    (ledger (syncVerify s)).books = (ledger s).books := by
  simp [syncVerify]

@[simp] theorem sendSyncv_ledger (s : State) :
    ledger (sendSyncv s) = ledger s := by
  simp [sendSyncv]

@[simp] theorem syncAt_books (s : State) (edge : Nat) (held : Bool) :
    (ledger (syncAt s edge held)).books = (ledger s).books := by
  simp [syncAt]

@[simp] theorem genSync_books (s : State) :
    (ledger (genSync s)).books = (ledger s).books := by
  simp [genSync]

@[simp] theorem adjustCounter_books (s : State) (v : Word) :
    (ledger (adjustCounter s v)).books = (ledger s).books := by
  simp [adjustCounter]

@[simp] theorem startSkew_books (s : State) :
    (ledger (startSkew s)).books = (ledger s).books := by
  simp [startSkew]

@[simp] theorem failSkew_books (s : State) :
    (ledger (failSkew s)).books = (ledger s).books := by
  simp [failSkew]

@[simp] theorem endExchange_books (s : State) (t4 : BitVec 40) :
    (ledger (endExchange s t4)).books = (ledger s).books := by
  unfold endExchange
  split <;> simp

@[simp] theorem setFine_books (s : State) (target : Nat) :
    (ledger (setFine s target)).books = (ledger s).books := by
  simp [setFine]

@[simp] theorem settleSkew_books (s : State) :
    (ledger (settleSkew s)).books = (ledger s).books := by
  simp [settleSkew]

@[simp] theorem endSkew_books (s : State) :
    (ledger (endSkew s)).books = (ledger s).books := by
  simp [endSkew]

@[simp] theorem fineStep_books (s : State) :
    (ledger (fineStep s)).books = (ledger s).books := by
  simp [fineStep]

/-! ### LaneOps -/

@[simp] theorem askPreset_ledger (s : State) (k : Lane) (speed : Nat) :
    ledger (askPreset s k speed) = ledger s := by
  simp [askPreset]

@[simp] theorem takeEq_ledger (s : State) (k : Lane) :
    ledger (takeEq s k) = ledger s := by
  simp [takeEq]

@[simp] theorem setLState_books (s : State) (k : Lane) (st : LState) :
    (ledger (setLState s k st)).books = (ledger s).books := by
  simp [setLState]

@[simp] theorem sendTrain_ledger (s : State) (k : Lane) (ack : Bool) :
    ledger (sendTrain s k ack) = ledger s := by
  simp [sendTrain]

@[simp] theorem seek_ledger (s : State) (k : Lane) :
    ledger (seek s k) = ledger s := by
  simp [seek]

@[simp] theorem beginAttempt_ledger (s : State) (k : Lane) :
    ledger (beginAttempt s k) = ledger s := by
  simp [beginAttempt]

@[simp] theorem beginCycle_books (s : State) (k : Lane) :
    (ledger (beginCycle s k)).books = (ledger s).books := by
  simp [beginCycle]

@[simp] theorem enterAlone_books (s : State) :
    (ledger (enterAlone s)).books = (ledger s).books := by
  simp [enterAlone]

@[simp] theorem failAttempt_books (s : State) (k : Lane) :
    (ledger (failAttempt s k)).books = (ledger s).books := by
  simp [failAttempt]

@[simp] theorem startLink_books (s : State) (k : Lane) :
    (ledger (startLink s k)).books = (ledger s).books := by
  simp [startLink]

@[simp] theorem stopLink_books (s : State) (k : Lane) (st : LState) :
    (ledger (stopLink s k st)).books = (ledger s).books := by
  simp [stopLink]

@[simp] theorem sleepLane_books (s : State) (k : Lane) (p : Nat) :
    (ledger (sleepLane s k p)).books = (ledger s).books := by
  simp [sleepLane]

@[simp] theorem wakeLane_books (s : State) (k : Lane) :
    (ledger (wakeLane s k)).books = (ledger s).books := by
  simp [wakeLane]

@[simp] theorem applyCfg_books (s : State) (k : Lane) (v : Word) :
    (ledger (applyCfg s k v)).books = (ledger s).books := by
  simp [applyCfg]

@[simp] theorem laneCfg_books (s : State) (p : Path) (onLane : Option Lane) (k : Lane) (v : Word) :
    (ledger (laneCfg s p onLane k v)).books = (ledger s).books := by
  simp [laneCfg]

@[simp] theorem slipLane_ledger (s : State) (k : Lane) :
    ledger (slipLane s k) = ledger s := by
  simp [slipLane]

@[simp] theorem restartLane_books (s : State) (k : Lane) :
    (ledger (restartLane s k)).books = (ledger s).books := by
  simp [restartLane]

@[simp] theorem injectLane_ledger (s : State) (k : Lane) :
    ledger (injectLane s k) = ledger s := by
  simp [injectLane]

@[simp] theorem clearPrbs_ledger (s : State) (k : Lane) :
    ledger (clearPrbs s k) = ledger s := by
  simp [clearPrbs]

@[simp] theorem countPrbs_ledger (s : State) (k : Lane) :
    ledger (countPrbs s k) = ledger s := by
  simp [countPrbs]

@[simp] theorem prbsWrite_ledger (s : State) (k : Lane) (v : Word) :
    ledger (prbsWrite s k v) = ledger s := by
  simp [prbsWrite]

@[simp] theorem leaveAlone_books (s : State) :
    (ledger (leaveAlone s)).books = (ledger s).books := by
  simp [leaveAlone]

@[simp] theorem trainArrived_books (s : State) (k : Lane) (sysid : BitVec 5) (ack : Bool) :
    (ledger (trainArrived s k sysid ack)).books = (ledger s).books := by
  simp [trainArrived]

@[simp] theorem gainLock_ledger (s : State) (k : Lane) :
    ledger (gainLock s k) = ledger s := by
  simp [gainLock]

@[simp] theorem sibiaLost_books (s : State) (k : Lane) :
    (ledger (sibiaLost s k)).books = (ledger s).books := by
  simp [sibiaLost]

@[simp] theorem loseLock_books (s : State) (k : Lane) :
    (ledger (loseLock s k)).books = (ledger s).books := by
  simp [loseLock]

@[simp] theorem retryEther_books (s : State) (k : Lane) (locked negotiated : Bool) :
    (ledger (retryEther s k locked negotiated)).books = (ledger s).books := by
  simp [retryEther]

@[simp] theorem loseEther_books (s : State) (k : Lane) :
    (ledger (loseEther s k)).books = (ledger s).books := by
  simp [loseEther]

@[simp] theorem dropFrame_ledger (s : State) :
    ledger (dropFrame s) = ledger s := by
  simp [dropFrame]

@[simp] theorem etherFrame_ledger (s : State) (k : Lane) (f : EtherFrame) (len tags : Nat) :
    ledger (etherFrame s k f len tags) = ledger s := by
  unfold etherFrame
  repeat' split
  all_goals simp

@[simp] theorem sendReq_ledger (s : State) (k : Lane) :
    ledger (sendReq s k) = ledger s := by
  unfold sendReq
  dsimp only
  split <;> simp

@[simp] theorem askArrived_ledger (s : State) (k : Lane) :
    ledger (askArrived s k) = ledger s := by
  simp [askArrived]

@[simp] theorem reqArrived_books (s : State) (k : Lane) (seq : BitVec 6) (t1 t2 t3 : BitVec 40) :
    (ledger (reqArrived s k seq t1 t2 t3)).books = (ledger s).books := by
  simp [reqArrived]

@[simp] theorem rspArrived_ledger (s : State) (k : Lane) (seq : BitVec 6) (t4 : BitVec 40) :
    ledger (rspArrived s k seq t4) = ledger s := by
  simp [rspArrived]

@[simp] theorem reportArrived_books (s : State) (k : Lane) (seq : BitVec 6) (t4 : BitVec 40) :
    (ledger (reportArrived s k seq t4)).books = (ledger s).books := by
  simp [reportArrived]

@[simp] theorem syncvArrived_ledger (s : State) (k : Lane) (cap : BitVec 48) :
    ledger (syncvArrived s k cap) = ledger s := by
  simp [syncvArrived]

@[simp] theorem tokenArrived_ledger (s : State) (k : Lane) (mask : BitVec 16) (a : BitVec 32) :
    ledger (tokenArrived s k mask a) = ledger s := by
  simp [tokenArrived]

@[simp] theorem badBlock_ledger (s : State) (k : Lane) :
    ledger (badBlock s k) = ledger s := by
  simp [badBlock]

@[simp] theorem exchangeTimeout_books (s : State) (k : Lane) :
    (ledger (exchangeTimeout s k)).books = (ledger s).books := by
  simp [exchangeTimeout]

@[simp] theorem enableMsix_ledger (s : State) :
    ledger (enableMsix s) = ledger s := by
  simp [enableMsix]

@[simp] theorem pcieUp_books (s : State) (speed width : Nat) :
    (ledger (pcieUp s speed width)).books = (ledger s).books := by
  simp [pcieUp]

/-! ### PlateOps -/

@[simp] theorem updPl_ledger (s : State) (f : Plate → Plate) :
    ledger (updPl s f) = ledger s := by
  simp [updPl]

@[simp] theorem noteSession_ledger (s : State) :
    ledger (noteSession s) = ledger s := by
  simp [noteSession]

@[simp] theorem holdOne_ledger (s : State) (n : Chan) :
    ledger (holdOne s n) = ledger s := by
  simp [holdOne]

@[simp] theorem withHold_ledger (s : State) (f : State → State) (hf : ∀ v0, ledger (f v0) = ledger v0) :
    ledger (withHold s f) = ledger s := by
  simp [withHold, hf]

@[simp] theorem lifeChecks_ledger (s : State) (c : Nat) :
    ledger (lifeChecks s c) = ledger s := by
  simp [lifeChecks]

@[simp] theorem countLive_ledger (s : State) :
    ledger (countLive s) = ledger s := by
  simp [countLive]

@[simp] theorem raisePlate_ledger (s : State) (src : Nat) :
    ledger (raisePlate s src) = ledger s := by
  simp [raisePlate]

@[simp] theorem countCycle_ledger (s : State) :
    ledger (countCycle s) = ledger s := by
  unfold countCycle
  split <;> simp

@[simp] theorem applyPending_ledger (fuel : Nat) : ∀ s, ledger (applyPending fuel s) = ledger s := by
  induction fuel with
  | zero => exact fun s => rfl
  | succ fuel ih => exact fun s => (ih _).trans ((countLive_ledger _).trans (updPl_ledger ..))

@[simp] theorem closeSession_ledger (s : State) :
    ledger (closeSession s) = ledger s := by
  simp [closeSession]

@[simp] theorem startSession_ledger (s : State) :
    ledger (startSession s) = ledger s := by
  simp [startSession]

@[simp] theorem beginReading_ledger (s : State) :
    ledger (beginReading s) = ledger s := by
  simp [beginReading]

@[simp] theorem refusePlate_ledger (s : State) (code : Nat) :
    ledger (refusePlate s code) = ledger s := by
  simp [refusePlate]

@[simp] theorem goLive_ledger (s : State) :
    ledger (goLive s) = ledger s := by
  simp [goLive]

@[simp] theorem openEeprom_ledger (s : State) (slots : List (Nat × Nat × BitVec 128)) :
    ledger (openEeprom s slots) = ledger s := by
  simp [openEeprom]

@[simp] theorem beginAuth_ledger (s : State) (r : PlateRead) :
    ledger (beginAuth s r) = ledger s := by
  simp [beginAuth]

@[simp] theorem recordRead_ledger (s : State) (r : PlateRead) :
    ledger (recordRead s r) = ledger s := by
  simp [recordRead]

@[simp] theorem beginOpen_ledger (s : State) :
    ledger (beginOpen s) = ledger s := by
  simp [beginOpen]

@[simp] theorem authAnswer_ledger (s : State) (signature : List Byte) :
    ledger (authAnswer s signature) = ledger s := by
  simp [authAnswer]

@[simp] theorem openSigned_ledger (s : State) (fails : Nat) : ledger (openSigned s fails) = ledger s := by
  unfold openSigned
  split
  · rfl
  · split
    · exact refusePlate_ledger ..
    · next r hr => exact (updPl_ledger ..).trans ((attestRecord_ledger hr).trans (offerDevice_ledger ..))

@[simp] theorem openAnswer_ledger (s : State) (ok : Bool) (tokenNonce : Digest) :
    ledger (openAnswer s ok tokenNonce) = ledger s := by
  simp [openAnswer]

@[simp] theorem advanced_ledger (s : State) :
    ledger (advanced s) = ledger s := by
  simp [advanced]

@[simp] theorem advanceFailed_ledger (s : State) :
    ledger (advanceFailed s) = ledger s := by
  simp [advanceFailed]

@[simp] theorem advanceAnswer_ledger (s : State) (ok : Bool) :
    ledger (advanceAnswer s ok) = ledger s := by
  simp [advanceAnswer]

@[simp] theorem noAnswer_ledger (s : State) :
    ledger (noAnswer s) = ledger s := by
  unfold noAnswer
  dsimp only
  repeat' split
  all_goals simp

@[simp] theorem tokenSilent_ledger (s : State) :
    ledger (tokenSilent s) = ledger s := by
  simp [tokenSilent]

@[simp] theorem busRetry_ledger (s : State) (acked : Bool) :
    ledger (busRetry s acked) = ledger s := by
  simp [busRetry]

@[simp] theorem countWritten_ledger (s : State) :
    ledger (countWritten s) = ledger s := by
  simp [countWritten]

@[simp] theorem pldetFalls_ledger (s : State) :
    ledger (pldetFalls s) = ledger s := by
  simp [pldetFalls]

@[simp] theorem pldetRises_ledger (s : State) :
    ledger (pldetRises s) = ledger s := by
  simp [pldetRises]

@[simp] theorem runSessions_ledger (s : State) :
    ledger (runSessions s) = ledger s := by
  simp [runSessions]

@[simp] theorem plCtrlWrite_ledger (s : State) (p : Path) (v : Word) :
    ledger (plCtrlWrite s p v) = ledger s := by
  simp [plCtrlWrite]

@[simp] theorem hostCycle_ledger (s : State) :
    ledger (hostCycle s) = ledger s := by
  simp [hostCycle]

@[simp] theorem reopenPlate_ledger (s : State) :
    ledger (reopenPlate s) = ledger s := by
  simp [reopenPlate]

@[simp] theorem overrideLife_ledger (s : State) (record : List Byte) (life : Nat) :
    ledger (overrideLife s record life) = ledger s := by
  simp [overrideLife]

/-! ### HhtOps -/

@[simp] theorem updHht_ledger (s : State) (f : Hht → Hht) :
    ledger (updHht s f) = ledger s := by
  simp [updHht]

@[simp] theorem sendHht_ledger (s : State) (d : HhtOut) :
    ledger (sendHht s d) = ledger s := by
  simp [sendHht]

@[simp] theorem endSession_ledger (s : State) :
    ledger (endSession s) = ledger s := by
  simp only [endSession, updHht_ledger, ledger_mk, ledger_eta, flashOf_mk, flashOf_eta, ledger_updPath, ledger_updMm, ringsOf_mk, ringsOf_eta, implies_true]

@[simp] theorem beginSession_ledger (s : State) (k : Lane) (host : HostAddr) :
    ledger (beginSession s k host) = ledger s := by
  simp [beginSession]

@[simp] theorem openHht_ledger (s : State) (k : Lane) (host : HostAddr) :
    ledger (openHht s k host) = ledger s := by
  simp [openHht]

@[simp] theorem inSession_ledger (s : State) (k : Lane) (host : HostAddr) (session : Word) (f : State → State) (hf : ∀ v0, ledger (f v0) = ledger v0) :
    ledger (inSession s k host session f) = ledger s := by
  simp [inSession, hf]

@[simp] theorem resendRsp_ledger (s : State) :
    ledger (resendRsp s) = ledger s := by
  simp [resendRsp]

@[simp] theorem updStream_ledger (s : State) (i : Fin 9) (f : RingState → RingState) :
    ledger (updStream s i f) = ledger s := by
  unfold updStream
  split <;> simp

@[simp] theorem dnakStream_ledger (s : State) (i : Fin 9) (offset : Nat) :
    ledger (dnakStream s i offset) = ledger s := by
  simp [dnakStream]

@[simp] theorem streamEcc_ledger (s : State) (r : RingState) (ecc : EccResult) :
    ledger (streamEcc s r ecc) = ledger s := by
  simp [streamEcc]

@[simp] theorem sendData_ledger (s : State) (i : Fin 9) (ecc : EccResult) :
    ledger (sendData s i ecc) = ledger s := by
  simp [sendData]

@[simp] theorem resendData_ledger (s : State) (i : Fin 9) :
    ledger (resendData s i) = ledger s := by
  simp [resendData]

@[simp] theorem writeStream_ledger (s : State) (v : BitVec 9) :
    ledger (writeStream s v) = ledger s := by
  simp [writeStream]

@[simp] theorem repeatEvents_ledger (s : State) :
    ledger (repeatEvents s) = ledger s := by
  simp [repeatEvents]

@[simp] theorem ptpStamp_ledger (s : State) (k : Lane) (kind : PtpKind) (sent : Bool) (tick : Nat) (domain : Byte) (time : Nat) :
    ledger (ptpStamp s k kind sent tick domain time) = ledger s := by
  simp [ptpStamp]

@[simp] theorem ptpUpdate_ledger (s : State) (tracked agree lost : Bool) :
    ledger (ptpUpdate s tracked agree lost) = ledger s := by
  unfold ptpUpdate
  repeat' split
  all_goals simp

/-! ### PowerOps -/

@[simp] theorem updPwr_ledger (s : State) (f : Power → Power) :
    ledger (updPwr s f) = ledger s := by
  simp [updPwr]

@[simp] theorem regulatorFault_ledger (s : State) :
    ledger (regulatorFault s) = ledger s := by
  simp [regulatorFault]

@[simp] theorem pmbusDone_ledger (s : State) (failed : Bool) :
    ledger (pmbusDone s failed) = ledger s := by
  simp [pmbusDone]

@[simp] theorem statusPoll_ledger (s : State) (failed fault : Bool) :
    ledger (statusPoll s failed fault) = ledger s := by
  simp [statusPoll]

@[simp] theorem powerPeriod_ledger (s : State) :
    ledger (powerPeriod s) = ledger s := by
  simp [powerPeriod]

@[simp] theorem bankShutdown_ledger (s : State) (b : Bank) :
    ledger (bankShutdown s b) = ledger s := by
  simp [bankShutdown]

@[simp] theorem coreShutdown_ledger (s : State) (was : Bool) :
    ledger (coreShutdown s was) = ledger s := by
  simp [coreShutdown]

@[simp] theorem readTemps_ledger (s : State) (temps : List (BitVec 16)) :
    ledger (readTemps s temps) = ledger s := by
  simp [readTemps]

@[simp] theorem enterVigil_books (s : State) :
    (ledger (enterVigil s)).books = (ledger s).books := by
  simp [enterVigil]

@[simp] theorem vigilCmd_books (s : State) :
    (ledger (vigilCmd s)).books = (ledger s).books := by
  simp [vigilCmd]

@[simp] theorem timerWake_books (s : State) : (ledger (timerWake s)).books = (ledger s).books := by
  unfold timerWake
  split
  · rfl
  · split
    · next t ht => exact (congrArg Ledger.books (wakeVigil_ledger ..)).trans (reach_books ht)
    · rfl

/-! ### BootOps -/

@[simp] theorem hostLane0_books (s : State) :
    (ledger (hostLane0 s)).books = (ledger s).books := by
  simp [hostLane0]

@[simp] theorem enterRecovery_books (s : State) :
    (ledger (enterRecovery s)).books = (ledger s).books := by
  simp [enterRecovery]

@[simp] theorem leaveRecovery_books (s : State) :
    (ledger (leaveRecovery s)).books = (ledger s).books := by
  simp [leaveRecovery]

@[simp] theorem bootRom_books (s : State) (recoveryHigh : Bool) : (ledger (bootRom s recoveryHigh)).books = (ledger s).books := by
  have hslot : flashOf (chooseSlot s.fw).1 = flashOf s.fw := chooseSlot_flash s.fw
  have hleave : flashOf (leaveRecovery s).fw = flashOf s.fw := congrArg (fun b => b.2.2.1) (leaveRecovery_books s)
  unfold bootRom
  dsimp only
  split
  · exact (congrArg Ledger.books (ledger_putFw _ _ (hslot.trans hleave.symm))).trans (leaveRecovery_books s)
  · rw [enterRecovery_books]
    simp only [ledger_mk, hslot, ledger_eta]

@[simp] theorem startFirmware_ledger (s : State) :
    ledger (startFirmware s) = ledger s := by
  simp [startFirmware]

@[simp] theorem enableHost_books (s : State) (k : Lane) (proto : Nat) :
    (ledger (enableHost s k proto)).books = (ledger s).books := by
  simp [enableHost]

@[simp] theorem applyBoard_books (s : State) (maGib mbGib : Nat) :
    (ledger (applyBoard s maGib mbGib)).books = (ledger s).books := by
  unfold applyBoard
  dsimp only
  split <;> simp

@[simp] theorem loadSettings_ledger (s : State) : ledger (loadSettings s) = ledger s := by
  unfold loadSettings
  refine ledger_updFw _ _ fun w => ?_
  split
  · rfl
  · split
    · rfl
    · exact logAdd_flash ..

@[simp] theorem placeQueues_ledger (s : State) :
    ledger (placeQueues s) = ledger s := by
  simp [placeQueues]

@[simp] theorem restartRuns_ledger (s : State) :
    ledger (restartRuns s) = ledger s := by
  simp [restartRuns]

@[simp] theorem dropTaken_ledger (s : State) : ledger (dropTaken s) = ledger s := by
  have hrings : (s.paths.map fun k => { k with unposted := [] }).map ringsOf = s.paths.map ringsOf := by
    rw [Vector.map_map]
    rfl
  unfold dropTaken
  rw [ledger_mk, hrings]
  rfl

@[simp] theorem warmRestart_ledger (s : State) (cause : Nat) :
    ledger (warmRestart s cause) = ledger s := by
  simp [warmRestart]

@[simp] theorem endHostSessions_ledger (s : State) :
    ledger (endHostSessions s) = ledger s := by
  simp [endHostSessions]

@[simp] theorem restartDone_books (s : State) (adoptOk : Bool) :
    (ledger (restartDone s adoptOk)).books = (ledger s).books := by
  unfold restartDone
  dsimp only
  repeat' split
  all_goals simp

/-! ### UpdateOps -/

@[simp] theorem reply_ledger (st : Nat) (s : State) :
    ledger (reply st s).2 = ledger s := by
  simp [reply]

@[simp] theorem updSession_ledger (s : State) (f : Update → Update) :
    ledger (updSession s f) = ledger s := by
  simp [updSession]

@[simp] theorem updToken_ledger (s : State) (p : Path) (digest : Digest) (t : Option Token) : ledger (updToken s p digest t).2 = ledger s := by
  unfold updToken
  split
  · exact useToken_ledger ..
  · rfl
  · rfl

@[simp] theorem finishBoard_ledger (s : State) (u : Update) :
    ledger (finishBoard s u).2 = ledger s := by
  unfold finishBoard
  dsimp only
  split <;> simp

@[simp] theorem activateOp_ledger (s : State) (p : Path) :
    ledger (activateOp s p).2 = ledger s := by
  unfold activateOp
  split <;> simp

@[simp] theorem preloadDone_ledger (s : State) : ledger (preloadDone s) = ledger s := by
  have hruns : flashOf (restartRuns s).fw = flashOf s.fw := by rw [← ledger_flash, restartRuns_ledger, ledger_flash]
  unfold preloadDone
  dsimp only
  split
  · split
    · split
      · exact (ledger_putFw _ _ ((writeDir_flash ..).trans hruns.symm)).trans (restartRuns_ledger s)
      · exact ledger_putFw _ _ (writeDir_flash ..)
    · exact ledger_putFw _ _ (writeDir_flash ..)
  · rfl

@[simp] theorem imageStart_ledger (s : State) (adopted : Bool) : ledger (imageStart s adopted) = ledger s := by
  unfold imageStart
  dsimp only
  split
  · split
    · exact warmRestart_ledger ..
    · split
      · rw [warmRestart_ledger]
        simp only [updFw, ledger_mk, writeDir_flash, ledger_eta]
      · simp only [updInterval_ledger, updFw, ledger_mk, flashOf_mk, flashOf_eta, loadImage_flash, writeDir_flash, ledger_eta]
  · rfl

@[simp] theorem confirmOp_ledger (s : State) : ledger (confirmOp s).2 = ledger s := by
  unfold confirmOp
  split
  · simp only [reply, updFw, ledger_mk, confirmSlot_flash, ledger_eta]
  · rfl

@[simp] theorem autoConfirm_ledger (s : State) :
    ledger (autoConfirm s) = ledger s := by
  simp [autoConfirm]

@[simp] theorem setSaveOp_ledger (s : State) (blob : List Byte) :
    ledger (setSaveOp s blob).2 = ledger s := by
  simp [setSaveOp]

@[simp] theorem setDefaultsOp_ledger (s : State) :
    ledger (setDefaultsOp s).2 = ledger s := by
  simp [setDefaultsOp]

@[simp] theorem logReadOp_ledger (s : State) (first count : Nat) :
    ledger (logReadOp s first count).2 = ledger s := by
  unfold logReadOp
  split <;> simp

/-! ### SampleWorld -/

@[simp] theorem handoff_ledger (s : State) (n : Chan) (k : Conv) (v i : BitVec 20) (vOut iOut clamping upper : Bool) :
    ledger (handoff s n k v i vOut iOut clamping upper) = ledger s := by
  unfold handoff
  dsimp only
  split <;> simp

@[simp] theorem autoStep_ledger (s : State) (n : Chan) :
    ledger (autoStep s n) = ledger s := by
  simp [autoStep]

@[simp] theorem bridgeEnd_ledger (s : State) (n : Chan) :
    ledger (bridgeEnd s n) = ledger s := by
  unfold bridgeEnd
  dsimp only
  repeat' split
  all_goals simp

/-! ### ForcePath -/

@[simp] theorem handbackMade_ledger (s : State) (b : Bank) (r : Relief) :
    ledger (handbackMade s b r) = ledger s := by
  unfold handbackMade
  split <;> simp

@[simp] theorem relayStuck_ledger (s : State) (n : Chan) :
    ledger (relayStuck s n) = ledger s := by
  unfold relayStuck
  split <;> simp

/-! ### GraverOps -/

@[simp] theorem refuseCtrl_ledger (s : State) (n : Chan) :
    ledger (refuseCtrl s n) = ledger s := by
  simp [refuseCtrl]

@[simp] theorem startCtx_ledger (s : State) (n : Chan) (x : Ctx) :
    ledger (startCtx s n x) = ledger s := by
  simp [startCtx]

@[simp] theorem goCtx_ledger (s : State) (n : Chan) :
    ledger (goCtx s n) = ledger s := by
  simp [goCtx]

@[simp] theorem clearImmBuffer_ledger (s : State) (n : Chan) :
    ledger (clearImmBuffer s n) = ledger s := by
  simp [clearImmBuffer]

@[simp] theorem gvCtrlWrite_ledger (s : State) (n : Chan) (v : Word) :
    ledger (gvCtrlWrite s n v) = ledger s := by
  simp [gvCtrlWrite]

@[simp] theorem gvImmAppend_ledger (s : State) (n : Chan) (v : Word) :
    ledger (gvImmAppend s n v) = ledger s := by
  simp [gvImmAppend]

@[simp] theorem gvStatusClear_ledger (s : State) (n : Chan) (v : Word) :
    ledger (gvStatusClear s n v) = ledger s := by
  simp [gvStatusClear]

/-! ### GraverCommands -/

@[simp] theorem gvCommand_ledger (cmd : Nat) (n : Chan) (v : Word) (s : State) :
    ledger (gvCommand cmd n v s) = ledger s := by
  simp [gvCommand]

/-! ### HostCommands -/

@[simp] theorem afterInvalidation_ledger (r : Nat × State) : ledger (afterInvalidation r).2 = ledger r.2 := by
  unfold afterInvalidation
  split <;> rfl

/-! ### KrytgerInteger -/

@[simp] theorem integerOp_ledger (op : BitVec 6) (n : Chan) (f : Fields) (s : State) (result : Context → Word → Word) (flags : Context → Word → Context → Context) :
    ledger (integerOp op n f s result flags) = ledger s := by
  refine issue_ledger _ _ _ fun x t => ?_
  dsimp only
  split
  · trivial
  · exact updCtx_ledger ..

@[simp] theorem shiftOp_ledger (type : Nat) (n : Chan) (k : Fields) (s : State) (result : Word → Nat → Word) (last : Word → Nat → Bool) :
    ledger (shiftOp type n k s result last) = ledger s := by
  unfold shiftOp
  split
  · rfl
  · refine issue_ledger _ _ _ fun x t => ?_
    dsimp only
    split
    · trivial
    · exact updCtx_ledger ..

/-! ### KrytgerOutput -/

@[simp] theorem modeEffect_ledger (s : State) (n : Chan) (x : Ctx) (m : Mode) :
    ledger (modeEffect s n x m) = ledger s := by
  simp [modeEffect]

@[simp] theorem fireGroup_ledger (s : State) (g : Nat) :
    ledger (fireGroup s g) = ledger s := by
  simp [fireGroup]

/-! ### KrytgerSequence -/

@[simp] theorem acceptSupplier_ledger (s : State) (n : Chan) (x : Ctx) (p : Supplier) (wait : Option Waiting) :
    ledger (acceptSupplier s n x p wait) = ledger s := by
  simp [acceptSupplier]

@[simp] theorem firstFill_ledger (s : State) (n : Chan) (x : Ctx) (as : List Nat) (ecc : EccResult) (f : List (Nat × Word) → State → State)
    (hf : ∀ v u, ledger (f v u) = ledger u) : ledger (firstFill s n x as ecc f) = ledger s := by
  unfold firstFill
  dsimp only
  split
  · rw [haltIfAsked_ledger, suspendXlate_ledger]
  · rw [haltIfAsked_ledger, suspendXlate_ledger, eccMetAt_ledger]
  · rw [hf, eccMetAt_ledger, cacheWindow_ledger]

@[simp] theorem demandWindow_ledger (s : State) (n : Chan) (x : Ctx) (a : Word) (f : State → State) (hf : ∀ v0, ledger (f v0) = ledger v0) :
    ledger (demandWindow s n x a f) = ledger s := by
  unfold demandWindow
  split <;> simp [hf]

@[simp] theorem takeHead_ledger (s : State) (n : Chan) (x : Ctx) (ws : List (Nat × Word)) (whole : Bool) :
    ledger (takeHead s n x ws whole) = ledger s := by
  simp [takeHead]

@[simp] theorem copyHead_ledger (s : State) (n : Chan) (x : Ctx) (as : List Nat) (ecc : EccResult) :
    ledger (copyHead s n x as ecc) = ledger s := by
  unfold copyHead
  dsimp only
  split <;> simp

/-! ### RegsChan -/

@[simp] theorem chanRead_ledger (s : State) (p : Path) (n : Chan) (off : Nat) : ledger (chanRead s p n off).2 = ledger s := by
  unfold chanRead
  dsimp only
  simp only [apply_ite Prod.snd, ledger_ite, snapLatest_ledger, popFree_ledger, ite_self]

@[simp] theorem sampleFlt_ledger (s : State) (n : Chan) :
    ledger (sampleFlt s n) = ledger s := by
  simp [sampleFlt]

@[simp] theorem chStatusWrite_ledger (s : State) (n : Chan) (v : Word) :
    ledger (chStatusWrite s n v) = ledger s := by
  simp [chStatusWrite]

@[simp] theorem chanWrite_ledger (s : State) (n : Chan) (off : Nat) (v : Word) :
    ledger (chanWrite s n off v) = ledger s := by
  simp [chanWrite]

/-! ### RegsTime -/

@[simp] theorem sysWrite_ledger (s : State) (off : Nat) (v : Word) :
    ledger (sysWrite s off v) = ledger s := by
  simp [sysWrite]

@[simp] theorem releaseMasked_ledger (s : State) (v : Nat) :
    ledger (releaseMasked s v) = ledger s := by
  simp [releaseMasked]

@[simp] theorem msixWrite_ledger (s : State) (off : Nat) (v : Word) :
    ledger (msixWrite s off v) = ledger s := by
  unfold msixWrite
  split <;> simp

@[simp] theorem tbCtrlWrite_books (s : State) (v : Word) :
    (ledger (tbCtrlWrite s v)).books = (ledger s).books := by
  simp [tbCtrlWrite]

@[simp] theorem skewCtrlWrite_books (s : State) (v : Word) :
    (ledger (skewCtrlWrite s v)).books = (ledger s).books := by
  simp [skewCtrlWrite]

@[simp] theorem tbWrite_books (s : State) (off : Nat) (v : Word) :
    (ledger (tbWrite s off v)).books = (ledger s).books := by
  unfold tbWrite
  repeat' split
  all_goals simp

/-! ### RegsLanes -/

@[simp] theorem laneWrite_books (s : State) (p : Path) (k : Lane) (off : Nat) (v : Word) :
    (ledger (laneWrite s p k off v)).books = (ledger s).books := by
  simp [laneWrite]

@[simp] theorem sibStatWrite_ledger (s : State) (v : Word) :
    ledger (sibStatWrite s v) = ledger s := by
  simp [sibStatWrite]

@[simp] theorem lnWrite_books (s : State) (p : Path) (off : Nat) (v : Word) :
    (ledger (lnWrite s p off v)).books = (ledger s).books := by
  simp [lnWrite]

/-! ### RegsTracer -/

@[simp] theorem updTr_ledger (s : State) (f : Tracer → Tracer) :
    ledger (updTr s f) = ledger s := by
  simp [updTr]

@[simp] theorem trWrite_ledger (s : State) (p : Path) (off : Nat) (v : Word) : ledger (trWrite s p off v) = ledger s := by
  have htc (i : Nat) : ledger (updPath s p fun k => { k with tcIdx := i }) = ledger s := ledger_updPath s p _ fun _ => rfl
  have hcons (i : Nat) : ledger (updPath s p fun k => { k with consIdx := i }) = ledger s := ledger_updPath s p _ fun _ => rfl
  have him (i : Nat) : ledger (updPath s p fun k => { k with imIdx := i }) = ledger s := ledger_updPath s p _ fun _ => rfl
  unfold trWrite
  simp only [ledger_ite, htc, hcons, him, updTr_ledger, updTc_ledger, writeMerge_ledger, writeConsCfg_ledger, injectSources_ledger,
    ackVector_ledger, ite_self, apply_dite ledger, dite_eq_ite]

/-! ### RegsMemory -/

@[simp] theorem ringWrite_ledger (s : State) (d : Ring) (off : Nat) (v : Word) :
    ledger (ringWrite s d off v) = ledger s := by
  simp [ringWrite]

@[simp] theorem qRead_ledger (s : State) (p : Path) (off : Nat) : ledger (qRead s p off).2 = ledger s := by
  unfold qRead
  dsimp only
  simp only [apply_ite Prod.snd, ledger_ite, readPeak_ledger, ite_self]

@[simp] theorem qWrite_ledger (s : State) (p : Path) (off : Nat) (v : Word) :
    ledger (qWrite s p off v) = ledger s := by
  simp [qWrite]

@[simp] theorem mmuRead_ledger (s : State) (p : Path) (off : Nat) :
    ledger (mmuRead s p off).2 = ledger s := by
  unfold mmuRead
  repeat' split
  all_goals simp

@[simp] theorem mmuWrite_ledger (s : State) (off : Nat) (v : Word) :
    ledger (mmuWrite s off v) = ledger s := by
  simp [mmuWrite]

/-! ### RegsFrames -/

@[simp] theorem gridWrite_ledger (s : State) (f : Frames → Frames) :
    ledger (gridWrite s f) = ledger s := by
  simp [gridWrite]

@[simp] theorem htWrite_ledger (s : State) (p : Path) (off : Nat) (v : Word) : ledger (htWrite s p off v) = ledger s := by
  have hidx (i : Nat) : ledger (updPath s p fun k => { k with unitIdx := i }) = ledger s := ledger_updPath s p _ fun _ => rfl
  unfold htWrite
  simp only [ledger_ite, hidx, frmCtrlWrite_ledger, gridWrite_ledger, updHt_ledger, ite_self]
  cases pathUnit s p with
  | none => simp only [ite_self]
  | some u => simp only [ledger_ite, writeUnitCfg_ledger, writeUnitBase_ledger, updUnit_ledger, ite_self]

@[simp] theorem pfWrite_ledger (s : State) (off : Nat) (v : Word) :
    ledger (pfWrite s off v) = ledger s := by
  simp [pfWrite]

/-! ### RegsPower -/

@[simp] theorem plWrite_ledger (s : State) (p : Path) (off : Nat) (v : Word) :
    ledger (plWrite s p off v) = ledger s := by
  simp [plWrite]

@[simp] theorem chanPwrWrite_ledger (s : State) (n : Chan) (off : Nat) (v : Word) :
    ledger (chanPwrWrite s n off v) = ledger s := by
  simp [chanPwrWrite]

@[simp] theorem pwrStatusWrite_ledger (s : State) (v : Word) :
    ledger (pwrStatusWrite s v) = ledger s := by
  simp [pwrStatusWrite]

@[simp] theorem pwrWrite_books (s : State) (p : Path) (off : Nat) (v : Word) : (ledger (pwrWrite s p off v)).books = (ledger s).books := by
  have hch (i : Nat) : ledger (updPath s p fun k => { k with chIdx := i }) = ledger s := ledger_updPath s p _ fun _ => rfl
  unfold pwrWrite
  simp only [ledger_ite, books_ite, hch, updPwr_ledger, pwrStatusWrite_ledger, wakeVigil_ledger, vigilCmd_books, updBank_ledger, ite_self]
  cases indexed (s.path p).chIdx with
  | none => simp only [ite_self]
  | some n => simp only [chanPwrWrite_ledger, ite_self]

/-! ### RegsFirmware -/

@[simp] theorem fwRead_ledger (s : State) (off : Nat) :
    ledger (fwRead s off).2 = ledger s := by
  unfold fwRead
  repeat' split
  all_goals simp

@[simp] theorem calWrite_ledger (s : State) (p : Path) (off : Nat) (v : Word) :
    ledger (calWrite s p off v) = ledger s := by
  unfold calWrite
  repeat' split
  all_goals simp

@[simp] theorem blockFwRead_ledger (s : State) (p : Path) (off : Nat) :
    ledger (blockFwRead s p off).2 = ledger s := by
  unfold blockFwRead
  repeat' split
  all_goals simp

/-! ### RegOps -/

@[simp] theorem bringUp_ledger (s : State) (pair : PairId) : ledger (bringUp s pair) = ledger s := by
  unfold bringUp
  split
  · exact countPrbs_ledger ..
  · exact countPrbs_ledger ..
  · rfl

@[simp] theorem readLow_ledger (s : State) (p : Path) (pair : PairId) : ledger (readLow s p pair).2 = ledger s := by
  unfold readLow
  dsimp only
  rw [ledger_updPath]
  · exact bringUp_ledger ..
  · exact fun _ => rfl

@[simp] theorem readHigh_ledger (s : State) (p : Path) (pair : PairId) : ledger (readHigh s p pair).2 = ledger s := by
  unfold readHigh
  split
  · rfl
  · exact bringUp_ledger ..

@[simp] theorem dropSnap_ledger (s : State) (p : Path) (a : Nat) :
    ledger (dropSnap s p a) = ledger s := by
  unfold dropSnap
  split <;> simp

@[simp] theorem readPlain_ledger (s : State) (p : Path) (a : Nat) : ledger (readPlain s p a).2 = ledger s := by
  unfold readPlain
  dsimp only
  split
  all_goals first | rfl | exact qRead_ledger .. | exact mmuRead_ledger .. | exact blockFwRead_ledger .. | skip
  split
  · exact chanRead_ledger ..
  · rfl

@[simp] theorem readReg_ledger (s : State) (p : Path) (a : Nat) :
    ledger (readReg s p a).2 = ledger s := by
  unfold readReg
  repeat' split
  all_goals simp

@[simp] theorem readRegs_ledger (p : Path) (count : Nat) : ∀ (s : State) (a : Nat), ledger (readRegs s p a count).2 = ledger s := by
  induction count with
  | zero => exact fun s a => rfl
  | succ count ih => exact fun s a => (ih ..).trans (readReg_ledger ..)

/-! ### OwnerOps -/

@[simp] theorem attestOp_ledger (s : State) (p : Path) (nonce : Digest) (fails : Nat) : ledger (attestOp s p nonce fails).2 = ledger s := by
  unfold attestOp
  split
  · rfl
  · dsimp only
    split
    · exact consumeNonce_ledger ..
    · split
      · next r hr => exact (attestRecord_ledger hr).trans (consumeNonce_ledger ..)
      · exact consumeNonce_ledger ..

@[simp] theorem setBounds_ledger (s : State) (lo hi : Nat) :
    ledger (setBounds s lo hi) = ledger s := by
  simp [setBounds]

@[simp] theorem enrollOp_ledger (s : State) (p : Path) (key : List Byte) (t : Token) (fails : Nat) : ledger (enrollOp s p key t fails).2 = ledger s := by
  have huse := useToken_ledger s p t opEnrol (some key) key
  unfold enrollOp
  dsimp only
  split
  · exact huse
  · split
    · exact huse
    · split
      · next q hq => exact (attestRecord_ledger hq).trans ((updPf_ledger ..).trans huse)
      · exact huse

@[simp] theorem transferOp_ledger (s : State) (p : Path) (t : Token) (key : List Byte) (enrol : Token) :
    ledger (transferOp s p t key enrol).2 = ledger s := by
  unfold transferOp
  dsimp only
  repeat' split
  all_goals simp

@[simp] theorem releaseOwner_ledger (s : State) :
    ledger (releaseOwner s) = ledger s := by
  simp [releaseOwner]

@[simp] theorem writeOne_ledger (kind epoch : Nat) (arg : List Byte) (fails : List Nat) (a : Nat × State) (x : Chan × Nat) :
    ledger (writeOne kind epoch arg fails a x).2 = ledger a.2 := by
  unfold writeOne
  dsimp only
  split
  · rfl
  · exact (updCal_ledger ..).trans (storeOn_ledger ..)

@[simp] theorem calWriteOp_ledger (s : State) (ns : List Chan) (arg : List Byte) (fails : List Nat) : ledger (calWriteOp s ns arg fails).2 = ledger s := by
  have hall (kind epoch : Nat) (l : List (Chan × Nat)) : ∀ a : Nat × State, ledger (l.foldl (writeOne kind epoch arg fails) a).2 = ledger a.2 := by
    induction l with
    | nil => exact fun a => rfl
    | cons x l ih => exact fun a => (ih _).trans (writeOne_ledger ..)
  unfold calWriteOp
  dsimp only
  split
  · rfl
  · exact hall ..

@[simp] theorem boundsOp_ledger (s : State) (param : Nat) :
    ledger (boundsOp s param).2 = ledger s := by
  unfold boundsOp
  dsimp only
  split <;> simp

@[simp] theorem debugOp_ledger (s : State) (scope : Nat) :
    ledger (debugOp s scope).2 = ledger s := by
  simp [debugOp]

end Sys2Proof.Machine
end

section
/-!
PROOFS. What a sample tick leaves of the timebase.
-/
namespace Sys2Proof.Machine

theorem clock_of_ledger {t s : State} (h : ledger t = ledger s) : t.tb = s.tb := congrArg Ledger.clock h

/-- A timebase that differs in the counter only. -/
def SameButNow (b c : Timebase) : Prop := b = { c with now := b.now }

theorem frameBoundaryOp_clock (s : State) : SameButNow (frameBoundaryOp s).tb s.tb := by
  have hchans (t : State) : ledger (allChans.foldl (channelBoundary s.ht.next) t) = ledger t := ledger_foldl _ (fun _ _ => channelBoundary_ledger ..) _ t
  have hended (t : State) : ledger (wakeSyncf (raiseAt (allChans.foldl (channelBoundary s.ht.next) (if boundaryDue t s.ht.next then firstBoundary t s.ht.next else t)) 273
      (some s.ht.next))) = ledger t := by
    rw [wakeSyncf_ledger, raiseAt_ledger, hchans, ledger_ite, firstBoundary_ledger, ite_self]
  unfold frameBoundaryOp
  dsimp only
  split
  · rfl
  · rw [clock_of_ledger (hended _)]
    split
    · rw [clock_of_ledger (firstBoundary_ledger ..)]
      rfl
    · rw [clock_of_ledger (frameEnd_ledger ..)]
      rfl

/-- The fine phase at a sample tick: the timebase but for the fine phase. -/
theorem fineTick_clock (s : State) : (fineTick s).tb = { s.tb with fine := (fineTick s).tb.fine, fineTicks := (fineTick s).tb.fineTicks } := by
  unfold fineTick
  split
  · rfl
  · rfl

/-- The channels and the reliefs at a sample tick. -/
def channelsTicked (s : State) (tick : Nat) (strobes : BitVec 8) : State :=
  allBanks.foldl reliefAfter (allChans.foldl (fun s n => channelTick s n tick strobes) (allBanks.foldl reliefBefore (allBanks.foldl crossIdle (tracerTick s))))

theorem channelsTicked_ledger (s : State) (tick : Nat) (strobes : BitVec 8) : ledger (channelsTicked s tick strobes) = ledger s := by
  unfold channelsTicked
  rw [ledger_foldl _ (fun _ _ => reliefAfter_ledger ..), ledger_foldl _ (fun _ _ => channelTick_ledger ..), ledger_foldl _ (fun _ _ => reliefBefore_ledger ..),
    ledger_foldl _ (fun _ _ => crossIdle_ledger ..), tracerTick_ledger]

/-- The Hatch units and the pins at a sample tick. -/
def tickClosed (s : State) (tick : Nat) : State :=
  let s := if s.ht.snapReq then takeSnapshot s tick else tickUnits s tick
  let s := if s.ht.disarm then wakeSyncf { s with ht := { s.ht with disarm := false, armed := false, next := 0, num := s.ht.ran } } else s
  { s with mrk := s.mrk.map (pinTick s tick) }

theorem tickClosed_ledger (s : State) (tick : Nat) : ledger (tickClosed s tick) = ledger s := by
  have hunits : ledger (if s.ht.snapReq then takeSnapshot s tick else tickUnits s tick) = ledger s := by
    rw [ledger_ite, takeSnapshot_ledger, tickUnits_ledger, ite_self]
  unfold tickClosed
  generalize (if s.ht.snapReq then takeSnapshot s tick else tickUnits s tick) = t at hunits ⊢
  dsimp only
  rw [ledger_mk, ← hunits]
  split
  · exact wakeSyncf_ledger ..
  · rfl

theorem deviceTick_stages (s : State) (tick : Nat) : deviceTick s tick =
    tickClosed (fineTick (channelsTicked { s with tb := { s.tb with now := tick, lastSample := some tick } } tick s.tr.groupStrobes)) tick := by
  rw [deviceTick, tickClosed, channelsTicked]

/-- A timebase that a sample tick has moved. -/
def Ticked (tick : Nat) (b c : Timebase) : Prop := b = { c with now := tick, lastSample := some tick, fine := b.fine, fineTicks := b.fineTicks }

theorem ticked_of_stages {tick : Nat} {s t u v : State} (ht : t.tb = { s.tb with now := tick, lastSample := some tick })
    (hu : u.tb = { t.tb with fine := u.tb.fine, fineTicks := u.tb.fineTicks }) (hv : v.tb = u.tb) : Ticked tick v.tb s.tb := by
  unfold Ticked
  rw [hv, hu, ht]

theorem Ticked.counted {tick : Nat} {b c d : Timebase} (h : Ticked tick b c) (k : SameButNow c d) : Ticked tick b d := by
  unfold Ticked SameButNow at *
  rw [h, k]

theorem deviceTick_clock (s : State) (tick : Nat) : Ticked tick (deviceTick s tick).tb s.tb := by
  rw [deviceTick_stages]
  exact ticked_of_stages (clock_of_ledger (channelsTicked_ledger ..)) (fineTick_clock _) (clock_of_ledger (tickClosed_ledger ..))

/-- At a sample tick the counter stands at it; beside that a tick moves the fine phase only. -/
theorem sampleTick_clock (s : State) (tick : Nat) : Ticked tick (sampleTick s tick).tb s.tb := by
  have hframe : SameButNow (if boundaryDue s tick then frameBoundaryOp s else s).tb s.tb := by
    split
    · exact frameBoundaryOp_clock s
    · rfl
  unfold sampleTick
  generalize (if boundaryDue s tick then frameBoundaryOp s else s) = t at hframe ⊢
  have hdevice := deviceTick_clock (groupTick t (tick / 16)) tick
  rw [clock_of_ledger (groupTick_ledger ..)] at hdevice
  exact hdevice.counted hframe

end Sys2Proof.Machine
end

section
/-!
PROOFS. O45: the timebase (R25 to R41, R428).
-/
namespace Sys2Proof.Machine

/-! ### What the timebase's operations leave -/

/-- Two states with one timebase, the same channels, memory and queues. -/
structure SameWorld (t s : State) : Prop where
  tb : t.tb = s.tb
  chans : t.chans = s.chans
  mm : t.mm = s.mm
  queues : t.queues = s.queues

theorem SameWorld.trans {u t s : State} (h : SameWorld u t) (k : SameWorld t s) : SameWorld u s :=
  ⟨h.tb.trans k.tb, h.chans.trans k.chans, h.mm.trans k.mm, h.queues.trans k.queues⟩

theorem SameButLinks.world {t s : State} (h : SameButLinks t s) (k : ledger t = ledger s) : SameWorld t s := ⟨clock_of_ledger k, h.chans, h.mm, h.queues⟩

theorem raiseAt_world (s : State) (src : Nat) (d : Option Nat) : SameWorld (raiseAt s src d) s := (raiseAt_links ..).world (raiseAt_ledger ..)

theorem noteAlign_world (s : State) : SameWorld (noteAlign s) s := (noteAlign_links s).world (noteAlign_ledger s)

theorem sendSyncv_links (s : State) : SameButLinks (sendSyncv s) s := by
  rw [sendSyncv]
  exact foldl_related (R := fun s t => SameButLinks t s) SameButLinks.refl (fun h k => h.trans k) (fun s k => sendBlock_links ..) (sibiaUp s) s

theorem enterHoldover_world (s : State) :
    SameWorld (enterHoldover s) (updTb s fun b => { b with holdover := true }) := by
  rw [enterHoldover]
  split
  · next h => exact ⟨by rw [updTb, ← h], rfl, rfl, rfl⟩
  · exact (raiseAt_world ..).trans (noteAlign_world _)

/-! ### REFCLK -/

section
variable {s : State}

theorem firstLock_locks (h : s.tb.lock = false) :
    firstLock s = { s with tb := { s.tb with lock := true, now := 0, lastSample := none, lastSlot := none, edgePhase := 0 } } :=
  if_neg (ne_true_of_eq_false h)

theorem refclkLoss_runsFree (hl : s.tb.lock = true) (hf : s.tb.freerun = false) : Completes .refclkLoss s fun t =>
    t.tb = { s.tb with reflost := true, freerun := true, aligned := false, syncoPulses := [], holdover := true }
      ∧ t.chans = s.chans ∧ t.mm = s.mm ∧ t.queues = s.queues := by
  have hno : ¬(!s.tb.lock || s.tb.freerun) = true := by
    rw [hl, hf]
    decide
  have hraised := raiseAt_world (updTb s fun b => { b with reflost := true, freerun := true, aligned := false, syncoPulses := [] }) 276 none
  have hnoted := (noteAlign_world _).trans hraised
  have hheld := enterHoldover_world (noteAlign (raise (updTb s fun b => { b with reflost := true, freerun := true, aligned := false, syncoPulses := [] }) 276))
  refine ⟨_, congrArg Host.Outcome.next (if_neg hno), ?_⟩
  refine ⟨hheld.tb.trans ?_, hheld.chans.trans hnoted.chans, hheld.mm.trans hnoted.mm, hheld.queues.trans hnoted.queues⟩
  exact congrArg (fun b : Timebase => { b with holdover := true }) hnoted.tb

theorem loseRef_idle (h : s.tb.lock = false ∨ s.tb.freerun = true) : loseRef s = s := by
  refine if_pos ?_
  rcases h with h | h <;> simp [h]

theorem relock_relocks (phase : Nat) (h : s.tb.freerun = true) : Completes (.pllRelock phase) s fun t =>
    t.tb = { s.tb with freerun := false, edgePhase := phase % refPeriod s, holdover := s.tb.holdover && s.tb.skewEn } ∧ t.chans = s.chans := by
  have hno : ¬(!s.tb.freerun) = true := by
    rw [h]
    decide
  have hnoted := noteAlign_world (updTb s fun b => { b with freerun := false, edgePhase := phase % refPeriod s, holdover := b.holdover && b.skewEn })
  exact ⟨_, congrArg Host.Outcome.next (if_neg hno), hnoted.tb, hnoted.chans⟩

end

/-! ### The counter takes a value -/

section
variable (s : State) (t phase : Nat)

theorem setCounter_tb : (setCounter s t phase).tb = { s.tb with
    now := t, lastSample := none, lastSlot := none, edgePhase := phase % refPeriod s
    syncoPulses := s.tb.syncoPulses.map fun p => p + (t : Int) - (s.tb.now : Int) } := rfl

theorem setCounter_mm : (setCounter s t phase).mm = shiftMem s.tb.now t s.mm := rfl

theorem setCounter_chan (n : Chan) : (setCounter s t phase).chans[n] = shiftChan s.tb.now t s.chans[n] :=
  Vector.getElem_map _ n.isLt

end

/-! ### SYNC -/

/-- The timebase as an edge of REFCLK carries a SYNC pulse. -/
def syncSeenAt (b : Timebase) (edge : Nat) : Timebase :=
  { b with now := max b.now edge, syncCap := edge, syncCount := (b.syncCount + 1) % 65536, syncSeen := true }

/-- A captured pulse, reported and sent on. -/
def syncCaptured (s : State) (edge : Nat) : State := sendSyncv (raiseAt { s with tb := syncSeenAt s.tb edge } 277 (some edge))

theorem syncCaptured_links (s : State) (edge : Nat) : SameButLinks (syncCaptured s edge) { s with tb := syncSeenAt s.tb edge } :=
  (sendSyncv_links _).trans (raiseAt_links ..)

theorem syncCaptured_world (s : State) (edge : Nat) : SameWorld (syncCaptured s edge) { s with tb := syncSeenAt s.tb edge } :=
  (syncCaptured_links s edge).world ((sendSyncv_ledger _).trans (raiseAt_ledger ..))

theorem syncCaptured_period (s : State) (edge : Nat) : refPeriod (syncCaptured s edge) = refPeriod s := by
  rw [refPeriod, (syncCaptured_links s edge).fw]
  rfl

theorem syncAt_captured (s : State) (edge : Nat) (held : Bool) : syncAt s edge held =
    if (syncCaptured s edge).tb.syncMode == 1 then syncVerify (syncCaptured s edge)
    else if (syncCaptured s edge).tb.syncMode == 2 then syncLoad (syncCaptured s edge) held else syncCaptured s edge := rfl

theorem nextEdge_ge (s : State) : s.tb.now ≤ nextEdge s := Nat.le_add_right ..

theorem Ticked.mode {tick : Nat} {b c : Timebase} (h : Ticked tick b c) : b.syncMode = c.syncMode := by
  unfold Ticked at h
  rw [h]

/-- A pulse taken behind the sample tick that came first. -/
theorem Ticked.seen {tick edge : Nat} {a b c : Timebase} (h : Ticked tick b c) (k : a = syncSeenAt b edge) (hle : edge ≤ tick) :
    a = { syncSeenAt c edge with now := tick, lastSample := some tick, fine := a.fine, fineTicks := a.fineTicks } := by
  have hnow : max b.now edge = tick := by
    rw [show b.now = tick by rw [h]]
    exact Nat.max_eq_left hle
  rw [k, syncSeenAt, hnow]
  unfold Ticked at h
  rw [h]
  rfl

section
variable {s : State}

theorem syncPulse_idle (h : s.tb.lock = false ∨ s.tb.freerun = true ∨ nextSample s < nextEdge s) : exec .syncPulse s = .next s := by
  refine congrArg Host.Outcome.next (if_pos ?_)
  rcases h with h | h | h <;> simp [h]

section
variable (hl : s.tb.lock = true) (hf : s.tb.freerun = false) (hle : nextEdge s ≤ nextSample s)
include hl hf hle

theorem syncPulse_taken : ¬(!s.tb.lock || s.tb.freerun || decide (nextSample s < nextEdge s)) = true := by
  rw [hl, hf, decide_eq_false (by omega)]
  decide

/-- An edge that is far enough from the next sample tick, or that loads the counter, is taken at once. -/
theorem syncPulse_prompt (h : nextEdge s + 4 ≤ nextSample s ∨ nextEdge s = nextSample s ∨ (s.tb.syncMode = 2 ∧ counterHeld s = false)) :
    exec .syncPulse s = .next (syncAt s (nextEdge s) (counterHeld s)) := by
  refine congrArg Host.Outcome.next ((if_neg (syncPulse_taken hl hf hle)).trans (if_neg ?_))
  rw [captureLead]
  rcases h with h | h | ⟨hm, hc⟩
  · rw [decide_eq_false (by omega), Bool.false_and, Bool.false_and]
    decide
  · rw [decide_eq_false (show ¬nextEdge s < nextSample s by omega), Bool.and_false, Bool.false_and]
    decide
  · simp [hm, hc]

theorem syncPulse_late (h1 : nextEdge s < nextSample s) (h2 : nextSample s < nextEdge s + 4) (hm : s.tb.syncMode = 0) :
    exec .syncPulse s = .next (syncAt (sampleTick s (nextSample s)) (nextEdge s) (counterHeld s)) := by
  refine congrArg Host.Outcome.next ((if_neg (syncPulse_taken hl hf hle)).trans (if_pos ?_))
  rw [captureLead, hm, decide_eq_true h1, decide_eq_true h2]
  rfl

end

/-- The timebase as a pulse that is taken at once leaves it. -/
theorem syncSeenAt_next (s : State) : syncSeenAt s.tb (nextEdge s) =
    { s.tb with now := nextEdge s, syncCap := nextEdge s, syncCount := (s.tb.syncCount + 1) % 65536, syncSeen := true } := by
  rw [syncSeenAt, Nat.max_eq_right (nextEdge_ge s)]

theorem syncCaptured_mode (s : State) (edge : Nat) : (syncCaptured s edge).tb.syncMode = s.tb.syncMode :=
  (congrArg Timebase.syncMode (syncCaptured_world s edge).tb).trans rfl

theorem syncAt_off {edge : Nat} (held : Bool) (h1 : s.tb.syncMode ≠ 1) (h2 : s.tb.syncMode ≠ 2) : syncAt s edge held = syncCaptured s edge := by
  rw [syncAt_captured, syncCaptured_mode, if_neg (by simpa using h1), if_neg (by simpa using h2)]

theorem syncAt_verifies {edge : Nat} (held : Bool) (h : s.tb.syncMode = 1) : syncAt s edge held = syncVerify (syncCaptured s edge) := by
  rw [syncAt_captured, syncCaptured_mode, h]
  rfl

theorem syncAt_loads {edge : Nat} (held : Bool) (h : s.tb.syncMode = 2) : syncAt s edge held = syncLoad (syncCaptured s edge) held := by
  rw [syncAt_captured, syncCaptured_mode, h]
  rfl

theorem syncVerify_world (s : State) :
    SameWorld (syncVerify s) (updTb s fun b => { b with syncMismatch := b.syncMismatch || decide (b.syncCap ≠ b.syncVal) }) := by
  rw [syncVerify]
  split
  · next h => exact ⟨by rw [updTb, decide_eq_false (Classical.not_not.2 h), Bool.or_false], rfl, rfl, rfl⟩
  · next h =>
    have hraised := raiseAt_world (updTb s fun b => { b with syncMismatch := true }) 278 none
    exact ⟨hraised.tb.trans (by rw [updTb, updTb, decide_eq_true h, Bool.or_true]), hraised.chans, hraised.mm, hraised.queues⟩

section
variable (hl : s.tb.lock = true) (hf : s.tb.freerun = false) (hle : nextEdge s ≤ nextSample s)
include hl hf hle

theorem syncPulse_loads (hm : s.tb.syncMode = 2) (hc : counterHeld s = false) : Completes .syncPulse s fun t =>
    t.tb = { syncSeenAt s.tb (nextEdge s) with
        now := s.tb.syncVal, lastSample := none, lastSlot := none, edgePhase := s.tb.syncVal % refPeriod s, syncMode := 1
        syncoPulses := s.tb.syncoPulses.map fun q => q + (s.tb.syncVal : Int) - (nextEdge s : Int) }
      ∧ t.mm = shiftMem (nextEdge s) s.tb.syncVal s.mm ∧ ∀ n : Chan, t.chans[n] = shiftChan (nextEdge s) s.tb.syncVal s.chans[n] := by
  have hw := syncCaptured_world s (nextEdge s)
  have hrun := syncPulse_prompt hl hf hle (.inr (.inr ⟨hm, hc⟩))
  rw [syncAt_loads _ hm, hc] at hrun
  have hp := syncCaptured_period s (nextEdge s)
  generalize syncCaptured s (nextEdge s) = u at hw hrun hp
  have hval : u.tb.syncVal = s.tb.syncVal := by
    rw [hw.tb]
    rfl
  have hnow : u.tb.now = nextEdge s := by
    rw [hw.tb]
    exact Nat.max_eq_right (nextEdge_ge s)
  refine ⟨_, hrun, ?_⟩
  rw [syncLoad, if_neg Bool.false_ne_true, hval]
  refine ⟨?_, ?_, fun n => ?_⟩
  · rw [setCounter_tb]
    change { u.tb with
      now := s.tb.syncVal, lastSample := none, lastSlot := none, edgePhase := s.tb.syncVal % refPeriod u, syncMode := 1
      syncoPulses := u.tb.syncoPulses.map fun p => p + (s.tb.syncVal : Int) - (u.tb.now : Int) } = _
    rw [hp, hnow, hw.tb]
    rfl
  · rw [setCounter_mm]
    change shiftMem u.tb.now _ u.mm = _
    rw [hnow, hw.mm]
  · rw [setCounter_chan]
    change shiftChan u.tb.now _ u.chans[n] = _
    rw [hnow, hw.chans]

theorem syncPulse_captures (h : nextEdge s + 4 ≤ nextSample s ∨ nextEdge s = nextSample s) (hm : s.tb.syncMode = 2 → counterHeld s = true) :
    Completes .syncPulse s fun t => t.chans = s.chans ∧ t.mm = s.mm
      ∧ (s.tb.syncMode ≠ 1 → s.tb.syncMode ≠ 2 → t.tb = syncSeenAt s.tb (nextEdge s))
      ∧ (s.tb.syncMode = 1 → t.tb = { syncSeenAt s.tb (nextEdge s) with syncMismatch := s.tb.syncMismatch || decide (nextEdge s ≠ s.tb.syncVal) })
      ∧ (s.tb.syncMode = 2 → t.tb = { syncSeenAt s.tb (nextEdge s) with loadRefused := true, syncMode := 1 }) := by
  have hw := syncCaptured_world s (nextEdge s)
  refine ⟨_, syncPulse_prompt hl hf hle (h.imp_right .inl), ?_⟩
  by_cases h1 : s.tb.syncMode = 1
  · have hv := syncVerify_world (syncCaptured s (nextEdge s))
    rw [syncAt_verifies _ h1]
    refine ⟨hv.chans.trans hw.chans, hv.mm.trans hw.mm, fun k => absurd h1 k, fun _ => hv.tb.trans ?_, fun k => absurd (h1.symm.trans k) (by decide)⟩
    rw [updTb, hw.tb]
    rfl
  · by_cases h2 : s.tb.syncMode = 2
    · rw [syncAt_loads _ h2, hm h2, syncLoad, if_pos rfl]
      refine ⟨hw.chans, hw.mm, fun _ k => absurd h2 k, fun k => absurd k h1, fun _ => ?_⟩
      rw [updTb, hw.tb]
    · rw [syncAt_off _ h1 h2]
      exact ⟨hw.chans, hw.mm, fun _ _ => hw.tb, fun k => absurd k h1, fun k => absurd k h2⟩

theorem syncPulse_afterTick (h1 : nextEdge s < nextSample s) (h2 : nextSample s < nextEdge s + 4) (hm : s.tb.syncMode = 0) :
    Completes .syncPulse s fun t => t.tb = { syncSeenAt s.tb (nextEdge s) with
      now := nextSample s, lastSample := some (nextSample s), fine := t.tb.fine, fineTicks := t.tb.fineTicks } := by
  have htick := sampleTick_clock s (nextSample s)
  refine ⟨_, syncPulse_late hl hf hle h1 h2 hm, ?_⟩
  generalize sampleTick s (nextSample s) = u at htick ⊢
  have hmode : u.tb.syncMode = 0 := (htick.mode).trans hm
  rw [syncAt_off _ (by rw [hmode]; decide) (by rw [hmode]; decide)]
  exact htick.seen (syncCaptured_world u (nextEdge s)).tb (Nat.le_of_lt h1)

end

end

/-! ### SYNC_GEN and TB_ADJ -/

section
variable {s : State} (p : Path) (v : Word)

theorem accessed_self (s : State) : accessed s s = s := ite_self s

theorem syncGen_idle (h : s.tb.lock = false ∨ s.tb.freerun = true ∨ s.tb.syncoEn = false) : exec (.syncGen p) s = .next s := by
  have hidle : genSync s = s := by
    refine if_pos ?_
    rcases h with h | h | h <;> simp [h]
  refine congrArg Host.Outcome.next ?_
  rw [hidle, accessed_self]

theorem syncGen_pulses (hf : s.tb.freerun = false) (he : s.tb.syncoEn = true) (hl : s.tb.lock = true) (hr : s.fw.recovery = false) :
    exec (.syncGen p) s = .next { s with tb := { s.tb with
      syncoPulses := (s.tb.syncoPulses.filter fun q => decide ((s.tb.now : Int) < q + 2 * refPeriod s))
        ++ [((if nextEdge s = s.tb.now then s.tb.now + refPeriod s else nextEdge s : Nat) : Int)] } } := by
  have hno : ¬(s.tb.freerun || !s.tb.syncoEn || !s.tb.lock) = true := by
    rw [hf, he, hl]
    decide
  have hstart : (if nextEdge s = s.tb.now then nextEdge s + refPeriod s else nextEdge s) = if nextEdge s = s.tb.now then s.tb.now + refPeriod s else nextEdge s := by
    split
    · next h => rw [h]
    · rfl
  refine congrArg Host.Outcome.next ((accessed_running hr).trans ((if_neg hno).trans ?_))
  rw [updTb]
  simp only [hstart]

theorem tbAdj_refused (hc : counterHeld s = true) (hr : s.fw.recovery = false) :
    exec (.tbAdj p v) s = .next { s with tb := { s.tb with loadRefused := true } } :=
  congrArg Host.Outcome.next ((accessed_running hr).trans (if_pos hc))

theorem refPeriod_pos (s : State) : 0 < refPeriod s := by
  rw [refPeriod]
  split
  · decide
  · decide

/-- A phase within the period stands for itself. -/
theorem phase_mod (s : State) (x : Int) : (x % refPeriod s).toNat % refPeriod s = (x % refPeriod s).toNat := by
  have hpos : (0 : Int) < refPeriod s := by exact_mod_cast refPeriod_pos s
  have hlt := Int.emod_lt_of_pos x hpos
  exact Nat.mod_eq_of_lt (by omega)

theorem tbAdj_moves (hc : counterHeld s = false) (hr : s.fw.recovery = false) : Completes (.tbAdj p v) s fun t =>
    t.tb = { s.tb with
      now := ((s.tb.now + v.toInt) % 2 ^ 64).toNat, lastSample := none, lastSlot := none
      edgePhase := (((s.tb.edgePhase : Int) + v.toInt) % refPeriod s).toNat
      syncoPulses := s.tb.syncoPulses.map fun q => q + (((s.tb.now + v.toInt) % 2 ^ 64).toNat : Int) - (s.tb.now : Int) }
    ∧ t.mm = shiftMem s.tb.now ((s.tb.now + v.toInt) % 2 ^ 64).toNat s.mm
    ∧ ∀ n : Chan, t.chans[n] = shiftChan s.tb.now ((s.tb.now + v.toInt) % 2 ^ 64).toNat s.chans[n] := by
  have hrun : accessed s (adjustCounter s v) = setCounter s ((s.tb.now + v.toInt) % 2 ^ 64).toNat (((s.tb.edgePhase : Int) + v.toInt) % refPeriod s).toNat :=
    (accessed_running hr).trans (if_neg (ne_true_of_eq_false hc))
  refine ⟨_, congrArg Host.Outcome.next hrun, ?_, setCounter_mm .., setCounter_chan s _ _⟩
  rw [setCounter_tb, phase_mod]

end

/-! ### Skew measurement -/

section
variable {s : State} (p : Path)

theorem startSkew_asks (h : s.tb.skewEn = true ∧ s.tb.timingRef = false ∧ sibiaLane s (skewLane s) = true) :
    startSkew s = sendBlock { s with tb := { s.tb with measuring := true, exchanges := 0, dropped := 0, sumOfs := 0, exchange := none } }
      (skewLane s) (calBlock 0 0 0) := by
  obtain ⟨he, hr, hl⟩ := h
  have hno : ¬(!s.tb.skewEn || s.tb.timingRef || !sibiaLane s (skewLane s)) = true := by
    rw [he, hr, hl]
    decide
  exact if_neg hno

theorem startSkew_idle (h : ¬(s.tb.skewEn = true ∧ s.tb.timingRef = false ∧ sibiaLane s (skewLane s) = true)) : startSkew s = s := by
  refine if_pos ?_
  refine Classical.byContradiction fun hno => ?_
  simp only [Bool.or_eq_true, Bool.not_eq_true', not_or, Bool.not_eq_false, Bool.not_eq_true] at hno
  exact h ⟨hno.1.1, hno.1.2, hno.2⟩

theorem skewPeriodExpiry_starts (h : s.tb.period ≠ 0) (hr : s.fw.recovery = false) : exec .skewPeriodExpiry s = exec (.skewStart p) s :=
  congrArg Host.Outcome.next ((if_neg (fun k => h (beq_iff_eq.1 k))).trans (accessed_running hr).symm)

theorem skewPeriodExpiry_off (h : s.tb.period = 0) : exec .skewPeriodExpiry s = .next s := congrArg Host.Outcome.next (if_pos (beq_iff_eq.2 h))

theorem settleSkew_world (s : State) : SameWorld (settleSkew s) (updTb s fun b => { b with
    aligned := (settleSkew s).tb.aligned, holdover := (settleSkew s).tb.holdover }) := by
  have hw := noteAlign_world (updTb s fun b => { b with
    aligned := decide (max s.tb.phaseTarget s.tb.fine - min s.tb.phaseTarget s.tb.fine ≤ 1)
    holdover := b.holdover && !decide (max s.tb.phaseTarget s.tb.fine - min s.tb.phaseTarget s.tb.fine ≤ 1) })
  refine ⟨?_, hw.chans, hw.mm, hw.queues⟩
  change _ = { s.tb with aligned := (settleSkew s).tb.aligned, holdover := (settleSkew s).tb.holdover }
  have htb : (settleSkew s).tb = { s.tb with
    aligned := decide (max s.tb.phaseTarget s.tb.fine - min s.tb.phaseTarget s.tb.fine ≤ 1)
    holdover := s.tb.holdover && !decide (max s.tb.phaseTarget s.tb.fine - min s.tb.phaseTarget s.tb.fine ≤ 1) } := hw.tb
  rw [htb]

/-- The mean of a measurement is recorded, and the fine phase has its target. -/
def skewMeant (s : State) : State :=
  setFine (updTb s fun b => { b with measuring := false, ofs := roundDiv s.tb.sumOfs 8192, ofsValid := true })
    (16 * wholeTicks (roundDiv s.tb.sumOfs 8192) + roundDiv s.tb.sumOfs 8192).toNat

theorem endSkew_means (s : State) : endSkew s =
    if wholeTicks (roundDiv s.tb.sumOfs 8192) = 0 then settleSkew (skewMeant s)
    else if counterHeld s then raise (noteAlign (updTb (skewMeant s) fun b => { b with aligned := false })) 278
    else settleSkew (setCounter (skewMeant s) ((s.tb.now + wholeTicks (roundDiv s.tb.sumOfs 8192)) % 2 ^ 64).toNat
      (((s.tb.edgePhase : Int) + wholeTicks (roundDiv s.tb.sumOfs 8192)) % refPeriod s).toNat) := rfl

theorem settleSkew_keeps (s : State) : (settleSkew s).tb.measuring = s.tb.measuring ∧ (settleSkew s).tb.ofs = s.tb.ofs
    ∧ (settleSkew s).tb.ofsValid = s.tb.ofsValid ∧ (settleSkew s).tb.now = s.tb.now ∧ (settleSkew s).tb.phaseTarget = s.tb.phaseTarget := by
  have h : (settleSkew s).tb = { s.tb with aligned := (settleSkew s).tb.aligned, holdover := (settleSkew s).tb.holdover } := (settleSkew_world s).tb
  rw [h]
  exact ⟨rfl, rfl, rfl, rfl, rfl⟩

theorem skewMeant_moves (s : State) (a : Int) (h : wholeTicks (roundDiv s.tb.sumOfs 8192) = a) (hne : a ≠ 0) (hc : counterHeld s = false) :
    (endSkew s).tb.measuring = false ∧ (endSkew s).tb.ofs = roundDiv s.tb.sumOfs 8192 ∧ (endSkew s).tb.ofsValid = true
      ∧ (endSkew s).tb.now = ((s.tb.now + a) % 2 ^ 64).toNat
      ∧ (endSkew s).mm = shiftMem s.tb.now ((s.tb.now + a) % 2 ^ 64).toNat s.mm
      ∧ ∀ n : Chan, (endSkew s).chans[n] = shiftChan s.tb.now ((s.tb.now + a) % 2 ^ 64).toNat s.chans[n] := by
  rw [endSkew_means, h, if_neg hne, if_neg (ne_true_of_eq_false hc)]
  have hmm := setCounter_mm (skewMeant s) ((s.tb.now + a) % 2 ^ 64).toNat (((s.tb.edgePhase : Int) + a) % refPeriod s).toNat
  have hchan := setCounter_chan (skewMeant s) ((s.tb.now + a) % 2 ^ 64).toNat (((s.tb.edgePhase : Int) + a) % refPeriod s).toNat
  have htb := setCounter_tb (skewMeant s) ((s.tb.now + a) % 2 ^ 64).toNat (((s.tb.edgePhase : Int) + a) % refPeriod s).toNat
  generalize setCounter (skewMeant s) ((s.tb.now + a) % 2 ^ 64).toNat (((s.tb.edgePhase : Int) + a) % refPeriod s).toNat = t at hmm hchan htb ⊢
  obtain ⟨h1, h2, h3, h4, -⟩ := settleSkew_keeps t
  have hw := settleSkew_world t
  refine ⟨h1.trans ?_, h2.trans ?_, h3.trans ?_, h4.trans ?_, hw.mm.trans hmm, fun n => ?_⟩
  · rw [htb]
    rfl
  · rw [htb]
    rfl
  · rw [htb]
    rfl
  · rw [htb]
  · rw [hw.chans]
    exact hchan n

theorem skewMeasurementEnd_means (hm : s.tb.measuring = true) (he : 4096 ≤ s.tb.exchanges) : Completes .skewMeasurementEnd s fun t =>
    t.tb.measuring = false ∧ t.tb.ofs = roundDiv s.tb.sumOfs 8192 ∧ t.tb.ofsValid = true
      ∧ (wholeTicks (roundDiv s.tb.sumOfs 8192) = 0 ∨ counterHeld s = true → t.mm = s.mm ∧ t.chans = s.chans)
      ∧ (wholeTicks (roundDiv s.tb.sumOfs 8192) = 0 → t.tb.now = s.tb.now ∧ t.tb.phaseTarget = (roundDiv s.tb.sumOfs 8192).toNat)
      ∧ (wholeTicks (roundDiv s.tb.sumOfs 8192) ≠ 0 → counterHeld s = true → t.tb.now = s.tb.now ∧ t.tb.aligned = false)
      ∧ (wholeTicks (roundDiv s.tb.sumOfs 8192) ≠ 0 → counterHeld s = false →
          t.tb.now = ((s.tb.now + wholeTicks (roundDiv s.tb.sumOfs 8192)) % 2 ^ 64).toNat
            ∧ t.mm = shiftMem s.tb.now ((s.tb.now + wholeTicks (roundDiv s.tb.sumOfs 8192)) % 2 ^ 64).toNat s.mm
            ∧ ∀ n : Chan, t.chans[n] = shiftChan s.tb.now ((s.tb.now + wholeTicks (roundDiv s.tb.sumOfs 8192)) % 2 ^ 64).toNat s.chans[n]) := by
  have hrun : (if s.tb.measuring && decide (s.tb.exchanges ≥ 4096) then endSkew s else s) = endSkew s := by
    rw [hm, decide_eq_true he]
    rfl
  refine completes_of (t := endSkew s) (congrArg Host.Outcome.next hrun) ?_
  by_cases h0 : wholeTicks (roundDiv s.tb.sumOfs 8192) = 0
  · have hend : endSkew s = settleSkew (skewMeant s) := by rw [endSkew_means, if_pos h0]
    obtain ⟨h1, h2, h3, h4, h5⟩ := settleSkew_keeps (skewMeant s)
    have hw := settleSkew_world (skewMeant s)
    have htarget : (skewMeant s).tb.phaseTarget = (roundDiv s.tb.sumOfs 8192).toNat := by
      change (16 * wholeTicks (roundDiv s.tb.sumOfs 8192) + roundDiv s.tb.sumOfs 8192).toNat = _
      rw [h0, Int.mul_zero, Int.zero_add]
    rw [hend]
    exact ⟨h1, h2, h3, fun _ => ⟨hw.mm, hw.chans⟩, fun _ => ⟨h4, h5.trans htarget⟩, fun k => absurd h0 k, fun k => absurd h0 k⟩
  · by_cases hc : counterHeld s = true
    · have hend : endSkew s = raise (noteAlign (updTb (skewMeant s) fun b => { b with aligned := false })) 278 := by
        rw [endSkew_means, if_neg h0, if_pos hc]
      have hw := (raiseAt_world (noteAlign (updTb (skewMeant s) fun b => { b with aligned := false })) 278 none).trans (noteAlign_world _)
      rw [hend, raise, hw.tb, hw.mm, hw.chans]
      exact ⟨rfl, rfl, rfl, fun _ => ⟨rfl, rfl⟩, fun k => absurd k h0, fun _ _ => ⟨rfl, rfl⟩, fun _ k => absurd hc (ne_true_of_eq_false k)⟩
    · have hno := Bool.eq_false_iff.2 hc
      obtain ⟨h1, h2, h3, h4, h5, h6⟩ := skewMeant_moves s _ rfl h0 hno
      exact ⟨h1, h2, h3, fun k => (k.elim h0 hc).elim, fun k => absurd k h0, fun _ k => absurd k hc, fun _ _ => ⟨h4, h5, h6⟩⟩

theorem skewMeasurementEnd_idle (h : s.tb.measuring = false ∨ s.tb.exchanges < 4096) : exec .skewMeasurementEnd s = .next s := by
  refine congrArg Host.Outcome.next (if_neg ?_)
  rcases h with h | h
  · simp [h]
  · simp [Nat.not_le.2 h]

theorem fineStep_due (h : 1024 ≤ s.tb.fineTicks) : fineStep s = { s with tb := { s.tb with
    fineTicks := 0
    fine := if s.tb.fine < s.tb.phaseTarget then s.tb.fine + 1 else if s.tb.phaseTarget < s.tb.fine then s.tb.fine - 1 else s.tb.fine } } :=
  if_neg (by omega)

end

/-- Settles O45: every operation of the timebase by what it leaves of the state, a pulse behind a sample tick by the counter of that tick. -/
theorem timebaseCommands : Obligations.TimebaseCommands := by
  unfold Obligations.TimebaseCommands
  refine ⟨fun s p v => ⟨?lock, ?locked, refclkLoss_runsFree, ?free, relock_relocks, ?edge, ?past, ?gen, ?genOff, tbAdj_refused p v, tbAdj_moves p v⟩,
    fun s p => ⟨?ask, ?noAsk, skewPeriodExpiry_starts p, skewPeriodExpiry_off, skewMeasurementEnd_means, skewMeasurementEnd_idle, ?fine, ?fineIdle⟩⟩
  case lock => exact fun h => congrArg Host.Outcome.next (firstLock_locks h)
  case locked =>
    intro h
    have hidle : firstLock s = s := if_pos h
    exact congrArg Host.Outcome.next hidle
  case free =>
    exact fun h => ⟨congrArg Host.Outcome.next (loseRef_idle h), syncPulse_idle (h.imp_right .inl), syncGen_idle p (h.imp_right .inl)⟩
  case edge =>
    intro hl hf hle
    have hseen := syncSeenAt_next s
    have hloads := syncPulse_loads hl hf hle
    have hcaptures := syncPulse_captures hl hf hle
    have hafter := syncPulse_afterTick hl hf hle
    rw [hseen] at hloads hcaptures hafter
    exact ⟨hloads, hcaptures, hafter⟩
  case past => exact fun h => syncPulse_idle (.inr (.inr h))
  case gen => exact fun hf he hl hr => syncGen_pulses p hf he hl hr
  case genOff => exact fun h => syncGen_idle p (.inr (.inr h))
  case ask => exact fun h hr => congrArg Host.Outcome.next ((accessed_running hr).trans (startSkew_asks h))
  case noAsk =>
    intro h
    refine congrArg Host.Outcome.next ?_
    rw [startSkew_idle h, accessed_self]
  case fine =>
    intro h
    refine ⟨fun hlt => ?_, fun hlt => ?_, fun heq => ?_⟩
    · exact congrArg Host.Outcome.next ((fineStep_due h).trans (by rw [if_pos hlt]))
    · exact congrArg Host.Outcome.next ((fineStep_due h).trans (by rw [if_neg (by omega), if_pos hlt]))
    · exact congrArg Host.Outcome.next ((fineStep_due h).trans (by rw [if_neg (by omega), if_neg (by omega)]))
  case fineIdle =>
    intro h
    have hidle : fineStep s = s := if_pos h
    exact congrArg Host.Outcome.next hidle

end Sys2Proof.Machine
end

section
/-!
PROOFS. The operations that write an addressed memory keep its canonical form, and the queue of commands (O59, O60).
-/
namespace Sys2Proof.Machine

/-! ### The canonical form by the ledger -/

/-- The canonical form of the flash. -/
def FlashForm (f : Mem × Mem × Mem × Mem × Vector Mem 2) : Prop :=
  Memory.wf f.1 = true ∧ Memory.wf f.2.1 = true ∧ Memory.wf f.2.2.1 = true ∧ Memory.wf f.2.2.2.1 = true
    ∧ ∀ (i : Nat) (h : i < 2), Memory.wf f.2.2.2.2[i] = true

/-- The canonical form of the rings of a path. -/
def RingForm (r : Mem × Mem) : Prop := Memory.wf r.1 = true ∧ Memory.wf r.2 = true

/-- The canonical form of all addressed memories. -/
def BooksForm (b : List Instr × Mem × (Mem × Mem × Mem × Mem × Vector Mem 2) × Vector (Mem × Mem) 4) : Prop :=
  Memory.wf b.2.1 = true ∧ FlashForm b.2.2.1 ∧ ∀ (i : Nat) (h : i < 4), RingForm b.2.2.2[i]

theorem memoryForm_iff (s : State) : s.memoryForm = true ↔ BooksForm (ledger s).books := by
  simp only [State.memoryForm, BooksForm, FlashForm, RingForm, Ledger.books, ledger, flashOf, ringsOf, Bool.and_eq_true, Vector.all_eq_true, Vector.getElem_map,
    and_assoc]

/-- An operation that keeps the queue, and the canonical form of the memories. -/
structure Keeps (t s : State) : Prop where
  pending : t.pending = s.pending
  form : BooksForm (ledger s).books → BooksForm (ledger t).books

namespace Keeps
variable {u t s : State}

theorem of_books (h : (ledger t).books = (ledger s).books) : Keeps t s := ⟨congrArg Prod.fst h, fun k => h ▸ k⟩

theorem of_ledger (h : ledger t = ledger s) : Keeps t s := of_books (congrArg Ledger.books h)

theorem refl (s : State) : Keeps s s := ⟨rfl, id⟩

theorem trans (h : Keeps u t) (k : Keeps t s) : Keeps u s := ⟨h.pending.trans k.pending, fun x => h.form (k.form x)⟩

theorem ite {c : Prop} [Decidable c] (ht : Keeps t s) (hu : Keeps u s) : Keeps (if c then t else u) s := by
  split
  · exact ht
  · exact hu

end Keeps

theorem putMem_keeps (s : State) (mm : Memory) (h : Memory.wf s.mm.mem = true → Memory.wf mm.mem = true) : Keeps { s with mm := mm } s :=
  ⟨rfl, fun ⟨hm, hrest⟩ => ⟨h hm, hrest⟩⟩

theorem updMm_keeps {s : State} {f : Memory → Memory} (g : Mem → Mem) (hf : ∀ m, (f m).mem = g m.mem)
    (hg : ∀ m, Memory.wf m = true → Memory.wf (g m) = true) : Keeps (updMm s f) s :=
  putMem_keeps s (f s.mm) fun k => hf s.mm ▸ hg _ k

theorem putFw_keeps (s : State) (f : Firmware) (h : FlashForm (flashOf s.fw) → FlashForm (flashOf f)) : Keeps { s with fw := f } s :=
  ⟨rfl, fun ⟨hm, hf, hr⟩ => ⟨hm, h hf, hr⟩⟩

theorem updPath_keeps (s : State) (p : Path) (f : PathRegs → PathRegs) (h : ∀ r, RingForm (ringsOf r) → RingForm (ringsOf (f r))) :
    Keeps (updPath s p f) s := by
  refine ⟨rfl, fun ⟨hm, hf, hr⟩ => ⟨hm, hf, fun i hi => ?_⟩⟩
  have hpaths : (ledger (updPath s p f)).books.2.2.2[i] = ringsOf ((s.paths.set (pathIdx p) (f s.paths[pathIdx p]))[i]) := Vector.getElem_map ..
  have hold : (ledger s).books.2.2.2[i] = ringsOf s.paths[i] := Vector.getElem_map ..
  have hform := hr i hi
  rw [hpaths, Vector.getElem_set]
  split
  · next heq =>
    have hp := hr (pathIdx p) (pathIdx p).isLt
    have hpold : (ledger s).books.2.2.2[(pathIdx p).val] = ringsOf s.paths[pathIdx p] := Vector.getElem_map ..
    rw [hpold] at hp
    exact h _ hp
  · rw [← hold]
    exact hform

/-- A response stored in its ring. -/
theorem storeRsp_keeps {s : State} {p : Path} {f : PathRegs → PathRegs} (bs : List Byte) (hc : ∀ k, (f k).cmdRing = k.cmdRing)
    (hr : ∀ k, (f k).rspRing = ringStore k.rspRing 16384 k.rspWr.toNat bs) : Keeps (updPath s p f) s := by
  refine updPath_keeps s p f fun k ⟨hcmd, hrsp⟩ => ?_
  rw [RingForm, ringsOf, hc, hr]
  exact ⟨hcmd, ringStore_wf _ _ _ _ hrsp⟩

/-- A change of a path's registers that leaves its rings. -/
theorem updPath_keepsRings (s : State) (p : Path) (f : PathRegs → PathRegs) (h : ∀ r, ringsOf (f r) = ringsOf r) : Keeps (updPath s p f) s :=
  .of_ledger (ledger_updPath s p f h)

/-! ### Memory -/

theorem engineEnd_keeps (s : State) (d : Ring) : Keeps (engineEnd s d) s := by
  unfold engineEnd
  split
  · exact .refl s
  · next t _ =>
    have hmem : Keeps { s with mm := { s.mm with mem := storeWords s.mm.mem ((t.pas.map (retiredTo s.mm)).zip t.words) } } s :=
      putMem_keeps s _ (storeWords_wf _ _)
    have hring (u : State) (before : Nat) (f : RingState → RingState) : ledger (ringThreshold (offerDevice (updRing u d f) 3 t.start u.tb.now) d before) = ledger u := by
      rw [ringThreshold_ledger, offerDevice_ledger, updRing_ledger]
    dsimp only
    split
    · refine (Keeps.of_ledger ?_).trans hmem
      rw [closeIfEmpty_ledger, changeQueue_ledger, countResidency_ledger]
      exact hring ..
    · exact (Keeps.of_ledger (hring ..)).trans hmem

theorem mapDemand_keeps (s : State) (asid va pa : Nat) (pool : List (Nat × Nat)) : Keeps (mapDemand s asid va pa pool) s :=
  putMem_keeps s _ (memZero_wf _ _ _)

theorem resolveDemand_keeps (s : State) : Keeps (resolveDemand s) s := by
  unfold resolveDemand
  split
  · exact .refl s
  · next d rest _ =>
    have hoffered : ledger (offerDevice (updMm s fun m => { m with demand := rest }) 0 d.since s.tb.now) = ledger s :=
      (offerDevice_ledger ..).trans (ledger_updMm s _ fun _ => rfl)
    dsimp only
    generalize offerDevice (updMm s fun m => { m with demand := rest }) 0 d.since s.tb.now = t at hoffered ⊢
    refine Keeps.trans ?_ (.of_ledger hoffered)
    split
    · split
      · exact .of_ledger (by rw [releaseCured_ledger, releaseWaiter_ledger])
      · split
        · exact (Keeps.of_ledger (by rw [releaseCured_ledger, releaseWaiter_ledger])).trans (mapDemand_keeps ..)
        · exact .of_ledger (demandToPool_ledger ..)
    · exact .of_ledger (releaseWaiter_ledger ..)

theorem retirePage_keeps (s : State) (pa : Nat) : Keeps (retirePage s pa) s := by
  unfold retirePage
  dsimp only
  split
  · exact .refl s
  · have hdrop : Keeps (dropPage s pa) s := .of_ledger (dropPage_ledger ..)
    have hmem : Keeps (updMm (dropPage s pa) fun m =>
        { m with
          mem := memWriteBytes m.mem (sparePage s.mm) (memReadBytes m.mem pa 0x1000), maps := splitAround m.maps pa
          tables := m.tables ++ splitTables m.maps pa, retired := m.retired ++ [(pa, sparePage s.mm)] }) (dropPage s pa) :=
      updMm_keeps (fun m => memWriteBytes m (sparePage s.mm) (memReadBytes m pa 0x1000)) (fun _ => by dsimp only) fun m => memWriteBytes_wf _ m _
    exact .ite ((Keeps.of_ledger (startInv_ledger ..)).trans (hmem.trans hdrop)) (hmem.trans hdrop)

theorem landStore_keeps (s : State) (n : Chan) (x : Ctx) (st : Store) (rest : List Store) : Keeps (landStore s n x st rest) s := by
  have hmem : Keeps { s with mm := { s.mm with mem := memWriteWord s.mm.mem (retiredTo s.mm st.pa) st.data } } s := putMem_keeps s _ (memWriteWord_wf _ _ _)
  refine Keeps.trans (.of_ledger ?_) hmem
  unfold landStore
  dsimp only
  split
  · rw [ledger_ite, finishBusy_ledger, updCtx_ledger, ite_self, updCtx_ledger]
  · exact updCtx_ledger ..

theorem writeProof_keeps (s : State) (p : Proof) : Keeps (writeProof s p) s := by
  unfold writeProof
  dsimp only
  split
  · exact .refl s
  · split
    · exact .of_ledger ((ringFault_ledger ..).trans (updPf_ledger ..))
    · refine (Keeps.of_ledger ((raise_ledger ..).trans (updPf_ledger ..))).trans ((putMem_keeps _ _ (storeWords_wf _ _)).trans (.of_ledger ?_))
      rw [cacheXlate_ledger, cacheXlates_ledger]

theorem copyLibrary_keeps (s : State) : Keeps (copyLibrary s) s := ⟨rfl, fun ⟨hm, hrest⟩ => ⟨copyRegion_wf _ _ _ _ hm, hrest⟩⟩

/-! ### Responses -/

theorem postNow_keeps (s : State) (p : Path) (r : Rsp) (taken : Nat) : Keeps (postNow s p r taken) s := by
  have hring : Keeps (updPath s p fun k => { k with
      rsps := k.rsps ++ [r], rspRing := ringStore k.rspRing 16384 k.rspWr.toNat (rspBytes r), rspWr := count32 k.rspWr r.size }) s :=
    storeRsp_keeps (rspBytes r) (fun _ => rfl) fun _ => by dsimp only
  refine Keeps.trans (.of_ledger ?_) hring
  unfold postNow
  dsimp only
  rw [ledger_ite, raise_ledger, ite_self, ledger_ite, offerDevice_ledger]
  simp only [ledger_mk, ledger_eta, offerDevice_ledger, ite_self]

theorem postWaiting_keeps (fuel : Nat) : ∀ (s : State) (p : Path), Keeps (postWaiting fuel s p) s := by
  induction fuel with
  | zero => exact fun s _ => .refl s
  | succ fuel ih =>
    intro s p
    unfold postWaiting
    split
    · exact .refl s
    · exact .ite ((ih ..).trans ((postNow_keeps ..).trans (updPath_keepsRings _ _ _ fun _ => rfl))) (.refl s)

theorem postAll_keeps (s : State) (p : Path) : Keeps (postAll s p) s := postWaiting_keeps ..

theorem respond_keeps (s : State) (p : Path) (r : Rsp) (taken : Nat) : Keeps (respond s p r taken) s :=
  .ite (.refl s) ((postAll_keeps ..).trans (updPath_keepsRings _ _ _ fun _ => rfl))

theorem answerUnknown_keeps (s : State) (p : Path) : Keeps (answerUnknown s p) s := by
  unfold answerUnknown
  dsimp only
  refine (respond_keeps ..).trans (.of_ledger ?_)
  rw [ledger_ite, countTimeout_ledger, ite_self, passMessage_ledger]

theorem answerUnknownsN_keeps (fuel : Nat) : ∀ (s : State) (p : Path), Keeps (answerUnknownsN fuel s p) s := by
  induction fuel with
  | zero => exact fun s _ => .refl s
  | succ fuel ih => exact fun s p => .ite ((ih ..).trans (answerUnknown_keeps ..)) (.refl s)

theorem answerUnknowns_keeps (s : State) (p : Path) : Keeps (answerUnknowns s p) s := answerUnknownsN_keeps ..

theorem takeMessage_keeps (s : State) (h : Hdr) : Keeps (takeMessage s h) s := (Keeps.of_ledger (passMessage_ledger ..)).trans (answerUnknowns_keeps ..)

/-- A command of the host, by its body. -/
theorem hostCommand_keeps (s : State) (h : Hdr) (opcode args : Nat) (inRecovery : Bool) {body : State → Option (Nat × List Byte) × State}
    (hb : ∀ t, Keeps (body t).2 t) : Keeps (hostCommand s h opcode args inRecovery body) s := by
  unfold hostCommand
  dsimp only
  refine .ite (.refl s) (Keeps.trans ?_ (takeMessage_keeps s h))
  split
  · exact (respond_keeps ..).trans (.of_ledger (by rw [ledger_ite, countTimeout_ledger, ite_self]))
  · split
    · exact (respond_keeps ..).trans (hb _)
    · exact hb _

theorem sessionCommand_keeps (s : State) (h : Hdr) (opcode args : Nat) (inRecovery : Bool) {body : State → Reply} (hb : ∀ t, Keeps (body t).2 t) :
    Keeps (sessionCommand s h opcode args inRecovery body) s :=
  hostCommand_keeps _ _ _ _ _ fun _ => (hb _).trans (.of_ledger (touchSession_ledger ..))

theorem invalidated_keeps (s : State) : Keeps (invalidated s) s := by
  unfold invalidated
  split
  · exact .refl s
  · next i rest _ =>
    have hseq : Keeps (updMm s fun m => { m with invPending := rest, invSeq := (m.invSeq + 1) % 2 ^ 32 }) s := .of_ledger (ledger_updMm s _ fun _ => rfl)
    refine .ite (.refl s) ?_
    dsimp only
    split
    · exact (respond_keeps ..).trans hseq
    · exact hseq

/-! ### Messages of the host -/

theorem offerBytes_keeps (s : State) (p : Path) (end_ : Word) : Keeps (offerBytes s p end_) s := by
  have hoffer : Keeps (updPath s p fun k => { k with cmdWr := end_, offers := k.offers ++ [(end_.toNat, s.tb.now)] }) s :=
    updPath_keepsRings _ _ _ fun _ => rfl
  exact .ite ((answerUnknowns_keeps ..).trans hoffer) hoffer

theorem hhtBytes_keeps (s : State) (offset : Nat) (bytes : List Byte) : Keeps (hhtBytes s offset bytes) s := by
  unfold hhtBytes
  dsimp only
  refine (Keeps.of_ledger (sendHht_ledger ..)).trans (.ite ((offerBytes_keeps ..).trans (updPath_keeps _ _ _ fun _ h => ?_)) (.refl s))
  exact ⟨ringStore_wf _ _ _ _ h.1, h.2⟩

theorem freeRsp_keeps (s : State) (p : Path) (v : Word) : Keeps (freeRsp s p v) s := (postAll_keeps ..).trans (updPath_keepsRings _ _ _ fun _ => rfl)

theorem hhtRspAck_keeps (s : State) (offset : Nat) : Keeps (hhtRspAck s offset) s := .ite (freeRsp_keeps ..) (.refl s)

theorem cmdWrWrite_keeps (s : State) (p : Path) (v : Word) : Keeps (cmdWrWrite s p v) s :=
  .ite (updPath_keepsRings _ _ _ fun _ => rfl) (.ite (.refl s) (offerBytes_keeps ..))

theorem rspRdWrite_keeps (s : State) (p : Path) (v : Word) : Keeps (rspRdWrite s p v) s :=
  .ite (updPath_keepsRings _ _ _ fun _ => rfl) (freeRsp_keeps ..)

theorem mbxWrite_keeps (s : State) (p : Path) (off : Nat) (v : Word) : Keeps (mbxWrite s p off v) s := by
  unfold mbxWrite
  refine .ite (cmdWrWrite_keeps ..) (.ite (rspRdWrite_keeps ..) (.ite (updPath_keepsRings _ _ _ fun _ => rfl) (.ite (updPath_keepsRings _ _ _ fun _ => rfl)
    (.ite (updPath_keeps _ _ _ fun _ h => ?_) (.refl s)))))
  exact ⟨memWriteWord_wf _ _ _ h.1, h.2⟩

/-! ### Registers -/

theorem blockFwWrite_keeps (s : State) (p : Path) (off : Nat) (v : Word) : Keeps (blockFwWrite s p off v) s :=
  .ite (.ite (.of_ledger rfl) (.refl s)) (.ite (.of_ledger (calWrite_ledger ..)) (.ite (mbxWrite_keeps ..) (.refl s)))

theorem writePlain_keeps (s : State) (p : Path) (a : Nat) (v : Word) : Keeps (writePlain s p a v) s := by
  unfold writePlain
  dsimp only
  split
  · exact .ite (.of_ledger (sysWrite_ledger ..)) (.ite (.of_ledger (msixWrite_ledger ..)) (.refl s))
  · exact .of_books (tbWrite_books ..)
  · exact .of_ledger (trWrite_ledger ..)
  · exact .of_ledger (qWrite_ledger ..)
  · exact .of_ledger (mmuWrite_ledger ..)
  · exact .ite (.of_ledger (htWrite_ledger ..)) (.of_ledger (pfWrite_ledger ..))
  · exact .of_ledger (plWrite_ledger ..)
  · exact .of_books (pwrWrite_books ..)
  · exact .of_books (lnWrite_books ..)
  · exact blockFwWrite_keeps ..
  · split
    · exact .of_ledger (chanWrite_ledger ..)
    · exact .refl s

theorem writeReg_keeps (s : State) (p : Path) (a : Nat) (v : Word) : Keeps (writeReg s p a v) s :=
  .ite (.refl s) ((Keeps.of_ledger (dropSnap_ledger ..)).trans (writePlain_keeps ..))

theorem writeRegs_keeps (p : Path) (ws : List Word) : ∀ (s : State) (a : Nat), Keeps (writeRegs s p a ws) s := by
  induction ws with
  | nil => exact fun s _ => .refl s
  | cons w ws ih => exact fun s a => (ih ..).trans (writeReg_keeps ..)

theorem resetPcie_keeps (s : State) : Keeps (resetPcie s) s := by
  have hpath : Keeps (updPath s .pcie fun _ => {}) s := updPath_keeps _ _ _ fun _ _ => ⟨rfl, rfl⟩
  refine Keeps.trans (.of_books ?_) hpath
  unfold resetPcie
  dsimp only
  rw [books_foldl]
  · simp only [ledger_mk, flashOf_mk, flashOf_eta, updMm, updPf]
    rfl
  · intro t k
    rw [ledger_ite, books_ite, setLState_books, ite_self]

/-! ### Resets and starts -/

theorem fullReset_keeps (s : State) : Keeps (fullReset s) s := by
  refine ⟨rfl, fun ⟨_, hf, _⟩ => ⟨rfl, ?_, ?_⟩⟩
  · exact ⟨hf.1, hf.2.1, hf.2.2.1, rfl, hf.2.2.2.2⟩
  · intro i hi
    have hpaths : (ledger (fullReset s)).books.2.2.2[i] = ringsOf State.reset.paths[i] := Vector.getElem_map ..
    rw [hpaths]
    simp [State.reset, RingForm, ringsOf, Memory.wf]

theorem holdReset_keeps (s : State) : Keeps (holdReset s) s := Keeps.trans (t := fullReset s) (.of_ledger rfl) (fullReset_keeps s)

theorem powerOn_keeps (s : State) (straps : Straps) : Keeps (powerOn s straps) s :=
  have hstraps : Keeps (updFw (fullReset s) fun f => { f with porn := true, straps := straps }) (fullReset s) := .of_ledger (ledger_updFw _ _ fun _ => rfl)
  .ite (.refl s) ((Keeps.of_books (bootRom_books ..)).trans (hstraps.trans (fullReset_keeps s)))

end Sys2Proof.Machine
end

section
/-!
PROOFS. Updates and the library keep the canonical form of the flash (O59, O60).
-/
namespace Sys2Proof.Machine

/-! ### The flash -/

theorem setFlash_form {f : Firmware} {m : Mem} (b : Bool) (h : FlashForm (flashOf f)) (hm : Memory.wf m = true) : FlashForm (flashOf (setFlash f b m)) := by
  obtain ⟨ha, hb, hrest⟩ := h
  cases b with
  | false => exact ⟨hm, hb, hrest⟩
  | true => exact ⟨ha, hm, hrest⟩

theorem slot_form {f : Firmware} (b : Bool) (h : FlashForm (flashOf f)) : Memory.wf (f.slot b) = true := by
  cases b with
  | false => exact h.1
  | true => exact h.2.1

theorem setObject_form {f : Firmware} {m : Mem} (u : Option Update) (h : FlashForm (flashOf f)) (hm : Memory.wf m = true) :
    FlashForm (flashOf { f with update := u, object := m }) := by
  obtain ⟨ha, hb, hboard, -, hlibs⟩ := h
  exact ⟨ha, hb, hboard, hm, hlibs⟩

theorem setBoard_form {f : Firmware} {m : Mem} (h : FlashForm (flashOf f)) (hm : Memory.wf m = true) : FlashForm (flashOf { f with boardFlash := m }) := by
  obtain ⟨ha, hb, -, hrest⟩ := h
  exact ⟨ha, hb, hm, hrest⟩

theorem setLib_form {f : Firmware} {m : Mem} (i : Fin 2) (h : FlashForm (flashOf f)) (hm : Memory.wf m = true) :
    FlashForm (flashOf { f with libs := f.libs.set i m }) := by
  obtain ⟨ha, hb, hboard, hobj, hlibs⟩ := h
  refine ⟨ha, hb, hboard, hobj, fun j hj => ?_⟩
  change Memory.wf (f.libs.set i m)[j] = true
  rw [Vector.getElem_set]
  split
  · exact hm
  · exact hlibs j hj

theorem updFw_keeps {s : State} {f : Firmware → Firmware} (h : FlashForm (flashOf s.fw) → FlashForm (flashOf (f s.fw))) : Keeps (updFw s f) s := putFw_keeps s _ h

/-! ### Updates -/

theorem endUpdate_keeps (s : State) : Keeps (endUpdate s) s := updFw_keeps fun h => setObject_form none h rfl

theorem openUpdate_keeps (s : State) (p : Path) (kind : UpdKind) (slot : Bool) (digest : Digest) : Keeps (openUpdate s p kind slot digest) s := by
  have hopen (u : Update) : Keeps (updFw s fun f => { f with update := some u, object := [] }) s := updFw_keeps fun h => setObject_form _ h rfl
  have hinvalid (t : State) (b : Bool) :
      Keeps (updFw t fun f => let g := writeDir f (setSlot b .invalid 0); if dirMade f g then setFlash g b [] else { g with update := none }) t := by
    refine updFw_keeps fun h => ?_
    have hg : FlashForm (flashOf (writeDir t.fw (setSlot b .invalid 0))) := by rw [writeDir_flash]; exact h
    dsimp only
    split
    · exact setFlash_form b hg rfl
    · exact hg
  exact .ite ((hinvalid ..).trans (hopen _)) (hopen _)

theorem updOpenOp_keeps (s : State) (p : Path) (kind : UpdKind) (slot : Bool) (digest : Digest) (t : Option Token) :
    Keeps (updOpenOp s p kind slot digest t).2 s := by
  have htoken : Keeps (updToken s p digest t).2 s := .of_ledger (updToken_ledger ..)
  unfold updOpenOp
  split
  · exact .refl s
  · split
    · exact .refl s
    · dsimp only
      split
      · exact htoken
      · exact (openUpdate_keeps ..).trans htoken

theorem writeObject_keeps (s : State) (u : Update) (offset : Nat) (bytes : List Byte) : Keeps (writeObject s u offset bytes) s := by
  refine updFw_keeps fun h => ?_
  split
  · exact setBoard_form h (memWriteBytes_wf _ _ _ h.2.2.1)
  · split
    · exact setFlash_form _ h (memWriteBytes_wf _ _ _ (slot_form _ h))
    · exact setObject_form _ h (memWriteBytes_wf _ _ _ h.2.2.2.1)

theorem updDataOp_keeps (s : State) (p : Path) (offset : Nat) (bytes : List Byte) : Keeps (updDataOp s p offset bytes).2 s := by
  unfold updDataOp
  split
  · exact .refl s
  · next u _ =>
    split
    · exact .refl s
    · split
      · exact .refl s
      · split
        · exact .refl s
        · split
          · exact .refl s
          · dsimp only
            split
            · exact (Keeps.of_ledger (updSession_ledger ..)).trans (writeObject_keeps s u offset bytes)
            · exact (Keeps.of_ledger (updSession_ledger ..)).trans (writeObject_keeps s u offset bytes)

theorem appendBytes_wf (src : Mem) (from_ n : Nat) (out : Mem × Nat) (h : Memory.wf out.1 = true) : Memory.wf (appendBytes src from_ n out).1 = true := by
  have hall (l : List Nat) : ∀ m : Mem, Memory.wf m = true → Memory.wf (l.foldl (fun m i => memWrite m (out.2 + i) (memRead src (from_ + i))) m) = true := by
    induction l with
    | nil => exact fun _ k => k
    | cons i l ih => exact fun m k => ih _ (memWrite_wf _ _ _ k)
  exact hall _ _ h

theorem runDelta_wf (delta lib : Mem) (fuel : Nat) : ∀ (pos : Nat) (out r : Mem × Nat), Memory.wf out.1 = true → runDelta delta lib fuel pos out = some r →
    Memory.wf r.1 = true := by
  induction fuel with
  | zero => exact fun _ _ _ _ h => nomatch h
  | succ fuel ih =>
    intro pos out r hw h
    rw [runDelta] at h
    split at h
    · exact ih _ _ _ (appendBytes_wf _ _ _ _ hw) h
    · exact ih _ _ _ (appendBytes_wf _ _ _ _ hw) h
    · rw [← Option.some.inj h]
      exact hw
    · exact nomatch h

theorem finishDelta_keeps (s : State) (u : Update) : Keeps (finishDelta s u).2 s := by
  unfold finishDelta
  dsimp only
  split
  · next e out _ hout =>
    split
    · exact .refl s
    · split
      · exact .refl s
      · split
        · exact .refl s
        · exact (Keeps.of_ledger (updSession_ledger ..)).trans (updFw_keeps fun h => setLib_form _ h (runDelta_wf _ _ _ _ _ _ rfl hout))
  · exact .refl s

theorem finishImage_keeps (s : State) (u : Update) (recoveryHigh : Bool) : Keeps (finishImage s u recoveryHigh).2 s := by
  have hput (f : Firmware) (hf : flashOf f = flashOf s.fw ∨ flashOf f = flashOf (setFlash s.fw u.slotB s.fw.object)) : Keeps (updFw s fun _ => f) s := by
    refine updFw_keeps fun h => ?_
    rcases hf with hf | hf
    · rw [hf]
      exact h
    · rw [hf]
      exact setFlash_form _ h h.2.2.2.1
  have hback := readBack_flash (setFlash s.fw u.slotB s.fw.object)
  unfold finishImage
  dsimp only
  split
  · generalize readBack (setFlash s.fw u.slotB s.fw.object) = r at hback ⊢
    have hrec : flashOf (if r.1 then writeDir r.2 (recovered u) else r.2) = flashOf (setFlash s.fw u.slotB s.fw.object) := by
      rw [flashOf_ite, writeDir_flash, ite_self, hback]
    generalize (if r.1 then writeDir r.2 (recovered u) else r.2) = f at hrec ⊢
    split
    · exact (Keeps.ite (.refl _) (.of_books (bootRom_books ..))).trans (hput { f with update := none } (.inr hrec))
    · exact hput _ (.inr hrec)
  · have hdir := hput _ (.inl (writeDir_flash s.fw fun d => setDigest u.slotB u.digest (setSlot u.slotB .valid 0 d)))
    split
    · exact (Keeps.of_ledger (updSession_ledger ..)).trans hdir
    · exact hdir

theorem updFinishOp_keeps (s : State) (p : Path) (recoveryHigh : Bool) : Keeps (updFinishOp s p recoveryHigh).2 s := by
  unfold updFinishOp
  split
  · exact .refl s
  · next u _ =>
    split
    · exact .refl s
    · split
      · dsimp only
        split
        · exact finishImage_keeps ..
        · exact .refl s
      · exact finishDelta_keeps s u
      · exact .of_ledger (finishBoard_ledger s u)

theorem updAbortOp_keeps (s : State) (p : Path) : Keeps (updAbortOp s p).2 s := by
  unfold updAbortOp
  split
  · exact endUpdate_keeps s
  · exact .refl s

theorem libActivateOp_keeps (s : State) (p : Path) : Keeps (libActivateOp s p).2 s := by
  unfold libActivateOp
  split
  · next u _ =>
    have hdir : Keeps (updFw s fun _ => writeDir s.fw fun d => { d with libHalf := u.libHalf, libDigest := u.digest, libLen := u.libLen }) s :=
      .of_ledger (ledger_putFw _ _ (writeDir_flash ..))
    split
    · dsimp only
      split
      · exact (copyLibrary_keeps _).trans hdir
      · exact hdir
    · exact .refl s
  · exact .refl s

/-! ### Host-ready -/

theorem becomeReady_keeps (s : State) (linear : Bool) (ma mb : Nat) : Keeps (becomeReady s linear ma mb) s := by
  have hready (t : State) : Keeps (updFw t fun f => { f with ready := true }) t := .of_ledger (ledger_updFw _ _ fun _ => rfl)
  have hlog (t : State) : Keeps (boardLogged t) t := by
    unfold boardLogged
    split
    · exact .of_ledger (ledger_updFw _ _ fun _ => logAdd_flash ..)
    · exact .refl t
  have hplaced (t : State) : Keeps (loadSettings (placeQueues t)) t := .of_ledger ((loadSettings_ledger _).trans (placeQueues_ledger t))
  have hall : Keeps (updFw (copyLibrary (loadSettings (placeQueues (regulated s linear ma mb)))) fun f => { f with ready := true }) s :=
    (hready _).trans ((copyLibrary_keeps _).trans ((hplaced _).trans (Keeps.trans (t := boardLogged (applyBoard s ma mb)) (.of_ledger (updPwr_ledger ..))
      ((hlog _).trans (.of_books (applyBoard_books ..))))))
  exact .ite (.refl s) hall

end Sys2Proof.Machine
end

section
/-!
PROOFS. Every command completes, and keeps the queue behind it and the canonical form of the memories: one lemma for each command (O59, O60).
-/
namespace Sys2Proof.Machine

/-! ### What an instruction may do -/

@[simp] theorem doneKeeps_next (s t : State) : DoneKeeps s (.next t) ↔ ledger t = ledger s := Iff.rfl

@[simp] theorem doneKeeps_jump (s t : State) (a : Nat) : DoneKeeps s (.jump a t) ↔ ledger t = ledger s := Iff.rfl

@[simp] theorem doneKeeps_hold (s t : State) : DoneKeeps s (.hold t) ↔ ledger t = ledger s := Iff.rfl

@[simp] theorem doneKeeps_fault (s : State) (c : Cause) : DoneKeeps s (.fault c) ↔ True := Iff.rfl

@[simp] theorem doneKeeps_xlate (s : State) (wr : Bool) (va : Nat) (f : Xlate) : DoneKeeps s (.xlate wr va f) ↔ True := Iff.rfl

@[simp] theorem doneKeeps_ecc (s : State) (va : Nat) : DoneKeeps s (.ecc va) ↔ True := Iff.rfl

@[simp] theorem doneKeeps_leaveImm (s : State) : DoneKeeps s .leaveImm ↔ True := Iff.rfl

@[simp] theorem doneKeeps_ite (s : State) (c : Prop) [Decidable c] (d e : Done) : DoneKeeps s (if c then d else e) ↔ if c then DoneKeeps s d else DoneKeeps s e := by
  split <;> rfl

theorem accessed_keeps {s t : State} (h : Keeps t s) : Keeps (accessed s t) s := .ite (.refl s) h

theorem DoneKeeps.ite {s : State} {c : Prop} [Decidable c] {d e : Done} (hd : DoneKeeps s d) (he : DoneKeeps s e) : DoneKeeps s (if c then d else e) := by
  split
  · exact hd
  · exact he

@[simp] theorem checked_keeps {s : State} {ok : Bool} {d : Done} (h : DoneKeeps s d) : DoneKeeps s (checked ok d) := .ite h trivial

@[simp] theorem writeGr_keeps {s t : State} {n : Chan} {x : Ctx} {f : Fields} {r : Word} {flags : Context → Context} (h : ledger t = ledger s) :
    DoneKeeps s (writeGr t n x f r flags) := (updCtx_ledger ..).trans h

@[simp] theorem noObs_keeps {s t : State} {n : Chan} {x : Ctx} {d : Done} (h : DoneKeeps s d) : DoneKeeps s (noObs t n x d) := .ite trivial h

@[simp] theorem ownerOnly_keeps {s t : State} {n : Chan} {x : Ctx} {d : Done} (h : DoneKeeps s d) : DoneKeeps s (ownerOnly t n x d) :=
  noObs_keeps (.ite h trivial)

@[simp] theorem demandDone_keeps {s t : State} {d : Done} (ht : ledger t = ledger s) (h : DoneKeeps s d) : DoneKeeps s (demandDone t d) :=
  .ite ((wakeVigil_ledger ..).trans ht) h

@[simp] theorem relBranch_keeps {s t u : State} {n : Chan} {x : Ctx} {w : Word} (h : ledger u = ledger s) : DoneKeeps s (relBranch t n x w u) :=
  .ite trivial h

@[simp] theorem regBranch_keeps {s u : State} {n : Chan} {x : Ctx} {w : Word} (h : ledger u = ledger s) : DoneKeeps s (regBranch n x w u) :=
  (updGraver_ledger ..).trans h

@[simp] theorem jumpForm_keeps {s t u : State} {n : Chan} {x : Ctx} {k : Fields} (h : ledger u = ledger s) : DoneKeeps s (jumpForm t n x k u) :=
  .ite (relBranch_keeps h) (regBranch_keeps h)

@[simp] theorem armDemand_keeps {s t u : State} {n : Chan} {x : Ctx} {a : Word} (ht : ledger t = ledger s) (h : ledger u = ledger s) :
    DoneKeeps s (armDemand t n x a u) := by
  unfold armDemand
  split
  · exact .ite (demandDone_keeps ht h) h
  · exact h

theorem eccRead_keeps {s t : State} {n : Chan} {x : Ctx} {va : Nat} {ecc : EccResult} {d : State → Done} (ht : ledger t = ledger s)
    (h : ∀ u, ledger u = ledger s → DoneKeeps s (d u)) : DoneKeeps s (eccRead t n x va ecc d) :=
  .ite trivial (h _ ((eccMetAt_ledger ..).trans ((cacheXlate_ledger ..).trans ht)))

theorem withDesc_keeps {s t : State} {n : Chan} {x : Ctx} {a : Word} {ecc : EccResult} {d : Desc → State → Done} (ht : ledger t = ledger s)
    (h : ∀ g u, ledger u = ledger s → DoneKeeps s (d g u)) : DoneKeeps s (withDesc t n x a ecc d) := by
  unfold withDesc
  split
  · trivial
  · next r _ =>
    refine eccRead_keeps ht fun u hu => ?_
    cases r with
    | bad => trivial
    | good g => exact h g u hu

theorem demandMemory_keeps {s : State} {pa : Nat} {f : State → State} (h : Keeps (f s) s) : Keeps (demandMemory s pa f) s :=
  .ite (.of_ledger (wakeVigil_ledger ..)) h

theorem inSession_keeps {s : State} {k : Lane} {host : HostAddr} {session : Word} {f : State → State} (h : Keeps (f s) s) : Keeps (inSession s k host session f) s :=
  .ite (.refl s) (.ite h (.of_ledger (dropFrame_ledger s)))

theorem rdsValue_ledger {s : State} {n : Chan} {x : Ctx} {sel : Nat} {r : Word × State} (h : rdsValue s n x sel = some r) : ledger r.2 = ledger s := by
  unfold rdsValue at h
  dsimp only at h
  split at h
  case h_10 =>
    rw [← Option.some.inj h]
    exact snapLatest_ledger ..
  case h_17 => exact nomatch h
  all_goals
    rw [← Option.some.inj h]

theorem housekeep_keeps {s : State} {p : ErrPlace → Bool} {f : State → State} (h : ∀ u, Keeps (f u) u) : Keeps (housekeep s p f) s := by
  unfold housekeep
  split
  · exact .refl s
  · refine .ite (.refl s) ((h _).trans (.of_ledger ?_))
    exact (offerDevice_ledger ..).trans (ledger_updMm s _ fun _ => rfl)

theorem authorise_keeps (s : State) (path : Path) (t : Token) (op : Nat) (arg : List Byte) {f : State → Nat × State} (hf : ∀ u, ledger (f u).2 = ledger u) :
    Keeps (authorise s path t op arg f).2 s := .of_ledger (authorise_ledger s path t op arg f hf)

/-! ### KrytgerMeasure -/

theorem execMeasSmode_keeps (n : Chan) (k : Fields) (s : State) : ∃ t, execMeasSmode n k s = .next t ∧ Keeps t s := by
  refine ⟨_, rfl, .ite (.refl s) (.of_ledger (issue_ledger _ _ _ fun x t => ?_))⟩
  simp

theorem execMeasCount_keeps (n : Chan) (k : Fields) (s : State) :
    ∃ t, execMeasCount n k s = .next t ∧ Keeps t s := by
  refine ⟨_, rfl, .of_ledger ?_⟩
  rw [ledger_ite, issue_ledger _ _ _ fun x t => ?_, ite_self]
  dsimp only
  repeat' split
  all_goals simp

theorem execAper_keeps (n : Chan) (k : Fields) (s : State) :
    ∃ t, execAper n k s = .next t ∧ Keeps t s := by
  refine ⟨_, rfl, .of_ledger (issue_ledger _ _ _ fun x t => ?_)⟩
  simp

theorem execAutor_keeps (n : Chan) (k : Fields) (s : State) :
    ∃ t, execAutor n k s = .next t ∧ Keeps t s := by
  refine ⟨_, rfl, .of_ledger (issue_ledger _ _ _ fun x t => ?_)⟩
  simp

theorem execTag_keeps (n : Chan) (k : Fields) (s : State) :
    ∃ t, execTag n k s = .next t ∧ Keeps t s := by
  refine ⟨_, rfl, .of_ledger (issue_ledger _ _ _ fun x t => ?_)⟩
  simp

theorem execPktClose_keeps (n : Chan) (k : Fields) (s : State) : ∃ t, execPktClose n k s = .next t ∧ Keeps t s := by
  refine ⟨_, rfl, .ite (.refl s) (.of_ledger (issue_ledger _ _ _ fun x t => ?_))⟩
  simp

theorem execPktAge_keeps (n : Chan) (k : Fields) (s : State) :
    ∃ t, execPktAge n k s = .next t ∧ Keeps t s := by
  refine ⟨_, rfl, .of_ledger ?_⟩
  rw [ledger_ite, issue_ledger _ _ _ fun x t => ?_, ite_self]
  dsimp only
  all_goals simp

/-! ### KrytgerTime -/

theorem execWait_keeps (n : Chan) (k : Fields) (s : State) :
    ∃ t, execWait n k s = .next t ∧ Keeps t s := by
  refine ⟨_, rfl, .of_ledger (issue_ledger _ _ _ fun x t => ?_)⟩
  simp

theorem execWaitComplete_keeps (n : Chan) (x : Ctx) (s : State) :
    ∃ t, execWaitComplete n x s = .next t ∧ Keeps t s := by
  refine ⟨_, rfl, .of_ledger ?_⟩
  split
  all_goals simp

theorem execWaitt_keeps (n : Chan) (k : Fields) (s : State) :
    ∃ t, execWaitt n k s = .next t ∧ Keeps t s := by
  refine ⟨_, rfl, .of_ledger (issue_ledger _ _ _ fun x t => ?_)⟩
  simp

theorem execWaittRelease_keeps (n : Chan) (x : Ctx) (s : State) : ∃ t, execWaittRelease n x s = .next t ∧ Keeps t s := by
  refine ⟨_, rfl, ?_⟩
  split
  · split
    · next t ht => exact (Keeps.of_ledger (wake_ledger ..)).trans (.of_books (reach_books ht))
    · exact .refl s
  · exact .refl s

theorem execWaitev_keeps (n : Chan) (k : Fields) (s : State) :
    ∃ t, execWaitev n k s = .next t ∧ Keeps t s := by
  refine ⟨_, rfl, .of_ledger (issue_ledger _ _ _ fun x t => ?_)⟩
  dsimp only
  split
  all_goals simp

theorem execWaitevTimeout_keeps (n : Chan) (x : Ctx) (s : State) :
    ∃ t, execWaitevTimeout n x s = .next t ∧ Keeps t s := by
  refine ⟨_, rfl, .of_ledger ?_⟩
  split
  all_goals simp

theorem execEmit_keeps (n : Chan) (k : Fields) (s : State) :
    ∃ t, execEmit n k s = .next t ∧ Keeps t s := by
  refine ⟨_, rfl, .of_ledger (issue_ledger _ _ _ fun x t => ?_)⟩
  simp

theorem execArm_keeps (n : Chan) (k : Fields) (s : State) :
    ∃ t, execArm n k s = .next t ∧ Keeps t s := by
  refine ⟨_, rfl, .of_ledger (issue_ledger _ _ _ fun x t => ?_)⟩
  simp

theorem execBlankLength_keeps (n : Chan) (k : Fields) (s : State) : ∃ t, execBlankLength n k s = .next t ∧ Keeps t s := by
  refine ⟨_, rfl, .ite (.refl s) (.of_ledger (issue_ledger _ _ _ fun x t => ?_))⟩
  simp

theorem execBlank_keeps (n : Chan) (k : Fields) (s : State) :
    ∃ t, execBlank n k s = .next t ∧ Keeps t s := by
  refine ⟨_, rfl, .of_ledger ?_⟩
  rw [ledger_ite, issue_ledger _ _ _ fun x t => ?_, ite_self]
  dsimp only
  all_goals simp

theorem execSyncf_keeps (n : Chan) (k : Fields) (s : State) :
    ∃ t, execSyncf n k s = .next t ∧ Keeps t s := by
  refine ⟨_, rfl, .of_ledger (issue_ledger _ _ _ fun x t => ?_)⟩
  simp

theorem execMark_keeps (n : Chan) (k : Fields) (s : State) :
    ∃ t, execMark n k s = .next t ∧ Keeps t s := by
  refine ⟨_, rfl, .of_ledger (issue_ledger _ _ _ fun x t => ?_)⟩
  simp

/-! ### CalCommands -/

theorem execRunFull_keeps (p : Path) (n : Chan) (s : State) :
    ∃ t, execRunFull p n s = .next t ∧ Keeps t s := by
  refine ⟨_, rfl, .of_ledger ?_⟩
  simp

theorem execRunQuick_keeps (p : Path) (n : Chan) (s : State) :
    ∃ t, execRunQuick p n s = .next t ∧ Keeps t s := by
  refine ⟨_, rfl, .of_ledger ?_⟩
  simp

theorem execRelieve_keeps (p : Path) (n : Chan) (s : State) :
    ∃ t, execRelieve p n s = .next t ∧ Keeps t s := by
  refine ⟨_, rfl, .of_ledger ?_⟩
  simp

theorem execReturnDut_keeps (p : Path) (n : Chan) (s : State) :
    ∃ t, execReturnDut p n s = .next t ∧ Keeps t s := by
  refine ⟨_, rfl, .of_ledger ?_⟩
  simp

theorem execCalPrecheckEnd_keeps (n : Chan) (raws : List (Int × Int)) (s : State) :
    ∃ t, execCalPrecheckEnd n raws s = .next t ∧ Keeps t s := by
  refine ⟨_, rfl, .of_ledger ?_⟩
  simp

theorem execCalRunEnd_keeps (n : Chan) (e : RunEvent) (s : State) :
    ∃ t, execCalRunEnd n e s = .next t ∧ Keeps t s := by
  refine ⟨_, rfl, .of_ledger ?_⟩
  simp

theorem execReliefSwitchMade_keeps (b : Bank) (s : State) :
    ∃ t, execReliefSwitchMade b s = .next t ∧ Keeps t s := by
  refine ⟨_, rfl, .of_ledger ?_⟩
  simp

theorem execReliefRampEnd_keeps (b : Bank) (s : State) :
    ∃ t, execReliefRampEnd b s = .next t ∧ Keeps t s := by
  refine ⟨_, rfl, .of_ledger ?_⟩
  simp

theorem execReliefSwitchBroken_keeps (b : Bank) (s : State) :
    ∃ t, execReliefSwitchBroken b s = .next t ∧ Keeps t s := by
  refine ⟨_, rfl, .of_ledger ?_⟩
  simp

/-! ### FirmwareCommands -/

theorem execUpdOpen_keeps (h : Hdr) (kind : UpdKind) (slot : Bool) (digest : Digest) (token : Option Token) (s : State) :
    ∃ t, execUpdOpen h kind slot digest token s = .next t ∧ Keeps t s := ⟨_, rfl, hostCommand_keeps _ _ _ _ _ fun _ => updOpenOp_keeps ..⟩

theorem execUpdData_keeps (h : Hdr) (offset : Nat) (bytes : List Byte) (s : State) : ∃ t, execUpdData h offset bytes s = .next t ∧ Keeps t s :=
  ⟨_, rfl, sessionCommand_keeps _ _ _ _ _ fun _ => updDataOp_keeps ..⟩

theorem execUpdFinish_keeps (h : Hdr) (recoveryHigh : Bool) (s : State) : ∃ t, execUpdFinish h recoveryHigh s = .next t ∧ Keeps t s :=
  ⟨_, rfl, sessionCommand_keeps _ _ _ _ _ fun _ => updFinishOp_keeps ..⟩

theorem execUpdAbort_keeps (h : Hdr) (s : State) : ∃ t, execUpdAbort h s = .next t ∧ Keeps t s :=
  ⟨_, rfl, sessionCommand_keeps _ _ _ _ _ fun _ => updAbortOp_keeps ..⟩

theorem execUpdSessionTimeout_keeps (s : State) : ∃ t, execUpdSessionTimeout s = .next t ∧ Keeps t s := ⟨_, rfl, .ite (endUpdate_keeps s) (.refl s)⟩

theorem execFwActivate_keeps (h : Hdr) (s : State) :
    ∃ t, execFwActivate h s = .next t ∧ Keeps t s := by
  refine ⟨_, rfl, hostCommand_keeps _ _ _ _ _ fun t => .of_ledger ?_⟩
  simp

theorem execHandoverPreloadDone_keeps (s : State) :
    ∃ t, execHandoverPreloadDone s = .next t ∧ Keeps t s := by
  refine ⟨_, rfl, .of_ledger ?_⟩
  simp

theorem execHandoverImageStart_keeps (adopted : Bool) (s : State) :
    ∃ t, execHandoverImageStart adopted s = .next t ∧ Keeps t s := by
  refine ⟨_, rfl, .of_ledger ?_⟩
  simp

theorem execFwConfirm_keeps (h : Hdr) (s : State) :
    ∃ t, execFwConfirm h s = .next t ∧ Keeps t s := by
  refine ⟨_, rfl, hostCommand_keeps _ _ _ _ _ fun t => .of_ledger ?_⟩
  simp

theorem execTrialAutoconfirm_keeps (s : State) :
    ∃ t, execTrialAutoconfirm s = .next t ∧ Keeps t s := by
  refine ⟨_, rfl, .of_ledger ?_⟩
  simp

theorem execFwRestart_keeps (h : Hdr) (s : State) :
    ∃ t, execFwRestart h s = .next t ∧ Keeps t s := by
  refine ⟨_, rfl, hostCommand_keeps _ _ _ _ _ fun t => .of_ledger ?_⟩
  simp

theorem execLibActivate_keeps (h : Hdr) (s : State) : ∃ t, execLibActivate h s = .next t ∧ Keeps t s :=
  ⟨_, rfl, sessionCommand_keeps _ _ _ _ _ fun _ => libActivateOp_keeps ..⟩

theorem execSetSave_keeps (h : Hdr) (blob : List Byte) (s : State) :
    ∃ t, execSetSave h blob s = .next t ∧ Keeps t s := by
  refine ⟨_, rfl, hostCommand_keeps _ _ _ _ _ fun t => .of_ledger ?_⟩
  simp

theorem execSetDefaults_keeps (h : Hdr) (s : State) :
    ∃ t, execSetDefaults h s = .next t ∧ Keeps t s := by
  refine ⟨_, rfl, hostCommand_keeps _ _ _ _ _ fun t => .of_ledger ?_⟩
  simp

theorem execLogRead_keeps (h : Hdr) (first count : Nat) (s : State) :
    ∃ t, execLogRead h first count s = .next t ∧ Keeps t s := by
  refine ⟨_, rfl, hostCommand_keeps _ _ _ _ _ fun t => .of_ledger ?_⟩
  simp

/-! ### SampleWorld -/

theorem execSampleTick_keeps (s : State) :
    ∃ t, execSampleTick s = .next t ∧ Keeps t s := by
  refine ⟨_, rfl, .of_books ?_⟩
  simp

theorem execRailFall_keeps (n : Chan) (s : State) :
    ∃ t, execRailFall n s = .next t ∧ Keeps t s := by
  refine ⟨_, rfl, .of_ledger ?_⟩
  split
  all_goals simp

theorem execRawPairHandoff_keeps (n : Chan) (v i : BitVec 20) (vOut iOut clamping upper : Bool) (s : State) :
    ∃ t, execRawPairHandoff n v i vOut iOut clamping upper s = .next t ∧ Keeps t s := by
  refine ⟨_, rfl, .of_ledger ?_⟩
  split
  all_goals simp

theorem execAutorangeDown_keeps (n : Chan) (s : State) :
    ∃ t, execAutorangeDown n s = .next t ∧ Keeps t s := by
  refine ⟨_, rfl, .of_ledger ?_⟩
  simp

theorem execPacketAge_keeps (n : Chan) (s : State) :
    ∃ t, execPacketAge n s = .next t ∧ Keeps t s := by
  refine ⟨_, rfl, .of_ledger ?_⟩
  repeat' split
  all_goals simp

theorem execStabilityAlarm_keeps (n : Chan) (crossings : List Nat) (s : State) :
    ∃ t, execStabilityAlarm n crossings s = .next t ∧ Keeps t s := by
  refine ⟨_, rfl, .of_ledger ?_⟩
  simp

theorem execTrimStep_keeps (n : Chan) (s : State) :
    ∃ t, execTrimStep n s = .next t ∧ Keeps t s := by
  refine ⟨_, rfl, .of_ledger ?_⟩
  simp

theorem execLdidPerturbCount_keeps (n : Chan) (s : State) :
    ∃ t, execLdidPerturbCount n s = .next t ∧ Keeps t s := by
  refine ⟨_, rfl, .of_ledger ?_⟩
  simp

theorem execLdidFitDone_keeps (n : Chan) (s : State) : ∃ t, execLdidFitDone n s = .next t ∧ Keeps t s := by
  refine ⟨_, rfl, .of_ledger ?_⟩
  split
  · rfl
  · split
    · rfl
    · dsimp only
      split
      · rw [finishBusy_ledger, updCtx_ledger, updForce_ledger]
      · exact updForce_ledger ..

theorem execRangeSwitchMade_keeps (n : Chan) (s : State) : ∃ t, execRangeSwitchMade n s = .next t ∧ Keeps t s := by
  refine ⟨_, rfl, .ite (.refl s) (.of_ledger ?_)⟩
  split
  · rw [ledger_ite, updForce_ledger, ite_self]
  · rw [ledger_ite, updForce_ledger, cpsFor_ledger, ite_self]

theorem execRangeSwitchBroken_keeps (n : Chan) (s : State) :
    ∃ t, execRangeSwitchBroken n s = .next t ∧ Keeps t s := by
  refine ⟨_, rfl, .of_ledger ?_⟩
  split
  all_goals simp

theorem execBridgeSettleEnd_keeps (n : Chan) (s : State) :
    ∃ t, execBridgeSettleEnd n s = .next t ∧ Keeps t s := by
  refine ⟨_, rfl, .of_ledger ?_⟩
  split
  all_goals simp

theorem execLeaveInertTimeout_keeps (n : Chan) (s : State) :
    ∃ t, execLeaveInertTimeout n s = .next t ∧ Keeps t s := by
  refine ⟨_, rfl, .of_ledger ?_⟩
  simp

/-! ### ForcePath -/

theorem execRelayMakeDone_keeps (n : Chan) (made : Bool) (s : State) : ∃ t, execRelayMakeDone n made s = .next t ∧ Keeps t s := by
  refine ⟨_, rfl, .ite (.refl s) (.ite (.of_ledger (relayStuck_ledger ..)) (.of_ledger ?_))⟩
  dsimp only
  split
  · rw [handbackMade_ledger, updForce_ledger]
  · exact updForce_ledger ..

theorem execRelayBreakDone_keeps (n : Chan) (s : State) : ∃ t, execRelayBreakDone n s = .next t ∧ Keeps t s := by
  have hbroken (f : Force → Force) (c : Prop) [Decidable c] :
      ledger (if c then beginParking (updForce s n f) n else updForce s n f) = ledger s := by
    rw [ledger_ite, beginParking_ledger, updForce_ledger, ite_self]
  refine ⟨_, rfl, .ite (.refl s) (.of_ledger ?_)⟩
  dsimp only
  split
  · rw [setRelief_ledger, requestInert_ledger, updFirmware_ledger, hbroken]
  · exact hbroken ..

theorem execSafeStateRampEnd_keeps (n : Chan) (s : State) :
    ∃ t, execSafeStateRampEnd n s = .next t ∧ Keeps t s := by
  refine ⟨_, rfl, .of_ledger ?_⟩
  split
  all_goals simp

theorem execFltAssert_keeps (n : Chan) (s : State) :
    ∃ t, execFltAssert n s = .next t ∧ Keeps t s := by
  refine ⟨_, rfl, .of_ledger ?_⟩
  simp

theorem execCoreHandshakeLoss_keeps (b : Bank) (s : State) :
    ∃ t, execCoreHandshakeLoss b s = .next t ∧ Keeps t s := by
  refine ⟨_, rfl, .of_ledger ?_⟩
  simp

theorem execFltLatchClear_keeps (_p : Path) (n : Chan) (fltHigh : Bool) (s : State) :
    ∃ t, execFltLatchClear _p n fltHigh s = .next t ∧ Keeps t s := by
  refine ⟨_, rfl, .of_ledger (accessed_ledger _ _ ?_)⟩
  simp

theorem execDisable_keeps (_p : Path) (n : Chan) (s : State) :
    ∃ t, execDisable _p n s = .next t ∧ Keeps t s := by
  refine ⟨_, rfl, .of_ledger (accessed_ledger _ _ ?_)⟩
  simp

theorem execBankSupplyValid_keeps (b : Bank) (s : State) :
    ∃ t, execBankSupplyValid b s = .next t ∧ Keeps t s := by
  refine ⟨_, rfl, .of_ledger ?_⟩
  simp

theorem execBankDieUp_keeps (b : Bank) (s : State) :
    ∃ t, execBankDieUp b s = .next t ∧ Keeps t s := by
  refine ⟨_, rfl, .of_ledger ?_⟩
  simp

theorem execBankSupplyFail_keeps (b : Bank) (s : State) :
    ∃ t, execBankSupplyFail b s = .next t ∧ Keeps t s := by
  refine ⟨_, rfl, .of_ledger ?_⟩
  simp

theorem execCpsFrame_keeps (b : Bank) (s : State) :
    ∃ t, execCpsFrame b s = .next t ∧ Keeps t s := by
  refine ⟨_, rfl, .of_ledger ?_⟩
  simp

theorem execCpsResponse_keeps (b : Bank) (w : Word) (s : State) :
    ∃ t, execCpsResponse b w s = .next t ∧ Keeps t s := by
  refine ⟨_, rfl, .of_ledger ?_⟩
  simp

theorem execCpsLinkRestartRound_keeps (b : Bank) (s : State) :
    ∃ t, execCpsLinkRestartRound b s = .next t ∧ Keeps t s := by
  refine ⟨_, rfl, .of_ledger ?_⟩
  simp

/-! ### FrameCommands -/

theorem execFramesEnable_keeps (_p : Path) (v : Word) (s : State) :
    ∃ t, execFramesEnable _p v s = .next t ∧ Keeps t s := by
  refine ⟨_, rfl, .of_ledger (accessed_ledger _ _ ?_)⟩
  simp

theorem execFramesDisable_keeps (_p : Path) (v : Word) (s : State) :
    ∃ t, execFramesDisable _p v s = .next t ∧ Keeps t s := by
  refine ⟨_, rfl, .of_ledger (accessed_ledger _ _ ?_)⟩
  simp

theorem execSnap_keeps (_p : Path) (v : Word) (s : State) :
    ∃ t, execSnap _p v s = .next t ∧ Keeps t s := by
  refine ⟨_, rfl, .of_ledger (accessed_ledger _ _ ?_)⟩
  simp

theorem execFrameBoundary_keeps (s : State) :
    ∃ t, execFrameBoundary s = .next t ∧ Keeps t s := by
  refine ⟨_, rfl, .of_books ?_⟩
  simp

theorem execHatchStart_keeps (_p : Path) (s : State) :
    ∃ t, execHatchStart _p s = .next t ∧ Keeps t s := by
  refine ⟨_, rfl, .of_ledger (accessed_ledger _ _ ?_)⟩
  simp

theorem execHatchStop_keeps (_p : Path) (s : State) :
    ∃ t, execHatchStop _p s = .next t ∧ Keeps t s := by
  refine ⟨_, rfl, .of_ledger (accessed_ledger _ _ ?_)⟩
  simp

theorem execHatchUnitCfgWrite_keeps (p : Path) (base : Bool) (v : Word) (s : State) :
    ∃ t, execHatchUnitCfgWrite p base v s = .next t ∧ Keeps t s := by
  refine ⟨_, rfl, .of_ledger (accessed_ledger _ _ ?_)⟩
  repeat' split
  all_goals simp

theorem execCollStatClr_keeps (_p : Path) (s : State) :
    ∃ t, execCollStatClr _p s = .next t ∧ Keeps t s := by
  refine ⟨_, rfl, .of_ledger (accessed_ledger _ _ ?_)⟩
  simp

theorem execDeviceUnitReady_keeps (s : State) :
    ∃ t, execDeviceUnitReady s = .next t ∧ Keeps t s := by
  refine ⟨_, rfl, .of_ledger ?_⟩
  simp

theorem execCollectorSlotStore_keeps (slot : Fin 76) (s : State) :
    ∃ t, execCollectorSlotStore slot s = .next t ∧ Keeps t s := by
  refine ⟨_, rfl, .of_ledger ?_⟩
  simp

theorem execCollectorTimeout_keeps (s : State) :
    ∃ t, execCollectorTimeout s = .next t ∧ Keeps t s := by
  refine ⟨_, rfl, .of_ledger ?_⟩
  simp

theorem execFrameEmit_keeps (s : State) :
    ∃ t, execFrameEmit s = .next t ∧ Keeps t s := by
  refine ⟨_, rfl, .of_ledger ?_⟩
  simp

/-! ### GraverCommands -/

theorem execGvStart_keeps (_p : Path) (n : Chan) (v : Word) (s : State) :
    ∃ t, execGvStart _p n v s = .next t ∧ Keeps t s := by
  refine ⟨_, rfl, .of_ledger (accessed_ledger _ _ ?_)⟩
  simp

theorem execGvHalt_keeps (_p : Path) (n : Chan) (v : Word) (s : State) :
    ∃ t, execGvHalt _p n v s = .next t ∧ Keeps t s := by
  refine ⟨_, rfl, .of_ledger (accessed_ledger _ _ ?_)⟩
  simp

theorem execGo_keeps (_p : Path) (n : Chan) (v : Word) (s : State) :
    ∃ t, execGo _p n v s = .next t ∧ Keeps t s := by
  refine ⟨_, rfl, .of_ledger (accessed_ledger _ _ ?_)⟩
  simp

theorem execClearImm_keeps (_p : Path) (n : Chan) (v : Word) (s : State) :
    ∃ t, execClearImm _p n v s = .next t ∧ Keeps t s := by
  refine ⟨_, rfl, .of_ledger (accessed_ledger _ _ ?_)⟩
  simp

theorem execGvImmWrite_keeps (_p : Path) (n : Chan) (v : Word) (s : State) :
    ∃ t, execGvImmWrite _p n v s = .next t ∧ Keeps t s := by
  refine ⟨_, rfl, .of_ledger (accessed_ledger _ _ ?_)⟩
  simp

/-! ### HhtCommands -/

theorem execFwCmdWrWrite_keeps (p : Path) (v : Word) (s : State) : ∃ t, execFwCmdWrWrite p v s = .next t ∧ Keeps t s :=
  ⟨_, rfl, .ite (cmdWrWrite_keeps ..) (.refl s)⟩

theorem execFwRspRdWrite_keeps (p : Path) (v : Word) (s : State) : ∃ t, execFwRspRdWrite p v s = .next t ∧ Keeps t s :=
  ⟨_, rfl, .ite (rspRdWrite_keeps ..) (.refl s)⟩

theorem execHhtOpen_keeps (k : Lane) (host : HostAddr) (s : State) :
    ∃ t, execHhtOpen k host s = .next t ∧ Keeps t s := by
  refine ⟨_, rfl, .of_ledger ?_⟩
  simp

theorem execHhtClose_keeps (k : Lane) (host : HostAddr) (session : Word) (s : State) :
    ∃ t, execHhtClose k host session s = .next t ∧ Keeps t s := by
  refine ⟨_, rfl, .of_ledger ?_⟩
  simp

theorem execHhtKeepalive_keeps (k : Lane) (host : HostAddr) (session : Word) (s : State) :
    ∃ t, execHhtKeepalive k host session s = .next t ∧ Keeps t s := by
  refine ⟨_, rfl, .of_ledger ?_⟩
  simp

theorem execHhtCmd_keeps (k : Lane) (host : HostAddr) (session : Word) (offset : Nat) (bytes : List Byte) (s : State) :
    ∃ t, execHhtCmd k host session offset bytes s = .next t ∧ Keeps t s := ⟨_, rfl, inSession_keeps (hhtBytes_keeps ..)⟩

theorem execHhtRspack_keeps (k : Lane) (host : HostAddr) (session : Word) (offset : Nat) (s : State) :
    ∃ t, execHhtRspack k host session offset s = .next t ∧ Keeps t s := ⟨_, rfl, inSession_keeps (hhtRspAck_keeps ..)⟩

theorem execHhtDack_keeps (k : Lane) (host : HostAddr) (session : Word) (stream : Fin 9) (offset : Nat) (s : State) :
    ∃ t, execHhtDack k host session stream offset s = .next t ∧ Keeps t s := by
  refine ⟨_, rfl, .of_ledger ?_⟩
  simp

theorem execHhtDnak_keeps (k : Lane) (host : HostAddr) (session : Word) (stream : Fin 9) (offset : Nat) (s : State) :
    ∃ t, execHhtDnak k host session stream offset s = .next t ∧ Keeps t s := by
  refine ⟨_, rfl, .of_ledger ?_⟩
  simp

theorem execHhtDataSend_keeps (stream : Fin 9) (ecc : EccResult) (s : State) :
    ∃ t, execHhtDataSend stream ecc s = .next t ∧ Keeps t s := by
  refine ⟨_, rfl, .of_ledger ?_⟩
  simp

theorem execHhtSessionTimeout_keeps (s : State) :
    ∃ t, execHhtSessionTimeout s = .next t ∧ Keeps t s := by
  refine ⟨_, rfl, .of_ledger ?_⟩
  simp

theorem execHhtRspResend_keeps (s : State) :
    ∃ t, execHhtRspResend s = .next t ∧ Keeps t s := by
  refine ⟨_, rfl, .of_ledger ?_⟩
  simp

theorem execHhtDataResend_keeps (stream : Fin 9) (s : State) :
    ∃ t, execHhtDataResend stream s = .next t ∧ Keeps t s := by
  refine ⟨_, rfl, .of_ledger ?_⟩
  simp

theorem execHhtEventRepeat_keeps (s : State) :
    ∃ t, execHhtEventRepeat s = .next t ∧ Keeps t s := by
  refine ⟨_, rfl, .of_ledger ?_⟩
  simp

theorem execPtpEventMessage_keeps (k : Lane) (kind : PtpKind) (sent : Bool) (tick : Nat) (domain : Byte) (time : Nat) (s : State) :
    ∃ t, execPtpEventMessage k kind sent tick domain time s = .next t ∧ Keeps t s := by
  refine ⟨_, rfl, .of_ledger ?_⟩
  simp

theorem execPtpMappingUpdate_keeps (tracked16s agree1us lost1000s : Bool) (s : State) :
    ∃ t, execPtpMappingUpdate tracked16s agree1us lost1000s s = .next t ∧ Keeps t s := by
  refine ⟨_, rfl, .of_ledger ?_⟩
  simp

/-! ### MemoryCommands -/

theorem execPatrolScrub_keeps (p : ErrPlace) (q : Option (Fin 256)) (cured : Bool) (found : EccResult) (s : State) :
    ∃ t, execPatrolScrub p q cured found s = .next t ∧ Keeps t s := by
  refine ⟨_, rfl, .of_ledger ?_⟩
  repeat' split
  all_goals simp

theorem execSramRowRepair_keeps (ram : Fin 384) (s : State) :
    ∃ t, execSramRowRepair ram s = .next t ∧ Keeps t s := by
  refine ⟨_, rfl, .of_ledger ?_⟩
  simp

theorem execPageRetire_keeps (pa : Nat) (s : State) : ∃ t, execPageRetire pa s = .next t ∧ Keeps t s :=
  ⟨_, rfl, demandMemory_keeps (housekeep_keeps fun _ => retirePage_keeps ..)⟩

theorem execDemandFaultResolved_keeps (s : State) : ∃ t, execDemandFaultResolved s = .next t ∧ Keeps t s := ⟨_, rfl, .ite (.refl s) (resolveDemand_keeps s)⟩

theorem execMmuFlogPop_keeps (p : Path) (s : State) :
    ∃ t, execMmuFlogPop p s = .next t ∧ Keeps t s := by
  refine ⟨_, rfl, .of_ledger (accessedRead_ledger _ _ _ ?_)⟩
  simp

/-! ### HostCommands -/

theorem execEcho_keeps (h : Hdr) (bytes : List Byte) (s : State) :
    ∃ t, execEcho h bytes s = .next t ∧ Keeps t s := by
  refine ⟨_, rfl, hostCommand_keeps _ _ _ _ _ fun t => .of_ledger ?_⟩
  simp

theorem execAsidCreate_keeps (h : Hdr) (asid : Nat) (s : State) :
    ∃ t, execAsidCreate h asid s = .next t ∧ Keeps t s := by
  refine ⟨_, rfl, hostCommand_keeps _ _ _ _ _ fun t => .of_ledger ?_⟩
  simp

theorem execAsidDestroy_keeps (h : Hdr) (asid : Nat) (s : State) :
    ∃ t, execAsidDestroy h asid s = .next t ∧ Keeps t s := by
  refine ⟨_, rfl, hostCommand_keeps _ _ _ _ _ fun t => .of_ledger ?_⟩
  simp

theorem execMap_keeps (h : Hdr) (asid : Nat) (flags : Word) (va pa len : Nat) (s : State) :
    ∃ t, execMap h asid flags va pa len s = .next t ∧ Keeps t s := by
  refine ⟨_, rfl, hostCommand_keeps _ _ _ _ _ fun t => .of_ledger ?_⟩
  simp

theorem execMapDz_keeps (h : Hdr) (asid : Nat) (flags : Word) (va len : Nat) (s : State) :
    ∃ t, execMapDz h asid flags va len s = .next t ∧ Keeps t s := by
  refine ⟨_, rfl, hostCommand_keeps _ _ _ _ _ fun t => .of_ledger ?_⟩
  simp

theorem execUnmap_keeps (h : Hdr) (asid va len : Nat) (s : State) :
    ∃ t, execUnmap h asid va len s = .next t ∧ Keeps t s := by
  refine ⟨_, rfl, hostCommand_keeps _ _ _ _ _ fun t => .of_ledger ?_⟩
  simp

theorem execProtect_keeps (h : Hdr) (asid : Nat) (flags : Word) (va len : Nat) (s : State) :
    ∃ t, execProtect h asid flags va len s = .next t ∧ Keeps t s := by
  refine ⟨_, rfl, hostCommand_keeps _ _ _ _ _ fun t => .of_ledger ?_⟩
  simp

theorem execPoolAdd_keeps (h : Hdr) (pa pages : Nat) (s : State) :
    ∃ t, execPoolAdd h pa pages s = .next t ∧ Keeps t s := by
  refine ⟨_, rfl, hostCommand_keeps _ _ _ _ _ fun t => .of_ledger ?_⟩
  simp

theorem execCacheInv_keeps (h : Hdr) (asid va len : Nat) (s : State) :
    ∃ t, execCacheInv h asid va len s = .next t ∧ Keeps t s := by
  refine ⟨_, rfl, hostCommand_keeps _ _ _ _ _ fun t => .of_ledger ?_⟩
  simp

theorem execResume_keeps (h : Hdr) (n : Chan) (x : Ctx) (action : ResumeAction) (s : State) :
    ∃ t, execResume h n x action s = .next t ∧ Keeps t s := by
  refine ⟨_, rfl, hostCommand_keeps _ _ _ _ _ fun t => .of_ledger ?_⟩
  simp

theorem execInvalidationComplete_keeps (s : State) : ∃ t, execInvalidationComplete s = .next t ∧ Keeps t s := ⟨_, rfl, invalidated_keeps s⟩

/-! ### KrytgerControl -/

theorem execNop_keeps (n : Chan) (k : Fields) (s : State) :
    ∃ t, execNop n k s = .next t ∧ Keeps t s := by
  refine ⟨_, rfl, .of_ledger (issue_ledger _ _ _ fun x t => ?_)⟩
  simp

theorem execHalt_keeps (n : Chan) (k : Fields) (s : State) :
    ∃ t, execHalt n k s = .next t ∧ Keeps t s := by
  refine ⟨_, rfl, .of_ledger (issue_ledger _ _ _ fun x t => ?_)⟩
  simp

theorem execJmp_keeps (n : Chan) (k : Fields) (s : State) :
    ∃ t, execJmp n k s = .next t ∧ Keeps t s := by
  refine ⟨_, rfl, .of_ledger (issue_ledger _ _ _ fun x t => ?_)⟩
  simp

theorem execJcc_keeps (n : Chan) (k : Fields) (s : State) :
    ∃ t, execJcc n k s = .next t ∧ Keeps t s := by
  refine ⟨_, rfl, .of_ledger (issue_ledger _ _ _ fun x t => ?_)⟩
  repeat' split
  all_goals simp

theorem execCall_keeps (n : Chan) (k : Fields) (s : State) :
    ∃ t, execCall n k s = .next t ∧ Keeps t s := by
  refine ⟨_, rfl, .of_ledger (issue_ledger _ _ _ fun x t => ?_)⟩
  simp

theorem execRet_keeps (n : Chan) (k : Fields) (s : State) : ∃ t, execRet n k s = .next t ∧ Keeps t s :=
  ⟨_, rfl, .of_ledger (issue_ledger _ _ _ fun _ _ => checked_keeps (.ite trivial rfl))⟩

theorem execLoop_keeps (n : Chan) (k : Fields) (s : State) :
    ∃ t, execLoop n k s = .next t ∧ Keeps t s := by
  refine ⟨_, rfl, .of_ledger (issue_ledger _ _ _ fun x t => ?_)⟩
  simp

theorem execEndl_keeps (n : Chan) (k : Fields) (s : State) : ∃ t, execEndl n k s = .next t ∧ Keeps t s :=
  ⟨_, rfl, .of_ledger (issue_ledger _ _ _ fun _ _ => checked_keeps (.ite (updCtx_ledger ..) (updCtx_ledger ..)))⟩

theorem execYield_keeps (n : Chan) (k : Fields) (s : State) :
    ∃ t, execYield n k s = .next t ∧ Keeps t s := by
  refine ⟨_, rfl, .of_ledger (issue_ledger _ _ _ fun x t => ?_)⟩
  simp

theorem execFence_keeps (n : Chan) (k : Fields) (s : State) :
    ∃ t, execFence n k s = .next t ∧ Keeps t s := by
  refine ⟨_, rfl, .of_ledger (issue_ledger _ _ _ fun x t => ?_)⟩
  simp

theorem execFenceComplete_keeps (n : Chan) (x : Ctx) (s : State) :
    ∃ t, execFenceComplete n x s = .next t ∧ Keeps t s := by
  refine ⟨_, rfl, .of_ledger ?_⟩
  split
  all_goals simp

theorem execTrap_keeps (n : Chan) (k : Fields) (s : State) :
    ∃ t, execTrap n k s = .next t ∧ Keeps t s := by
  refine ⟨_, rfl, .of_ledger (issue_ledger _ _ _ fun x t => ?_)⟩
  simp

theorem execIllegalOpcode_keeps (n : Chan) (opcode : BitVec 6) (k : Fields) (s : State) : ∃ t, execIllegalOpcode n opcode k s = .next t ∧ Keeps t s :=
  ⟨_, rfl, .ite (.of_ledger (issue_ledger _ _ _ fun _ _ => trivial)) (.refl s)⟩

/-! ### KrytgerInteger -/

theorem execMov_keeps (n : Chan) (k : Fields) (s : State) :
    ∃ t, execMov n k s = .next t ∧ Keeps t s := by
  refine ⟨_, rfl, .of_ledger (issue_ledger _ _ _ fun x t => ?_)⟩
  simp

theorem execLdi_keeps (n : Chan) (k : Fields) (s : State) :
    ∃ t, execLdi n k s = .next t ∧ Keeps t s := by
  refine ⟨_, rfl, .of_ledger (issue_ledger _ _ _ fun x t => ?_)⟩
  simp

theorem execLdx_keeps (n : Chan) (k : Fields) (s : State) :
    ∃ t, execLdx n k s = .next t ∧ Keeps t s := by
  refine ⟨_, rfl, .of_ledger (issue_ledger _ _ _ fun x t => ?_)⟩
  simp

theorem execAdd_keeps (n : Chan) (k : Fields) (s : State) :
    ∃ t, execAdd n k s = .next t ∧ Keeps t s := by
  refine ⟨_, rfl, .of_ledger ?_⟩
  simp

theorem execSub_keeps (n : Chan) (k : Fields) (s : State) :
    ∃ t, execSub n k s = .next t ∧ Keeps t s := by
  refine ⟨_, rfl, .of_ledger ?_⟩
  simp

theorem execMul_keeps (n : Chan) (k : Fields) (s : State) :
    ∃ t, execMul n k s = .next t ∧ Keeps t s := by
  refine ⟨_, rfl, .of_ledger ?_⟩
  simp

theorem execMac_keeps (n : Chan) (k : Fields) (s : State) :
    ∃ t, execMac n k s = .next t ∧ Keeps t s := by
  refine ⟨_, rfl, .of_ledger ?_⟩
  simp

theorem execAnd_keeps (n : Chan) (k : Fields) (s : State) :
    ∃ t, execAnd n k s = .next t ∧ Keeps t s := by
  refine ⟨_, rfl, .of_ledger ?_⟩
  simp

theorem execOr_keeps (n : Chan) (k : Fields) (s : State) :
    ∃ t, execOr n k s = .next t ∧ Keeps t s := by
  refine ⟨_, rfl, .of_ledger ?_⟩
  simp

theorem execXor_keeps (n : Chan) (k : Fields) (s : State) :
    ∃ t, execXor n k s = .next t ∧ Keeps t s := by
  refine ⟨_, rfl, .of_ledger ?_⟩
  simp

theorem execShl_keeps (n : Chan) (k : Fields) (s : State) :
    ∃ t, execShl n k s = .next t ∧ Keeps t s := by
  refine ⟨_, rfl, .of_ledger ?_⟩
  simp

theorem execShr_keeps (n : Chan) (k : Fields) (s : State) :
    ∃ t, execShr n k s = .next t ∧ Keeps t s := by
  refine ⟨_, rfl, .of_ledger ?_⟩
  simp

theorem execAsr_keeps (n : Chan) (k : Fields) (s : State) :
    ∃ t, execAsr n k s = .next t ∧ Keeps t s := by
  refine ⟨_, rfl, .of_ledger ?_⟩
  simp

theorem execCmp_keeps (n : Chan) (k : Fields) (s : State) :
    ∃ t, execCmp n k s = .next t ∧ Keeps t s := by
  refine ⟨_, rfl, .of_ledger (issue_ledger _ _ _ fun x t => ?_)⟩
  dsimp only
  split
  all_goals simp

theorem execSat_keeps (n : Chan) (k : Fields) (s : State) :
    ∃ t, execSat n k s = .next t ∧ Keeps t s := by
  refine ⟨_, rfl, .of_ledger (issue_ledger _ _ _ fun x t => ?_)⟩
  simp

theorem execAbs_keeps (n : Chan) (k : Fields) (s : State) :
    ∃ t, execAbs n k s = .next t ∧ Keeps t s := by
  refine ⟨_, rfl, .of_ledger (issue_ledger _ _ _ fun x t => ?_)⟩
  simp

theorem execLd_keeps (n : Chan) (k : Fields) (s : State) :
    ∃ t, execLd n k s = .next t ∧ Keeps t s := by
  refine ⟨_, rfl, .of_ledger (issue_ledger _ _ _ fun x t => ?_)⟩
  dsimp only
  repeat' split
  all_goals simp

theorem execLdDataReturn_keeps (n : Chan) (ecc : EccResult) (s : State) :
    ∃ t, execLdDataReturn n ecc s = .next t ∧ Keeps t s := by
  refine ⟨_, rfl, .of_ledger ?_⟩
  split
  all_goals simp

theorem execSt_keeps (n : Chan) (k : Fields) (s : State) :
    ∃ t, execSt n k s = .next t ∧ Keeps t s := by
  refine ⟨_, rfl, .of_ledger (issue_ledger _ _ _ fun x t => ?_)⟩
  dsimp only
  repeat' split
  all_goals simp

theorem execStVisible_keeps (n : Chan) (x : Ctx) (s : State) : ∃ t, execStVisible n x s = .next t ∧ Keeps t s := by
  refine ⟨_, rfl, ?_⟩
  split
  · exact .refl s
  · exact demandMemory_keeps (landStore_keeps ..)

theorem execProgramCacheFill_keeps (n : Chan) (victim : Nat) (ecc : EccResult) (s : State) : ∃ t, execProgramCacheFill n victim ecc s = .next t ∧ Keeps t s := by
  refine ⟨_, rfl, .of_ledger ?_⟩
  split
  · dsimp only
    split
    · split
      · refine demandMemory_ledger _ _ _ fun t => ?_
        split
        · rw [haltIfAsked_ledger, suspendXlate_ledger, eccMet_ledger, cacheXlate_ledger]
        · rw [settle_ledger, updGraver_ledger, updBank_ledger, eccMet_ledger, cacheXlate_ledger]
      · rw [haltIfAsked_ledger, suspendXlate_ledger]
    · rw [settle_ledger, updGraver_ledger]
  · rfl

/-! ### KrytgerOutput -/

theorem execMode_keeps (n : Chan) (k : Fields) (s : State) :
    ∃ t, execMode n k s = .next t ∧ Keeps t s := by
  refine ⟨_, rfl, .of_ledger (issue_ledger _ _ _ fun x t => ?_)⟩
  simp

theorem execRange_keeps (n : Chan) (k : Fields) (s : State) :
    ∃ t, execRange n k s = .next t ∧ Keeps t s := by
  refine ⟨_, rfl, .of_ledger (issue_ledger _ _ _ fun x t => ?_)⟩
  simp

theorem execLevel_keeps (n : Chan) (k : Fields) (s : State) :
    ∃ t, execLevel n k s = .next t ∧ Keeps t s := by
  refine ⟨_, rfl, .of_ledger (issue_ledger _ _ _ fun x t => ?_)⟩
  simp

theorem execStrobeSelect_keeps (n : Chan) (k : Fields) (s : State) :
    ∃ t, execStrobeSelect n k s = .next t ∧ Keeps t s := by
  refine ⟨_, rfl, .of_ledger ?_⟩
  rw [ledger_ite, issue_ledger _ _ _ fun x t => ?_, ite_self]
  dsimp only
  all_goals simp

theorem execStrobeFire_keeps (n : Chan) (k : Fields) (s : State) :
    ∃ t, execStrobeFire n k s = .next t ∧ Keeps t s := by
  refine ⟨_, rfl, .of_ledger ?_⟩
  rw [ledger_ite, issue_ledger _ _ _ fun x t => ?_, ite_self]
  dsimp only
  repeat' split
  all_goals simp

theorem execClamp_keeps (n : Chan) (k : Fields) (s : State) :
    ∃ t, execClamp n k s = .next t ∧ Keeps t s := by
  refine ⟨_, rfl, .of_ledger (issue_ledger _ _ _ fun x t => ?_)⟩
  simp

theorem execSlew_keeps (n : Chan) (k : Fields) (s : State) :
    ∃ t, execSlew n k s = .next t ∧ Keeps t s := by
  refine ⟨_, rfl, .of_ledger (issue_ledger _ _ _ fun x t => ?_)⟩
  simp

theorem execRamp_keeps (n : Chan) (k : Fields) (s : State) :
    ∃ t, execRamp n k s = .next t ∧ Keeps t s := by
  refine ⟨_, rfl, .of_ledger (issue_ledger _ _ _ fun x t => ?_)⟩
  simp

theorem execComps_keeps (n : Chan) (k : Fields) (s : State) :
    ∃ t, execComps n k s = .next t ∧ Keeps t s := by
  refine ⟨_, rfl, .of_ledger (issue_ledger _ _ _ fun x t => ?_)⟩
  simp

theorem execConnect_keeps (n : Chan) (k : Fields) (s : State) : ∃ t, execConnect n k s = .next t ∧ Keeps t s :=
  ⟨_, rfl, .ite (.refl s) (.of_ledger (issue_ledger _ _ _ fun _ _ => checked_keeps (ownerOnly_keeps (updForce_ledger ..))))⟩

theorem execIsolate_keeps (n : Chan) (k : Fields) (s : State) : ∃ t, execIsolate n k s = .next t ∧ Keeps t s :=
  ⟨_, rfl, .ite (.refl s) (.of_ledger (issue_ledger _ _ _ fun _ _ => checked_keeps (ownerOnly_keeps (updForce_ledger ..))))⟩

/-! ### KrytgerSequence -/

theorem execPlay_keeps (n : Chan) (k : Fields) (ecc : EccResult) (s : State) : ∃ t, execPlay n k ecc s = .next t ∧ Keeps t s :=
  ⟨_, rfl, .of_ledger (issue_ledger _ _ _ fun _ _ => checked_keeps (noObs_keeps (demandDone_keeps rfl
    (withDesc_keeps rfl fun _ _ hu => (updGraver_ledger ..).trans hu))))⟩

theorem execPlayFillComplete_keeps (n : Chan) (ecc : EccResult) (s : State) :
    ∃ t, execPlayFillComplete n ecc s = .next t ∧ Keeps t s := by
  refine ⟨_, rfl, .of_ledger ?_⟩
  split
  all_goals simp

theorem execArmj_keeps (n : Chan) (k : Fields) (ecc : EccResult) (s : State) : ∃ t, execArmj n k ecc s = .next t ∧ Keeps t s :=
  ⟨_, rfl, .of_ledger (issue_ledger _ _ _ fun _ _ => checked_keeps (noObs_keeps
    (withDesc_keeps rfl fun _ _ hu => armDemand_keeps hu ((updCtx_ledger ..).trans hu))))⟩

theorem execJumpHeadCopyDone_keeps (n : Chan) (x : Ctx) (ecc : EccResult) (s : State) :
    ∃ t, execJumpHeadCopyDone n x ecc s = .next t ∧ Keeps t s := by
  refine ⟨_, rfl, .of_ledger ?_⟩
  split
  all_goals simp

theorem execJseg_keeps (n : Chan) (k : Fields) (ecc : EccResult) (s : State) : ∃ t, execJseg n k ecc s = .next t ∧ Keeps t s := by
  refine ⟨_, rfl, .of_ledger (issue_ledger _ _ _ fun _ _ => checked_keeps (noObs_keeps (demandDone_keeps rfl (.ite (recordJump_ledger ..) ?_))))⟩
  split
  · rfl
  · exact withDesc_keeps rfl fun _ _ hu => (startArmed_ledger ..).trans hu

theorem execSweep_keeps (n : Chan) (k : Fields) (ecc : EccResult) (s : State) : ∃ t, execSweep n k ecc s = .next t ∧ Keeps t s := by
  refine ⟨_, rfl, .of_ledger (issue_ledger _ _ _ fun _ _ => checked_keeps (noObs_keeps (demandDone_keeps rfl (.ite (updCtx_ledger ..) (.ite ?_ ?_)))))⟩
  · split
    · trivial
    · exact (acceptSupplier_ledger ..).trans (updGraver_ledger ..)
  · split
    · refine eccRead_keeps rfl fun u hu => ?_
      split
      · trivial
      · exact (updGraver_ledger ..).trans hu
    · trivial

theorem execSweepFillComplete_keeps (n : Chan) (ecc : EccResult) (s : State) :
    ∃ t, execSweepFillComplete n ecc s = .next t ∧ Keeps t s := by
  refine ⟨_, rfl, .of_ledger ?_⟩
  split
  all_goals simp

theorem execSweepEntryStart_keeps (n : Chan) (clamping : Bool) (s : State) : ∃ t, execSweepEntryStart n clamping s = .next t ∧ Keeps t s := by
  refine ⟨_, rfl, .of_ledger ?_⟩
  split
  · dsimp only
    split
    · split
      · rfl
      · split
        · exact setSupplier_ledger ..
        · rfl
    · rfl
  · rfl

theorem execPrefetchFill_keeps (n : Chan) (ecc : EccResult) (s : State) :
    ∃ t, execPrefetchFill n ecc s = .next t ∧ Keeps t s := by
  refine ⟨_, rfl, .of_ledger ?_⟩
  repeat' split
  all_goals simp

theorem execGen_keeps (n : Chan) (k : Fields) (s : State) : ∃ t, execGen n k s = .next t ∧ Keeps t s :=
  ⟨_, rfl, .ite (.refl s) (.of_ledger (issue_ledger _ _ _ fun _ _ => checked_keeps (noObs_keeps (demandDone_keeps rfl
    ((acceptSupplier_ledger ..).trans (updCtx_ledger ..))))))⟩

theorem execGstop_keeps (n : Chan) (k : Fields) (s : State) : ∃ t, execGstop n k s = .next t ∧ Keeps t s :=
  ⟨_, rfl, .ite (.refl s) (.of_ledger (issue_ledger _ _ _ fun _ _ => checked_keeps (noObs_keeps (updCtx_ledger ..))))⟩

theorem execRate_keeps (n : Chan) (k : Fields) (s : State) :
    ∃ t, execRate n k s = .next t ∧ Keeps t s := by
  refine ⟨_, rfl, .of_ledger (issue_ledger _ _ _ fun x t => ?_)⟩
  simp

/-! ### KrytgerSpecial -/

theorem execLdid_keeps (n : Chan) (k : Fields) (s : State) :
    ∃ t, execLdid n k s = .next t ∧ Keeps t s := by
  refine ⟨_, rfl, .of_ledger (issue_ledger _ _ _ fun x t => ?_)⟩
  repeat' split
  all_goals simp

theorem execCal_keeps (n : Chan) (k : Fields) (s : State) :
    ∃ t, execCal n k s = .next t ∧ Keeps t s := by
  refine ⟨_, rfl, .of_ledger (issue_ledger _ _ _ fun x t => ?_)⟩
  simp

theorem execRds_keeps (n : Chan) (k : Fields) (s : State) : ∃ t, execRds n k s = .next t ∧ Keeps t s := by
  refine ⟨_, rfl, .ite (.refl s) (.of_ledger (issue_ledger _ _ _ fun _ _ => checked_keeps ?_))⟩
  split
  · next v t hv => exact (updCtx_ledger ..).trans (rdsValue_ledger hv)
  · trivial

theorem execRdt_keeps (n : Chan) (k : Fields) (s : State) :
    ∃ t, execRdt n k s = .next t ∧ Keeps t s := by
  refine ⟨_, rfl, .of_ledger ?_⟩
  rw [ledger_ite, issue_ledger _ _ _ fun x t => ?_, ite_self]
  dsimp only
  repeat' split
  all_goals simp

/-! ### LaneCommands -/

theorem execLaneCfgWrite_keeps (p : Path) (onLane : Option Lane) (k : Lane) (v : Word) (s : State) :
    ∃ t, execLaneCfgWrite p onLane k v s = .next t ∧ Keeps t s := by
  refine ⟨_, rfl, accessed_keeps (.of_books ?_)⟩
  simp

theorem execSlip_keeps (_p : Path) (k : Lane) (s : State) :
    ∃ t, execSlip _p k s = .next t ∧ Keeps t s := by
  refine ⟨_, rfl, .of_ledger (accessed_ledger _ _ ?_)⟩
  simp

theorem execLaneRestart_keeps (_p : Path) (k : Lane) (s : State) :
    ∃ t, execLaneRestart _p k s = .next t ∧ Keeps t s := by
  refine ⟨_, rfl, accessed_keeps (.of_books ?_)⟩
  simp

theorem execSignalDetectRise_keeps (k : Lane) (s : State) :
    ∃ t, execSignalDetectRise k s = .next t ∧ Keeps t s := by
  refine ⟨_, rfl, .of_books ?_⟩
  simp

theorem execInjGo_keeps (_p : Path) (k : Lane) (s : State) :
    ∃ t, execInjGo _p k s = .next t ∧ Keeps t s := by
  refine ⟨_, rfl, .of_ledger (accessed_ledger _ _ ?_)⟩
  simp

theorem execPrbsClr_keeps (_p : Path) (k : Lane) (s : State) :
    ∃ t, execPrbsClr _p k s = .next t ∧ Keeps t s := by
  refine ⟨_, rfl, .of_ledger (accessed_ledger _ _ ?_)⟩
  simp

theorem execPcieReset_keeps (s : State) : ∃ t, execPcieReset s = .next t ∧ Keeps t s := ⟨_, rfl, resetPcie_keeps s⟩

theorem execPcieLinkUp_keeps (speed width : Nat) (s : State) :
    ∃ t, execPcieLinkUp speed width s = .next t ∧ Keeps t s := by
  refine ⟨_, rfl, .of_books ?_⟩
  simp

theorem execEthernetLockRetry_keeps (k : Lane) (locked negotiated : Bool) (s : State) :
    ∃ t, execEthernetLockRetry k locked negotiated s = .next t ∧ Keeps t s := by
  refine ⟨_, rfl, .of_books ?_⟩
  simp

theorem execEthernetLinkLoss_keeps (k : Lane) (s : State) :
    ∃ t, execEthernetLinkLoss k s = .next t ∧ Keeps t s := by
  refine ⟨_, rfl, .of_books ?_⟩
  simp

theorem execEthernetFrame_keeps (k : Lane) (f : EtherFrame) (len tags : Nat) (s : State) :
    ∃ t, execEthernetFrame k f len tags s = .next t ∧ Keeps t s := by
  refine ⟨_, rfl, .of_ledger ?_⟩
  simp

theorem execHdrlockGain_keeps (k : Lane) (s : State) :
    ∃ t, execHdrlockGain k s = .next t ∧ Keeps t s := by
  refine ⟨_, rfl, .of_ledger ?_⟩
  simp

theorem execHdrlockLoss_keeps (k : Lane) (s : State) :
    ∃ t, execHdrlockLoss k s = .next t ∧ Keeps t s := by
  refine ⟨_, rfl, .of_books ?_⟩
  simp

theorem execSibiaTrain_keeps (k : Lane) (sysid : BitVec 5) (ack : Bool) (s : State) :
    ∃ t, execSibiaTrain k sysid ack s = .next t ∧ Keeps t s := by
  refine ⟨_, rfl, .of_books ?_⟩
  simp

theorem execSibiaTrainTimeout_keeps (k : Lane) (s : State) :
    ∃ t, execSibiaTrainTimeout k s = .next t ∧ Keeps t s := by
  refine ⟨_, rfl, .of_books ?_⟩
  simp

theorem execSibiaLinkLoss_keeps (k : Lane) (s : State) :
    ∃ t, execSibiaLinkLoss k s = .next t ∧ Keeps t s := by
  refine ⟨_, rfl, .of_books ?_⟩
  simp

theorem execSibiaBadBlock_keeps (k : Lane) (s : State) :
    ∃ t, execSibiaBadBlock k s = .next t ∧ Keeps t s := by
  refine ⟨_, rfl, .of_ledger ?_⟩
  simp

theorem execSibiaCalAsk_keeps (k : Lane) (s : State) :
    ∃ t, execSibiaCalAsk k s = .next t ∧ Keeps t s := by
  refine ⟨_, rfl, .of_ledger ?_⟩
  simp

theorem execSibiaCalReqSend_keeps (k : Lane) (s : State) :
    ∃ t, execSibiaCalReqSend k s = .next t ∧ Keeps t s := by
  refine ⟨_, rfl, .of_ledger ?_⟩
  simp

theorem execSibiaCalReq_keeps (k : Lane) (seq : BitVec 6) (t1 t2 t3 : BitVec 40) (s : State) :
    ∃ t, execSibiaCalReq k seq t1 t2 t3 s = .next t ∧ Keeps t s := by
  refine ⟨_, rfl, .of_books ?_⟩
  simp

theorem execSibiaCalRsp_keeps (k : Lane) (seq : BitVec 6) (_t3 t4 : BitVec 40) (s : State) :
    ∃ t, execSibiaCalRsp k seq _t3 t4 s = .next t ∧ Keeps t s := by
  refine ⟨_, rfl, .of_ledger ?_⟩
  simp

theorem execSibiaCalReport_keeps (k : Lane) (seq : BitVec 6) (t4 : BitVec 40) (s : State) :
    ∃ t, execSibiaCalReport k seq t4 s = .next t ∧ Keeps t s := by
  refine ⟨_, rfl, .of_books ?_⟩
  simp

theorem execSibiaCalExchangeTimeout_keeps (k : Lane) (s : State) :
    ∃ t, execSibiaCalExchangeTimeout k s = .next t ∧ Keeps t s := by
  refine ⟨_, rfl, .of_books ?_⟩
  simp

theorem execSibiaToken_keeps (k : Lane) (mask : BitVec 16) (a : BitVec 32) (s : State) :
    ∃ t, execSibiaToken k mask a s = .next t ∧ Keeps t s := by
  refine ⟨_, rfl, .of_ledger ?_⟩
  simp

theorem execSibiaSyncv_keeps (k : Lane) (cap : BitVec 48) (s : State) :
    ∃ t, execSibiaSyncv k cap s = .next t ∧ Keeps t s := by
  refine ⟨_, rfl, .of_ledger ?_⟩
  simp

theorem execLanePowerStateExit_keeps (k : Lane) (s : State) :
    ∃ t, execLanePowerStateExit k s = .next t ∧ Keeps t s := by
  refine ⟨_, rfl, .of_books ?_⟩
  simp

theorem execRecoveryLaneAlternate_keeps (s : State) :
    ∃ t, execRecoveryLaneAlternate s = .next t ∧ Keeps t s := by
  refine ⟨_, rfl, .of_ledger ?_⟩
  simp

/-! ### PlateCommands -/

theorem execPldetFall_keeps (s : State) :
    ∃ t, execPldetFall s = .next t ∧ Keeps t s := by
  refine ⟨_, rfl, .of_ledger ?_⟩
  simp

theorem execPldetRise_keeps (s : State) :
    ∃ t, execPldetRise s = .next t ∧ Keeps t s := by
  refine ⟨_, rfl, .of_ledger ?_⟩
  simp

theorem execPlateSettleEnd_keeps (s : State) :
    ∃ t, execPlateSettleEnd s = .next t ∧ Keeps t s := by
  refine ⟨_, rfl, .of_ledger ?_⟩
  simp

theorem execPlateBusRetry_keeps (acked : Bool) (s : State) :
    ∃ t, execPlateBusRetry acked s = .next t ∧ Keeps t s := by
  refine ⟨_, rfl, .of_ledger ?_⟩
  simp

theorem execTokenAnswerTimeout_keeps (s : State) :
    ∃ t, execTokenAnswerTimeout s = .next t ∧ Keeps t s := by
  refine ⟨_, rfl, .of_ledger ?_⟩
  simp

theorem execPlateRecordRead_keeps (r : PlateRead) (s : State) :
    ∃ t, execPlateRecordRead r s = .next t ∧ Keeps t s := by
  refine ⟨_, rfl, .of_ledger ?_⟩
  simp

theorem execTokenAuthAnswer_keeps (signature : List Byte) (s : State) :
    ∃ t, execTokenAuthAnswer signature s = .next t ∧ Keeps t s := by
  refine ⟨_, rfl, .of_ledger ?_⟩
  simp

theorem execPlateAttestationSigned_keeps (fails : Nat) (s : State) :
    ∃ t, execPlateAttestationSigned fails s = .next t ∧ Keeps t s := by
  refine ⟨_, rfl, .of_ledger ?_⟩
  simp

theorem execTokenOpenAnswer_keeps (ok : Bool) (tokenNonce : Digest) (s : State) :
    ∃ t, execTokenOpenAnswer ok tokenNonce s = .next t ∧ Keeps t s := by
  refine ⟨_, rfl, .of_ledger ?_⟩
  simp

theorem execTokenAdvanceAnswer_keeps (ok : Bool) (s : State) :
    ∃ t, execTokenAdvanceAnswer ok s = .next t ∧ Keeps t s := by
  refine ⟨_, rfl, .of_ledger ?_⟩
  simp

theorem execEepromCountWriteDone_keeps (s : State) :
    ∃ t, execEepromCountWriteDone s = .next t ∧ Keeps t s := by
  refine ⟨_, rfl, .of_ledger ?_⟩
  simp

theorem execPlsnsOpen_keeps (s : State) :
    ∃ t, execPlsnsOpen s = .next t ∧ Keeps t s := by
  refine ⟨_, rfl, .of_ledger ?_⟩
  simp

theorem execPlateContactCycle_keeps (s : State) : ∃ t, execPlateContactCycle s = .next t ∧ Keeps t s := by
  refine ⟨_, rfl, .ite (.refl s) (.of_ledger ?_)⟩
  dsimp only
  rw [ledger_ite, countCycle_ledger, updPl_ledger, ite_self]

theorem execCycle_keeps (_p : Path) (s : State) :
    ∃ t, execCycle _p s = .next t ∧ Keeps t s := by
  refine ⟨_, rfl, .of_ledger (accessed_ledger _ _ ?_)⟩
  simp

theorem execReopen_keeps (_p : Path) (s : State) :
    ∃ t, execReopen _p s = .next t ∧ Keeps t s := by
  refine ⟨_, rfl, .of_ledger (accessed_ledger _ _ ?_)⟩
  simp

/-! ### PowerCommands -/

theorem execRegulatorStatusPoll_keeps (failed fault : Bool) (s : State) :
    ∃ t, execRegulatorStatusPoll failed fault s = .next t ∧ Keeps t s := by
  refine ⟨_, rfl, .of_ledger ?_⟩
  simp

theorem execPmalrtnAssert_keeps (s : State) :
    ∃ t, execPmalrtnAssert s = .next t ∧ Keeps t s := by
  refine ⟨_, rfl, .of_ledger ?_⟩
  simp

theorem execPaceStep_keeps (failed : Bool) (readVout : Nat) (s : State) :
    ∃ t, execPaceStep failed readVout s = .next t ∧ Keeps t s := by
  refine ⟨_, rfl, .of_ledger ?_⟩
  simp

theorem execPowerBudgetPeriod_keeps (s : State) :
    ∃ t, execPowerBudgetPeriod s = .next t ∧ Keeps t s := by
  refine ⟨_, rfl, .of_ledger ?_⟩
  simp

theorem execTemperatureRead_keeps (temps : List (BitVec 16)) (s : State) :
    ∃ t, execTemperatureRead temps s = .next t ∧ Keeps t s := by
  refine ⟨_, rfl, .of_ledger ?_⟩
  simp

theorem execVigil_keeps (_p : Path) (s : State) :
    ∃ t, execVigil _p s = .next t ∧ Keeps t s := by
  refine ⟨_, rfl, accessed_keeps (.of_books ?_)⟩
  simp

theorem execRun_keeps (_p : Path) (s : State) :
    ∃ t, execRun _p s = .next t ∧ Keeps t s := by
  refine ⟨_, rfl, .of_ledger (accessed_ledger _ _ ?_)⟩
  simp

theorem execVigilWakeTimer_keeps (s : State) :
    ∃ t, execVigilWakeTimer s = .next t ∧ Keeps t s := by
  refine ⟨_, rfl, .of_books ?_⟩
  simp

theorem execVigilDdrReady_keeps (s : State) :
    ∃ t, execVigilDdrReady s = .next t ∧ Keeps t s := by
  refine ⟨_, rfl, .of_ledger ?_⟩
  simp

/-! ### ProofCommands -/

theorem execProofSeal_keeps (s : State) :
    ∃ t, execProofSeal s = .next t ∧ Keeps t s := by
  refine ⟨_, rfl, .of_ledger ?_⟩
  repeat' split
  all_goals simp

theorem execProofSignStart_keeps (fails : Nat) (s : State) :
    ∃ t, execProofSignStart fails s = .next t ∧ Keeps t s := by
  refine ⟨_, rfl, .of_ledger ?_⟩
  repeat' split
  all_goals simp

theorem execProofSigned_keeps (s : State) :
    ∃ t, execProofSigned s = .next t ∧ Keeps t s := by
  refine ⟨_, rfl, .of_ledger ?_⟩
  repeat' split
  all_goals simp

theorem execProofWritten_keeps (s : State) : ∃ t, execProofWritten s = .next t ∧ Keeps t s := by
  refine ⟨_, rfl, ?_⟩
  split
  · exact .ite (writeProof_keeps ..) (.refl s)
  · exact .refl s

theorem execPfCtrlWrite_keeps (_p : Path) (v : Word) (s : State) :
    ∃ t, execPfCtrlWrite _p v s = .next t ∧ Keeps t s := by
  refine ⟨_, rfl, .of_ledger (accessed_ledger _ _ ?_)⟩
  simp

theorem execProofRingEnable_keeps (_p : Path) (v : Word) (s : State) :
    ∃ t, execProofRingEnable _p v s = .next t ∧ Keeps t s := by
  refine ⟨_, rfl, .of_ledger (accessed_ledger _ _ ?_)⟩
  simp

theorem execProofRingRdCommit_keeps (_p : Path) (hi : Word) (s : State) :
    ∃ t, execProofRingRdCommit _p hi s = .next t ∧ Keeps t s := by
  refine ⟨_, rfl, .of_ledger (accessed_ledger _ _ ?_)⟩
  simp

theorem execNonceExpiry_keeps (p : Path) (s : State) :
    ∃ t, execNonceExpiry p s = .next t ∧ Keeps t s := by
  refine ⟨_, rfl, .of_ledger ?_⟩
  simp

/-! ### QueueCommands -/

theorem execQueueEnable_keeps (p : Path) (v : Word) (s : State) :
    ∃ t, execQueueEnable p v s = .next t ∧ Keeps t s := by
  refine ⟨_, rfl, .of_ledger (accessed_ledger _ _ ?_)⟩
  simp

theorem execQueueDisable_keeps (p : Path) (v : Word) (s : State) :
    ∃ t, execQueueDisable p v s = .next t ∧ Keeps t s := by
  refine ⟨_, rfl, .of_ledger (accessed_ledger _ _ ?_)⟩
  simp

theorem execQueueFlush_keeps (p : Path) (v : Word) (s : State) :
    ∃ t, execQueueFlush p v s = .next t ∧ Keeps t s := by
  refine ⟨_, rfl, .of_ledger (accessed_ledger _ _ ?_)⟩
  simp

theorem execQueueDropRem_keeps (p : Path) (v : Word) (s : State) :
    ∃ t, execQueueDropRem p v s = .next t ∧ Keeps t s := by
  refine ⟨_, rfl, .of_ledger (accessed_ledger _ _ ?_)⟩
  simp

theorem execQueueCfgWrite_keeps (p : Path) (v : Word) (s : State) :
    ∃ t, execQueueCfgWrite p v s = .next t ∧ Keeps t s := by
  refine ⟨_, rfl, .of_ledger (accessed_ledger _ _ ?_)⟩
  simp

theorem execQueuePeakRead_keeps (p : Path) (s : State) :
    ∃ t, execQueuePeakRead p s = .next t ∧ Keeps t s := by
  refine ⟨_, rfl, .of_ledger (accessedRead_ledger _ _ _ ?_)⟩
  simp

theorem execChResultPop_keeps (p : Path) (n : Chan) (ecc : EccResult) (s : State) :
    ∃ t, execChResultPop p n ecc s = .next t ∧ Keeps t s := by
  refine ⟨_, rfl, .of_ledger (accessedRead_ledger _ _ _ ?_)⟩
  simp

theorem execChLatestSeqRead_keeps (p : Path) (n : Chan) (s : State) :
    ∃ t, execChLatestSeqRead p n s = .next t ∧ Keeps t s := by
  refine ⟨_, rfl, .of_ledger (accessedRead_ledger _ _ _ ?_)⟩
  simp

theorem execDrainTransferStart_keeps (d : Ring) (ecc : EccResult) (s : State) :
    ∃ t, execDrainTransferStart d ecc s = .next t ∧ Keeps t s := by
  refine ⟨_, rfl, .of_ledger ?_⟩
  simp

theorem execDrainTransferEnd_keeps (d : Ring) (s : State) : ∃ t, execDrainTransferEnd d s = .next t ∧ Keeps t s := ⟨_, rfl, engineEnd_keeps ..⟩

theorem execRingEnable_keeps (_p : Path) (d : Ring) (v : Word) (s : State) :
    ∃ t, execRingEnable _p d v s = .next t ∧ Keeps t s := by
  refine ⟨_, rfl, .of_ledger (accessed_ledger _ _ ?_)⟩
  simp

theorem execRingDisable_keeps (_p : Path) (d : Ring) (v : Word) (s : State) :
    ∃ t, execRingDisable _p d v s = .next t ∧ Keeps t s := by
  refine ⟨_, rfl, .of_ledger (accessed_ledger _ _ ?_)⟩
  simp

theorem execRingRdCommit_keeps (_p : Path) (d : Ring) (hi : Word) (s : State) :
    ∃ t, execRingRdCommit _p d hi s = .next t ∧ Keeps t s := by
  refine ⟨_, rfl, .of_ledger (accessed_ledger _ _ ?_)⟩
  simp

/-! ### RegCommands -/

theorem execRegRead_keeps (h : Hdr) (addr count : Nat) (s : State) : ∃ t, execRegRead h addr count s = .next t ∧ Keeps t s := by
  refine ⟨_, rfl, hostCommand_keeps _ _ _ _ _ fun u => ?_⟩
  split
  · exact .of_ledger (readRegs_ledger ..)
  · exact .refl u

theorem execRegWrite_keeps (h : Hdr) (addr : Nat) (words : List Word) (s : State) : ∃ t, execRegWrite h addr words s = .next t ∧ Keeps t s := by
  refine ⟨_, rfl, hostCommand_keeps _ _ _ _ _ fun u => ?_⟩
  split
  · exact writeRegs_keeps ..
  · exact .refl u

theorem execSpiReadTransaction_keeps (addr count : Nat) (s : State) :
    ∃ t, execSpiReadTransaction addr count s = .next t ∧ Keeps t s := by
  refine ⟨_, rfl, .of_ledger ?_⟩
  simp

theorem execSpiWriteTransaction_keeps (addr : Nat) (words : List Word) (s : State) : ∃ t, execSpiWriteTransaction addr words s = .next t ∧ Keeps t s :=
  ⟨_, rfl, .ite (writeRegs_keeps ..) (.refl s)⟩

theorem execRegisterWrite_keeps (p : Path) (addr : Nat) (v : Word) (be : BitVec 4) (s : State) : ∃ t, execRegisterWrite p addr v be s = .next t ∧ Keeps t s :=
  ⟨_, rfl, .ite (.refl s) (writeReg_keeps ..)⟩

theorem execPairSnapshotRead_keeps (p : Path) (what : PathRead) (s : State) : ∃ t, execPairSnapshotRead p what s = .next t ∧ Keeps t s := by
  refine ⟨_, rfl, .of_ledger ?_⟩
  split
  · next k =>
    have hread : ledger (returned (readLow s p k).2 p [(readLow s p k).1]) = ledger s := (returned_ledger ..).trans (readLow_ledger ..)
    dsimp only
    rw [ledger_ite, hread, accessedRead_ledger _ _ _ hread, ite_self]
  · rw [ledger_ite]
    dsimp only
    rw [returned_ledger, barRead_ledger, ite_self]

/-! ### StartCommands -/

theorem execPowerOnReset_keeps (straps : Straps) (s : State) : ∃ t, execPowerOnReset straps s = .next t ∧ Keeps t s := ⟨_, rfl, powerOn_keeps ..⟩

theorem execPornLow_keeps (s : State) : ∃ t, execPornLow s = .next t ∧ Keeps t s := ⟨_, rfl, holdReset_keeps s⟩

theorem execFirmwareStart_keeps (s : State) :
    ∃ t, execFirmwareStart s = .next t ∧ Keeps t s := by
  refine ⟨_, rfl, .of_ledger ?_⟩
  simp

theorem execHostReady_keeps (regulatorLinear : Bool) (ddrMaGib ddrMbGib : Nat) (s : State) :
    ∃ t, execHostReady regulatorLinear ddrMaGib ddrMbGib s = .next t ∧ Keeps t s := ⟨_, rfl, becomeReady_keeps ..⟩

theorem execSigningStateReady_keeps (s : State) :
    ∃ t, execSigningStateReady s = .next t ∧ Keeps t s := by
  refine ⟨_, rfl, .of_ledger ?_⟩
  simp

theorem execWrstnLow_keeps (s : State) :
    ∃ t, execWrstnLow s = .next t ∧ Keeps t s := by
  refine ⟨_, rfl, .of_ledger ?_⟩
  simp

theorem execMpWatchdogExpiry_keeps (s : State) :
    ∃ t, execMpWatchdogExpiry s = .next t ∧ Keeps t s := by
  refine ⟨_, rfl, .of_ledger ?_⟩
  simp

theorem execWarmRestartComplete_keeps (adoptOk : Bool) (s : State) :
    ∃ t, execWarmRestartComplete adoptOk s = .next t ∧ Keeps t s := by
  refine ⟨_, rfl, .of_books ?_⟩
  simp

/-! ### TimeCommands -/

theorem execPllLock_keeps (s : State) :
    ∃ t, execPllLock s = .next t ∧ Keeps t s := by
  refine ⟨_, rfl, .of_books ?_⟩
  simp

theorem execRefclkLoss_keeps (s : State) :
    ∃ t, execRefclkLoss s = .next t ∧ Keeps t s := by
  refine ⟨_, rfl, .of_books ?_⟩
  simp

theorem execPllRelock_keeps (edgePhase : Nat) (s : State) :
    ∃ t, execPllRelock edgePhase s = .next t ∧ Keeps t s := by
  refine ⟨_, rfl, .of_books ?_⟩
  simp

theorem execSyncPulse_keeps (s : State) :
    ∃ t, execSyncPulse s = .next t ∧ Keeps t s := by
  refine ⟨_, rfl, .of_books ?_⟩
  simp

theorem execSyncGen_keeps (_p : Path) (s : State) :
    ∃ t, execSyncGen _p s = .next t ∧ Keeps t s := by
  refine ⟨_, rfl, accessed_keeps (.of_books ?_)⟩
  simp

theorem execTbAdj_keeps (_p : Path) (v : Word) (s : State) :
    ∃ t, execTbAdj _p v s = .next t ∧ Keeps t s := by
  refine ⟨_, rfl, accessed_keeps (.of_books ?_)⟩
  simp

theorem execSkewStart_keeps (_p : Path) (s : State) :
    ∃ t, execSkewStart _p s = .next t ∧ Keeps t s := by
  refine ⟨_, rfl, accessed_keeps (.of_books ?_)⟩
  simp

theorem execSkewPeriodExpiry_keeps (s : State) :
    ∃ t, execSkewPeriodExpiry s = .next t ∧ Keeps t s := by
  refine ⟨_, rfl, .of_books ?_⟩
  simp

theorem execSkewMeasurementEnd_keeps (s : State) :
    ∃ t, execSkewMeasurementEnd s = .next t ∧ Keeps t s := by
  refine ⟨_, rfl, .of_books ?_⟩
  simp

theorem execFinePhaseStep_keeps (s : State) :
    ∃ t, execFinePhaseStep s = .next t ∧ Keeps t s := by
  refine ⟨_, rfl, .of_books ?_⟩
  simp

/-! ### TracerCommands -/

theorem execComparatorDecision_keeps (n : Chan) (c : Cmp) (tick : Nat) (dst : CmpState) (s : State) :
    ∃ t, execComparatorDecision n c tick dst s = .next t ∧ Keeps t s := by
  refine ⟨_, rfl, ?_⟩
  split
  · next t ht => exact (Keeps.of_ledger (cmpDecide_ledger ..)).trans (.of_books (reach_books ht))
  · exact .refl s

theorem execBlankExpiry_keeps (n : Chan) (c : Cmp) (kind : BlankKind) (s : State) :
    ∃ t, execBlankExpiry n c kind s = .next t ∧ Keeps t s := by
  refine ⟨_, rfl, .of_ledger ?_⟩
  simp

theorem execComparatorLatchClear_keeps (_p : Path) (n : Chan) (v : Word) (s : State) :
    ∃ t, execComparatorLatchClear _p n v s = .next t ∧ Keeps t s := by
  refine ⟨_, rfl, .of_ledger (accessed_ledger _ _ ?_)⟩
  simp

theorem execSlotBoundary_keeps (s : State) :
    ∃ t, execSlotBoundary s = .next t ∧ Keeps t s := by
  refine ⟨_, rfl, .of_books ?_⟩
  simp

theorem execDirectForward_keeps (tc : Fin 128) (s : State) :
    ∃ t, execDirectForward tc s = .next t ∧ Keeps t s := by
  refine ⟨_, rfl, .of_ledger ?_⟩
  simp

theorem execEviEdge_keeps (pin : Fin 8) (rising : Bool) (tick : Nat) (s : State) : ∃ t, execEviEdge pin rising tick s = .next t ∧ Keeps t s := by
  refine ⟨_, rfl, ?_⟩
  split
  · next t ht => exact (Keeps.ite (.of_ledger (raiseAt_ledger ..)) (.refl t)).trans (.of_books (reach_books ht))
  · exact .refl s

theorem execSoftwareInject_keeps (_p : Path) (v : Word) (s : State) :
    ∃ t, execSoftwareInject _p v s = .next t ∧ Keeps t s := by
  refine ⟨_, rfl, .of_ledger (accessed_ledger _ _ ?_)⟩
  simp

theorem execTcMergeWrite_keeps (p : Path) (v : Word) (s : State) :
    ∃ t, execTcMergeWrite p v s = .next t ∧ Keeps t s := by
  refine ⟨_, rfl, .of_ledger (accessed_ledger _ _ ?_)⟩
  simp

theorem execImAck_keeps (_p : Path) (v : Word) (s : State) :
    ∃ t, execImAck _p v s = .next t ∧ Keeps t s := by
  refine ⟨_, rfl, .of_ledger (accessed_ledger _ _ ?_)⟩
  simp

/-! ### TrustCommands -/

theorem execChallenge_keeps (h : Hdr) (s : State) :
    ∃ t, execChallenge h s = .next t ∧ Keeps t s := by
  refine ⟨_, rfl, hostCommand_keeps _ _ _ _ _ fun t => .of_ledger ?_⟩
  simp

theorem execGetIdentity_keeps (h : Hdr) (s : State) :
    ∃ t, execGetIdentity h s = .next t ∧ Keeps t s := by
  refine ⟨_, rfl, hostCommand_keeps _ _ _ _ _ fun t => .of_ledger ?_⟩
  simp

theorem execAttest_keeps (h : Hdr) (nonce : Digest) (fails : Nat) (s : State) : ∃ t, execAttest h nonce fails s = .next t ∧ Keeps t s :=
  ⟨_, rfl, .ite (hostCommand_keeps _ _ _ _ _ fun _ => .of_ledger (attestOp_ledger ..)) (.refl s)⟩

theorem execEnroll_keeps (h : Hdr) (key : List Byte) (token : Token) (fails : Nat) (s : State) : ∃ t, execEnroll h key token fails s = .next t ∧ Keeps t s :=
  ⟨_, rfl, .ite (hostCommand_keeps _ _ _ _ _ fun _ => .of_ledger (enrollOp_ledger ..)) (.refl s)⟩

theorem execOwnerTransfer_keeps (h : Hdr) (token : Token) (newKey : List Byte) (enrolToken : Token) (s : State) :
    ∃ t, execOwnerTransfer h token newKey enrolToken s = .next t ∧ Keeps t s := by
  refine ⟨_, rfl, hostCommand_keeps _ _ _ _ _ fun t => .of_ledger ?_⟩
  simp

theorem execOwnerRelease_keeps (h : Hdr) (token : Token) (arg : List Byte) (s : State) : ∃ t, execOwnerRelease h token arg s = .next t ∧ Keeps t s :=
  ⟨_, rfl, hostCommand_keeps _ _ _ _ _ fun _ => authorise_keeps _ _ _ _ _ fun _ => releaseOwner_ledger _⟩

theorem execCalWrite_keeps (h : Hdr) (token : Token) (arg : List Byte) (fails : List Nat) (s : State) :
    ∃ t, execCalWrite h token arg fails s = .next t ∧ Keeps t s :=
  ⟨_, rfl, hostCommand_keeps _ _ _ _ _ fun _ => authorise_keeps _ _ _ _ _ fun _ => calWriteOp_ledger ..⟩

theorem execPlateLife_keeps (h : Hdr) (token : Token) (arg : List Byte) (s : State) : ∃ t, execPlateLife h token arg s = .next t ∧ Keeps t s :=
  ⟨_, rfl, hostCommand_keeps _ _ _ _ _ fun _ => authorise_keeps _ _ _ _ _ fun _ => overrideLife_ledger ..⟩

theorem execPowerBounds_keeps (h : Hdr) (token : Token) (arg : List Byte) (s : State) : ∃ t, execPowerBounds h token arg s = .next t ∧ Keeps t s :=
  ⟨_, rfl, hostCommand_keeps _ _ _ _ _ fun _ => authorise_keeps _ _ _ _ _ fun _ => boundsOp_ledger ..⟩

theorem execDebugUnlock_keeps (h : Hdr) (token : Token) (arg : List Byte) (s : State) : ∃ t, execDebugUnlock h token arg s = .next t ∧ Keeps t s :=
  ⟨_, rfl, hostCommand_keeps _ _ _ _ _ fun _ => authorise_keeps _ _ _ _ _ fun _ => debugOp_ledger ..⟩

theorem execJtagPinDriveInstruction_keeps (s : State) :
    ∃ t, execJtagPinDriveInstruction s = .next t ∧ Keeps t s := by
  refine ⟨_, rfl, .of_ledger ?_⟩
  simp

end Sys2Proof.Machine
end

section
/-!
PROOFS. O59 and O60: every step takes the front command alone, and keeps the canonical form of the addressed memories.
-/
namespace Sys2Proof.Machine

/-- Every command completes; it keeps what waits behind it and the canonical form of the memories. -/
theorem exec_keeps (c : Instr) (s : State) : ∃ t, exec c s = .next t ∧ Keeps t s := by
  cases c with
  | powerOnReset straps => exact execPowerOnReset_keeps straps s
  | pornLow => exact execPornLow_keeps s
  | firmwareStart => exact execFirmwareStart_keeps s
  | hostReady regulatorLinear ddrMaGib ddrMbGib => exact execHostReady_keeps regulatorLinear ddrMaGib ddrMbGib s
  | signingStateReady => exact execSigningStateReady_keeps s
  | wrstnLow => exact execWrstnLow_keeps s
  | mpWatchdogExpiry => exact execMpWatchdogExpiry_keeps s
  | warmRestartComplete adoptOk => exact execWarmRestartComplete_keeps adoptOk s
  | pllLock => exact execPllLock_keeps s
  | refclkLoss => exact execRefclkLoss_keeps s
  | pllRelock edgePhase => exact execPllRelock_keeps edgePhase s
  | syncPulse => exact execSyncPulse_keeps s
  | syncGen p => exact execSyncGen_keeps p s
  | tbAdj p v => exact execTbAdj_keeps p v s
  | skewStart p => exact execSkewStart_keeps p s
  | skewPeriodExpiry => exact execSkewPeriodExpiry_keeps s
  | skewMeasurementEnd => exact execSkewMeasurementEnd_keeps s
  | finePhaseStep => exact execFinePhaseStep_keeps s
  | pairSnapshotRead p what => exact execPairSnapshotRead_keeps p what s
  | sampleTick => exact execSampleTick_keeps s
  | railFall n => exact execRailFall_keeps n s
  | rawPairHandoff n v w vOut iOut clamping upper => exact execRawPairHandoff_keeps n v w vOut iOut clamping upper s
  | autorangeDown n => exact execAutorangeDown_keeps n s
  | packetAge n => exact execPacketAge_keeps n s
  | stabilityAlarm n crossings => exact execStabilityAlarm_keeps n crossings s
  | trimStep n => exact execTrimStep_keeps n s
  | ldidPerturbCount n => exact execLdidPerturbCount_keeps n s
  | ldidFitDone n => exact execLdidFitDone_keeps n s
  | rangeSwitchMade n => exact execRangeSwitchMade_keeps n s
  | rangeSwitchBroken n => exact execRangeSwitchBroken_keeps n s
  | bridgeSettleEnd n => exact execBridgeSettleEnd_keeps n s
  | leaveInertTimeout n => exact execLeaveInertTimeout_keeps n s
  | relayMakeDone n made => exact execRelayMakeDone_keeps n made s
  | relayBreakDone n => exact execRelayBreakDone_keeps n s
  | safeStateRampEnd n => exact execSafeStateRampEnd_keeps n s
  | fltAssert n => exact execFltAssert_keeps n s
  | coreHandshakeLoss b => exact execCoreHandshakeLoss_keeps b s
  | fltLatchClear p n fltHigh => exact execFltLatchClear_keeps p n fltHigh s
  | disable p n => exact execDisable_keeps p n s
  | bankSupplyValid b => exact execBankSupplyValid_keeps b s
  | bankDieUp b => exact execBankDieUp_keeps b s
  | bankSupplyFail b => exact execBankSupplyFail_keeps b s
  | cpsFrame b => exact execCpsFrame_keeps b s
  | cpsResponse b w => exact execCpsResponse_keeps b w s
  | cpsLinkRestartRound b => exact execCpsLinkRestartRound_keeps b s
  | nop n k => exact execNop_keeps n k s
  | halt n k => exact execHalt_keeps n k s
  | jmp n k => exact execJmp_keeps n k s
  | jcc n k => exact execJcc_keeps n k s
  | call n k => exact execCall_keeps n k s
  | ret n k => exact execRet_keeps n k s
  | loop n k => exact execLoop_keeps n k s
  | endl n k => exact execEndl_keeps n k s
  | yield n k => exact execYield_keeps n k s
  | fence n k => exact execFence_keeps n k s
  | fenceComplete n x => exact execFenceComplete_keeps n x s
  | trap n k => exact execTrap_keeps n k s
  | mov n k => exact execMov_keeps n k s
  | ldi n k => exact execLdi_keeps n k s
  | ldx n k => exact execLdx_keeps n k s
  | add n k => exact execAdd_keeps n k s
  | sub n k => exact execSub_keeps n k s
  | mul n k => exact execMul_keeps n k s
  | mac n k => exact execMac_keeps n k s
  | and n k => exact execAnd_keeps n k s
  | or n k => exact execOr_keeps n k s
  | xor n k => exact execXor_keeps n k s
  | shl n k => exact execShl_keeps n k s
  | shr n k => exact execShr_keeps n k s
  | asr n k => exact execAsr_keeps n k s
  | cmp n k => exact execCmp_keeps n k s
  | sat n k => exact execSat_keeps n k s
  | abs n k => exact execAbs_keeps n k s
  | ld n k => exact execLd_keeps n k s
  | ldDataReturn n ecc => exact execLdDataReturn_keeps n ecc s
  | st n k => exact execSt_keeps n k s
  | programCacheFill n victim ecc => exact execProgramCacheFill_keeps n victim ecc s
  | mode n k => exact execMode_keeps n k s
  | range n k => exact execRange_keeps n k s
  | level n k => exact execLevel_keeps n k s
  | strobeSelect n k => exact execStrobeSelect_keeps n k s
  | strobeFire n k => exact execStrobeFire_keeps n k s
  | clamp n k => exact execClamp_keeps n k s
  | slew n k => exact execSlew_keeps n k s
  | ramp n k => exact execRamp_keeps n k s
  | comps n k => exact execComps_keeps n k s
  | connect n k => exact execConnect_keeps n k s
  | isolate n k => exact execIsolate_keeps n k s
  | measSmode n k => exact execMeasSmode_keeps n k s
  | measCount n k => exact execMeasCount_keeps n k s
  | aper n k => exact execAper_keeps n k s
  | autor n k => exact execAutor_keeps n k s
  | tag n k => exact execTag_keeps n k s
  | pktClose n k => exact execPktClose_keeps n k s
  | pktAge n k => exact execPktAge_keeps n k s
  | play n k ecc => exact execPlay_keeps n k ecc s
  | playFillComplete n ecc => exact execPlayFillComplete_keeps n ecc s
  | armj n k ecc => exact execArmj_keeps n k ecc s
  | jumpHeadCopyDone n x ecc => exact execJumpHeadCopyDone_keeps n x ecc s
  | jseg n k ecc => exact execJseg_keeps n k ecc s
  | sweep n k ecc => exact execSweep_keeps n k ecc s
  | sweepFillComplete n ecc => exact execSweepFillComplete_keeps n ecc s
  | sweepEntryStart n clamping => exact execSweepEntryStart_keeps n clamping s
  | prefetchFill n ecc => exact execPrefetchFill_keeps n ecc s
  | gen n k => exact execGen_keeps n k s
  | gstop n k => exact execGstop_keeps n k s
  | rate n k => exact execRate_keeps n k s
  | wait n k => exact execWait_keeps n k s
  | waitComplete n x => exact execWaitComplete_keeps n x s
  | waitt n k => exact execWaitt_keeps n k s
  | waittRelease n x => exact execWaittRelease_keeps n x s
  | waitev n k => exact execWaitev_keeps n k s
  | waitevTimeout n x => exact execWaitevTimeout_keeps n x s
  | emit n k => exact execEmit_keeps n k s
  | arm n k => exact execArm_keeps n k s
  | blankLength n k => exact execBlankLength_keeps n k s
  | blank n k => exact execBlank_keeps n k s
  | syncf n k => exact execSyncf_keeps n k s
  | mark n k => exact execMark_keeps n k s
  | ldid n k => exact execLdid_keeps n k s
  | cal n k => exact execCal_keeps n k s
  | rds n k => exact execRds_keeps n k s
  | rdt n k => exact execRdt_keeps n k s
  | illegalOpcode n opcode k => exact execIllegalOpcode_keeps n opcode k s
  | gvStart p n v => exact execGvStart_keeps p n v s
  | gvHalt p n v => exact execGvHalt_keeps p n v s
  | go p n v => exact execGo_keeps p n v s
  | clearImm p n v => exact execClearImm_keeps p n v s
  | gvImmWrite p n v => exact execGvImmWrite_keeps p n v s
  | comparatorDecision n c tick dst => exact execComparatorDecision_keeps n c tick dst s
  | blankExpiry n c kind => exact execBlankExpiry_keeps n c kind s
  | comparatorLatchClear p n v => exact execComparatorLatchClear_keeps p n v s
  | slotBoundary => exact execSlotBoundary_keeps s
  | directForward tc => exact execDirectForward_keeps tc s
  | eviEdge pin rising tick => exact execEviEdge_keeps pin rising tick s
  | softwareInject p v => exact execSoftwareInject_keeps p v s
  | tcMergeWrite p v => exact execTcMergeWrite_keeps p v s
  | imAck p v => exact execImAck_keeps p v s
  | framesEnable p v => exact execFramesEnable_keeps p v s
  | framesDisable p v => exact execFramesDisable_keeps p v s
  | snap p v => exact execSnap_keeps p v s
  | frameBoundary => exact execFrameBoundary_keeps s
  | hatchStart p => exact execHatchStart_keeps p s
  | hatchStop p => exact execHatchStop_keeps p s
  | hatchUnitCfgWrite p base v => exact execHatchUnitCfgWrite_keeps p base v s
  | collStatClr p => exact execCollStatClr_keeps p s
  | deviceUnitReady => exact execDeviceUnitReady_keeps s
  | collectorSlotStore slot => exact execCollectorSlotStore_keeps slot s
  | collectorTimeout => exact execCollectorTimeout_keeps s
  | frameEmit => exact execFrameEmit_keeps s
  | proofSeal => exact execProofSeal_keeps s
  | proofSignStart fails => exact execProofSignStart_keeps fails s
  | proofSigned => exact execProofSigned_keeps s
  | proofWritten => exact execProofWritten_keeps s
  | pfCtrlWrite p v => exact execPfCtrlWrite_keeps p v s
  | proofRingEnable p v => exact execProofRingEnable_keeps p v s
  | proofRingRdCommit p hi => exact execProofRingRdCommit_keeps p hi s
  | nonceExpiry p => exact execNonceExpiry_keeps p s
  | queueEnable p v => exact execQueueEnable_keeps p v s
  | queueDisable p v => exact execQueueDisable_keeps p v s
  | queueFlush p v => exact execQueueFlush_keeps p v s
  | queueDropRem p v => exact execQueueDropRem_keeps p v s
  | queueCfgWrite p v => exact execQueueCfgWrite_keeps p v s
  | queuePeakRead p => exact execQueuePeakRead_keeps p s
  | chResultPop p n ecc => exact execChResultPop_keeps p n ecc s
  | chLatestSeqRead p n => exact execChLatestSeqRead_keeps p n s
  | drainTransferStart d ecc => exact execDrainTransferStart_keeps d ecc s
  | drainTransferEnd d => exact execDrainTransferEnd_keeps d s
  | ringEnable p d v => exact execRingEnable_keeps p d v s
  | ringDisable p d v => exact execRingDisable_keeps p d v s
  | ringRdCommit p d hi => exact execRingRdCommit_keeps p d hi s
  | patrolScrub p q cured found => exact execPatrolScrub_keeps p q cured found s
  | sramRowRepair ram => exact execSramRowRepair_keeps ram s
  | pageRetire pa => exact execPageRetire_keeps pa s
  | demandFaultResolved => exact execDemandFaultResolved_keeps s
  | mmuFlogPop p => exact execMmuFlogPop_keeps p s
  | invalidationComplete => exact execInvalidationComplete_keeps s
  | echo h bytes => exact execEcho_keeps h bytes s
  | regRead h addr count => exact execRegRead_keeps h addr count s
  | regWrite h addr words => exact execRegWrite_keeps h addr words s
  | asidCreate h asid => exact execAsidCreate_keeps h asid s
  | asidDestroy h asid => exact execAsidDestroy_keeps h asid s
  | map h asid flags va pa len => exact execMap_keeps h asid flags va pa len s
  | mapDz h asid flags va len => exact execMapDz_keeps h asid flags va len s
  | unmap h asid va len => exact execUnmap_keeps h asid va len s
  | protect h asid flags va len => exact execProtect_keeps h asid flags va len s
  | poolAdd h pa pages => exact execPoolAdd_keeps h pa pages s
  | cacheInv h asid va len => exact execCacheInv_keeps h asid va len s
  | resume h n x action => exact execResume_keeps h n x action s
  | challenge h => exact execChallenge_keeps h s
  | getIdentity h => exact execGetIdentity_keeps h s
  | attest h nonce fails => exact execAttest_keeps h nonce fails s
  | enroll h key token fails => exact execEnroll_keeps h key token fails s
  | ownerTransfer h token newKey enrolToken => exact execOwnerTransfer_keeps h token newKey enrolToken s
  | ownerRelease h token arg => exact execOwnerRelease_keeps h token arg s
  | calWrite h token arg fails => exact execCalWrite_keeps h token arg fails s
  | plateLife h token arg => exact execPlateLife_keeps h token arg s
  | powerBounds h token arg => exact execPowerBounds_keeps h token arg s
  | debugUnlock h token arg => exact execDebugUnlock_keeps h token arg s
  | jtagPinDriveInstruction => exact execJtagPinDriveInstruction_keeps s
  | pldetFall => exact execPldetFall_keeps s
  | pldetRise => exact execPldetRise_keeps s
  | plateSettleEnd => exact execPlateSettleEnd_keeps s
  | plateBusRetry acked => exact execPlateBusRetry_keeps acked s
  | tokenAnswerTimeout => exact execTokenAnswerTimeout_keeps s
  | plateRecordRead r => exact execPlateRecordRead_keeps r s
  | tokenAuthAnswer signature => exact execTokenAuthAnswer_keeps signature s
  | tokenOpenAnswer ok tn => exact execTokenOpenAnswer_keeps ok tn s
  | tokenAdvanceAnswer ok => exact execTokenAdvanceAnswer_keeps ok s
  | eepromCountWriteDone => exact execEepromCountWriteDone_keeps s
  | plateContactCycle => exact execPlateContactCycle_keeps s
  | cycle p => exact execCycle_keeps p s
  | reopen p => exact execReopen_keeps p s
  | regulatorStatusPoll failed fault => exact execRegulatorStatusPoll_keeps failed fault s
  | pmalrtnAssert => exact execPmalrtnAssert_keeps s
  | paceStep failed readVout => exact execPaceStep_keeps failed readVout s
  | powerBudgetPeriod => exact execPowerBudgetPeriod_keeps s
  | temperatureRead temps => exact execTemperatureRead_keeps temps s
  | vigil p => exact execVigil_keeps p s
  | run p => exact execRun_keeps p s
  | vigilWakeTimer => exact execVigilWakeTimer_keeps s
  | vigilDdrReady => exact execVigilDdrReady_keeps s
  | runFull p n => exact execRunFull_keeps p n s
  | runQuick p n => exact execRunQuick_keeps p n s
  | relieve p n => exact execRelieve_keeps p n s
  | returnDut p n => exact execReturnDut_keeps p n s
  | calPrecheckEnd n raws => exact execCalPrecheckEnd_keeps n raws s
  | calRunEnd n e => exact execCalRunEnd_keeps n e s
  | reliefSwitchMade b => exact execReliefSwitchMade_keeps b s
  | reliefRampEnd b => exact execReliefRampEnd_keeps b s
  | reliefSwitchBroken b => exact execReliefSwitchBroken_keeps b s
  | laneCfgWrite p onLane k v => exact execLaneCfgWrite_keeps p onLane k v s
  | slip p k => exact execSlip_keeps p k s
  | laneRestart p k => exact execLaneRestart_keeps p k s
  | signalDetectRise k => exact execSignalDetectRise_keeps k s
  | injGo p k => exact execInjGo_keeps p k s
  | prbsClr p k => exact execPrbsClr_keeps p k s
  | pcieReset => exact execPcieReset_keeps s
  | ethernetLockRetry k locked negotiated => exact execEthernetLockRetry_keeps k locked negotiated s
  | ethernetFrame k f len tags => exact execEthernetFrame_keeps k f len tags s
  | sibiaTrain k sysid ack => exact execSibiaTrain_keeps k sysid ack s
  | sibiaTrainTimeout k => exact execSibiaTrainTimeout_keeps k s
  | sibiaLinkLoss k => exact execSibiaLinkLoss_keeps k s
  | sibiaCalAsk k => exact execSibiaCalAsk_keeps k s
  | sibiaCalReqSend k => exact execSibiaCalReqSend_keeps k s
  | sibiaCalReq k seq t1 t2 t3 => exact execSibiaCalReq_keeps k seq t1 t2 t3 s
  | sibiaCalRsp k seq t3 t4 => exact execSibiaCalRsp_keeps k seq t3 t4 s
  | sibiaCalReport k seq t4 => exact execSibiaCalReport_keeps k seq t4 s
  | sibiaCalExchangeTimeout k => exact execSibiaCalExchangeTimeout_keeps k s
  | sibiaToken k mask a => exact execSibiaToken_keeps k mask a s
  | sibiaSyncv k cap => exact execSibiaSyncv_keeps k cap s
  | fwCmdWrWrite p v => exact execFwCmdWrWrite_keeps p v s
  | fwRspRdWrite p v => exact execFwRspRdWrite_keeps p v s
  | spiReadTransaction addr count => exact execSpiReadTransaction_keeps addr count s
  | spiWriteTransaction addr words => exact execSpiWriteTransaction_keeps addr words s
  | hhtOpen k host => exact execHhtOpen_keeps k host s
  | hhtClose k host session => exact execHhtClose_keeps k host session s
  | hhtKeepalive k host session => exact execHhtKeepalive_keeps k host session s
  | hhtCmd k host session offset bytes => exact execHhtCmd_keeps k host session offset bytes s
  | hhtRspack k host session offset => exact execHhtRspack_keeps k host session offset s
  | hhtDack k host session stream offset => exact execHhtDack_keeps k host session stream offset s
  | hhtDnak k host session stream offset => exact execHhtDnak_keeps k host session stream offset s
  | hhtDataSend stream ecc => exact execHhtDataSend_keeps stream ecc s
  | hhtSessionTimeout => exact execHhtSessionTimeout_keeps s
  | hhtRspResend => exact execHhtRspResend_keeps s
  | hhtDataResend stream => exact execHhtDataResend_keeps stream s
  | hhtEventRepeat => exact execHhtEventRepeat_keeps s
  | ptpEventMessage k kind sent tick domain time => exact execPtpEventMessage_keeps k kind sent tick domain time s
  | ptpMappingUpdate tracked16s agree1us lost1000s => exact execPtpMappingUpdate_keeps tracked16s agree1us lost1000s s
  | updOpen h kind slot digest token => exact execUpdOpen_keeps h kind slot digest token s
  | updData h offset bytes => exact execUpdData_keeps h offset bytes s
  | updFinish h recoveryHigh => exact execUpdFinish_keeps h recoveryHigh s
  | updAbort h => exact execUpdAbort_keeps h s
  | updSessionTimeout => exact execUpdSessionTimeout_keeps s
  | fwActivate h => exact execFwActivate_keeps h s
  | handoverPreloadDone => exact execHandoverPreloadDone_keeps s
  | handoverImageStart adopted => exact execHandoverImageStart_keeps adopted s
  | fwConfirm h => exact execFwConfirm_keeps h s
  | trialAutoconfirm => exact execTrialAutoconfirm_keeps s
  | fwRestart h => exact execFwRestart_keeps h s
  | libActivate h => exact execLibActivate_keeps h s
  | setSave h blob => exact execSetSave_keeps h blob s
  | setDefaults h => exact execSetDefaults_keeps h s
  | logRead h first count => exact execLogRead_keeps h first count s
  | registerWrite p addr v be => exact execRegisterWrite_keeps p addr v be s
  | stVisible n x => exact execStVisible_keeps n x s
  | plsnsOpen => exact execPlsnsOpen_keeps s
  | plateAttestationSigned fails => exact execPlateAttestationSigned_keeps fails s
  | ethernetLinkLoss k => exact execEthernetLinkLoss_keeps k s
  | pcieLinkUp speed width => exact execPcieLinkUp_keeps speed width s
  | hdrlockGain k => exact execHdrlockGain_keeps k s
  | hdrlockLoss k => exact execHdrlockLoss_keeps k s
  | sibiaBadBlock k => exact execSibiaBadBlock_keeps k s
  | lanePowerStateExit k => exact execLanePowerStateExit_keeps k s
  | recoveryLaneAlternate => exact execRecoveryLaneAlternate_keeps s

/-- What a step leaves of the queue and of the memories. -/
theorem step_keeps (s : State) : ∃ t, step s = .next t ∧ t.pending = s.pending.tail ∧ (s.memoryForm = true → t.memoryForm = true) := by
  rcases hp : s.pending with _ | ⟨c, cs⟩
  · refine ⟨s, ?_, hp, id⟩
    rw [step, hp]
  · obtain ⟨t, hrun, hkeeps⟩ := exec_keeps c { s with pending := cs }
    refine ⟨t, ?_, hkeeps.pending, fun h => ?_⟩
    · rw [step, hp]
      exact hrun
    · exact (memoryForm_iff t).2 (hkeeps.form ((memoryForm_iff _).1 h))

/-- Settles O59: a command keeps what waits behind it. -/
theorem queueIsTakenInOrder : Obligations.QueueIsTakenInOrder := by
  unfold Obligations.QueueIsTakenInOrder
  intro s
  obtain ⟨t, hrun, hpending, -⟩ := step_keeps s
  exact ⟨t, hrun, hpending⟩

/-- Settles O60: a command keeps the canonical form of every memory that it writes. -/
theorem stepsKeepMemoryForm : Obligations.StepsKeepMemoryForm := by
  unfold Obligations.StepsKeepMemoryForm
  intro s t h hrun
  obtain ⟨u, hu, -, hform⟩ := step_keeps s
  obtain rfl : u = t := Host.Outcome.next.inj (hu.symm.trans hrun)
  exact hform h

end Sys2Proof.Machine
end

section
/-!
PROOFS. What the handover of a pair leaves of the pair and of the settings that calibrated it (R105, R107, R387).
-/
namespace Sys2Proof.Machine

/-- What a handover of a pair writes, and the calibration in use that it reads. -/
def pairOf (c : Channel) : Option (Option CalSet) × List Conv × Int × Int × Ranges :=
  (c.cal.slots[c.cal.slot]?, c.meas.convs, c.meas.extV, c.meas.extI, c.meas.extRanges)

structure SameButPairs (t s : State) : Prop where
  pair : ∀ m : Chan, pairOf t.chans[m] = pairOf s.chans[m]

theorem SameButPairs.refl (s : State) : SameButPairs s s := ⟨fun _ => rfl⟩

theorem SameButPairs.trans {u t s : State} (h : SameButPairs u t) (k : SameButPairs t s) : SameButPairs u s := ⟨fun m => (h.pair m).trans (k.pair m)⟩

theorem SameButPairs.ite {c : Prop} [Decidable c] {t u s : State} (ht : SameButPairs t s) (hu : SameButPairs u s) : SameButPairs (if c then t else u) s := by
  split
  · exact ht
  · exact hu

theorem samePairs_of_chans {t s : State} (h : t.chans = s.chans) : SameButPairs t s := ⟨fun m => by rw [h]⟩

theorem SameButPairs.of_chans {u t s : State} (h : SameButPairs t s) (hu : u.chans = t.chans) : SameButPairs u s := (samePairs_of_chans hu).trans h

theorem SameButReport.pairs {t s : State} (h : SameButReport t s) : SameButPairs t s :=
  samePairs_of_chans (h.push (chans := false)).chans_eq

theorem updChan_pairs {s : State} {n : Chan} {f : Channel → Channel} (h : pairOf (f s.chans[n]) = pairOf s.chans[n]) : SameButPairs (updChan s n f) s where
  pair m := by
    rw [updChan_get]
    split
    · next hm => rw [h, hm]
    · rfl

theorem updForce_pairs (s : State) (n : Chan) (f : Force → Force) : SameButPairs (updForce s n f) s := updChan_pairs rfl

theorem updGraver_pairs (s : State) (n : Chan) (f : Graver → Graver) : SameButPairs (updGraver s n f) s := updChan_pairs rfl

theorem updCtx_pairs (s : State) (n : Chan) (x : Ctx) (f : Context → Context) : SameButPairs (updCtx s n x f) s := updGraver_pairs ..

theorem updSlot_pairs (s : State) (n : Chan) (f : Slot → Slot) : SameButPairs (updSlot s n f) s := updForce_pairs ..

/-- What a write of the measuring path leaves of a pair. -/
def KeepsPair (f : Measure → Measure) : Prop :=
  ∀ m, (f m).convs = m.convs ∧ (f m).extV = m.extV ∧ (f m).extI = m.extI ∧ (f m).extRanges = m.extRanges

theorem updMeas_pairs {s : State} {n : Chan} {f : Measure → Measure} (h : KeepsPair f := by exact fun _ => ⟨rfl, rfl, rfl, rfl⟩) : SameButPairs (updMeas s n f) s := by
  obtain ⟨hconvs, hv, hi, hr⟩ := h s.chans[n].meas
  refine updChan_pairs ?_
  unfold pairOf
  dsimp only
  rw [hconvs, hv, hi, hr]

theorem cpsSend_pairs (s : State) (b : Bank) (slot op arg : Nat) : SameButPairs (cpsSend s b slot op arg) s := ⟨fun _ => rfl⟩

theorem cpsFor_pairs (s : State) (n : Chan) (op arg : Nat) : SameButPairs (cpsFor s n op arg) s := cpsSend_pairs ..

theorem foldl_pairs {α : Type} (f : State → α → State) (hf : ∀ s a, SameButPairs (f s a) s) (l : List α) (s : State) : SameButPairs (l.foldl f s) s :=
  foldl_related (R := fun s t => SameButPairs t s) SameButPairs.refl (fun h k => h.trans k) hf l s

/-! ### Events and safe states -/

theorem holdWord_pairs (mode : SMode) (s : State) (n : Chan) (tick order : Nat) (w : Word) : SameButPairs (holdWord mode s n tick order w) s := by
  unfold holdWord
  exact .ite updMeas_pairs (.refl s)

theorem eventWord_pairs (s : State) (n : Chan) (tick kind source detail : Nat) : SameButPairs (eventWord s n tick kind source detail) s := by
  unfold eventWord dateWord
  exact .ite (.refl s) (holdWord_pairs ..)

theorem noteCflag_pairs (s : State) (n : Chan) (i tick : Nat) : SameButPairs (noteCflag s n i tick) s := by
  unfold noteCflag
  split
  · exact ⟨fun _ => rfl⟩
  · exact updChan_pairs rfl

theorem endRun_inUse (relieved : Bool) (code : Nat) (c : Calib) : (endRun relieved code c).slots[(endRun relieved code c).slot]? = c.slots[c.slot]? := by
  have hother : 1 - c.slot ≠ c.slot := by omega
  show (if c.storing.isSome then c.slots.set (1 - c.slot) none else c.slots)[c.slot]? = c.slots[c.slot]?
  split
  · exact List.getElem?_set_ne hother
  · rfl

theorem pairOf_cal {c : Channel} {k : Calib} (h : k.slots[k.slot]? = c.cal.slots[c.cal.slot]?) : pairOf { c with cal := k } = pairOf c := by
  unfold pairOf
  dsimp only
  rw [h]

theorem abortRun_pairs (s : State) (n : Chan) (code : Nat) : SameButPairs (abortRun s n code) s := by
  have hend : SameButPairs (updChan s n fun c => if runActive c.cal (reliefForRun s n) then { c with cal := endRun c.force.relieved code c.cal } else c) s := by
    refine updChan_pairs ?_
    split
    · exact pairOf_cal (endRun_inUse ..)
    · rfl
  unfold abortRun
  dsimp only
  exact .ite (hend.of_chans rfl) hend

theorem haltCtx_pairs (s : State) (n : Chan) (x : Ctx) : SameButPairs (haltCtx s n x) s := by
  unfold haltCtx
  exact ((updGraver_pairs ..).trans (updCtx_pairs ..)).trans (samePairs_of_chans (t := { s with mm := _ }) rfl)

theorem updCal_pairs {s : State} {n : Chan} {g : Channel → Calib} (h : (g s.chans[n]).slots[(g s.chans[n]).slot]? = s.chans[n].cal.slots[s.chans[n].cal.slot]?) :
    SameButPairs (updChan s n fun c => { c with cal := g c }) s := updChan_pairs (pairOf_cal h)

theorem dropRelief_pairs (s : State) (b : Bank) : SameButPairs (dropRelief s b) s := by
  rw [dropRelief]
  split
  · exact .refl s
  · have hreliefs (u : State) (r) : SameButPairs { u with reliefs := r } u := ⟨fun _ => rfl⟩
    refine SameButPairs.trans (hreliefs _ _) (SameButPairs.trans (haltCtx_pairs ..) (SameButPairs.trans (haltCtx_pairs ..) ?_))
    refine SameButPairs.trans (updCal_pairs ?_) (SameButPairs.trans (updForce_pairs ..) (SameButPairs.trans (updForce_pairs ..)
      (SameButPairs.trans (cpsSend_pairs ..) (cpsSend_pairs ..))))
    split
    · exact endRun_inUse false 0x15 _
    · split
      · rfl
      · rfl

theorem sendDisable_pairs (s : State) (n : Chan) : SameButPairs (sendDisable s n) s := by
  unfold sendDisable
  exact (updForce_pairs ..).trans (cpsFor_pairs ..)

theorem openNow_pairs (s : State) (n : Chan) (cause : Nat) : SameButPairs (openNow s n cause) s := by
  unfold openNow
  exact .ite ((sendDisable_pairs ..).trans (updForce_pairs ..)) (.refl s)

theorem inertIntents_pairs (s : State) (n : Chan) : SameButPairs (inertIntents s n) s := by
  rw [inertIntents]
  exact (updForce_pairs ..).trans (updGraver_pairs ..)

theorem concurrentTrigger_pairs (s : State) (n : Chan) (cause : Nat) : SameButPairs (concurrentTrigger s n cause) s := by
  unfold concurrentTrigger
  dsimp only
  split
  · have hdated (t : State) (g : List Dated → List Dated) : SameButPairs (updMeas t n fun m => { m with dated := g m.dated }) t :=
      updMeas_pairs
    refine .ite (updForce_pairs ..) (.ite ?_ ((openNow_pairs ..).trans ?_))
    all_goals exact (hdated _ _).trans ((updForce_pairs ..).trans (updForce_pairs ..))
  · exact .refl s

theorem safeTrigger_pairs (s : State) (n : Chan) (cause : Nat) : SameButPairs (safeTrigger s n cause) s := by
  rw [safeTrigger]
  refine .ite (concurrentTrigger_pairs ..) ?_
  refine SameButPairs.trans (raiseAt_same ..).pairs (SameButPairs.trans (eventWord_pairs ..) ?_)
  refine SameButPairs.trans (SameButPairs.ite (dropRelief_pairs ..) (.refl _)) (SameButPairs.trans (noteCflag_pairs ..) ?_)
  exact (abortRun_pairs ..).trans ((openNow_pairs ..).trans ((inertIntents_pairs ..).trans ((updGraver_pairs ..).trans (updForce_pairs ..))))

/-! ### The words of a stream -/

theorem changeQueue_pairs (s : State) (q : Fin 256) (f : Queue → Queue) : SameButPairs (changeQueue s q f) s :=
  samePairs_of_chans (changeQueue_same false s q f).chans_eq

theorem updQueue_pairs (s : State) (q : Fin 256) (f : Queue → Queue) : SameButPairs (updQueue s q f) s := ⟨fun _ => rfl⟩

theorem chainEntry_pairs (s : State) (n : Chan) (first : Option Nat) (ws : List Word) (gap : Nat) (seq : Option Nat) (disable : Bool) :
    SameButPairs (chainEntry s n first ws gap seq disable) s := updChan_pairs rfl

theorem commitGap_pairs (s : State) (q : Fin 256) (disable : Bool) : SameButPairs (commitGap s q disable) s := by
  rw [commitGap]
  split
  · exact (raiseAt_same ..).pairs.trans ((chainEntry_pairs ..).trans (changeQueue_pairs ..))
  · exact (raiseAt_same ..).pairs.trans (changeQueue_pairs ..)

theorem pushWord_pairs (s : State) (q : Fin 256) (w : Word) (hdr : Bool) : SameButPairs (pushWord s q w hdr) s := by
  rw [pushWord]
  refine .ite (updQueue_pairs ..) (.ite ((updQueue_pairs ..).trans ?_) (.ite ((changeQueue_pairs ..).trans ?_) ((changeQueue_pairs ..).trans ?_)))
  all_goals exact .ite ((commitGap_pairs ..).trans (updQueue_pairs ..)) (updQueue_pairs ..)

theorem pushWords_pairs (s : State) (q : Fin 256) (ws : List Word) : SameButPairs (pushWords s q ws) s := by
  induction ws generalizing s with
  | nil => exact .refl s
  | cons w ws ih => exact (ih (pushWord s q w false)).trans (pushWord_pairs ..)

theorem pushEnd_pairs (s : State) (q : Fin 256) (w : Word) : SameButPairs (pushEnd s q w).1 s := by
  rw [pushEnd]
  split
  · dsimp only
    exact (updQueue_pairs ..).trans (pushWord_pairs ..)
  · dsimp only
    exact (updQueue_pairs ..).trans (pushWord_pairs ..)

theorem closePacket_pairs (s : State) (n : Chan) (status : Nat) : SameButPairs (closePacket s n status) s := by
  rw [closePacket]
  split
  · exact .refl s
  · next p _ =>
    have hend : SameButPairs (updMeas (pushEnd s (resultQueue n) (resultWord 0xE status (p.count + 1))).1 n fun m => { m with packet := none }) s :=
      SameButPairs.trans updMeas_pairs (pushEnd_pairs ..)
    dsimp only
    split
    · exact SameButPairs.trans updMeas_pairs (SameButPairs.trans (chainEntry_pairs ..) hend)
    · exact hend

theorem openPacket_pairs (s : State) (n : Chan) (b : Batch) : SameButPairs (openPacket s n b) s := by
  rw [openPacket]
  exact SameButPairs.trans updMeas_pairs ((pushWords_pairs ..).trans (pushWord_pairs ..))

theorem commitWords_pairs (s : State) (n : Chan) (b : Batch) : SameButPairs (commitWords s n b) s := by
  rw [commitWords]
  dsimp only
  split
  · exact SameButPairs.trans updMeas_pairs
      ((pushWords_pairs ..).trans ((openPacket_pairs ..).trans (.ite (closePacket_pairs ..) (.refl s))))
  · exact SameButPairs.trans updMeas_pairs ((pushWords_pairs ..).trans (.ite (closePacket_pairs ..) (.refl s)))

theorem closeFor_pairs (s : State) (n : Chan) (c : Nat × Nat) (next : Option Batch) : SameButPairs (closeFor s n c next) s := by
  rw [closeFor]
  split
  · dsimp only
    split
    · exact .refl s
    · exact closePacket_pairs ..
  · exact .refl s

theorem flushUntil_pairs (fuel : Nat) (s : State) (n : Chan) (coming : Option Batch) (words closes : Nat) :
    SameButPairs (flushUntil fuel s n coming words closes) s := by
  induction fuel generalizing s with
  | zero => exact .refl s
  | succ fuel ih =>
    rw [flushUntil]
    dsimp only
    split
    · split
      · split
        · exact (ih _).trans ((closeFor_pairs ..).trans updMeas_pairs)
        · exact .refl s
      · exact .refl s
    · split
      · exact .refl s
      · split
        · exact (ih _).trans ((commitWords_pairs ..).trans updMeas_pairs)
        · exact .refl s

theorem flushStream_pairs (s : State) (n : Chan) (coming : Option Batch) (words closes : Nat) :
    SameButPairs (flushStream s n coming words closes) s := flushUntil_pairs ..

/-! ### The stages of a handover -/

theorem settle_pairs (s : State) (n : Chan) (x : Ctx) : SameButPairs (settle s n x) s := by
  unfold settle
  exact .ite (haltCtx_pairs ..) (.ite (haltCtx_pairs ..) (.refl s))

theorem completeCounts_pairs (s : State) (n : Chan) (tick : Nat) : SameButPairs (completeCounts s n tick) s := by
  unfold completeCounts
  refine foldl_pairs _ (fun t x => ?_) _ s
  split
  · exact .ite ((settle_pairs ..).trans (updCtx_pairs ..)) (.refl t)
  · exact .refl t

theorem offerPair_pairs (s : State) (n : Chan) (k : Conv) (inp : Bool) (v i : Int) (r : Ranges) (qv qi : Nat) : SameButPairs (offerPair s n k inp v i r qv qi) s := by
  have hoffer (t : State) (u : Fin 144) (code : Int) (now : Nat) (of : Nat → Nat) (qual tick : Nat) : SameButPairs (offerChannelUnit t u code now of qual tick) t :=
    ⟨fun _ => rfl⟩
  unfold offerPair
  exact .ite ((hoffer ..).trans (.ite (hoffer ..) (.refl s))) (.ite (hoffer ..) (.refl s))

theorem updApplied_pairs (s : State) (n : Chan) (f : Intent → Intent) : SameButPairs (updApplied s n f) s := by
  rw [updApplied]
  exact .ite ((updCtx_pairs ..).trans (updForce_pairs ..)) (updForce_pairs ..)

theorem autoRequest_pairs (s : State) (n : Chan) (up : Bool) : SameButPairs (autoRequest s n up) s := by
  unfold autoRequest
  refine .ite (.refl s) ?_
  split
  · exact .refl s
  · refine .ite (.refl s) ?_
    split
    · exact (updApplied_pairs ..).trans (updForce_pairs ..)
    · exact .ite (.refl s) (updApplied_pairs ..)

theorem autorangeSample_pairs (s : State) (n : Chan) (ranging : Bool) (v i : Int) (vOut iOut : Bool) :
    SameButPairs (autorangeSample s n ranging v i vOut iOut) s := by
  have hcount (c : Nat → Nat) : SameButPairs (updMeas s n fun m => { m with downCount := c m.downCount }) s := updMeas_pairs
  unfold autorangeSample
  exact .ite (hcount fun _ => 0) (.ite ((autoRequest_pairs ..).trans (hcount fun _ => 0)) (.ite (hcount (· + 1)) (hcount fun _ => 0)))

theorem emitOutput_pairs (s : State) (n : Chan) (k : Conv) (w : Nat × Nat) : SameButPairs (emitOutput s n k w) s := by
  unfold emitOutput
  dsimp only
  have hoffer : SameButPairs (if k.vigil then s else offerPair s n k true (satCode (outputOf s.chans[n].meas k w).v) (satCode (outputOf s.chans[n].meas k w).i)
      k.ranges (outputOf s.chans[n].meas k w).qv (outputOf s.chans[n].meas k w).qi) s := .ite (.refl s) (offerPair_pairs ..)
  refine .ite hoffer ((completeCounts_pairs ..).trans ?_)
  split
  · exact (commitWords_pairs ..).trans (SameButPairs.trans updMeas_pairs hoffer)
  · exact SameButPairs.trans updMeas_pairs hoffer

theorem complianceTick_pairs (mode : SMode) (s : State) (n : Chan) (tick : Nat) (clamping upper : Bool) :
    SameButPairs (complianceTick mode s n tick clamping upper) s := by
  unfold complianceTick
  refine .ite (.ite (updForce_pairs ..) ?_) (.ite (.ite ?_ (updForce_pairs ..)) (.refl s))
  · exact (raiseAt_same ..).pairs.trans ((holdWord_pairs ..).trans (updForce_pairs ..))
  · exact (holdWord_pairs ..).trans (updForce_pairs ..)

/-! ### The status words of the poll before a conversion -/

theorem startIdentity_pairs (s : State) (n : Chan) : SameButPairs (startIdentity s n) s := (cpsFor_pairs ..).trans (updSlot_pairs ..)

theorem openOthers_pairs (s : State) (n : Chan) (w : BitVec 14) : SameButPairs (openOthers s n w) s := by
  unfold openOthers
  exact .ite ((updForce_pairs ..).trans (foldl_pairs _ (fun _ _ => cpsFor_pairs ..) _ _)) (.refl s)

theorem pollCrosses_pairs (s : State) (b : Bank) (n : Chan) (w : BitVec 14) : SameButPairs (pollCrosses s b n w) s := by
  rw [pollCrosses]
  dsimp only
  have hslot (f : Slot → Slot) (c : Prop) [Decidable c] : SameButPairs (openOthers (if c then startIdentity (updSlot s n f) n else updSlot s n f) n w) s :=
    (openOthers_pairs ..).trans (.ite ((startIdentity_pairs ..).trans (updSlot_pairs ..)) (updSlot_pairs ..))
  split
  · exact .ite ((updForce_pairs ..).trans ((cpsFor_pairs ..).trans ((cpsFor_pairs ..).trans (hslot ..)))) (hslot ..)
  · exact .ite ((safeTrigger_pairs ..).trans (hslot ..)) (hslot ..)

theorem crossStatus_pairs (s : State) (b : Bank) (tick : Nat) : SameButPairs (crossStatus s b tick) s := by
  unfold crossStatus
  refine SameButPairs.trans (foldl_pairs _ (fun t a => ?_) _ _) ⟨fun _ => rfl⟩
  exact .ite ((pollCrosses_pairs ..).trans (updSlot_pairs ..)) (updSlot_pairs ..)

end Sys2Proof.Machine
end

section
/-!
PROOFS. The world at the sample ticks (R26, R27, R68 to R70, R98, R105, R107, R119, R387).
-/
namespace Sys2Proof.Machine

/-! ### Sample ticks and raw pairs -/

theorem sampleTick_unlocked {s : State} (h : s.tb.lock = false) : exec .sampleTick s = .next s := by
  show execSampleTick s = .next s
  unfold execSampleTick
  rw [h]
  rfl

theorem sampleTick_locked {s : State} (h : s.tb.lock = true) : Completes .sampleTick s fun t => Ticked (nextSample s) t.tb s.tb := by
  refine ⟨sampleTick s (nextSample s), ?_, sampleTick_clock ..⟩
  show execSampleTick s = _
  unfold execSampleTick
  rw [h]
  rfl

/-- A result is calibrated by the set in use only. -/
theorem calibrated_congr {d c : Calib} (h : d.slots[d.slot]? = c.slots[c.slot]?) (k : Nat) (raw : BitVec 20) : calibrated d k raw = calibrated c k raw := by
  unfold calibrated calTerms calTrims
  rw [h]

/-- What a handover of a pair leaves: the pair as it was calibrated. -/
def HandedOver (k : Conv) (v i : BitVec 20) (d c : Channel) : Prop :=
  d.meas.extV = calibrated c.cal k.ranges.v v ∧ d.meas.extI = calibrated c.cal (3 + k.ranges.i) i
    ∧ d.meas.extRanges = k.ranges ∧ d.meas.convs = c.meas.convs

theorem HandedOver.of_pairs {k : Conv} {v i : BitVec 20} {e d c b : Channel} (he : pairOf e = pairOf d) (h : HandedOver k v i d c)
    (hc : pairOf c = pairOf b) : HandedOver k v i e b := by
  obtain ⟨hv, hi, hr, hconvs⟩ := h
  simp only [pairOf, Prod.mk.injEq] at he hc
  obtain ⟨-, econvs, ev, ei, er⟩ := he
  obtain ⟨hcal, cconvs, -, -, -⟩ := hc
  exact ⟨by rw [ev, hv, calibrated_congr hcal], by rw [ei, hi, calibrated_congr hcal], er.trans hr, econvs.trans (hconvs.trans cconvs)⟩

theorem HandedOver.later {k : Conv} {v i : BitVec 20} {u t : State} {n : Chan} {c : Channel} (h : SameButPairs u t) (ht : HandedOver k v i t.chans[n] c) :
    HandedOver k v i u.chans[n] c := .of_pairs (h.pair n) ht rfl

theorem updMeas_handedOver {s : State} {n : Chan} {k : Conv} {v i : BitVec 20} {c : Channel} {f : Measure → Measure} (hc : pairOf s.chans[n] = pairOf c)
    (h : ∀ m, (f m).extV = calibrated c.cal k.ranges.v v ∧ (f m).extI = calibrated c.cal (3 + k.ranges.i) i ∧ (f m).extRanges = k.ranges ∧ (f m).convs = m.convs) :
    HandedOver k v i (updMeas s n f).chans[n] c := by
  obtain ⟨hv, hi, hr, hconvs⟩ := h s.chans[n].meas
  simp only [pairOf, Prod.mk.injEq] at hc
  obtain ⟨-, econvs, -⟩ := hc
  rw [updMeas, updChan_get, if_pos rfl]
  exact ⟨hv, hi, hr, hconvs.trans econvs⟩

theorem handoff_handsOver (s : State) (n : Chan) (k : Conv) (v i : BitVec 20) (vOut iOut clamping upper : Bool) :
    HandedOver k v i (handoff s n k v i vOut iOut clamping upper).chans[n] s.chans[n] := by
  have hwin (t : State) : SameButPairs (match k.win with | some w => emitOutput t n k w | none => t) t := by
    split
    · exact emitOutput_pairs ..
    · exact .refl t
  unfold handoff
  dsimp only
  refine .later (flushStream_pairs ..) (.later (hwin _) (.later (flushStream_pairs ..) (.later (autorangeSample_pairs ..) (.later (offerPair_pairs ..) ?_))))
  refine .later (.ite (noteCflag_pairs ..) (.refl _)) (.later (updChan_pairs rfl) (.later (updForce_pairs ..) ?_))
  exact updMeas_handedOver ((complianceTick_pairs ..).pair n) fun _ => ⟨rfl, rfl, rfl, rfl⟩

/-- A handover takes the oldest conversion of the channel. -/
theorem rawPairHandoff_handsOver {s : State} {n : Chan} {k : Conv} {rest : List Conv} (v i : BitVec 20) (vOut iOut clamping upper : Bool)
    (hk : s.chans[n].meas.convs = k :: rest) (hdue : boundaryDue s k.tick = false) :
    Completes (.rawPairHandoff n v i vOut iOut clamping upper) s fun t =>
      t.chans[n].meas.extV = calibrated s.chans[n].cal k.ranges.v v ∧ t.chans[n].meas.extI = calibrated s.chans[n].cal (3 + k.ranges.i) i
        ∧ t.chans[n].meas.extRanges = k.ranges ∧ t.chans[n].meas.convs = rest ∧ t.tb = s.tb := by
  have hcross := (crossStatus_pairs (updMeas s n fun m => { m with convs := rest }) (bankOf n) k.tick).pair n
  obtain ⟨hv, hi, hr, hconvs⟩ := HandedOver.of_pairs rfl
    (handoff_handsOver (crossStatus (updMeas s n fun m => { m with convs := rest }) (bankOf n) k.tick) n k v i vOut iOut clamping upper) hcross
  rw [updMeas, updChan_get, if_pos rfl] at hv hi hconvs
  refine ⟨_, ?_, hv, hi, hr, hconvs, ?_⟩
  · show execRawPairHandoff n v i vOut iOut clamping upper s = _
    unfold execRawPairHandoff
    rw [hk]
    dsimp only
    rw [hdue, if_neg Bool.false_ne_true]
    rfl
  · exact clock_of_ledger ((handoff_ledger ..).trans ((crossStatus_ledger ..).trans (updMeas_ledger s n fun m => { m with convs := rest })))

theorem rawPairHandoff_idle {s : State} {n : Chan} (v i : BitVec 20) (vOut iOut clamping upper : Bool) (h : s.chans[n].meas.convs = []) :
    exec (.rawPairHandoff n v i vOut iOut clamping upper) s = .next s := by
  show execRawPairHandoff n v i vOut iOut clamping upper s = _
  unfold execRawPairHandoff
  rw [h]

/-! ### Ranging downwards -/

/-- A channel that an automatic range request may be made for (R105). -/
theorem autoRequest_asks {s : State} {n : Chan} {w : Bool × Nat} (up : Bool) (hauto : s.chans[n].meas.cfg.auto = true)
    (hmode : s.chans[n].force.mode ≠ .inert) (hldid : s.chans[n].force.ldid = none) (hseq : s.chans[n].force.seq ≠ .entering .parking)
    (hsafe : s.chans[n].force.safe = none) (hw : autoTarget s.chans[n] up = some w)
    (hfit : clampsFit s.chans[n].force (withRange s.chans[n].force.ranges w) = true) :
    (∀ b, s.chans[n].force.bridge = some b → autoRequest s n up =
        updApplied (updForce s n fun f => { f with waitingAuto := some w }) n fun i => { i with ranges := b.goal })
      ∧ (s.chans[n].force.bridge = none → s.chans[n].force.applied.ranges = s.chans[n].force.ranges →
        autoRequest s n up = updApplied s n fun i => { i with ranges := withRange s.chans[n].force.ranges w }) := by
  have hopen : (!s.chans[n].meas.cfg.auto || s.chans[n].force.mode == .inert || s.chans[n].force.ldid.isSome
      || s.chans[n].force.seq == .entering .parking || s.chans[n].force.safe.isSome) = false := by
    simpa using ⟨⟨⟨⟨hauto, hmode⟩, hldid⟩, hseq⟩, hsafe⟩
  unfold autoRequest
  dsimp only
  rw [hopen, if_neg Bool.false_ne_true, hw]
  dsimp only
  rw [hfit, if_neg (by simp)]
  refine ⟨fun b hb => ?_, fun hb hr => ?_⟩
  · rw [hb]
  · rw [hb]
    dsimp only
    rw [hr, if_neg (by simp)]

theorem autorangeDown_asks {s : State} {n : Chan} (h : s.chans[n].meas.cfg.d ≤ s.chans[n].meas.downCount) :
    exec (.autorangeDown n) s = .next (autoRequest s n false) := by
  show execAutorangeDown n s = _
  unfold execAutorangeDown
  rw [if_pos h]

/-! ### Packets -/

theorem packetAge_late {s : State} {n : Chan} {q : Packet} {last : Nat} (hq : s.chans[n].meas.packet = some q) (hconvs : s.chans[n].meas.convs ≠ [])
    (hlast : s.tb.lastSample = some last) (h : (q.first + s.chans[n].meas.cfg.ageMs * 1600000 + 799) / 800 * 800 ≤ last) :
    exec (.packetAge n) s = .next
      (updMeas s n fun m => { m with closes := m.closes ++ [((q.first + s.chans[n].meas.cfg.ageMs * 1600000 + 799) / 800 * 800, 2)] }) := by
  have hbusy (t : Nat) : (askClose s n t 2).chans[n].meas.convs.isEmpty = false := by
    rw [askClose, updMeas, updChan_get, if_pos rfl]
    exact List.isEmpty_eq_false_iff.2 hconvs
  show execPacketAge n s = _
  unfold execPacketAge
  rw [hq]
  dsimp only
  rw [hlast]
  dsimp only
  rw [if_pos h, flushIdle, hbusy, if_neg Bool.false_ne_true, askClose]

theorem packetAge_young {s : State} {n : Chan} {q : Packet} {last : Nat} (hq : s.chans[n].meas.packet = some q)
    (hlast : s.tb.lastSample = some last) (h : last < (q.first + s.chans[n].meas.cfg.ageMs * 1600000 + 799) / 800 * 800) :
    exec (.packetAge n) s = .next s := by
  show execPacketAge n s = _
  unfold execPacketAge
  rw [hq]
  dsimp only
  rw [hlast]
  dsimp only
  rw [if_neg (Nat.not_le.2 h)]

/-! ### Stability, trim, LDID, rails -/

theorem eventWord_force (s : State) (n m : Chan) (tick kind source detail : Nat) : (eventWord s n tick kind source detail).chans[m].force = s.chans[m].force := by
  obtain ⟨f, hf⟩ := eventWord_updMeas s n tick kind source detail
  rw [hf, updMeas, updChan_get]
  split
  · next h => rw [h]
  · rfl

theorem updApplied_force (s : State) (n : Chan) (f : Intent → Intent) :
    (updApplied s n f).chans[n].force = { s.chans[n].force with applied := f s.chans[n].force.applied } := by
  rw [updApplied]
  split
  · rw [updCtx, updGraver, updChan_get, if_pos rfl, updForce_get, if_pos rfl]
  · rw [updForce_get, if_pos rfl]

theorem stabilityAlarm_alarms {s : State} {n : Chan} {xs : List Nat} (hmode : s.chans[n].force.mode ≠ .inert) (hwin : s.chans[n].force.comp.swWin ≠ 0)
    (hticks : 16 * s.chans[n].force.comp.swWin ≤ s.chans[n].force.swTicks) (hlen : xs.length = s.chans[n].force.comp.swWin)
    (hall : ∀ x ∈ xs, 4 * (s.chans[n].force.comp.swThr + 1) ≤ x) :
    Completes (.stabilityAlarm n xs) s fun t => t.chans[n].force.osc = true
      ∧ t.chans[n].force.applied.comp.comp = s.chans[n].force.applied.comp.comp
        + (if s.chans[n].force.comp.swAuto = true ∧ s.chans[n].force.comp.comp < s.chans[n].force.comp.compMax
            ∧ s.chans[n].force.applied.comp.comp < s.chans[n].force.comp.compMax then 1 else 0) := by
  have hquiet : (s.chans[n].force.mode == .inert || s.chans[n].force.comp.swWin = 0 || s.chans[n].force.swTicks < 16 * s.chans[n].force.comp.swWin
      || xs.length != s.chans[n].force.comp.swWin || !xs.all (fun c => c ≥ 4 * (s.chans[n].force.comp.swThr + 1))) = false := by
    simpa using ⟨⟨⟨⟨hmode, hwin⟩, hticks⟩, hlen⟩, hall⟩
  show ∃ t, execStabilityAlarm n xs s = .next t ∧ _
  unfold execStabilityAlarm
  dsimp only
  rw [hquiet, if_neg Bool.false_ne_true]
  refine ⟨_, rfl, ?_⟩
  rw [raiseAt_chans, eventWord_force]
  split
  · next hstep =>
    rw [autoStep, updApplied_force, updForce_get, if_pos rfl, if_pos (by simpa [and_assoc] using hstep)]
    exact ⟨rfl, rfl⟩
  · next hstep =>
    rw [updForce_get, if_pos rfl, if_neg (by simpa [and_assoc] using hstep)]
    exact ⟨rfl, rfl⟩

theorem clampInt_eq {lo hi : Int} (h : lo ≤ hi) (v : Int) : clampInt lo hi v = max lo (min hi v) := by
  unfold clampInt
  split
  · omega
  · split
    · omega
    · omega

theorem trimStep_steps {s : State} {n : Chan} (hruns : trimRuns s.chans[n] = true) (hticks : 1024 ≤ s.chans[n].force.trimTicks) :
    exec (.trimStep n) s = .next (updForce s n fun f => { f with trim := trimToward (trimError s.chans[n]) f.trim, trimTicks := 0 }) := by
  show execTrimStep n s = _
  unfold execTrimStep
  rw [if_pos (by simpa using ⟨hruns, hticks⟩)]

theorem trimToward_of_pos {e : Int} (h : 0 < e) (t : Int) : trimToward e t = max (-2048) (min 2047 (t + 1)) := by
  rw [trimToward, if_pos h, clampInt_eq (by omega)]

theorem trimToward_of_neg {e : Int} (h : e < 0) (t : Int) : trimToward e t = max (-2048) (min 2047 (t - 1)) := by
  rw [trimToward, if_neg (by omega), if_pos h, clampInt_eq (by omega)]

theorem trimToward_zero (t : Int) : trimToward 0 t = max (-2048) (min 2047 t) := clampInt_eq (by omega) t

theorem trimStep_waits {s : State} {n : Chan} (h : trimRuns s.chans[n] = false ∨ s.chans[n].force.trimTicks < 1024) : exec (.trimStep n) s = .next s := by
  show execTrimStep n s = _
  unfold execTrimStep
  rw [if_neg]
  rw [Bool.and_eq_true, decide_eq_true_eq]
  rintro ⟨hruns, hticks⟩
  rcases h with h | h
  · exact ne_true_of_eq_false h hruns
  · omega

theorem ldidPerturbCount_ends {s : State} {n : Chan} {l : LdidRun} (hl : s.chans[n].force.ldid = some l) (hphase : l.phase = 1 ∨ l.phase = 2)
    (hticks : l.ticks = 32) :
    exec (.ldidPerturbCount n) s = .next (updForce s n fun f => { f with ldid := some { l with phase := l.phase + 1, ticks := 0 } }) := by
  refine congrArg Host.Outcome.next (updForce_congr ?_)
  rw [hl, Option.map_some, if_pos (by simp [hphase, hticks])]

theorem ldidFitDone_writes {s : State} {n : Chan} {l : LdidRun} {x : Ctx} {dest : BitVec 4} (hl : s.chans[n].force.ldid = some l) (hphase : l.phase = 3)
    (hbusy : s.chans[n].graver.busy = some (x, .ldid dest)) :
    exec (.ldidFitDone n) s =
      .next (finishBusy (updCtx (updForce s n fun f => { f with ldid := none }) n x fun k => setGr k dest (ldidWord l)) n x) := by
  have hkept : (updForce s n fun f => { f with ldid := none }).chans[n].graver.busy = some (x, .ldid dest) := by
    rw [updForce, updChan_get, if_pos rfl]
    exact hbusy
  show execLdidFitDone n s = _
  unfold execLdidFitDone
  rw [hl]
  dsimp only
  rw [if_neg (by simp [hphase]), hkept]

theorem railFall_falls {s : State} {t : Nat} (n : Chan) (h : s.tb.lastSample = some t) : Completes (.railFall n) s fun u =>
    u.chans[n].force.railP = min s.chans[n].force.railP (heldCodes s.chans[n] t).1
      ∧ u.chans[n].force.railN = min s.chans[n].force.railN (heldCodes s.chans[n] t).2
      ∧ u.chans[n].force.dac = s.chans[n].force.dac ∧ u.mm = s.mm ∧ u.queues = s.queues := by
  show ∃ u, execRailFall n s = .next u ∧ _
  unfold execRailFall
  rw [h]
  refine ⟨_, rfl, ?_⟩
  rw [updForce_get, if_pos rfl]
  exact ⟨rfl, rfl, rfl, rfl, rfl⟩

/-- Settles O46. -/
theorem sampleWorld : Obligations.SampleWorld := by
  unfold Obligations.SampleWorld
  intro s n
  refine ⟨sampleTick_unlocked, sampleTick_locked, fun v i vo io cl up => ⟨rawPairHandoff_idle v i vo io cl up, fun k rest => rawPairHandoff_handsOver v i vo io cl up⟩,
    fun hd hauto hmode hldid hseq hsafe w hw hfit => ?ranging, fun q last hq hconvs hlast => ⟨packetAge_late hq hconvs hlast, packetAge_young hq hlast⟩,
    fun xs => stabilityAlarm_alarms, fun hruns hticks => ?trim, trimStep_waits,
    fun l hl => ⟨ldidPerturbCount_ends hl, fun x dest => ldidFitDone_writes hl⟩, fun t => railFall_falls n⟩
  case ranging =>
    obtain ⟨hbridge, hfree⟩ := autoRequest_asks false hauto hmode hldid hseq hsafe hw hfit
    rw [autorangeDown_asks hd]
    exact ⟨fun b hb => congrArg _ (hbridge b hb), fun hb hr => congrArg _ (hfree hb hr)⟩
  case trim =>
    rw [trimStep_steps hruns hticks]
    refine ⟨fun h => ?_, fun h => ?_, fun h => ?_⟩
    · simp only [trimToward_of_pos h]
    · simp only [trimToward_of_neg h]
    · simp only [h, trimToward_zero]

end Sys2Proof.Machine
end

section
/-!
PROOFS. Bridged range changes and the way out of INERT (R47, R73, R76, R77, R105, Tables 2.4 and 2.11).
-/
namespace Sys2Proof.Machine

theorem rangeSwitchMade_ready {s : State} {n : Chan} {b : Bridge} (hb : s.chans[n].force.bridge = some b) (hphase : b.phase = .closing)
    (hdone : cpsPending s n [opCloseI, opCloseV] = false) :
    exec (.rangeSwitchMade n) s = .next (updForce s n fun f => { f with bridge := some { b with ready := true } }) := by
  show execRangeSwitchMade n s = _
  unfold execRangeSwitchMade
  dsimp only
  rw [hdone, if_neg Bool.false_ne_true, hb]
  dsimp only
  rw [if_pos (beq_iff_eq.2 hphase)]

theorem rangeSwitchMade_leaves {s : State} {n : Chan} (hb : s.chans[n].force.bridge = none) (hseq : s.chans[n].force.seq = .leaving .switches)
    (hdone : cpsPending s n [opCloseI, opCloseV] = false) :
    exec (.rangeSwitchMade n) s = .next (updForce (cpsFor s n opEnable 1) n fun f => { f with seq := .leaving .enabling }) := by
  show execRangeSwitchMade n s = _
  unfold execRangeSwitchMade
  dsimp only
  rw [hdone, if_neg Bool.false_ne_true, hb]
  dsimp only
  rw [if_pos (beq_iff_eq.2 hseq)]

theorem rangeSwitchMade_waits {s : State} {n : Chan} (h : cpsPending s n [opCloseI, opCloseV] = true) : exec (.rangeSwitchMade n) s = .next s := by
  show execRangeSwitchMade n s = _
  unfold execRangeSwitchMade
  dsimp only
  rw [h, if_pos rfl]

theorem rangeSwitchBroken_ready {s : State} {n : Chan} {b : Bridge} (hb : s.chans[n].force.bridge = some b) (hphase : b.phase = .opening)
    (hdone : cpsPending s n [opOpenI, opOpenV] = false) :
    exec (.rangeSwitchBroken n) s = .next (updForce s n fun f => { f with bridge := some { b with ready := true } }) := by
  show execRangeSwitchBroken n s = _
  unfold execRangeSwitchBroken
  rw [hb]
  dsimp only
  rw [if_pos (by simp [hphase, hdone])]

theorem bridgeSettleEnd_young {s : State} {n : Chan} {b : Bridge} (hb : s.chans[n].force.bridge = some b) (hticks : b.ticks < 15) :
    exec (.bridgeSettleEnd n) s = .next s := by
  show execBridgeSettleEnd n s = _
  unfold execBridgeSettleEnd
  rw [hb]
  dsimp only
  rw [if_neg (by simp [hticks])]

theorem bridgeSettleEnd_ends {s : State} {n : Chan} {b : Bridge} (hb : s.chans[n].force.bridge = some b) (hphase : b.phase = .settling) (hticks : 15 ≤ b.ticks) :
    exec (.bridgeSettleEnd n) s = .next (bridgeEnd s n) := by
  show execBridgeSettleEnd n s = _
  unfold execBridgeSettleEnd
  rw [hb]
  dsimp only
  rw [if_pos (by simp [hphase, hticks])]

/-- A channel whose bridged change has ended (R77). -/
def bridgeEnded (s : State) (n : Chan) : State := updMeas (updForce s n fun f => { f with bridge := none }) n fun m => { m with downCount := 0 }

theorem bridgeEnded_force (s : State) (n : Chan) : (bridgeEnded s n).chans[n].force = { s.chans[n].force with bridge := none } := by
  rw [bridgeEnded, updMeas_force, updForce_get, if_pos rfl]

theorem bridgeEnd_quiet {s : State} {n : Chan} (h : s.chans[n].force.waitingAuto = none ∨ s.chans[n].force.applied.ranges ≠ s.chans[n].force.ranges) :
    bridgeEnd s n = bridgeEnded s n := by
  unfold bridgeEnd
  dsimp only
  rw [← bridgeEnded, bridgeEnded_force]
  dsimp only
  split
  · next w hw =>
    rcases h with h | h
    · exact absurd (hw.symm.trans h) (by simp)
    · exact if_pos (bne_iff_ne.2 h)
  · rfl

/-- The ranges of a request that waited are judged by the channel in force (R105). -/
theorem bridgeEnd_takes {s : State} {n : Chan} {w : Bool × Nat} (hw : s.chans[n].force.waitingAuto = some w)
    (hr : s.chans[n].force.applied.ranges = s.chans[n].force.ranges) :
    (∀ r, waitingRanges s.chans[n].force w = some r →
        bridgeEnd s n = updApplied (updForce (bridgeEnded s n) n fun f => { f with waitingAuto := none }) n fun i => { i with ranges := r })
      ∧ (waitingRanges s.chans[n].force w = none → bridgeEnd s n = updForce (bridgeEnded s n) n fun f => { f with waitingAuto := none }) := by
  have hwait : (bridgeEnded s n).chans[n].force.waitingAuto = some w := by rw [bridgeEnded_force, ← hw]
  have happlied : (bridgeEnded s n).chans[n].force.applied.ranges = (bridgeEnded s n).chans[n].force.ranges := by rw [bridgeEnded_force, ← hr]
  have hsame : waitingRanges (bridgeEnded s n).chans[n].force w = waitingRanges s.chans[n].force w := by
    rw [bridgeEnded_force]
    rfl
  unfold bridgeEnd
  dsimp only
  rw [← bridgeEnded, hwait]
  dsimp only
  rw [happlied, if_neg (by simp), hsame]
  exact ⟨fun r h => by rw [h], fun h => by rw [h]⟩

theorem leaveInertTimeout_triggers {s : State} {n : Chan} (h : s.chans[n].force.seq = .leaving .rails) :
    exec (.leaveInertTimeout n) s = .next (safeTrigger s n 3) := by
  show execLeaveInertTimeout n s = _
  unfold execLeaveInertTimeout
  rw [if_pos (beq_iff_eq.2 h)]

theorem leaveInertTimeout_idle {s : State} {n : Chan} (h : s.chans[n].force.seq ≠ .leaving .rails) : exec (.leaveInertTimeout n) s = .next s := by
  show execLeaveInertTimeout n s = _
  unfold execLeaveInertTimeout
  rw [if_neg (fun e => h (beq_iff_eq.1 e))]

/-- Settles O47. -/
theorem rangeSequences : Obligations.RangeSequences := by
  unfold Obligations.RangeSequences
  intro s n
  refine ⟨fun b => rangeSwitchMade_ready, rangeSwitchMade_leaves, rangeSwitchMade_waits, fun b => rangeSwitchBroken_ready,
    fun b hb hphase hticks => ?ends, fun b hb _ => bridgeSettleEnd_young hb, leaveInertTimeout_triggers, leaveInertTimeout_idle⟩
  case ends =>
    rw [bridgeSettleEnd_ends hb hphase hticks]
    refine ⟨fun h => congrArg _ (bridgeEnd_quiet h), fun w hw hr => ?_⟩
    obtain ⟨hfits, hclamped⟩ := bridgeEnd_takes hw hr
    exact ⟨fun r h => congrArg _ (hfits r h), fun h => congrArg _ (hclamped h)⟩

end Sys2Proof.Machine
end

section
/-!
PROOFS. Relays, safe states and the latch (R49, R59, R78, R83, R84, R86, Tables 2.13 and 2.14).
-/
namespace Sys2Proof.Machine

/-! ### The output relay -/

theorem relayMakeDone_made {s : State} {n : Chan} (hrelay : s.chans[n].force.relay = .making) (hmain : mainRelief s n .connecting = none) :
    exec (.relayMakeDone n true) s = .next (updForce s n fun f => { f with relay := .closed }) := by
  have hkept : mainRelief (updForce s n fun f => { f with relay := .closed }) n .connecting = none := hmain
  show execRelayMakeDone n true s = _
  unfold execRelayMakeDone
  dsimp only
  rw [if_neg (by rw [hrelay]; decide), if_neg (by decide), hkept]

theorem relayMakeDone_stuck {s : State} {n : Chan} (hrelay : s.chans[n].force.relay = .making) (hmain : mainRelief s n .connecting = none) :
    exec (.relayMakeDone n false) s = .next s := by
  show execRelayMakeDone n false s = _
  unfold execRelayMakeDone
  rw [if_neg (by rw [hrelay]; decide), if_pos (by decide), relayStuck, hmain]

theorem relayMakeDone_idle {s : State} {n : Chan} (made : Bool) (h : s.chans[n].force.relay ≠ .making) : exec (.relayMakeDone n made) s = .next s := by
  show execRelayMakeDone n made s = _
  unfold execRelayMakeDone
  rw [if_pos (bne_iff_ne.2 h)]

/-- The channel once its relay has broken. -/
def relayBroken (s : State) (n : Chan) : State :=
  updForce s n fun f => { f with breakRuns := false, relay := if f.relay == .breaking then .open_ else f.relay }

theorem relayBroken_seq (s : State) (n : Chan) : (relayBroken s n).chans[n].force.seq = s.chans[n].force.seq := by
  rw [relayBroken, updForce_get, if_pos rfl]

theorem relayBreakDone_breaks {s : State} {n : Chan} (hruns : s.chans[n].force.breakRuns = true) (hrelay : s.chans[n].force.relay = .breaking)
    (hmain : mainRelief s n .isolating = none) (hseq : s.chans[n].force.seq ≠ .entering .relay) :
    exec (.relayBreakDone n) s = .next (updForce s n fun f => { f with breakRuns := false, relay := .open_ }) := by
  have hkept : mainRelief (relayBroken s n) n .isolating = none := hmain
  have hopen : relayBroken s n = updForce s n fun f => { f with breakRuns := false, relay := .open_ } :=
    updForce_congr (by rw [hrelay, if_pos (by decide)])
  show execRelayBreakDone n s = _
  unfold execRelayBreakDone
  dsimp only
  rw [if_neg (by rw [hruns]; decide), ← relayBroken, relayBroken_seq, if_neg (fun e => hseq (beq_iff_eq.1 e)), hkept]
  exact congrArg _ hopen

theorem sendDisable_get (s : State) (n : Chan) : (sendDisable s n).chans[n].force = outputsDisabled s.chans[n].force := by
  rw [sendDisable, updForce_get, if_pos rfl]
  rfl

/-- The way to INERT goes on to PARK once the relay is open (R49). -/
theorem relayBreakDone_parks {s : State} {n : Chan} (hruns : s.chans[n].force.breakRuns = true) (hrelay : s.chans[n].force.relay = .breaking)
    (hmain : mainRelief s n .isolating = none) (hseq : s.chans[n].force.seq = .entering .relay) :
    Completes (.relayBreakDone n) s fun t =>
      t.chans[n].force.relay = .open_ ∧ t.chans[n].force.seq = .entering .parking ∧ t.chans[n].force.cpsen = false := by
  have hkept : mainRelief (beginParking (relayBroken s n) n) n .isolating = none := hmain
  have hforce : (beginParking (relayBroken s n) n).chans[n].force =
      { outputsDisabled { s.chans[n].force with breakRuns := false, relay := .open_ } with seq := .entering .parking } := by
    rw [beginParking, updForce_get, if_pos rfl, sendDisable_get, relayBroken, updForce_get, if_pos rfl, hrelay, if_pos (by decide)]
  refine completes_of (t := beginParking (relayBroken s n) n) ?_ ?_
  · show execRelayBreakDone n s = _
    unfold execRelayBreakDone
    dsimp only
    rw [if_neg (by rw [hruns]; decide), ← relayBroken, relayBroken_seq, if_pos (beq_iff_eq.2 hseq), hkept]
  · rw [hforce]
    exact ⟨rfl, rfl, rfl⟩

theorem relayBreakDone_idle {s : State} {n : Chan} (h : s.chans[n].force.breakRuns = false) : exec (.relayBreakDone n) s = .next s := by
  show execRelayBreakDone n s = _
  unfold execRelayBreakDone
  rw [h, if_pos (by decide)]

/-! ### Safe states and the latch -/

theorem safeStateRampEnd_opens {s : State} {n : Chan} {q : Safe} (hq : s.chans[n].force.safe = some q) (hopened : q.opened = false) :
    Completes (.safeStateRampEnd n) s fun t =>
      t.chans[n].force.safe = some { q with opened := true } ∧ t.chans[n].force.oen = false ∧ t.chans[n].force.cpsen = false
        ∧ t.chans[n].force.fltLatch = s.chans[n].force.fltLatch ∧ t.mm = s.mm := by
  refine completes_of (t := sendDisable (updForce s n fun f => { oenLow f with safe := some { q with opened := true } }) n) ?_ ?_
  · show execSafeStateRampEnd n s = _
    unfold execSafeStateRampEnd
    rw [hq]
    dsimp only
    rw [hopened, if_neg Bool.false_ne_true]
  · rw [sendDisable_get, updForce_get, if_pos rfl]
    exact ⟨rfl, rfl, rfl, rfl, rfl⟩

/-- The channel whose FLT_n is low. -/
def fltSeen (s : State) (n : Chan) : State := updForce s n fun f => { f with fltLow := true }

theorem fltSeen_force (s : State) (n : Chan) : (fltSeen s n).chans[n].force = { s.chans[n].force with fltLow := true } := by
  rw [fltSeen, updForce_get, if_pos rfl]

theorem fltAssert_triggers (s : State) (n : Chan) : exec (.fltAssert n) s = .next (safeTrigger (fltSeen s n) n 1) := rfl

theorem safeTrigger_held {s : State} {n : Chan} (cause : Nat) (h : s.chans[n].force.fltLatch = true) : safeTrigger s n cause = concurrentTrigger s n cause := by
  rw [safeTrigger, h, if_pos rfl]

theorem fltAssert_settled {s : State} {n : Chan} (hlatch : s.chans[n].force.fltLatch = true) (hsafe : s.chans[n].force.safe = none) :
    exec (.fltAssert n) s = .next (updForce s n fun f => { f with fltLow := true }) := by
  rw [fltAssert_triggers, safeTrigger_held 1 (by rw [fltSeen_force]; exact hlatch), concurrentTrigger_settled 1 (by rw [fltSeen_force]; exact hsafe)]
  rfl

theorem fltAssert_later {s : State} {n : Chan} (hlatch : s.chans[n].force.fltLatch = true) (hsafe : s.chans[n].force.safe.isSome = true)
    (hat : s.chans[n].force.fltAt ≠ s.tb.now) :
    exec (.fltAssert n) s = .next (updForce s n fun f => { f with fltLow := true, causes := f.causes ++ [1] }) := by
  obtain ⟨q, hq⟩ := Option.isSome_iff_exists.1 hsafe
  rw [fltAssert_triggers, safeTrigger_held 1 (by rw [fltSeen_force]; exact hlatch),
    concurrentTrigger_later (q := q) 1 (by rw [fltSeen_force]; exact hq) (by rw [fltSeen_force]; exact hat), fltSeen, updForce_updForce]

/-- The force path of a channel that `FLT_n` latched again at the tick of its latch. -/
theorem fltAssert_together {s : State} {n : Chan} {q : Safe} (hlatch : s.chans[n].force.fltLatch = true) (hq : s.chans[n].force.safe = some q)
    (hat : s.chans[n].force.fltAt = s.tb.now) (hcause : 1 ≤ s.chans[n].force.fcause) : Completes (.fltAssert n) s fun t =>
      t.chans[n].force.fcause = 1 ∧ t.chans[n].force.causes = s.chans[n].force.causes ++ [1]
        ∧ t.chans[n].force.safe = some ⟨1, s.chans[n].force.safety.fault, true, q.imm⟩
        ∧ (q.opened = false → t.chans[n].force.oen = false ∧ t.chans[n].force.cpsen = false)
        ∧ t.chans[n].force.dac = s.chans[n].force.dac ∧ t.mm = s.mm := by
  have hseen : (fltSeen s n).chans[n].force.safe = some q := by rw [fltSeen_force]; exact hq
  obtain ⟨u, hu, hmm, heq⟩ := concurrentTrigger_together (s := fltSeen s n) 1 hseen (by rw [fltSeen_force]; exact hat)
  have hforce := (hu.chan n).force
  rw [onlyAt_self, fltSeen_force] at hforce
  have hmin : min s.chans[n].force.fcause 1 = 1 := Nat.min_eq_right hcause
  have hlatched : u.chans[n].force.fcause = 1 ∧ u.chans[n].force.causes = s.chans[n].force.causes ++ [1]
      ∧ u.chans[n].force.safe = some ⟨1, s.chans[n].force.safety.fault, true, q.imm⟩ ∧ u.chans[n].force.dac = s.chans[n].force.dac := by
    rw [hforce]
    simp only [withRequests, latchedAgain, hmin, safeCode, opensAtOnce]
    simp
  obtain ⟨hfcause, hcauses, hsafe, hdac⟩ := hlatched
  refine completes_of ((fltAssert_triggers s n).trans (congrArg _ ((safeTrigger_held 1 (by rw [fltSeen_force]; exact hlatch)).trans heq))) ?_
  split
  · next hopened => exact ⟨hfcause, hcauses, hsafe, fun h => absurd hopened (ne_true_of_eq_false h), hdac, hmm⟩
  · rw [openNow, if_pos (by decide), sendDisable_get, updForce_get, if_pos rfl]
    exact ⟨hfcause, hcauses, hsafe, fun _ => ⟨rfl, rfl⟩, hdac, hmm⟩

/-- FLT_n opens the outputs at once. -/
theorem firstTrigger_opened {now : Nat} {e f : Force} (h : e = withRequests e (firstTrigger now 1 f)) :
    e.fltLatch = true ∧ e.fcause = 1 ∧ e.oen = false ∧ e.safe = some ⟨1, f.safety.fault, true, false⟩ ∧ e.dac = f.dac ∧ e.bridge = none := by
  have hopens : firstTrigger now 1 f = outputsOff (latched now 1 f) := by rw [firstTrigger, if_pos (by decide)]
  rw [h, hopens]
  exact ⟨rfl, rfl, rfl, rfl, rfl, rfl⟩

theorem fltAssert_first {s : State} {n : Chan} (hlatch : s.chans[n].force.fltLatch = false) : Completes (.fltAssert n) s fun t =>
    t.chans[n].force.fltLatch = true ∧ t.chans[n].force.fcause = 1 ∧ t.chans[n].force.oen = false
      ∧ t.chans[n].force.safe = some ⟨1, s.chans[n].force.safety.fault, true, false⟩ ∧ t.chans[n].force.dac = s.chans[n].force.dac
      ∧ t.chans[n].force.bridge = none ∧ (∀ x : Ctx, (t.context n x).intent.mode = .inert) ∧ t.queues = s.queues := by
  have hseen : (fltSeen s n).chans[n].force.fltLatch = false := by rw [fltSeen_force]; exact hlatch
  have hrun := safeTrigger_first 1 hseen
  have hforce := (hrun.chan n).force
  rw [onlyAt_self, fltSeen_force] at hforce
  obtain ⟨hlatched, hcause, hoen, hsafe, hdac, hbridge⟩ := firstTrigger_opened hforce
  exact ⟨safeTrigger (fltSeen s n) n 1, fltAssert_triggers s n, hlatched, hcause, hoen, hsafe, hdac, hbridge, safeTrigger_inert 1 hseen, hrun.queues⟩

theorem fltLatchClear_clears {s : State} (p : Path) {n : Chan} (high : Bool) (hrec : s.fw.recovery = false) :
    exec (.fltLatchClear p n high) s = .next (clearFltLatch (updForce s n fun f => { f with fltLow := !high }) n) :=
  congrArg Host.Outcome.next (accessed_running hrec)

/-- The safe state that a cleared latch leaves: the DAC goes to PARK (R84). -/
def parkAfter (f : Force) : Safe := ⟨7, f.safety.park, match f.safe with | some q => q.opened | none => true, false⟩

theorem clearFltLatch_clears {s : State} {n : Chan} (hlatch : s.chans[n].force.fltLatch = true) (h : triggerPresent s n = false) :
    clearFltLatch s n = updForce s n fun f => { f with fltLatch := false, fcause := 0, causes := [], safe := some (parkAfter f) } := by
  rw [clearFltLatch]
  rw [hlatch, h, if_neg (by decide)]
  rfl

theorem clearFltLatch_keeps {s : State} {n : Chan} (h : s.chans[n].force.fltLatch = false ∨ triggerPresent s n = true) : clearFltLatch s n = s := by
  rw [clearFltLatch]
  rcases h with h | h
  · rw [h, if_pos (by simp)]
  · rw [h, if_pos (by simp)]

/-- A trigger of a channel leaves its measurement path, but for the words that are dated. -/
theorem safeTrigger_meas (s : State) (n : Chan) (cause : Nat) (m : Chan) :
    (safeTrigger s n cause).chans[m].meas = { s.chans[m].meas with dated := (safeTrigger s n cause).chans[m].meas.dated } := by
  cases h : s.chans[n].force.fltLatch with
  | false => exact ((safeTrigger_first cause h).chan m).meas
  | true =>
    rw [safeTrigger_held cause h]
    rcases hq : s.chans[n].force.safe with _ | q
    · rw [concurrentTrigger_settled cause hq]
    by_cases hat : s.chans[n].force.fltAt = s.tb.now
    · obtain ⟨u, hu, -, heq⟩ := concurrentTrigger_together cause hq hat
      rw [heq]
      split
      · exact (hu.chan m).meas
      · rw [((openNow_run u n cause).chan m).meas, (hu.chan m).meas]
    · rw [concurrentTrigger_later cause hq hat]
      exact ((updForce_run ..).chan m).meas

theorem disableChannel_meas (s : State) (n : Chan) : ∃ d,
    (disableChannel s n).chans[n].meas = { s.chans[n].meas with
      dated := d, closes := s.chans[n].meas.closes ++ [(nextSample s, 5)], next := some { s.chans[n].meas.next.getD s.chans[n].meas.cfg with smode := .off } } := by
  have hnow : nextSample (allCtx.foldl (fun s x => haltRequest s n x) (safeTrigger s n 7)) = nextSample s := by
    unfold nextSample
    rw [(haltAll_safe ..).tb, (safeTrigger_latches ..).tb]
  have hmeas := ((haltAll_safe (safeTrigger s n 7) n).chan n).meas
  rw [safeTrigger_meas] at hmeas
  rw [disableChannel]
  dsimp only
  rw [setMeas, updMeas, updChan_get, if_pos rfl, askClose, updMeas, updChan_get, if_pos rfl, hnow, hmeas]
  exact ⟨_, rfl⟩

theorem disable_latches {s : State} (p : Path) (n : Chan) (hrec : s.fw.recovery = false) : Completes (.disable p n) s fun t =>
    t.chans[n].force.fltLatch = true ∧ (s.chans[n].force.fltLatch = false → t.chans[n].force.fcause = 7)
      ∧ (s.chans[n].force.fltLatch = true → s.chans[n].force.fcause ≤ 7 → t.chans[n].force.fcause = s.chans[n].force.fcause)
      ∧ (∃ m, t.chans[n].meas.next = some m ∧ m.smode = .off) ∧ t.chans[n].meas.closes = s.chans[n].meas.closes ++ [(nextSample s, 5)] := by
  obtain ⟨hlatches, hlatch⟩ := disableChannel_latches s n
  obtain ⟨d, hmeas⟩ := disableChannel_meas s n
  refine ⟨disableChannel s n, congrArg Host.Outcome.next (accessed_running hrec), ?_⟩
  generalize disableChannel s n = t at hlatches hlatch hmeas ⊢
  refine ⟨hlatch, fun h => ?_, fun h => ((hlatches.latch n).held h).2, ?next, ?closes⟩
  · rcases (hlatches.latch n).first h with hf | ⟨-, hcause⟩
    · exact absurd hlatch (ne_true_of_eq_false hf)
    · exact hcause
  case next =>
    rw [hmeas]
    exact ⟨_, rfl, rfl⟩
  case closes => rw [hmeas]

/-- Settles O48. -/
theorem safeStates : Obligations.SafeStates := by
  unfold Obligations.SafeStates
  intro s p n
  refine ⟨fun hr hm => ⟨relayMakeDone_made hr hm, relayMakeDone_stuck hr hm⟩, relayMakeDone_idle, relayBreakDone_breaks, relayBreakDone_parks,
    relayBreakDone_idle, fun q => safeStateRampEnd_opens, fltAssert_settled, fltAssert_later, fun q => fltAssert_together, fltAssert_first,
    fun high hrec hlatch h => ?clears, fun high hrec h => ?present, fun high hrec hlatch => ?unlatched, disable_latches p n⟩
  case clears =>
    have hset : (updForce s n fun f => { f with fltLow := !high }).chans[n].force.fltLatch = true := by
      rw [updForce_get, if_pos rfl]
      exact hlatch
    rw [fltLatchClear_clears p high hrec, clearFltLatch_clears hset h, updForce_updForce]
    exact congrArg _ (updForce_congr rfl)
  case present => rw [fltLatchClear_clears p high hrec, clearFltLatch_keeps (.inr h)]
  case unlatched =>
    have hset : (updForce s n fun f => { f with fltLow := !high }).chans[n].force.fltLatch = false := by
      rw [updForce_get, if_pos rfl]
      exact hlatch
    rw [fltLatchClear_clears p high hrec, clearFltLatch_keeps (.inl hset)]

end Sys2Proof.Machine
end

section
/-!
PROOFS. Bank supplies, bank dies and the CPS links (R81 to R83, R88 to R92, R473, R482, Table 2.13).
-/
namespace Sys2Proof.Machine

/-! ### All channels of a bank -/

/-- A loop that changes each channel of a list by the same function, which changes it once at most. -/
theorem foldl_chan {f : State → Chan → State} {g : Channel → Channel} (hf : ∀ s n, (f s n).chans = (updChan s n g).chans) (hg : ∀ c, g (g c) = g c)
    (l : List Chan) (s : State) (m : Chan) : (l.foldl f s).chans[m] = if m ∈ l then g s.chans[m] else s.chans[m] := by
  induction l generalizing s with
  | nil => simp
  | cons n l ih =>
    have hstep : (f s n).chans[m] = if m = n then g s.chans[n] else s.chans[m] := by rw [hf, updChan_get]
    rw [List.foldl_cons, ih, hstep]
    by_cases hm : m = n
    · subst hm
      rw [if_pos rfl, hg, ite_self, if_pos List.mem_cons_self]
    · rw [if_neg hm]
      exact ite_of_iff (by simp [hm]) rfl rfl

theorem mem_bankChans (b : Bank) {slot : Nat} (h : slot < 17) : chanAt b slot ∈ bankChans b :=
  List.mem_map.2 ⟨slot, List.mem_range.2 h, rfl⟩

theorem updBank_get (s : State) (b : Bank) (f : BankState → BankState) : (updBank s b f).banks[b] = f s.banks[b] :=
  Vector.getElem_set_self _

theorem updBank_updBank (s : State) (b : Bank) (f g : BankState → BankState) : updBank (updBank s b f) b g = updBank s b fun k => g (f k) := by
  simp [updBank]

/-! ### A bank die comes up -/

theorem bankDieUp_stays {s : State} {b : Bank} (h : s.banks[b].supplies = false ∨ s.banks[b].up = true ∨ s.fw.porn = false) : exec (.bankDieUp b) s = .next s := by
  show execBankDieUp b s = _
  unfold execBankDieUp
  refine congrArg _ (if_pos ?_)
  rcases h with h | h | h
  · rw [h]; rfl
  · rw [h]; simp
  · rw [h]; simp

/-- A die that comes up beside a link that has one. -/
theorem bankDieUp_linked {s : State} {b : Bank} (hsupplies : s.banks[b].supplies = true) (hup : s.banks[b].up = false) (hporn : s.fw.porn = true)
    (hlink : s.banks[b].linkUp = true ∨ s.banks[b].linkDown = true) :
    exec (.bankDieUp b) s = .next (updBank s b fun k => { k with up := true, supplyLost := false }) := by
  have hfresh : (!s.banks[b].linkUp && !s.banks[b].linkDown) = false := by
    rcases hlink with h | h
    · rw [h]; rfl
    · rw [h]; simp
  show execBankDieUp b s = _
  unfold execBankDieUp
  rw [if_neg (by rw [hsupplies, hup, hporn]; decide)]
  dsimp only
  rw [hfresh, if_neg Bool.false_ne_true]

def parked (c : Channel) : Channel :=
  { c with force := { c.force with dac := c.force.safety.park, target := c.force.safety.park, slewPhase := 0, oen := false, relay := .open_, safe := none
                                   mode := .inert, seq := .idle, cpsen := false } }

def asked (c : Channel) : Channel := { c with force := { c.force with slot := { c.force.slot with ident := [], reading := some 0 } } }

theorem loadPark_get (s : State) (b : Bank) (m : Chan) : (loadPark s b).chans[m] = if m ∈ bankChans b then parked s.chans[m] else s.chans[m] := by
  unfold loadPark
  generalize bankChans b = l
  refine foldl_chan (g := parked) ?_ (fun _ => rfl) l s m
  exact fun _ _ => rfl

theorem startIdentities_get (l : List Chan) (s : State) (m : Chan) : (l.foldl startIdentity s).chans[m] = if m ∈ l then asked s.chans[m] else s.chans[m] := by
  refine foldl_chan (g := asked) ?_ (fun _ => rfl) l s m
  exact fun _ _ => rfl

/-- Two states that differ in the channels and the commands of the banks at most. -/
structure SameButAsked (t s : State) : Prop where
  bank : ∀ b : Bank, t.banks[b] = { s.banks[b] with queue := t.banks[b].queue }
  mm : t.mm = s.mm

theorem startIdentities_same (l : List Chan) (s : State) : SameButAsked (l.foldl startIdentity s) s :=
  foldl_related (R := fun s t => SameButAsked t s) (fun _ => ⟨fun _ => rfl, rfl⟩)
    (fun h k => ⟨fun b => by rw [h.bank b, k.bank b], h.mm.trans k.mm⟩)
    (fun s n => ⟨(cpsSend_safe (updSlot s n fun p => { p with ident := [], reading := some 0 }) ..).bank, rfl⟩) l s

theorem loadPark_rest (s : State) (b : Bank) : (loadPark s b).banks = s.banks ∧ (loadPark s b).mm = s.mm := by
  unfold loadPark
  generalize bankChans b = l
  refine foldl_related (R := fun s t => t.banks = s.banks ∧ t.mm = s.mm) (fun _ => ⟨rfl, rfl⟩) (fun h k => ⟨h.1.trans k.1, h.2.trans k.2⟩) ?_ l s
  exact fun _ _ => ⟨rfl, rfl⟩

/-- A bank whose die comes up with its link, before the identities are asked for. -/
def dieUp (s : State) (b : Bank) : State :=
  updBank (loadPark (updBank s b fun k => { k with up := true, supplyLost := false }) b) b fun k =>
    { k with linkUp := true, queue := [], sent := [], arrived := [], pollSlot := 0, sincePoll := 0 }

theorem dieUp_bank (s : State) (b : Bank) : (dieUp s b).banks[b].up = true ∧ (dieUp s b).banks[b].linkUp = true := by
  rw [dieUp, updBank_get, (loadPark_rest ..).1, updBank_get]
  exact ⟨rfl, rfl⟩

theorem dieUp_mm (s : State) (b : Bank) : (dieUp s b).mm = s.mm := by
  obtain ⟨-, hmm⟩ := loadPark_rest (updBank s b fun k => { k with up := true, supplyLost := false }) b
  rw [dieUp]
  generalize loadPark (updBank s b fun k => { k with up := true, supplyLost := false }) b = t at hmm ⊢
  exact hmm

theorem dieUp_chan (s : State) {b : Bank} {m : Chan} (h : m ∈ bankChans b) : (dieUp s b).chans[m] = parked s.chans[m] := by
  rw [dieUp, updBank, loadPark_get, if_pos h, updBank]

/-- A die that comes up with its link: its channels stand at PARK, and their identities are read (R91, R482). -/
theorem bankDieUp_fresh {s : State} {b : Bank} (hsupplies : s.banks[b].supplies = true) (hup : s.banks[b].up = false) (hporn : s.fw.porn = true)
    (hlink : s.banks[b].linkUp = false) (hdown : s.banks[b].linkDown = false) : Completes (.bankDieUp b) s fun t =>
      t.banks[b].up = true ∧ t.banks[b].linkUp = true ∧ t.mm = s.mm
        ∧ ∀ slot, slot < 17 → t.chans[chanAt b slot].force.dac = s.chans[chanAt b slot].force.safety.park
            ∧ t.chans[chanAt b slot].force.slot.reading = some 0 ∧ t.chans[chanAt b slot].force.slot.ident = [] := by
  obtain ⟨hbank, hmm⟩ := startIdentities_same (bankChans b) (dieUp s b)
  have hchan (m : Chan) (hm : m ∈ bankChans b) : ((bankChans b).foldl startIdentity (dieUp s b)).chans[m] = asked (parked s.chans[m]) := by
    rw [startIdentities_get, if_pos hm, dieUp_chan s hm]
  refine ⟨(bankChans b).foldl startIdentity (dieUp s b), ?_, ?_⟩
  · show execBankDieUp b s = _
    unfold execBankDieUp
    rw [if_neg (by rw [hsupplies, hup, hporn]; decide), hlink, hdown, if_pos (by decide), dieUp]
  · generalize (bankChans b).foldl startIdentity (dieUp s b) = t at hbank hmm hchan ⊢
    obtain ⟨hdie, hlinked⟩ := dieUp_bank s b
    refine ⟨?_, ?_, hmm.trans (dieUp_mm s b), fun slot hslot => ?_⟩
    · rw [hbank b]
      exact hdie
    · rw [hbank b]
      exact hlinked
    · rw [hchan _ (mem_bankChans b hslot)]
      exact ⟨rfl, rfl, rfl⟩

/-! ### A bank fails -/

theorem satAdd_one (top a : Nat) : satAdd top a 1 = min top (a + 1) := by
  rw [satAdd]
  split
  · omega
  · omega

def unmeasured (c : Channel) : Channel := { c with meas := { c.meas with convs := [], hist := [], since := 0, aperture := none } }

theorem bankLost_get (s : State) (b : Bank) (m : Chan) : (bankLost s b).chans[m] = if m ∈ bankChans b then unmeasured s.chans[m] else s.chans[m] := by
  unfold bankLost
  generalize bankChans b = l
  refine foldl_chan (g := unmeasured) ?_ (fun _ => rfl) l _ m
  exact fun _ _ => rfl

theorem bankLost_bank (s : State) (b : Bank) :
    (bankLost s b).banks[b] = { s.banks[b] with up := false, linkErr := true, downs := min 63 (s.banks[b].downs + 1), arrived := [] } := by
  have hbanks (l : List Chan) (u : State) :
      (l.foldl (fun s n => updMeas s n fun m => { m with convs := [], hist := [], since := 0, aperture := none }) u).banks = u.banks := by
    refine foldl_related (R := fun s t => t.banks = s.banks) (fun _ => rfl) (fun h k => h.trans k) ?_ l u
    exact fun _ _ => rfl
  rw [bankLost]
  dsimp only
  rw [hbanks, updBank_get, satAdd_one]

/-- A trigger of one cause on every channel of a list. -/
theorem triggers_latch (l : List Chan) (s : State) (cause : Nat) : Latches cause (l.foldl (fun s n => safeTrigger s n cause) s) s
    ∧ ∀ n ∈ l, (l.foldl (fun s n => safeTrigger s n cause) s).chans[n].force.fltLatch = true :=
  foldl_latches (fun s n => ⟨safeTrigger_latches s n cause, safeTrigger_fltLatch s n cause⟩) l s

theorem coreHandshakeLoss_fails {s : State} {b : Bank} (h : s.banks[b].up = true) : Completes (.coreHandshakeLoss b) s fun t =>
    t.banks[b].up = false ∧ t.banks[b].linkErr = true ∧ t.banks[b].downs = min 63 (s.banks[b].downs + 1)
      ∧ ∀ slot, slot < 17 → t.chans[chanAt b slot].force.fltLatch = true ∧ t.chans[chanAt b slot].meas.convs = [] := by
  obtain ⟨hlatches, hall⟩ := triggers_latch (bankChans b) (bankLost s b) 6
  have hbank := hlatches.bank b
  rw [bankLost_bank] at hbank
  refine ⟨(bankChans b).foldl (fun s n => safeTrigger s n 6) (bankLost s b), ?_, ?_⟩
  · show execCoreHandshakeLoss b s = _
    unfold execCoreHandshakeLoss
    rw [h, if_neg (by decide)]
  · generalize (bankChans b).foldl (fun s n => safeTrigger s n 6) (bankLost s b) = t at hlatches hall hbank ⊢
    refine ⟨by rw [hbank], by rw [hbank], by rw [hbank], fun slot hslot => ⟨hall _ (mem_bankChans b hslot), ?_⟩⟩
    rw [hlatches.convs, bankLost_get, if_pos (mem_bankChans b hslot)]
    rfl

theorem coreHandshakeLoss_down {s : State} {b : Bank} (h : s.banks[b].up = false) : exec (.coreHandshakeLoss b) s = .next s := by
  show execCoreHandshakeLoss b s = _
  unfold execCoreHandshakeLoss
  rw [h, if_pos (by decide)]

theorem freshSlots_get (s : State) (b : Bank) (m : Chan) : (freshSlots s b).chans[m] =
    if m ∈ bankChans b then { s.chans[m] with force := { s.chans[m].force with slot := {} } } else s.chans[m] := by
  unfold freshSlots
  generalize bankChans b = l
  refine foldl_chan (g := fun c => { c with force := { c.force with slot := {} } }) ?_ (fun _ => rfl) l s m
  exact fun _ _ => rfl

theorem freshSlots_banks (s : State) (b : Bank) : (freshSlots s b).banks = s.banks := by
  unfold freshSlots
  generalize bankChans b = l
  refine foldl_related (R := fun s t => t.banks = s.banks) (fun _ => rfl) (fun h k => h.trans k) ?_ l s
  exact fun _ _ => rfl

theorem bankSupplyFail_fails {s : State} {b : Bank} (h : s.banks[b].supplies = true) : Completes (.bankSupplyFail b) s fun t =>
    t.banks[b].supplies = false ∧ t.banks[b].up = false ∧ t.banks[b].linkUp = false ∧ t.banks[b].sent = []
      ∧ ∀ slot, slot < 17 → t.chans[chanAt b slot].force.fltLatch = true := by
  have hdown : (if s.banks[b].up then bankLost s b else s).banks[b].up = false := by
    split
    · rw [bankLost_bank]
    · next hup => exact Bool.eq_false_iff.2 hup
  obtain ⟨hlatches, hall⟩ := triggers_latch (bankChans b) (if s.banks[b].up then bankLost s b else s) 2
  show ∃ t, execBankSupplyFail b s = .next t ∧ _
  unfold execBankSupplyFail
  rw [h, if_neg (by decide)]
  dsimp only
  generalize (bankChans b).foldl (fun s n => safeTrigger s n 2) (if s.banks[b].up then bankLost s b else s) = t at hlatches hall ⊢
  refine ⟨_, rfl, ?_⟩
  rw [updBank_get, freshSlots_banks]
  refine ⟨rfl, ?_, rfl, rfl, fun slot hslot => ?_⟩
  · rw [hlatches.bank b]
    exact hdown
  · rw [updBank, freshSlots_get, if_pos (mem_bankChans b hslot)]
    exact hall _ (mem_bankChans b hslot)

theorem bankSupplyFail_gone {s : State} {b : Bank} (h : s.banks[b].supplies = false) : exec (.bankSupplyFail b) s = .next s := by
  show execBankSupplyFail b s = _
  unfold execBankSupplyFail
  rw [h, if_pos (by decide)]

/-! ### Commands and responses -/

theorem lowestSlot_one (c : CpsCmd) (p : CpsCmd → Bool) : lowestSlot [c] p = if p c then some c else none := by
  rw [lowestSlot, List.filter_cons, List.filter_nil]
  split
  · rfl
  · rfl

/-- The one command that waits goes next, urgent or not (R90). -/
theorem nextCommand_one {k : BankState} {c : CpsCmd} (hdown : k.linkDown = false) (hq : k.queue = [c]) (hop : c.op ≠ 0) (hpoll : k.sincePoll < 3) :
    nextCommand k = (c, { k with queue := [], sincePoll := k.sincePoll + 1 }) := by
  have hcommand : (c.op != opPoll) = true := bne_iff_ne.2 hop
  have herase : [c].erase c = [] := by simp
  unfold nextCommand
  rw [hdown, if_neg Bool.false_ne_true, hq, lowestSlot_one, lowestSlot_one, hcommand, if_pos rfl]
  split
  · next d hd =>
    obtain ⟨-, hdc⟩ : cpsUrgent c = true ∧ c = d := by simpa using hd
    rw [← hdc, herase]
  · rw [if_neg (Nat.not_le.2 hpoll)]
    dsimp only
    rw [herase]

theorem cpsFrame_sends {s : State} {b : Bank} {c : CpsCmd} (hup : s.banks[b].linkUp = true) (hdown : s.banks[b].linkDown = false)
    (hsent : s.banks[b].sent = []) (hq : s.banks[b].queue = [c]) (hop : c.op ≠ 0) (hslot : c.slot ≠ 31) (hpoll : s.banks[b].sincePoll < 3) :
    exec (.cpsFrame b) s = .next (updBank s b fun k => { k with queue := [], sincePoll := k.sincePoll + 1, word := cpsWord c, sent := [c] }) := by
  have hframe : sendFrame s.banks[b] = { s.banks[b] with queue := [], sincePoll := s.banks[b].sincePoll + 1, word := cpsWord c, sent := [c] } := by
    rw [sendFrame, nextCommand_one hdown hq hop hpoll]
    dsimp only
    rw [if_neg hslot, hsent]
    rfl
  show execCpsFrame b s = _
  unfold execCpsFrame
  rw [if_pos (by rw [hup, hsent]; rfl)]
  refine congrArg Host.Outcome.next ?_
  rw [updBank, updBank, hframe]

theorem cpsResponse_unasked {s : State} {b : Bank} (w : Word) (h : s.banks[b].sent = []) : exec (.cpsResponse b w) s = .next s := by
  show execCpsResponse b w s = _
  unfold execCpsResponse receiveResponse
  rw [h]

/-- A command whose response fails its checks is repeated while it has tries left (R89). -/
theorem cpsResponse_repeats {s : State} {b : Bank} {w : Word} {c : CpsCmd} {rest : List CpsCmd} (hsent : s.banks[b].sent = c :: rest) (hrestart : c.restart = false)
    (hdown : s.banks[b].linkDown = false) (hanswer : answers c w = false) (hop : c.op ≠ 0) (htries : c.tries < 2) (hpolls : s.banks[b].failedPolls < 8) :
    exec (.cpsResponse b w) s = .next (updBank s b fun k => { k with sent := rest, queue := { c with tries := c.tries + 1 } :: k.queue }) := by
  have hget := updBank_get s b fun k => { k with sent := rest }
  show execCpsResponse b w s = _
  unfold execCpsResponse receiveResponse
  rw [hsent]
  dsimp only
  rw [if_neg (ne_true_of_eq_false hrestart), hget, hdown, if_neg Bool.false_ne_true, hanswer, if_neg Bool.false_ne_true]
  unfold commandFailed
  have hfirst : (c.op == opPoll && decide (c.tries = 0)) = false := by simp [opPoll, hop]
  dsimp only
  rw [hfirst, if_neg Bool.false_ne_true, hget, if_neg (Nat.not_le.2 hpolls), if_neg (Nat.not_le.2 htries), updBank_updBank]

theorem cpsLinkRestartRound_begins {s : State} {b : Bank} (h : s.banks[b].linkDown = true) :
    exec (.cpsLinkRestartRound b) s = .next (updBank s b fun k => { k with restartSlot := some 0, restartOk := true }) := by
  show execCpsLinkRestartRound b s = _
  unfold execCpsLinkRestartRound
  rw [if_pos h]

theorem cpsLinkRestartRound_up {s : State} {b : Bank} (h : s.banks[b].linkDown = false) : exec (.cpsLinkRestartRound b) s = .next s := by
  show execCpsLinkRestartRound b s = _
  unfold execCpsLinkRestartRound
  rw [if_neg (ne_true_of_eq_false h)]

/-- Settles O49. -/
theorem bankDiesAndCps : Obligations.BankDiesAndCps := by
  unfold Obligations.BankDiesAndCps
  intro s b w
  exact ⟨rfl, bankDieUp_linked, bankDieUp_fresh, bankDieUp_stays, coreHandshakeLoss_fails, coreHandshakeLoss_down, bankSupplyFail_fails, bankSupplyFail_gone,
    fun hup hdown hsent c => cpsFrame_sends hup hdown hsent, cpsResponse_unasked w, fun c rest => cpsResponse_repeats, cpsLinkRestartRound_begins,
    cpsLinkRestartRound_up⟩

end Sys2Proof.Machine
end

section
/-!
PROOFS. Lanes and links (R415, R419 to R422, R424, R425, R450).
-/
namespace Sys2Proof.Machine

/-! ### What a link state leaves of the host's registers -/

/-- Two states with the same firmware state and the same MSI-X enable. -/
structure SameHost (t s : State) : Prop where
  fw : t.fw = s.fw
  msix : t.tr.msixEn = s.tr.msixEn

theorem SameHost.refl (s : State) : SameHost s s := ⟨rfl, rfl⟩

theorem SameHost.trans {u t s : State} (h : SameHost u t) (k : SameHost t s) : SameHost u s := ⟨h.fw.trans k.fw, h.msix.trans k.msix⟩

theorem SameHost.ite {c : Prop} [Decidable c] {t u s : State} (ht : SameHost t s) (hu : SameHost u s) : SameHost (if c then t else u) s := by
  split
  · exact ht
  · exact hu

theorem offerDirect_msix (tr : Tracer) (k : Fin 128) (tick : Nat) : (offerDirect tr k tick).1.msixEn = tr.msixEn := by
  unfold offerDirect
  dsimp only
  split
  · rfl
  · split
    · rfl
    · rfl

theorem offerAll_msix (tr : Tracer) (src tick : Nat) : (offerAll tr src tick).1.msixEn = tr.msixEn := by
  have hstep (a : Tracer × Nat) (k : Fin 128) : (if a.1.tc[k].src == src && TracerChan.isDirect k a.1.tc[k] then
      (fun r : Tracer × Bool => (r.1, a.2 + bit r.2)) (offerDirect a.1 k tick) else a).1.msixEn = a.1.msixEn := by
    split
    · exact offerDirect_msix ..
    · rfl
  unfold offerAll
  split
  · rfl
  · have hnone : (tr, 0).1.msixEn = tr.msixEn := rfl
    exact List.foldlRecOn (motive := fun a : Tracer × Nat => a.1.msixEn = tr.msixEn) _ _ hnone fun a ha k _ => (hstep a k).trans ha

theorem raiseIm_host (s : State) (src : Nat) : SameHost (raiseIm s src) s := by
  unfold raiseIm
  split
  · refine .ite ?_ (.refl s)
    unfold sendVector
    exact .ite ⟨rfl, rfl⟩ ⟨rfl, rfl⟩
  · exact .refl s

theorem raiseTrips_host (fuel : Nat) : ∀ (trips : Nat) (s : State), SameHost (raiseTrips fuel trips s) s := by
  induction fuel with
  | zero => exact fun _ s => .refl s
  | succ fuel ih =>
    intro trips s
    cases trips with
    | zero => exact .refl s
    | succ trips =>
      simp only [raiseTrips]
      refine (ih ..).trans (SameHost.trans (t := raiseIm s 303) ⟨rfl, ?_⟩ (raiseIm_host ..))
      exact offerAll_msix ..

theorem raiseAt_host (s : State) (src : Nat) (d : Option Nat) : SameHost (raiseAt s src d) s := by
  rw [raiseAt]
  refine (raiseTrips_host ..).trans (SameHost.trans (t := raiseIm s src) ⟨rfl, ?_⟩ (raiseIm_host ..))
  exact offerAll_msix ..

theorem noteAlign_host (s : State) : SameHost (noteAlign s) s := by
  unfold noteAlign
  exact .ite ⟨rfl, rfl⟩ ⟨rfl, rfl⟩

theorem enterHoldover_host (s : State) : SameHost (enterHoldover s) s := by
  rw [enterHoldover]
  exact .ite (.refl s) ((raiseAt_host ..).trans (SameHost.trans (noteAlign_host ..) ⟨rfl, rfl⟩))

theorem setLState_host (s : State) (k : Lane) (st : LState) : SameHost (setLState s k st) s := by
  rw [setLState]
  dsimp only
  refine .ite (.refl s) (.ite ((enterHoldover_host ..).trans ?_) ?_)
  all_goals exact (noteAlign_host ..).trans (SameHost.trans (raiseAt_host ..) ⟨rfl, rfl⟩)

/-! ### Words of a lane's settings -/

theorem updLane_congr {s : State} {k : Lane} {f g : LaneState → LaneState} (h : f s.lanes[k] = g s.lanes[k]) : updLane s k f = updLane s k g := by
  rw [updLane, updLane, h]

theorem updLane_updLane (s : State) (k : Lane) (f g : LaneState → LaneState) : updLane (updLane s k f) k g = updLane s k fun l => g (f l) := by
  simp [updLane]

theorem updLane_keeps {s : State} {k : Lane} {f : LaneState → LaneState} (h : f s.lanes[k] = s.lanes[k]) : updLane s k f = s := by
  rw [updLane, h]
  simp

theorem laneCfgWrite_refused {s : State} {p : Path} {k : Lane} {v : Word} {on : Option Lane} (hrec : s.fw.recovery = false) (h : cfgRefused s p on k v = true) :
    exec (.laneCfgWrite p on k v) s = .next (updLane s k fun l => { l with cfgRej := true }) := by
  refine congrArg Host.Outcome.next ((accessed_running hrec).trans ?_)
  rw [laneCfg, if_pos h]

theorem takeEq_link (s : State) (k : Lane) : LinkStep k (takeEq s k) s := by
  rw [takeEq]
  exact updLane_link rfl rfl rfl

theorem sendTrain_link (s : State) (k : Lane) (ack : Bool) : LinkStep k (sendTrain s k ack) s := sendBlock_link ..

theorem seek_link (s : State) (k : Lane) : LinkStep k (seek s k) s := by
  rw [seek]
  exact .ite ((sendTrain_link ..).trans (updLane_link rfl rfl rfl)) (.refl k s)

theorem beginCycle_link (s : State) (k : Lane) : LinkStep k (beginCycle s k) s := by
  rw [beginCycle, beginAttempt]
  exact (seek_link ..).trans (LinkStep.trans (updLane_link rfl rfl rfl) (LinkStep.trans (updLane_link rfl rfl rfl) (setLState_link ..)))

theorem startLink_link (s : State) (k : Lane) : LinkStep k (startLink s k) s := by
  rw [startLink]
  exact .ite (.refl k s) (.ite (beginCycle_link ..) (setLState_link ..))

theorem enterAlone_link (s : State) (k : Lane) : LinkStep k (enterAlone s) s := by
  rw [enterAlone]
  exact .ite (enterHoldover_link ..) (.refl k s)

theorem enterAlone_lanes (s : State) : (enterAlone s).lanes = s.lanes := by
  rw [enterAlone]
  split
  · exact enterHoldover_lanes s
  · rfl

/-- The lane with the fields of a write of LN_CFG, before its link follows them. -/
def cfgWritten (s : State) (k : Lane) (v : Word) : State :=
  takeEq (updLane s k fun l =>
    { l with
      en := flag v 31, proto := field v 27 24, rawrate := field v 23 20, fec := field v 19 18, lps := field v 17 16, nelb := flag v 15 }) k

theorem cfgWritten_lane (s : State) (k : Lane) (v : Word) : (cfgWritten s k v).lanes[k].en = flag v 31 ∧ (cfgWritten s k v).lanes[k].proto = field v 27 24
    ∧ (cfgWritten s k v).lanes[k].lps = field v 17 16 := by
  rw [cfgWritten, takeEq]
  rw [updLane_self, updLane_self]
  exact ⟨rfl, rfl, rfl⟩

theorem cfgWritten_rest (s : State) (k : Lane) (v : Word) : (cfgWritten s k v).chans = s.chans ∧ ∀ j : Lane, j ≠ k → (cfgWritten s k v).lanes[j] = s.lanes[j] := by
  refine ⟨rfl, fun j hj => ?_⟩
  rw [cfgWritten, takeEq]
  rw [updLane_get, if_neg hj, updLane_get, if_neg hj]

theorem applyCfg_link (s : State) (k : Lane) (v : Word) : LinkStep k (applyCfg s k v) (cfgWritten s k v) := by
  rw [applyCfg]
  exact .ite ((enterAlone_link ..).trans (stopLink_link ..)) (.ite (.ite (.refl ..) (sleepLane_link ..)) (.ite (startLink_link ..) (.refl ..)))

theorem applyCfg_off {s : State} {k : Lane} {v : Word} (h : flag v 31 = false) : (applyCfg s k v).lanes[k].lstate = .off := by
  have hen : (!(cfgWritten s k v).lanes[k].en || decide ((cfgWritten s k v).lanes[k].proto = 0)) = true := by
    rw [(cfgWritten_lane s k v).1, h]
    rfl
  rw [applyCfg]
  rw [← cfgWritten, if_pos hen, enterAlone_lanes, stopLink, setLState_lane]

theorem laneCfgWrite_accepted {s : State} {p : Path} {k : Lane} {v : Word} {on : Option Lane} (hrec : s.fw.recovery = false) (h : cfgRefused s p on k v = false) :
    Completes (.laneCfgWrite p on k v) s fun t => t.lanes[k].en = v.getLsbD 31 ∧ t.lanes[k].proto = v.toNat / 2 ^ 24 % 16 ∧ t.lanes[k].lps = v.toNat / 2 ^ 16 % 4
      ∧ (v.getLsbD 31 = false → t.lanes[k].lstate = .off) ∧ t.chans = s.chans ∧ ∀ j : Lane, j ≠ k → t.lanes[j] = s.lanes[j] := by
  obtain ⟨hen, hproto, hlps⟩ := cfgWritten_lane s k v
  obtain ⟨hchans, hlanes⟩ := cfgWritten_rest s k v
  have hlink := applyCfg_link s k v
  refine ⟨applyCfg s k v, congrArg Host.Outcome.next ((accessed_running hrec).trans ?_), ?_⟩
  · rw [laneCfg, if_neg (ne_true_of_eq_false h)]
  · rw [← flag_eq_getLsbD]
    exact ⟨hlink.en.trans hen, hlink.proto.trans hproto, hlink.lps.trans hlps, applyCfg_off, hlink.chans.trans hchans,
      fun j hj => (hlink.other j hj).trans (hlanes j hj)⟩

/-! ### SLIP, injected errors, counters, locks -/

theorem slip_slips {s : State} (p : Path) {k : Lane} (hrec : s.fw.recovery = false) (hen : s.lanes[k].en = true) (hproto : s.lanes[k].proto = 6 ∨ s.lanes[k].proto = 7) :
    exec (.slip p k) s = .next (updLane s k fun l => { l with slip := (l.slip + 1) % 66 }) := by
  refine congrArg Host.Outcome.next ((accessed_running hrec).trans ?_)
  have hown : (s.lanes[k].en && (decide (s.lanes[k].proto = protoSibia) || decide (s.lanes[k].proto = protoRaw))) = true := by
    rw [hen]
    rcases hproto with h | h
    · rw [h]; rfl
    · rw [h]; rfl
  rw [slipLane]
  exact if_pos hown

theorem slip_off {s : State} (p : Path) {k : Lane} (hen : s.lanes[k].en = false) : exec (.slip p k) s = .next s := by
  have hslip : slipLane s k = s := by
    rw [slipLane]
    exact if_neg (by rw [hen]; simp)
  show Host.Outcome.next (accessed s (slipLane s k)) = _
  rw [hslip, accessed, ite_self]

theorem field_25_24 (w : Word) : field w 25 24 = w.toNat / 2 ^ 24 % 4 := rfl

theorem field_23_16 (w : Word) : field w 23 16 = w.toNat / 2 ^ 16 % 256 := rfl

/-- The errors that an injection makes: one, or the number in its field. -/
theorem injectLane_injects {s : State} {k : Lane} {n : Nat} (hen : s.lanes[k].en = true) (hproto : s.lanes[k].proto = 7)
    (hgen : s.lanes[k].prbs.getLsbD 31 = true)
    (hn : (s.lanes[k].prbs.toNat / 2 ^ 24 % 4 = 1 ∧ n = 1) ∨ (s.lanes[k].prbs.toNat / 2 ^ 24 % 4 = 2 ∧ n = max 1 (s.lanes[k].prbs.toNat / 2 ^ 16 % 256))) :
    injectLane s k = updLane (if checking s.lanes[k] && looped s.lanes[k] then updLane s k fun l => countErrors l n else s) k fun l =>
      { l with injected := l.injected + n } := by
  have hgenerating : generating s.lanes[k] = true := by
    rw [generating, hen, hproto, flag_eq_getLsbD, hgen]
    rfl
  have hne : ¬ (2 : Nat) = 1 := by decide
  rw [← field_25_24, ← field_23_16] at hn
  unfold injectLane
  dsimp only
  rw [hgenerating]
  rcases hn with ⟨hm, rfl⟩ | ⟨hm, rfl⟩
  · rw [hm, if_pos (by decide), if_pos rfl]
  · rw [hm, if_pos (by decide), if_neg hne]

theorem injGo_injects {s : State} (p : Path) {k : Lane} {n : Nat} (hrec : s.fw.recovery = false) (hen : s.lanes[k].en = true) (hproto : s.lanes[k].proto = 7)
    (hgen : s.lanes[k].prbs.getLsbD 31 = true)
    (hn : (s.lanes[k].prbs.toNat / 2 ^ 24 % 4 = 1 ∧ n = 1) ∨ (s.lanes[k].prbs.toNat / 2 ^ 24 % 4 = 2 ∧ n = max 1 (s.lanes[k].prbs.toNat / 2 ^ 16 % 256)))
    (h : s.lanes[k].nelb = false ∨ s.lanes[k].hdrlock = false ∨ s.lanes[k].prbs.getLsbD 30 = false) :
    exec (.injGo p k) s = .next (updLane s k fun l => { l with injected := l.injected + n }) := by
  have hunseen : (checking s.lanes[k] && looped s.lanes[k]) = false := by
    rw [checking, looped, flag_eq_getLsbD]
    rcases h with h | h | h
    · rw [h]; simp
    · rw [h]; simp
    · rw [h]; simp
  refine congrArg Host.Outcome.next ((accessed_running hrec).trans ?_)
  rw [injectLane_injects hen hproto hgen hn, hunseen, if_neg Bool.false_ne_true]

/-- A looped checker counts every error that is injected (assumption 26). -/
theorem injGo_counted {s : State} (p : Path) {k : Lane} {n : Nat} (hrec : s.fw.recovery = false) (hen : s.lanes[k].en = true) (hproto : s.lanes[k].proto = 7)
    (hgen : s.lanes[k].prbs.getLsbD 31 = true)
    (hn : (s.lanes[k].prbs.toNat / 2 ^ 24 % 4 = 1 ∧ n = 1) ∨ (s.lanes[k].prbs.toNat / 2 ^ 24 % 4 = 2 ∧ n = max 1 (s.lanes[k].prbs.toNat / 2 ^ 16 % 256)))
    (hnelb : s.lanes[k].nelb = true) (hlock : s.lanes[k].hdrlock = true) (hcheck : s.lanes[k].prbs.getLsbD 30 = true) (hfew : n < 64) :
    exec (.injGo p k) s = .next (updLane s k fun l => { l with injected := l.injected + n, prbsErr := min (2 ^ 48 - 1) (l.prbsErr + n) }) := by
  have hseen : (checking s.lanes[k] && looped s.lanes[k]) = true := by
    rw [checking, looped, generating, flag_eq_getLsbD, flag_eq_getLsbD, hen, hproto, hgen, hnelb, hlock, hcheck]
    rfl
  have hcount : countErrors s.lanes[k] n = { s.lanes[k] with prbsErr := min (2 ^ 48 - 1) (s.lanes[k].prbsErr + n) } := by
    have hsat (top a b : Nat) : satAdd top a b = min top (a + b) := by
      rw [satAdd]
      split
      · omega
      · omega
    rw [countErrors, hsat, Nat.min_eq_right (Nat.le_of_lt hfew), decide_eq_true hfew, decide_eq_false (Nat.not_le.2 hfew), Bool.and_true, Bool.or_false]
  refine congrArg Host.Outcome.next ((accessed_running hrec).trans ?_)
  rw [injectLane_injects hen hproto hgen hn, hseen, if_pos rfl, updLane_updLane]
  exact updLane_congr (by rw [hcount])

theorem prbsClr_clears {s : State} (p : Path) (k : Lane) (hrec : s.fw.recovery = false) :
    exec (.prbsClr p k) s = .next (updLane s k fun l => { l with prbsErr := 0, prbsBits := 0 }) := congrArg Host.Outcome.next (accessed_running hrec)

theorem hdrlockGain_locks {s : State} {k : Lane} (hen : s.lanes[k].en = true) (h0 : s.lanes[k].proto ≠ 0) (h6 : s.lanes[k].proto ≠ 6) (h7 : s.lanes[k].proto ≠ 7)
    (hpower : s.lanes[k].pstate = 0) : exec (.hdrlockGain k) s = .next (updLane s k fun l => { l with hdrlock := true }) := by
  have hlock : updLane s k (fun l => { l with
      hdrlock := l.hdrlock || (l.en && l.proto != 0 && l.pstate = 0 && (l.proto != protoRaw || flag l.prbs 30)) }) = updLane s k fun l => { l with hdrlock := true } := by
    refine updLane_congr ?_
    have h0' : (s.lanes[k].proto != 0) = true := bne_iff_ne.2 h0
    have h7' : (s.lanes[k].proto != protoRaw) = true := bne_iff_ne.2 h7
    rw [hen, h0', h7', decide_eq_true hpower]
    simp
  refine congrArg Host.Outcome.next ?_
  rw [gainLock, hlock, seek]
  refine if_neg ?_
  have hsibia : decide (s.lanes[k].proto = protoSibia) = false := decide_eq_false h6
  rw [updLane_self]
  dsimp only
  rw [hsibia, Bool.false_and]
  exact Bool.false_ne_true

theorem hdrlockLoss_unlocks {s : State} {k : Lane} (hlock : s.lanes[k].hdrlock = true) (h6 : s.lanes[k].proto ≠ 6) (h7 : s.lanes[k].proto ≠ 7) :
    exec (.hdrlockLoss k) s = .next (updLane s k fun l => { l with hdrlock := false, lockloss := true }) := by
  have hraw : decide (s.lanes[k].proto = protoRaw) = false := decide_eq_false h7
  have hsibia : decide (s.lanes[k].proto = protoSibia) = false := decide_eq_false h6
  have hcount : countPrbs s k = s := by
    rw [countPrbs]
    refine if_pos ?_
    rw [checking, generating, hraw]
    simp
  refine congrArg Host.Outcome.next ?_
  rw [loseLock, hlock, if_neg (by decide), hcount, sibiaLost]
  refine if_neg ?_
  rw [updLane_self]
  dsimp only
  rw [hsibia, Bool.false_and]
  exact Bool.false_ne_true

theorem hdrlockLoss_idle {s : State} {k : Lane} (h : s.lanes[k].hdrlock = false) : exec (.hdrlockLoss k) s = .next s := by
  refine congrArg Host.Outcome.next ?_
  rw [loseLock, h, if_pos (by decide)]

theorem signalDetectRise_asleep {s : State} {k : Lane} (hpower : s.lanes[k].pstate = 2) (hhost : s.lanes[k].hostp = false) :
    exec (.signalDetectRise k) s = .next s := by
  refine congrArg Host.Outcome.next (if_pos ?_)
  rw [hpower, hhost]
  rfl

theorem signalDetectRise_seen {s : State} {k : Lane} (hvigil : s.pwr.vigil = false) (hawake : s.lanes[k].pstate ≠ 2 ∨ s.lanes[k].hostp = true)
    (hidle : s.lanes[k].en = false ∨ s.lanes[k].proto ≠ 6 ∨ s.lanes[k].lstate ≠ .down ∨ s.lanes[k].pstate ≠ 0) :
    exec (.signalDetectRise k) s = .next (updLane s k fun l => { l with sigdet := true }) := by
  have hopen : ¬ (decide (s.lanes[k].pstate = dormant) && !s.lanes[k].hostp) = true := by
    rcases hawake with h | h
    · rw [decide_eq_false (show ¬ s.lanes[k].pstate = dormant from h)]
      simp
    · rw [h]
      simp
  have hquiet : (s.lanes[k].en && decide (s.lanes[k].proto = protoSibia) && s.lanes[k].lstate == .down && decide (s.lanes[k].pstate = 0)) = false := by
    rcases hidle with h | h | h | h
    · rw [h]; simp
    · rw [decide_eq_false (show ¬ s.lanes[k].proto = protoSibia from h)]; simp
    · rw [beq_eq_false_iff_ne.2 h]; simp
    · rw [decide_eq_false h]; simp
  have hwake (t : State) (ht : t.pwr.vigil = false) (c : Bool) : (if c then wakeVigil t wakeHost else t) = t := by
    rw [wakeVigil, ht]
    exact ite_self t
  refine congrArg Host.Outcome.next ?_
  rw [if_neg hopen]
  dsimp only
  rw [hwake (updLane s k fun l => { l with sigdet := true }) hvigil, restartLane]
  refine if_neg ?_
  rw [updLane_self]
  exact ne_true_of_eq_false hquiet

/-! ### Ethernet -/

theorem isEther_proto {p : Nat} (h : isEther p = true) : p ≠ 6 := by
  rintro rfl
  exact absurd h (by decide)

theorem ethernetLockRetry_locks {s : State} {k : Lane} {negotiated : Bool} (hether : isEther s.lanes[k].proto = true) (hen : s.lanes[k].en = true)
    (hpower : s.lanes[k].pstate = 0) (hdown : s.lanes[k].lstate = .down) (hneg : negotiated = true ∨ s.lanes[k].proto ≠ 2) :
    Completes (.ethernetLockRetry k true negotiated) s fun t =>
      t.lanes[k].lstate = .up ∧ t.lanes[k].hdrlock = true ∧ t.tb = s.tb ∧ t.chans = s.chans := by
  have hgo : (true && (negotiated || !autoNegotiates s.lanes[k].proto) && s.lanes[k].en && isEther s.lanes[k].proto && decide (s.lanes[k].pstate = 0)
      && s.lanes[k].lstate == .down) = true := by
    rw [hen, hether, hpower, hdown]
    rcases hneg with h | h
    · rw [h]; rfl
    · rw [autoNegotiates, decide_eq_false h]; simp
  have hlane : (takeEq (updLane s k fun l => { l with hdrlock := true }) k).lanes[k].proto = s.lanes[k].proto
      ∧ (takeEq (updLane s k fun l => { l with hdrlock := true }) k).lanes[k].hdrlock = true := by
    rw [takeEq, updLane_self, updLane_self]
    exact ⟨rfl, rfl⟩
  refine completes_of (t := setLState (takeEq (updLane s k fun l => { l with hdrlock := true }) k) k .up) (congrArg Host.Outcome.next (if_pos hgo)) ?_
  rw [setLState_lane, setLState_tb .up (by rw [hlane.1]; exact isEther_proto hether), (setLState_link ..).chans]
  exact ⟨rfl, hlane.2, rfl, rfl⟩

theorem ethernetLockRetry_unlocked (s : State) (k : Lane) (negotiated : Bool) : exec (.ethernetLockRetry k false negotiated) s = .next s := by
  refine congrArg Host.Outcome.next ?_
  rw [retryEther]
  exact if_neg (by simp)

theorem ethernetLockRetry_unnegotiated {s : State} {k : Lane} (h : s.lanes[k].proto = 2) : exec (.ethernetLockRetry k true false) s = .next s := by
  refine congrArg Host.Outcome.next ?_
  rw [retryEther]
  exact if_neg (by rw [autoNegotiates, decide_eq_true h]; simp)

theorem ethernetLinkLoss_down {s : State} {k : Lane} (hether : isEther s.lanes[k].proto = true) (hup : s.lanes[k].lstate = .up) :
    Completes (.ethernetLinkLoss k) s fun t =>
      t.lanes[k].lstate = .down ∧ t.lanes[k].lockloss = true ∧ t.lanes[k].downs = min 65535 (s.lanes[k].downs + 1) ∧ t.tb = s.tb := by
  refine completes_of (t := setLState (updLane s k fun l => { l with hdrlock := false, lockloss := true }) k .down) (congrArg Host.Outcome.next (if_pos (by rw [hether, hup]; rfl))) ?_
  rw [setLState_lane, setLState_tb .down (by rw [updLane_self]; exact isEther_proto hether), updLane_self]
  dsimp only
  rw [hup, if_pos (by decide), satAdd_one]
  exact ⟨rfl, rfl, rfl, rfl⟩

/-- The count of the frames that are dropped. -/
def frameDropped (s : State) : State := { s with hht := { s.hht with drop := min (2 ^ 32 - 1) (s.hht.drop + 1) } }

theorem dropFrame_drops (s : State) : dropFrame s = frameDropped s := by
  rw [dropFrame, satAdd_one, frameDropped]

theorem etherFrame_refused {s : State} {k : Lane} (f : EtherFrame) {len tags : Nat} (hup : etherUp s k = true) (hmp : mpStopped s = false)
    (h : 9216 < len ∨ 1 < tags) : etherFrame s k f len tags = frameDropped s := by
  have hmac : macAccepts len tags = false := by
    rw [macAccepts]
    rcases h with h | h
    · rw [decide_eq_false (Nat.not_le.2 h)]; rfl
    · rw [decide_eq_false (Nat.not_le.2 h)]; simp
  rw [etherFrame, hup, hmp, if_neg (by decide), hmac, if_pos (by decide), dropFrame_drops]

end Sys2Proof.Machine
end

section
/-!
PROOFS. Frames, lane power states, PCIe and the pins driven by JTAG (R419 to R425, R450).
-/
namespace Sys2Proof.Machine

/-! ### Frames that a port takes -/

theorem macAccepts_small {len tags : Nat} (hlen : len ≤ 9216) (htags : tags ≤ 1) : macAccepts len tags = true := by
  rw [macAccepts, decide_eq_true hlen, decide_eq_true htags]
  rfl

theorem etherFrame_answered {s : State} {k : Lane} {f : EtherFrame} {len tags : Nat} (hup : etherUp s k = true) (hmp : mpStopped s = false) (hlen : len ≤ 9216)
    (htags : tags ≤ 1) (hf : f ∈ [EtherFrame.arp, .icmpEcho, .icmp6Echo, .neighbour]) :
    etherFrame s k f len tags = if s.lanes[k].hostp = true then updLane s k fun l => { l with answers := l.answers ++ [f] } else frameDropped s := by
  rw [etherFrame, hup, hmp, if_neg (by decide), macAccepts_small hlen htags, if_neg (by decide), ← dropFrame_drops]
  simp only [List.mem_cons, List.not_mem_nil, or_false] at hf
  rcases hf with rfl | rfl | rfl | rfl
  · rfl
  · rfl
  · rfl
  · rfl

theorem etherFrame_hht {s : State} {k : Lane} {len tags : Nat} (hup : etherUp s k = true) (hmp : mpStopped s = false) (hlen : len ≤ 9216) (htags : tags ≤ 1) :
    etherFrame s k .hht len tags = if s.lanes[k].hostp = true ∧ s.hht.en = true then s else frameDropped s := by
  rw [etherFrame, hup, hmp, if_neg (by decide), macAccepts_small hlen htags, if_neg (by decide), ← dropFrame_drops]
  exact ite_of_iff (Bool.and_eq_true ..).to_iff rfl rfl

theorem etherFrame_dropped {s : State} {k : Lane} {f : EtherFrame} {len tags : Nat} (hup : etherUp s k = true) (hmp : mpStopped s = false) (hlen : len ≤ 9216)
    (htags : tags ≤ 1) (hf : f = .hhtBad ∨ f = .other) : etherFrame s k f len tags = frameDropped s := by
  rw [etherFrame, hup, hmp, if_neg (by decide), macAccepts_small hlen htags, if_neg (by decide), ← dropFrame_drops]
  rcases hf with rfl | rfl
  · rfl
  · rfl

theorem etherFrame_consumed {s : State} {k : Lane} {f : EtherFrame} {len tags : Nat} (hup : etherUp s k = true) (hmp : mpStopped s = false) (hlen : len ≤ 9216)
    (htags : tags ≤ 1) (hf : f = .ptp ∨ f = .pause) : etherFrame s k f len tags = s := by
  rw [etherFrame, hup, hmp, if_neg (by decide), macAccepts_small hlen htags, if_neg (by decide)]
  rcases hf with rfl | rfl
  · rfl
  · rfl

/-! ### Lane power states -/

theorem sendTrain_pstate (s : State) (k : Lane) (ack : Bool) : (sendTrain s k ack).lanes[k].pstate = s.lanes[k].pstate := by
  rw [sendTrain, sendBlock, updLane_self]
  rfl

theorem seek_pstate (s : State) (k : Lane) : (seek s k).lanes[k].pstate = s.lanes[k].pstate := by
  rw [seek]
  split
  · rw [sendTrain_pstate, updLane_self]
  · rfl

theorem setLState_pstate (s : State) (k : Lane) (st : LState) : (setLState s k st).lanes[k].pstate = s.lanes[k].pstate := by
  rw [setLState_lane]

theorem startLink_pstate (s : State) (k : Lane) : (startLink s k).lanes[k].pstate = s.lanes[k].pstate := by
  rw [startLink]
  split
  · rfl
  · split
    · rw [beginCycle, beginAttempt, seek_pstate, updLane_self, updLane_self, setLState_pstate]
    · exact setLState_pstate ..

theorem lanePowerStateExit_exits {s : State} {k : Lane} (h : s.lanes[k].pstate ≠ s.lanes[k].lps) (hvigil : s.pwr.vigil = false) :
    Completes (.lanePowerStateExit k) s fun t => t.lanes[k].pstate = s.lanes[k].lps
      ∧ (s.lanes[k].lps ≠ 0 → t = updLane s k fun l => { l with pstate := l.lps }) := by
  have hopen : ¬ (decide (s.lanes[k].pstate = s.lanes[k].lps) || s.pwr.vigil) = true := by
    rw [decide_eq_false h, hvigil]
    decide
  show ∃ t, Host.Outcome.next (wakeLane s k) = .next t ∧ _
  rw [wakeLane]
  refine ⟨_, congrArg _ (if_neg hopen), ?_⟩
  dsimp only
  split
  · next h0 =>
    rw [startLink_pstate, updLane_self]
    exact ⟨rfl, fun hn => absurd h0 hn⟩
  · rw [updLane_self]
    exact ⟨rfl, fun _ => rfl⟩

theorem lanePowerStateExit_stays {s : State} {k : Lane} (h : s.lanes[k].pstate = s.lanes[k].lps ∨ s.pwr.vigil = true) : exec (.lanePowerStateExit k) s = .next s := by
  refine congrArg Host.Outcome.next ?_
  rw [wakeLane]
  refine if_pos ?_
  rcases h with h | h
  · rw [decide_eq_true h]; rfl
  · rw [h, Bool.or_true]

/-! ### PCIe -/

/-- A loop over lanes leaves in each of its lanes what every turn makes of its own. -/
theorem foldl_lane {f : State → Lane → State} {P : LaneState → Prop} (hself : ∀ s k, P (f s k).lanes[k])
    (hother : ∀ s (k j : Lane), j ≠ k → (f s k).lanes[j] = s.lanes[j]) {l : List Lane} {j : Lane} (hj : j ∈ l) (s : State) : P (l.foldl f s).lanes[j] := by
  have hkeeps : ∀ (l : List Lane) (s : State), P s.lanes[j] → P (l.foldl f s).lanes[j] := by
    intro l
    induction l with
    | nil => exact fun _ h => h
    | cons k l ih =>
      intro s h
      refine ih _ ?_
      by_cases hk : j = k
      · rw [hk]
        exact hself s k
      · rw [hother s k j hk]
        exact h
  induction l generalizing s with
  | nil => exact absurd hj (by simp)
  | cons k l ih =>
    rcases List.mem_cons.1 hj with rfl | hl
    · exact hkeeps l _ (hself s j)
    · exact ih hl _

theorem mem_allLanes (j : Lane) : j ∈ allLanes := List.mem_finRange j

/-- What the links leave of the state, of the host's registers and of the timebase. -/
structure SameButLanes (t s : State) : Prop extends SameHost t s where
  links : SameButLinks t s

theorem SameButLanes.refl (s : State) : SameButLanes s s := ⟨.refl s, .refl s⟩

theorem SameButLanes.trans {u t s : State} (h : SameButLanes u t) (k : SameButLanes t s) : SameButLanes u s :=
  ⟨h.toSameHost.trans k.toSameHost, h.links.trans k.links⟩

theorem setLState_lanes (s : State) (k : Lane) (st : LState) : SameButLanes (setLState s k st) s := ⟨setLState_host .., setLState_links ..⟩

theorem foldl_lanes {f : State → Lane → State} (hf : ∀ s k, SameButLanes (f s k) s) (l : List Lane) (s : State) : SameButLanes (l.foldl f s) s :=
  foldl_related (R := fun s t => SameButLanes t s) SameButLanes.refl (fun h k => h.trans k) hf l s

/-- A link of PCIe that goes down with the reset. -/
def dropLink (s : State) (k : Lane) : State := if s.lanes[k].proto = protoPcie && s.lanes[k].lstate == .up then setLState s k .down else s

theorem dropLink_lanes (s : State) (k : Lane) : SameButLanes (dropLink s k) s := by
  rw [dropLink]
  split
  · exact setLState_lanes ..
  · exact .refl s

theorem dropLink_down (s : State) (k : Lane) : (dropLink s k).lanes[k].proto = 1 → (dropLink s k).lanes[k].lstate ≠ .up := by
  rw [dropLink]
  split
  · rw [setLState_lane]
    exact fun _ => (by decide : LState.down ≠ .up)
  · next h =>
    intro hproto hup
    rw [hup, show s.lanes[k].proto = protoPcie from hproto] at h
    exact h rfl

theorem dropLink_other (s : State) (k j : Lane) (h : j ≠ k) : (dropLink s k).lanes[j] = s.lanes[j] := by
  rw [dropLink]
  split
  · exact (setLState_link ..).other j h
  · rfl

/-- The state that a reset of PCIe leaves before the links go down (R422). -/
def pcieCleared (s : State) : State :=
  let s := updPath s .pcie fun _ => {}
  let s := updPf s fun p => { p with nonces := p.nonces.filter fun k => k.1 != .pcie }
  let s := updMm s fun m => { m with invPending := m.invPending.map fun i => { i with who := i.who.filter fun x => x.1 != .pcie } }
  { s with
    chans := s.chans.mapFinIdx fun n c _ => { c with meas := { c.meas with snaps := c.meas.snaps.set 0 ⟨word n, word n, 0⟩ } }
    tr := { s.tr with msix := Vector.replicate 64 {}, masked := [], msixEn := false }
    fw := { s.fw with
      ltssm := 0
      update := match s.fw.update with | some u => if u.path == .pcie then none else some u | none => none } }

theorem pcieCleared_rest (s : State) : (pcieCleared s).path .pcie = {} ∧ (pcieCleared s).fw.ltssm = 0 ∧ (pcieCleared s).mm.mem = s.mm.mem
    ∧ (pcieCleared s).queues = s.queues ∧ (pcieCleared s).tr.msixEn = false :=
  ⟨updPath_path_self s .pcie fun _ => {}, rfl, rfl, rfl, rfl⟩

theorem resetPcie_stages (s : State) : resetPcie s = allLanes.foldl dropLink (pcieCleared s) := rfl

theorem pcieReset_resets (s : State) : Completes .pcieReset s fun t => t.path .pcie = {} ∧ t.fw.ltssm = 0 ∧ t.mm.mem = s.mm.mem ∧ t.queues = s.queues
    ∧ t.tr.msixEn = false ∧ ∀ j : Lane, t.lanes[j].proto = 1 → t.lanes[j].lstate ≠ .up := by
  obtain ⟨hpath, hltssm, hmem, hqueues, hmsix⟩ := pcieCleared_rest s
  have hlanes := foldl_lanes dropLink_lanes allLanes (pcieCleared s)
  have hdown (j : Lane) := foldl_lane (P := fun l => l.proto = 1 → l.lstate ≠ .up) dropLink_down dropLink_other (mem_allLanes j) (pcieCleared s)
  refine ⟨allLanes.foldl dropLink (pcieCleared s), congrArg Host.Outcome.next (resetPcie_stages s), ?_⟩
  generalize allLanes.foldl dropLink (pcieCleared s) = t at hlanes hdown ⊢
  obtain ⟨hhost, hlinks⟩ := hlanes
  refine ⟨?_, (congrArg (·.ltssm) hhost.fw).trans hltssm, (congrArg (·.mem) hlinks.mm).trans hmem, hlinks.queues.trans hqueues, hhost.msix.trans hmsix, hdown⟩
  rw [← hpath, State.path, State.path, hlinks]

/-- A lane of the link that comes up. -/
def raiseLink (speed : Nat) (s : State) (k : Lane) : State :=
  setLState (askPreset (takeEq (updLane s k fun l => { l with hdrlock := true }) k) k speed) k .up

theorem raiseLink_lanes (speed : Nat) (s : State) (k : Lane) : SameButLanes (raiseLink speed s k) s := by
  refine (setLState_lanes ..).trans ⟨⟨rfl, rfl⟩, ?_⟩
  rw [askPreset]
  exact (updLane_links ..).trans ((takeEq_links ..).trans (updLane_links ..))

theorem raiseLink_up (speed : Nat) (s : State) (k : Lane) : (raiseLink speed s k).lanes[k].lstate = .up := by
  rw [raiseLink, setLState_lane]

theorem raiseLink_other (speed : Nat) (s : State) (k j : Lane) (h : j ≠ k) : (raiseLink speed s k).lanes[j] = s.lanes[j] := by
  rw [raiseLink, (setLState_link ..).other j h, askPreset, updLane_get, if_neg h, (takeEq_link ..).other j h, updLane_get, if_neg h]

theorem enableMsix_msix (s : State) : (enableMsix s).tr.msixEn = true := rfl

theorem pcieAgreed_le (f : Firmware) (speed width : Nat) : (pcieAgreed f speed width).1 ≤ speed ∧ (pcieAgreed f speed width).2 ≤ width :=
  ⟨Nat.min_le_left .., Nat.min_le_left ..⟩

/-- The link comes up on the lanes of the negotiated width (assumption 111). -/
theorem pcieLinkUp_up {s : State} {k : Lane} (speed width : Nat) (hen : s.lanes[k].en = true) (hproto : s.lanes[k].proto = 1) (hpower : s.lanes[k].pstate = 0)
    (hk : k.val < (pcieAgreed s.fw speed width).2) : Completes (.pcieLinkUp speed width) s fun t =>
      t.lanes[k].lstate = .up ∧ (t.fw.pcieSpeed, t.fw.pcieWidth) = pcieAgreed s.fw speed width ∧ t.fw.pcieSpeed ≤ speed
        ∧ t.fw.pcieWidth ≤ width ∧ t.fw.ltssm = 1 ∧ t.tr.msixEn = true ∧ t.chans = s.chans := by
  have hmine : k ∈ allLanes.filter fun k => k.val < (pcieAgreed s.fw speed width).2 && s.lanes[k].en && s.lanes[k].proto = protoPcie && s.lanes[k].pstate = 0 := by
    refine List.mem_filter.2 ⟨mem_allLanes k, ?_⟩
    rw [hen, hproto, hpower, decide_eq_true hk]
    rfl
  obtain ⟨hspeed, hwidth⟩ := pcieAgreed_le s.fw speed width
  show ∃ t, Host.Outcome.next (pcieUp s speed width) = .next t ∧ _
  rw [pcieUp]
  generalize pcieAgreed s.fw speed width = a at hmine hspeed hwidth ⊢
  dsimp only
  generalize (allLanes.filter fun k => k.val < a.2 && s.lanes[k].en && s.lanes[k].proto = protoPcie && s.lanes[k].pstate = 0) = mine at hmine ⊢
  have hsome : ¬ mine.isEmpty = true := by
    rw [List.isEmpty_iff]
    exact List.ne_nil_of_mem hmine
  have hlanes := foldl_lanes (raiseLink_lanes a.1) mine (enableMsix { s with fw := { s.fw with pcieSpeed := a.1, pcieWidth := a.2, ltssm := 1 } })
  have hup := foldl_lane (P := fun l => l.lstate = .up) (raiseLink_up a.1) (raiseLink_other a.1) hmine
    (enableMsix { s with fw := { s.fw with pcieSpeed := a.1, pcieWidth := a.2, ltssm := 1 } })
  refine ⟨mine.foldl (raiseLink a.1) (enableMsix { s with fw := { s.fw with pcieSpeed := a.1, pcieWidth := a.2, ltssm := 1 } }), congrArg _ (if_neg hsome), ?_⟩
  generalize mine.foldl (raiseLink a.1) (enableMsix { s with fw := { s.fw with pcieSpeed := a.1, pcieWidth := a.2, ltssm := 1 } }) = t at hlanes hup ⊢
  obtain ⟨⟨hfw, hmsix⟩, hlinks⟩ := hlanes
  rw [hfw]
  exact ⟨hup, rfl, hspeed, hwidth, rfl, hmsix.trans (enableMsix_msix _), hlinks.chans⟩

/-! ### Recovery, JTAG -/

theorem recoveryLaneAlternate_alternates {s : State} (hrec : s.fw.recovery = true) (hdown : s.lanes[(0 : Lane)].lstate ≠ .up) :
    exec .recoveryLaneAlternate s = .next (updLane s 0 fun l => { l with proto := if l.proto = 2 then 3 else 2 }) := by
  refine congrArg Host.Outcome.next (if_pos ?_)
  rw [hrec, Bool.true_and]
  exact bne_iff_ne.2 hdown

theorem recoveryLaneAlternate_stays {s : State} (h : s.fw.recovery = false ∨ s.lanes[(0 : Lane)].lstate = .up) : exec .recoveryLaneAlternate s = .next s := by
  refine congrArg Host.Outcome.next (if_neg fun hgo => ?_)
  rw [Bool.and_eq_true, bne_iff_ne] at hgo
  rcases h with h | h
  · exact absurd hgo.1 (ne_true_of_eq_false h)
  · exact hgo.2 h

theorem endFrames_ends (s : State) : (endFrames s).ht.en = false ∧ (endFrames s).pf = s.pf ∧ (endFrames s).chans = s.chans := by
  rw [endFrames]
  split
  · next h => exact ⟨Bool.not_eq_true _ ▸ (by simpa using h), rfl, rfl⟩
  · split
    · exact ⟨rfl, rfl, rfl⟩
    · split
      · exact ⟨rfl, rfl, rfl⟩
      · exact ⟨rfl, rfl, rfl⟩

theorem jtagPinDriveInstruction_latches (s : State) : Completes .jtagPinDriveInstruction s fun t => t.pf.debug = true ∧ t.ht.en = false
    ∧ ∀ n : Chan, t.chans[n].force.fltLatch = true
      ∧ (s.chans[n].force.fltLatch = false → t.chans[n].force.fcause = 7)
      ∧ (s.chans[n].force.fltLatch = true → s.chans[n].force.fcause ≤ 7 → t.chans[n].force.fcause = s.chans[n].force.fcause) := by
  obtain ⟨hlatches, hall⟩ := foldl_latches disableChannel_latches allChans s
  show ∃ t, Host.Outcome.next (pinDrive s) = .next t ∧ _
  rw [pinDrive]
  generalize allChans.foldl disableChannel s = u at hlatches hall ⊢
  obtain ⟨hen, hpf, hchans⟩ := endFrames_ends (updPf u fun p => { p with debug := true })
  refine ⟨_, rfl, congrArg (·.debug) hpf, hen, fun n => ?_⟩
  have hn : u.chans[n].force.fltLatch = true := hall n (List.mem_finRange n)
  rw [hchans]
  refine ⟨hn, fun h => ?_, fun h => ((hlatches.latch n).held h).2⟩
  rcases (hlatches.latch n).first h with hf | ⟨-, hcause⟩
  · exact absurd hn (ne_true_of_eq_false hf)
  · exact hcause

/-- Settles O50. -/
theorem lanesAndLinks : Obligations.LanesAndLinks := by
  unfold Obligations.LanesAndLinks
  intro s p k v
  refine ⟨fun on => laneCfgWrite_refused, fun on => laneCfgWrite_accepted, slip_slips p, slip_off p,
    fun hrec hen hproto hgen n hn => ⟨injGo_injects p hrec hen hproto hgen hn, injGo_counted p hrec hen hproto hgen hn⟩, prbsClr_clears p k, hdrlockGain_locks,
    hdrlockLoss_unlocks, hdrlockLoss_idle, signalDetectRise_asleep, signalDetectRise_seen, fun negotiated => ethernetLockRetry_locks,
    ethernetLockRetry_unlocked s k, ethernetLockRetry_unnegotiated, ethernetLinkLoss_down, fun len tags hup hmp => ⟨fun f h => ?refused, fun hlen htags => ?taken⟩,
    lanePowerStateExit_exits, lanePowerStateExit_stays, pcieReset_resets s, pcieLinkUp_up, recoveryLaneAlternate_alternates, recoveryLaneAlternate_stays,
    jtagPinDriveInstruction_latches s⟩
  case refused => exact congrArg Host.Outcome.next (etherFrame_refused f hup hmp h)
  case taken =>
    exact ⟨fun f hf => congrArg Host.Outcome.next (etherFrame_answered hup hmp hlen htags hf), congrArg Host.Outcome.next (etherFrame_hht hup hmp hlen htags),
      congrArg Host.Outcome.next (etherFrame_dropped hup hmp hlen htags (.inl rfl)), congrArg Host.Outcome.next (etherFrame_dropped hup hmp hlen htags (.inr rfl)),
      congrArg Host.Outcome.next (etherFrame_consumed hup hmp hlen htags (.inl rfl)), congrArg Host.Outcome.next (etherFrame_consumed hup hmp hlen htags (.inr rfl))⟩

end Sys2Proof.Machine
end

section
/-!
PROOFS. Sibia links (R41, R268, R426 to R430, Table 14.4).
-/
namespace Sys2Proof.Machine

theorem mem_sibiaUp (s : State) (k : Lane) : k ∈ sibiaUp s ↔ s.lanes[k].proto = 6 ∧ s.lanes[k].lstate = .up := by
  rw [sibiaUp, List.mem_filter]
  simp [mem_allLanes]

theorem sibiaLane_iff (s : State) (k : Lane) : sibiaLane s k = true ↔ s.lanes[k].proto = 6 ∧ s.lanes[k].lstate = .up := by
  rw [sibiaLane, List.contains_iff_mem, mem_sibiaUp]

/-! ### Training -/

/-- What a block that is sent on a lane leaves of the lane. -/
def withBlocks (l : LaneState) (m : LaneState) : LaneState := { l with out := m.out, fresh := m.fresh, readyAt := m.readyAt, unfilled := m.unfilled }

theorem sendBlock_lane (s : State) (k : Lane) (b : BitVec 64) : (sendBlock s k b).lanes[k] = withBlocks s.lanes[k] (sendBlock s k b).lanes[k] := by
  rw [sendBlock, updLane_self]
  rfl

theorem seek_lane (s : State) (k : Lane) : ∃ b, (seek s k).lanes[k] = { withBlocks s.lanes[k] (seek s k).lanes[k] with sought := b } := by
  rw [seek]
  split
  · rw [sendTrain, sendBlock_lane, updLane_self]
    exact ⟨true, rfl⟩
  · exact ⟨_, rfl⟩

theorem leaveAlone_lanes (s : State) : (leaveAlone s).lanes = s.lanes := by
  rw [leaveAlone]
  split
  · rfl
  · rw [noteAlign_lanes]
    rfl

/-- A lane in training. -/
def Trains (l : LaneState) : Prop := l.proto = 6 ∧ l.lstate = .training

theorem trainArrived_seen {s : State} {k : Lane} (h : Trains s.lanes[k]) (hlock : s.lanes[k].hdrlock = true) :
    (s.lanes[k].proto != protoSibia || s.lanes[k].lstate != .training || !s.lanes[k].hdrlock) = false := by
  rw [h.1, h.2, hlock]
  rfl

theorem sibiaTrain_unlocked {s : State} {k : Lane} (hlock : s.lanes[k].hdrlock = false) (id : BitVec 5) (ack : Bool) :
    exec (.sibiaTrain k id ack) s = .next s := by
  refine congrArg Host.Outcome.next ?_
  rw [trainArrived]
  exact if_pos (by rw [hlock]; simp)

/-- ACK has gone both ways. -/
theorem sibiaTrain_up {s : State} {k : Lane} (h : Trains s.lanes[k]) (hlock : s.lanes[k].hdrlock = true) {id : BitVec 5} (hid : id ≠ s.fw.straps.sysid) :
    Completes (.sibiaTrain k id true) s fun t => t.lanes[k].lstate = .up ∧ t.lanes[k].gotAck = true := by
  show ∃ t, Host.Outcome.next (trainArrived s k id true) = .next t ∧ _
  rw [trainArrived]
  dsimp only
  rw [trainArrived_seen h hlock, if_neg Bool.false_ne_true, if_neg (fun e => hid (beq_iff_eq.1 e)), updLane_self, Bool.or_true, if_pos rfl]
  refine ⟨_, rfl, ?_⟩
  rw [leaveAlone_lanes, setLState_lane, updLane_self]
  exact ⟨rfl, Bool.or_true _⟩

theorem sibiaTrain_waits {s : State} {k : Lane} (hgot : s.lanes[k].gotAck = false) (hsent : s.lanes[k].sentAck = true) {id : BitVec 5} (hid : id ≠ s.fw.straps.sysid) :
    exec (.sibiaTrain k id false) s = .next s := by
  have hkept : (updLane s k fun l => { l with sentAck := true, gotAck := l.gotAck || false }) = s :=
    updLane_keeps (by rw [Bool.or_false, ← hsent])
  refine congrArg Host.Outcome.next ?_
  rw [trainArrived]
  dsimp only
  rw [if_neg (fun e => hid (beq_iff_eq.1 e)), hsent, if_pos rfl, hkept, hgot, if_neg Bool.false_ne_true, ite_self]

/-- A lane after an attempt that failed, before what follows from it. -/
def attemptFailed (s : State) (k : Lane) : State := updLane s k fun l => { l with attempt := s.lanes[k].attempt + 1, sentAck := false, gotAck := false }

theorem failAttempt_last {s : State} {k : Lane} (h : 2 ≤ s.lanes[k].attempt) : failAttempt s k = enterAlone (setLState (attemptFailed s k) k .down) := by
  rw [failAttempt]
  exact if_pos (show s.lanes[k].attempt + 1 ≥ 3 by omega)

theorem failAttempt_more {s : State} {k : Lane} (h : s.lanes[k].attempt < 2) : failAttempt s k = beginAttempt (attemptFailed s k) k := by
  rw [failAttempt]
  exact if_neg (show ¬ s.lanes[k].attempt + 1 ≥ 3 by omega)

/-- What a failed attempt leaves of its lane, which is not UP after it. -/
theorem failAttempt_lane {s : State} {k : Lane} (h : s.lanes[k].lstate ≠ .up) :
    (failAttempt s k).lanes[k].dupid = s.lanes[k].dupid ∧ (failAttempt s k).lanes[k].lstate ≠ .up := by
  rcases Nat.lt_or_ge s.lanes[k].attempt 2 with hmore | hlast
  · obtain ⟨b, hb⟩ := seek_lane (updLane (attemptFailed s k) k fun l => { l with sentAck := false, gotAck := false, sought := false }) k
    rw [failAttempt_more hmore, beginAttempt, hb, updLane_self, attemptFailed, updLane_self]
    exact ⟨rfl, h⟩
  · rw [failAttempt_last hlast, enterAlone_lanes, setLState_lane, attemptFailed, updLane_self]
    exact ⟨rfl, (by decide : LState.down ≠ .up)⟩

theorem failAttempt_link (s : State) (k : Lane) : LinkStep k (failAttempt s k) s := by
  rw [failAttempt]
  refine .ite ((enterAlone_link ..).trans ((setLState_link ..).trans (updLane_link rfl rfl rfl))) ?_
  rw [beginAttempt]
  exact (seek_link ..).trans (LinkStep.trans (updLane_link rfl rfl rfl) (updLane_link rfl rfl rfl))

theorem sibiaTrain_duplicate {s : State} {k : Lane} (h : Trains s.lanes[k]) (hlock : s.lanes[k].hdrlock = true) :
    Completes (.sibiaTrain k s.fw.straps.sysid false) s fun t => t.tb.dupId = true ∧ t.lanes[k].dupid = true ∧ t.lanes[k].lstate ≠ .up := by
  show ∃ t, Host.Outcome.next (trainArrived s k s.fw.straps.sysid false) = .next t ∧ _
  rw [trainArrived]
  dsimp only
  rw [trainArrived_seen h hlock, if_neg Bool.false_ne_true, if_pos (beq_iff_eq.2 rfl)]
  have hnot : (updTb (updLane s k fun l => { l with dupid := true }) fun b => { b with dupId := true }).lanes[k] = { s.lanes[k] with dupid := true } :=
    updLane_self s k fun l => { l with dupid := true }
  have hlink := failAttempt_link (updTb (updLane s k fun l => { l with dupid := true }) fun b => { b with dupId := true }) k
  obtain ⟨hdup, hup⟩ := failAttempt_lane (s := updTb (updLane s k fun l => { l with dupid := true }) fun b => { b with dupId := true }) (k := k) (by
    rw [hnot]
    show s.lanes[k].lstate ≠ .up
    rw [h.2]
    decide)
  refine ⟨_, rfl, ?_, hdup.trans (by rw [hnot]), hup⟩
  rw [hlink.rest]
  rfl

theorem sibiaTrainTimeout_fails {s : State} {k : Lane} (h : Trains s.lanes[k]) : exec (.sibiaTrainTimeout k) s = .next (failAttempt s k) :=
  congrArg Host.Outcome.next (if_pos (by rw [h.1, h.2]; rfl))

theorem sibiaTrainTimeout_down {s : State} {k : Lane} (h : Trains s.lanes[k]) (hlast : s.lanes[k].attempt = 2) :
    Completes (.sibiaTrainTimeout k) s fun t => t.lanes[k].lstate = .down := by
  refine completes_of (sibiaTrainTimeout_fails h) ?_
  rw [failAttempt_last (Nat.le_of_eq hlast.symm), enterAlone_lanes, setLState_lane]

/-- The second attempt, which seeks where the lane has block lock. -/
theorem failAttempt_again {s : State} {k : Lane} (h : s.lanes[k].attempt = 1) :
    failAttempt s k = seek (updLane s k fun l => { l with attempt := 2, sentAck := false, gotAck := false, sought := false }) k := by
  rw [failAttempt_more (by omega), beginAttempt, attemptFailed, updLane_updLane, h]

theorem seek_sends {s : State} {k : Lane} (h : Trains s.lanes[k]) (hlock : s.lanes[k].hdrlock = true) (hsought : s.lanes[k].sought = false) :
    seek s k = sendBlock (updLane s k fun l => { l with sought := true }) k (trainBlock s.fw.straps.sysid.toNat (k.val - 4) false) := by
  rw [seek]
  rw [if_pos (by rw [h.1, h.2, hlock, hsought]; rfl)]
  rfl

theorem seek_waits {s : State} {k : Lane} (hlock : s.lanes[k].hdrlock = false) : seek s k = s := by
  rw [seek]
  exact if_neg (by rw [hlock]; simp)

theorem sibiaTrainTimeout_seeks {s : State} {k : Lane} (h : Trains s.lanes[k]) (hattempt : s.lanes[k].attempt = 1) (hlock : s.lanes[k].hdrlock = true) :
    exec (.sibiaTrainTimeout k) s = .next (sendBlock (updLane s k fun l => { l with attempt := 2, sentAck := false, gotAck := false, sought := true }) k
      (trainBlock s.fw.straps.sysid.toNat (k.val - 4) false)) := by
  have hlane := updLane_self s k fun l => { l with attempt := 2, sentAck := false, gotAck := false, sought := false }
  rw [sibiaTrainTimeout_fails h, failAttempt_again hattempt, seek_sends (by rw [hlane]; exact h) (by rw [hlane]; exact hlock) (by rw [hlane]), updLane_updLane]
  rfl

theorem sibiaTrainTimeout_waits {s : State} {k : Lane} (h : Trains s.lanes[k]) (hattempt : s.lanes[k].attempt = 1) (hlock : s.lanes[k].hdrlock = false) :
    exec (.sibiaTrainTimeout k) s = .next (updLane s k fun l => { l with attempt := 2, sentAck := false, gotAck := false, sought := false }) := by
  rw [sibiaTrainTimeout_fails h, failAttempt_again hattempt, seek_waits (by rw [updLane_self]; exact hlock)]

theorem hdrlockGain_seeks {s : State} {k : Lane} (h : Trains s.lanes[k]) (hsought : s.lanes[k].sought = false) (hen : s.lanes[k].en = true)
    (hpower : s.lanes[k].pstate = 0) :
    exec (.hdrlockGain k) s = .next (sendBlock (updLane s k fun l => { l with hdrlock := true, sought := true }) k
      (trainBlock s.fw.straps.sysid.toNat (k.val - 4) false)) := by
  have hlane := updLane_self s k fun l => { l with hdrlock := true }
  have hgain : (updLane s k fun l => { l with
      hdrlock := l.hdrlock || (l.en && l.proto != 0 && l.pstate = 0 && (l.proto != protoRaw || flag l.prbs 30)) }) = updLane s k fun l => { l with hdrlock := true } := by
    refine updLane_congr ?_
    rw [hen, h.1, decide_eq_true hpower]
    simp [protoRaw]
  refine congrArg Host.Outcome.next ?_
  rw [gainLock, hgain, seek_sends (by rw [hlane]; exact h) (by rw [hlane]) (by rw [hlane]; exact hsought), updLane_updLane]
  rfl

/-! ### Links that train again -/

theorem beginCycle_lane (s : State) (k : Lane) : (beginCycle s k).lanes[k].lstate = .training ∧ (beginCycle s k).lanes[k].attempt = 0
    ∧ (beginCycle s k).lanes[k].downs = if s.lanes[k].lstate == .up then satAdd 65535 s.lanes[k].downs 1 else s.lanes[k].downs := by
  rw [beginCycle, beginAttempt]
  obtain ⟨b, hb⟩ := seek_lane (updLane (updLane (setLState s k .training) k fun l => { l with attempt := 0, dupid := false, calSeq := none, calSent := none }) k fun l =>
    { l with sentAck := false, gotAck := false, sought := false }) k
  rw [hb, updLane_self, updLane_self, setLState_lane, Bool.and_eq_left_iff_imp.2 fun _ => by decide]
  exact ⟨rfl, rfl, rfl⟩

theorem sibiaLinkLoss_trains {s : State} {k : Lane} (h : sibiaLane s k = true) : Completes (.sibiaLinkLoss k) s fun t =>
    t.lanes[k].lstate = .training ∧ t.lanes[k].attempt = 0 ∧ t.lanes[k].downs = min 65535 (s.lanes[k].downs + 1) := by
  obtain ⟨hproto, hup⟩ := (sibiaLane_iff s k).1 h
  obtain ⟨hstate, hattempt, hdowns⟩ := beginCycle_lane s k
  rw [hup, if_pos (by decide), satAdd_one] at hdowns
  exact ⟨beginCycle s k, congrArg Host.Outcome.next (if_pos (by rw [hproto, hup]; rfl)), hstate, hattempt, hdowns⟩

theorem laneRestart_trains {s : State} (p : Path) {k : Lane} (hrec : s.fw.recovery = false) (hen : s.lanes[k].en = true) (hproto : s.lanes[k].proto = 6)
    (hdown : s.lanes[k].lstate = .down) (hpower : s.lanes[k].pstate = 0) : Completes (.laneRestart p k) s fun t =>
      t.lanes[k].lstate = .training ∧ t.lanes[k].attempt = 0 ∧ t.chans = s.chans := by
  obtain ⟨hstate, hattempt, -⟩ := beginCycle_lane s k
  refine ⟨beginCycle s k, congrArg Host.Outcome.next ((accessed_running hrec).trans ?_), hstate, hattempt, (beginCycle_link s k).chans⟩
  rw [restartLane]
  exact if_pos (by rw [hen, hproto, hdown, hpower]; rfl)

theorem sibiaBadBlock_counts {s : State} {k : Lane} (hen : s.lanes[k].en = true) (hproto : s.lanes[k].proto = 6) :
    exec (.sibiaBadBlock k) s = .next (updLane s k fun l => { l with badblk := min 63 (l.badblk + 1) }) :=
  congrArg Host.Outcome.next (if_pos (by rw [hen, hproto]; rfl))

/-! ### The exchanges of a skew measurement -/

theorem sibiaCalAsk_begins {s : State} {k : Lane} (h : sibiaLane s k = true) :
    exec (.sibiaCalAsk k) s = .next (updLane s k fun l => { l with calSeq := some (0, 4096), calSent := none }) := congrArg Host.Outcome.next (if_pos h)

theorem sibiaCalReqSend_sends {s : State} {k : Lane} (h : sibiaLane s k = true) {c left : Nat} (hseq : s.lanes[k].calSeq = some (c, left)) (hleft : left ≠ 0)
    (hsent : s.lanes[k].calSent = none) :
    exec (.sibiaCalReqSend k) s = .next (sendBlock (updLane s k fun l => { l with calSent := some c, calSeq := some ((c + 1) % 64, left - 1) }) k
      (calBlock 1 c (16 * s.tb.now + s.tb.fine))) := by
  refine congrArg Host.Outcome.next ?_
  rw [sendReq]
  rw [hseq]
  dsimp only
  rw [h, hsent, decide_eq_false hleft, if_neg (by decide), fineTime]

theorem sibiaCalReq_answers {s : State} {k : Lane} (h : sibiaLane s k = true) (hm : s.tb.measuring = true) (hk : skewLane s = k) (seq : BitVec 6)
    (t1 t2 t3 : BitVec 40) : exec (.sibiaCalReq k seq t1 t2 t3) s = .next (sendBlock
      { s with tb := { s.tb with exchange := some (seq.toNat, t1.toNat, t2.toNat, t3.toNat) } } k (calBlock 2 seq.toNat t3.toNat)) := by
  refine congrArg Host.Outcome.next ?_
  rw [reqArrived, if_neg (by rw [hm, hk, h]; simp)]
  rfl

theorem sibiaCalReport_sums {s : State} {k : Lane} (h : sibiaLane s k = true) (hm : s.tb.measuring = true) (hk : skewLane s = k) {seq : BitVec 6}
    {t1 t2 t3 : BitVec 40} (t4 : BitVec 40) (hex : s.tb.exchange = some (seq.toNat, t1.toNat, t2.toNat, t3.toNat)) :
    exec (.sibiaCalReport k seq t4) s = .next { s with tb := { s.tb with
      exchange := none, exchanges := s.tb.exchanges + 1, sumOfs := s.tb.sumOfs + ((t2 - t1).toInt - (t4 - t3).toInt - 2 * s.tb.asym) } } := by
  refine congrArg Host.Outcome.next ?_
  rw [reportArrived, if_pos (by rw [hm, hk, h, hex]; simp), endExchange, hex]
  dsimp only
  rw [BitVec.ofNat_toNat, BitVec.ofNat_toNat, BitVec.ofNat_toNat, BitVec.setWidth_eq, BitVec.setWidth_eq, BitVec.setWidth_eq]
  rfl

theorem sibiaCalRsp_reports {s : State} {k : Lane} (h : sibiaLane s k = true) {seq : BitVec 6} (hsent : s.lanes[k].calSent = some seq.toNat) (t3 t4 : BitVec 40) :
    exec (.sibiaCalRsp k seq t3 t4) s = .next (sendBlock (updLane s k fun l => { l with calSent := none }) k (calBlock 3 seq.toNat t4.toNat)) := by
  refine congrArg Host.Outcome.next ?_
  rw [rspArrived]
  exact if_neg (by rw [h, hsent]; simp)

theorem sibiaCalExchangeTimeout_drops {s : State} {k : Lane} (hsent : s.lanes[k].calSent = none) (hm : s.tb.measuring = true) (hk : skewLane s = k)
    (hfew : s.tb.dropped < 64) :
    exec (.sibiaCalExchangeTimeout k) s = .next { s with tb := { s.tb with exchange := none, dropped := s.tb.dropped + 1 } } := by
  have hmine : (s.tb.measuring && skewLane s == k) = true := by rw [hm, hk, Bool.true_and, beq_self_eq_true]
  refine congrArg Host.Outcome.next ?_
  rw [exchangeTimeout]
  dsimp only
  rw [hsent, if_neg (show ¬ (none : Option Nat).isSome = true by decide), if_pos hmine]
  exact if_neg (show ¬ s.tb.dropped + 1 > 64 by omega)

theorem sibiaSyncv_compares {s : State} {k : Lane} (h : sibiaLane s k = true) (cap : BitVec 48) :
    exec (.sibiaSyncv k cap) s = .next (if cap.toNat = s.tb.syncCap % 2 ^ 48 then s else updLane s k fun l => { l with syncdiff := true }) := by
  refine congrArg Host.Outcome.next ?_
  rw [syncvArrived, h, Bool.true_and]
  split
  · next hne => rw [if_neg (bne_iff_ne.1 hne)]
  · next heq => rw [if_pos (by simpa using heq)]

/-! ### Tokens -/

/-- The tokens that a lane's block brings: what it leaves but for the lanes it goes on to. -/
theorem receiveTokens_rest (s : State) (k : Lane) (mask a : Nat) : (receiveTokens s k mask a).tb = s.tb ∧ (receiveTokens s k mask a).chans = s.chans
    ∧ (receiveTokens s k mask a).lanes[k] = s.lanes[k] ∧ s.tr.remote.length ≤ (receiveTokens s k mask a).tr.remote.length := by
  have hfold (b : BitVec 64) (l : List Lane) (u : State) (hl : k ∉ l) : (l.foldl (fun t j => sendBlock t j b) u).tb = u.tb
      ∧ (l.foldl (fun t j => sendBlock t j b) u).chans = u.chans ∧ (l.foldl (fun t j => sendBlock t j b) u).lanes[k] = u.lanes[k]
      ∧ (l.foldl (fun t j => sendBlock t j b) u).tr = u.tr := by
    induction l generalizing u with
    | nil => exact ⟨rfl, rfl, rfl, rfl⟩
    | cons j l ih =>
      have hj : k ≠ j := List.ne_of_not_mem_cons hl
      have hrest : k ∉ l := List.not_mem_of_not_mem_cons hl
      obtain ⟨htb, hchans, hlane, htr⟩ := ih (sendBlock u j b) hrest
      exact ⟨htb, hchans, hlane.trans (by rw [sendBlock, updLane_get, if_neg hj]), htr⟩
  rw [receiveTokens]
  dsimp only
  split
  · exact ⟨rfl, rfl, rfl, by rw [List.length_append]; omega⟩
  · obtain ⟨htb, hchans, hlane, htr⟩ := hfold _ ((sibiaUp s).filter (· != k)) _ (by simp)
    refine ⟨htb, hchans, hlane, ?_⟩
    rw [htr, List.length_append]
    omega

theorem sibiaToken_rest {s : State} {k : Lane} (h : sibiaLane s k = true) (mask : BitVec 16) (a : BitVec 32) : Completes (.sibiaToken k mask a) s fun t =>
    t.tb = s.tb ∧ t.lanes[k] = s.lanes[k] ∧ t.chans = s.chans ∧ s.tr.remote.length ≤ t.tr.remote.length := by
  obtain ⟨htb, hchans, hlane, hlen⟩ := receiveTokens_rest s k mask.toNat (fullSlot (s.tb.now / 16) a.toNat)
  exact ⟨_, congrArg Host.Outcome.next (if_pos h), htb, hlane, hchans, hlen⟩

/-- Settles O51. -/
theorem sibiaLinks : Obligations.SibiaLinks := by
  unfold Obligations.SibiaLinks
  intro s p k seq
  exact ⟨fun h hlock id => sibiaTrain_up h hlock, fun _ hgot hsent id => sibiaTrain_waits hgot hsent, fun _ => sibiaTrain_unlocked, sibiaTrain_duplicate,
    sibiaTrainTimeout_down, sibiaTrainTimeout_seeks, sibiaTrainTimeout_waits, fun h _ => hdrlockGain_seeks h, sibiaLinkLoss_trains, laneRestart_trains p,
    sibiaBadBlock_counts, sibiaCalAsk_begins, fun h c left => sibiaCalReqSend_sends h,
    fun h hm hk t1 t2 t3 t4 => ⟨sibiaCalReq_answers h hm hk seq t1 t2 t3, sibiaCalReport_sums h hm hk t4⟩, fun h => sibiaCalRsp_reports h,
    sibiaCalExchangeTimeout_drops, sibiaSyncv_compares, fun mask a h => sibiaToken_rest h mask a⟩

end Sys2Proof.Machine
end

section
/-!
PROOFS. Remote tokens and the order of blocks (R268, R427, Table 14.4).
-/
namespace Sys2Proof.Machine

/-! ### Who takes a remote token -/

/-- The channels that take the tokens of a block. -/
def tokensFor (s : State) (k : Lane) (mask : BitVec 16) : List (Fin 128) :=
  (List.finRange 128).filter fun c => decide (112 ≤ c.val) && mask.getLsbD (c.val - 112)
    && decide (2 ≤ s.tr.tc[c].rmode.toNat) && decide (s.tr.tc[c].rlane.toNat + 4 = k.val) && passes s.tr c

/-- Those of them that send it on. -/
def tokensRelayed (s : State) (k : Lane) (mask : BitVec 16) : List (Fin 128) := (tokensFor s k mask).filter fun c => s.tr.tc[c].rmode == 3

/-- The channels hold their tokens for a slot that has yet to begin (assumption 56). -/
def tokensHeld (s : State) (k : Lane) (mask : BitVec 16) (due next : Nat) : State :=
  { s with tr := { s.tr with
    remote := s.tr.remote ++ (tokensFor s k mask).map fun c => ⟨c.val, max due next, s.tb.now⟩
    late := s.tr.late || (decide (due < next) && !(tokensFor s k mask).isEmpty)
    lateCount := if due < next then min 65535 (s.tr.lateCount + (tokensFor s k mask).length) else s.tr.lateCount } }

/-- The mask of the channels that send a token on. -/
def relayMask (l : List (Fin 128)) : Nat := l.foldl (fun m c => m ||| 2 ^ (c.val - 112)) 0

theorem tokensFor_eq (s : State) (k : Lane) (mask : BitVec 16) : ((List.finRange 128).filter fun c =>
    let t := s.tr.tc[c]
    c.val ≥ 112 && mask.toNat.testBit (c.val - 112) && t.rmode.toNat ≥ 2 && t.rlane.toNat + 4 == k.val && passes s.tr c) = tokensFor s k mask := rfl

theorem receiveTokens_eq (s : State) (k : Lane) (mask : BitVec 16) (a : Nat) : receiveTokens s k mask.toNat a =
    if relayMask (tokensRelayed s k mask) = 0 then tokensHeld s k mask (a + max 8 s.tr.lat) (nextSlot s / 16)
    else ((sibiaUp s).filter (· != k)).foldl (fun t j => sendBlock t j (tokenBlock (relayMask (tokensRelayed s k mask)) a))
      (tokensHeld s k mask (a + max 8 s.tr.lat) (nextSlot s / 16)) := by
  rw [receiveTokens, tokensFor_eq]
  rfl

theorem testBit_foldl_or (l : List (Fin 128)) (m i : Nat) :
    (l.foldl (fun m c => m ||| 2 ^ (c.val - 112)) m).testBit i = true ↔ m.testBit i = true ∨ ∃ c ∈ l, c.val - 112 = i := by
  induction l generalizing m with
  | nil => simp
  | cons c l ih =>
    rw [List.foldl_cons, ih, Nat.testBit_or, Nat.testBit_two_pow, Bool.or_eq_true, decide_eq_true_eq, or_assoc]
    simp

/-- Bit i of the mask stands for the channel 112 + i. -/
theorem testBit_relayMask (s : State) (k : Lane) (mask : BitVec 16) (i : Nat) :
    (relayMask (tokensRelayed s k mask)).testBit i = true ↔ ∃ c ∈ tokensRelayed s k mask, c.val = 112 + i := by
  have hlow : ∀ c ∈ tokensRelayed s k mask, 112 ≤ c.val := by
    intro c hc
    obtain ⟨hmine, -⟩ := List.mem_filter.1 hc
    obtain ⟨-, hbits⟩ := List.mem_filter.1 hmine
    simp only [Bool.and_eq_true, decide_eq_true_eq] at hbits
    exact hbits.1.1.1.1
  rw [relayMask, testBit_foldl_or]
  constructor
  · rintro (h | ⟨c, hc, rfl⟩)
    · exact absurd h (by simp)
    · exact ⟨c, hc, by have := hlow c hc; omega⟩
  · rintro ⟨c, hc, hi⟩
    exact .inr ⟨c, hc, by omega⟩

theorem relayMask_eq_zero (s : State) (k : Lane) (mask : BitVec 16) : relayMask (tokensRelayed s k mask) = 0 ↔ tokensRelayed s k mask = [] := by
  constructor
  · intro h
    refine List.eq_nil_iff_forall_not_mem.2 fun c hc => ?_
    have hbit : (relayMask (tokensRelayed s k mask)).testBit (c.val - 112) = true := by
      rw [relayMask, testBit_foldl_or]
      exact .inr ⟨c, hc, rfl⟩
    rw [h, Nat.zero_testBit] at hbit
    exact absurd hbit (by decide)
  · intro h
    rw [h]
    rfl

theorem sibiaToken_down {s : State} {k : Lane} (mask : BitVec 16) (a : BitVec 32) (h : sibiaLane s k = false) : exec (.sibiaToken k mask a) s = .next s :=
  congrArg Host.Outcome.next (if_neg (ne_true_of_eq_false h))

theorem sibiaToken_takes {s : State} {k : Lane} (mask : BitVec 16) (a : BitVec 32) (h : sibiaLane s k = true) :
    exec (.sibiaToken k mask a) s = .next (receiveTokens s k mask.toNat (fullSlot (s.tb.now / 16) a.toNat)) := congrArg Host.Outcome.next (if_pos h)

/-! ### Where a token goes on to -/

/-- One block on each of some lanes. -/
theorem foldl_sendBlock (b : BitVec 64) {l : List Lane} (hl : l.Nodup) (u : State) : l.foldl (fun t j => sendBlock t j b) u =
    { u with lanes := Vector.ofFn fun j : Lane => if j ∈ l then txBlock u.tb.now b u.lanes[j] else u.lanes[j] } := by
  induction l generalizing u with
  | nil => simp
  | cons k l ih =>
    obtain ⟨hk, hrest⟩ := List.nodup_cons.1 hl
    rw [List.foldl_cons, ih hrest]
    have hlane (j : Lane) : (if j ∈ l then txBlock u.tb.now b (sendBlock u k b).lanes[j] else (sendBlock u k b).lanes[j]) =
        if j ∈ k :: l then txBlock u.tb.now b u.lanes[j] else u.lanes[j] := by
      by_cases hj : j = k
      · subst hj
        rw [if_neg hk, if_pos List.mem_cons_self, sendBlock, updLane_self]
      · rw [sendBlock, updLane_get, if_neg hj]
        exact ite_of_iff (by simp [hj]) rfl rfl
    exact congrArg (fun v => ({ u with lanes := v } : State)) (congrArg Vector.ofFn (funext hlane))

theorem sibiaUp_nodup (s : State) : (sibiaUp s).Nodup := (List.nodup_finRange 8).filter _

theorem mem_otherSibia (s : State) (k j : Lane) : j ∈ (sibiaUp s).filter (· != k) ↔ sibiaLane s j = true ∧ j ≠ k := by
  rw [List.mem_filter, sibiaLane, List.contains_iff_mem, bne_iff_ne]

/-- The tokens go on in one block on every other lane that is UP. -/
theorem receiveTokens_relays {s : State} {k : Lane} {mask : BitVec 16} (a : Nat) (h : tokensRelayed s k mask ≠ []) : receiveTokens s k mask.toNat a =
    { tokensHeld s k mask (a + max 8 s.tr.lat) (nextSlot s / 16) with
      lanes := Vector.ofFn fun j : Lane =>
        if sibiaLane s j = true ∧ j ≠ k then txBlock s.tb.now (tokenBlock (relayMask (tokensRelayed s k mask)) a) s.lanes[j] else s.lanes[j] } := by
  rw [receiveTokens_eq, if_neg (fun e => h ((relayMask_eq_zero ..).1 e)), foldl_sendBlock _ ((sibiaUp_nodup s).filter _)]
  simp only [mem_otherSibia]
  rfl

/-! ### Full slot numbers -/

theorem fullSlot_nearest (now : Nat) {a : Nat} (h : a < 2 ^ 32) : fullSlot now a % 2 ^ 32 = a ∧ (fullSlot now a ≤ now + 2 ^ 31 ∨ fullSlot now a < 2 ^ 32)
    ∧ now ≤ fullSlot now a + 2 ^ 31 := by
  have hdiv := Nat.div_add_mod now (2 ^ 32)
  have hmod := Nat.mod_lt now (show 0 < 2 ^ 32 by decide)
  rw [fullSlot]
  split
  · omega
  · split
    · next hhigh =>
      simp only [Bool.and_eq_true, decide_eq_true_eq] at hhigh
      omega
    · next hhigh =>
      simp only [Bool.and_eq_true, decide_eq_true_eq] at hhigh
      omega

/-! ### The order of blocks -/

theorem txBlock_alone {now : Nat} (b : BitVec 64) {l : LaneState} (hready : l.readyAt ≠ some now) (hfew : l.unfilled < 2047) :
    txBlock now b l = { l with out := l.out ++ [b], fresh := 1, readyAt := some now, unfilled := l.unfilled + 1 } := by
  rw [txBlock, if_neg hready, if_neg (Nat.ne_of_lt hfew), if_neg (Nat.ne_of_lt hfew)]
  simp [insertBlock]

theorem txBlock_filled {now : Nat} (b : BitVec 64) {l : LaneState} (hready : l.readyAt ≠ some now) (hfull : l.unfilled = 2047) :
    txBlock now b l = { l with out := l.out ++ [fillerBlock, b], fresh := 1, readyAt := some now, unfilled := 1 } := by
  rw [txBlock, if_neg hready, if_pos hfull, if_pos hfull]
  simp [insertBlock]

theorem insertBlock_between (b : BitVec 64) {ahead behind : List (BitVec 64)} (hahead : ∀ x ∈ ahead, blockRank x ≤ blockRank b)
    (hbehind : ∀ x ∈ behind.head?, blockRank b < blockRank x) : insertBlock b (ahead ++ behind) = ahead ++ [b] ++ behind := by
  induction ahead with
  | nil =>
    cases behind with
    | nil => rfl
    | cons x behind =>
      rw [List.nil_append, insertBlock, if_pos (hbehind x rfl)]
      rfl
  | cons x ahead ih =>
    rw [List.cons_append, insertBlock, if_neg (Nat.not_lt.2 (hahead x List.mem_cons_self)), ih fun y hy => hahead y (List.mem_cons_of_mem x hy)]
    rfl

theorem txBlock_among {now : Nat} {b : BitVec 64} {l : LaneState} {kept ahead behind : List (BitVec 64)} (hready : l.readyAt = some now) (hfew : l.unfilled < 2047)
    (hout : l.out = kept ++ ahead ++ behind) (hfresh : l.fresh = (ahead ++ behind).length) (hahead : ∀ x ∈ ahead, blockRank x ≤ blockRank b)
    (hbehind : ∀ x ∈ behind.head?, blockRank b < blockRank x) :
    txBlock now b l = { l with out := kept ++ ahead ++ [b] ++ behind, fresh := l.fresh + 1, unfilled := l.unfilled + 1 } := by
  have hkept : l.out.length - l.fresh = kept.length := by
    rw [hout, hfresh]
    simp only [List.length_append]
    omega
  have hsplit : l.out = kept ++ (ahead ++ behind) := by rw [hout, List.append_assoc]
  have htake : l.out.take kept.length = kept := by rw [hsplit, List.take_left]
  have hdrop : l.out.drop kept.length = ahead ++ behind := by rw [hsplit, List.drop_left]
  rw [txBlock, if_pos hready, if_neg (Nat.ne_of_lt hfew), if_neg (Nat.ne_of_lt hfew), hkept, htake, hdrop, insertBlock_between b hahead hbehind, ← hready]
  simp

/-- Settles O52. -/
theorem sibiaTokens : Obligations.SibiaTokens := by
  unfold Obligations.SibiaTokens
  refine ⟨fun s k mask a => ⟨sibiaToken_down mask a, fun h hnone => ?held, fun h hsome => ?relays⟩, fun now a b hb ha => hb ▸ fullSlot_nearest now ha,
    fun now b l => ⟨txBlock_alone b, txBlock_filled b, fun kept ahead behind => txBlock_among⟩⟩
  case held =>
    rw [sibiaToken_takes mask a h, receiveTokens_eq, if_pos ((relayMask_eq_zero ..).2 hnone)]
    rfl
  case relays =>
    refine ⟨relayMask (tokensRelayed s k mask), testBit_relayMask s k mask, ?_⟩
    rw [sibiaToken_takes mask a h, receiveTokens_relays _ hsome]
    rfl

end Sys2Proof.Machine
end

section
/-!
PROOFS. The mailbox and the HHT session (R433 to R438).
-/
namespace Sys2Proof.Machine

/-! ### The mailbox -/

theorem updPath_updPath (s : State) (p : Path) (f g : PathRegs → PathRegs) : updPath (updPath s p f) p g = updPath s p fun m => g (f m) := by
  simp [updPath]

theorem hasMailbox_of {p : Path} (h : p = .pcie ∨ p = .spi) : hasMailbox p = true := by
  rcases h with rfl | rfl
  · rfl
  · rfl

/-- The bytes that a path offers, with the tick of the offer. -/
def bytesOffered (s : State) (p : Path) (v : Word) : State := updPath s p fun m => { m with cmdWr := v, offers := m.offers ++ [(v.toNat, s.tb.now)] }

theorem offerBytes_plain {s : State} {p : Path} {v : Word} (h : takesFrom (bytesOffered s p v) p = false ∨ unknownNext (bytesOffered s p v) p = false) :
    offerBytes s p v = bytesOffered s p v := by
  rw [offerBytes]
  rw [← bytesOffered]
  split
  · next htakes =>
    rcases h with h | h
    · exact absurd htakes (ne_true_of_eq_false h)
    · exact if_neg (ne_true_of_eq_false h)
  · rfl

/-- A message of no command that comes next is answered with the offer. -/
theorem offerBytes_unknown {s : State} {p : Path} {v : Word} (htakes : takesFrom (bytesOffered s p v) p = true) (hfirst : unknownNext (bytesOffered s p v) p = true)
    (hnext : unknownNext (answerUnknown (bytesOffered s p v) p) p = false) : offerBytes s p v = answerUnknown (bytesOffered s p v) p := by
  have hone (t : State) (ht : unknownNext t p = true) (hu : unknownNext (answerUnknown t p) p = false) : answerUnknowns t p = answerUnknown t p :=
    (if_pos ht).trans (if_neg (ne_true_of_eq_false hu))
  rw [offerBytes]
  rw [← bytesOffered, if_pos htakes, hone _ hfirst hnext]

theorem fwCmdWrWrite_offers {s : State} {p : Path} {v : Word} (hp : p = .pcie ∨ p = .spi) (hmul : v.toNat % 4 = 0)
    (hback : ahead (s.path p).cmdWr (s.path p).cmdRd ≤ ahead v (s.path p).cmdRd) (hroom : ahead v (s.path p).cmdRd ≤ 32768) (hnew : v ≠ (s.path p).cmdWr) :
    exec (.fwCmdWrWrite p v) s = .next (offerBytes s p v) := by
  have htaken : ¬ (v.toNat % 4 != 0 || decide (ahead v (s.path p).cmdRd < ahead (s.path p).cmdWr (s.path p).cmdRd)
      || decide (ahead v (s.path p).cmdRd > 32768)) = true := by
    rw [hmul, decide_eq_false (Nat.not_lt.2 hback), decide_eq_false (Nat.not_lt.2 hroom)]
    decide
  refine congrArg Host.Outcome.next ((if_pos (hasMailbox_of hp)).trans ?_)
  rw [cmdWrWrite, if_neg htaken, if_neg (fun e => hnew (beq_iff_eq.1 e))]

theorem fwCmdWrWrite_rejects {s : State} {p : Path} {v : Word} (hp : p = .pcie ∨ p = .spi) (h : v.toNat % 4 ≠ 0 ∨ 32768 < ahead v (s.path p).cmdRd) :
    exec (.fwCmdWrWrite p v) s = .next (updPath s p fun m => { m with rej := true }) := by
  refine congrArg Host.Outcome.next ((if_pos (hasMailbox_of hp)).trans ?_)
  rw [cmdWrWrite]
  refine if_pos ?_
  rcases h with h | h
  · rw [bne_iff_ne.2 h]; rfl
  · rw [decide_eq_true h, Bool.or_true]

/-- Nothing waits to be posted. -/
theorem freeRsp_quiet {s : State} {p : Path} (v : Word) (h : (s.path p).unposted = []) : freeRsp s p v = updPath s p fun m => { m with rspRd := v } := by
  have hnone : ((updPath s p fun m => { m with rspRd := v }).path p).unposted = [] := by
    rw [updPath_path_self]
    exact h
  rw [freeRsp, postAll, hnone]
  rfl

theorem fwRspRdWrite_frees {s : State} {p : Path} {v : Word} (hp : p = .pcie ∨ p = .spi)
    (hread : ahead v (s.path p).rspRd ≤ ahead (s.path p).rspWr (s.path p).rspRd) (hnone : (s.path p).unposted = []) :
    exec (.fwRspRdWrite p v) s = .next (updPath s p fun m => { m with rspRd := v }) := by
  refine congrArg Host.Outcome.next ((if_pos (hasMailbox_of hp)).trans ?_)
  rw [rspRdWrite, if_neg (Nat.not_lt.2 hread), freeRsp_quiet v hnone]

theorem fwRspRdWrite_rejects {s : State} {p : Path} {v : Word} (hp : p = .pcie ∨ p = .spi)
    (hread : ahead (s.path p).rspWr (s.path p).rspRd < ahead v (s.path p).rspRd) :
    exec (.fwRspRdWrite p v) s = .next (updPath s p fun m => { m with rej := true }) := by
  refine congrArg Host.Outcome.next ((if_pos (hasMailbox_of hp)).trans ?_)
  rw [rspRdWrite]
  exact if_pos hread

theorem path_of_paths {t s : State} (h : t.paths = s.paths) (p : Path) : t.path p = s.path p := by rw [State.path, State.path, h]

/-- A message that leaves the command stream moves the read count behind itself. -/
theorem passMessage_path (s : State) (p : Path) (len : Nat) : ∃ w o, (passMessage s p len).path p = { s.path p with
    cmdRd := (s.path p).cmdRd + word len, cmdWr := w, offers := o } := by
  rw [passMessage, updPath_path_self, path_of_paths (offerDevice_paths ..)]
  exact ⟨_, _, rfl⟩

/-- A response that is posted. -/
theorem postNow_path (s : State) {p : Path} (r : Rsp) (taken : Nat) (hp : p ≠ .hht) :
    ((postNow s p r taken).path p).rsps = (s.path p).rsps ++ [r] ∧ ((postNow s p r taken).path p).cmdRd = (s.path p).cmdRd := by
  have hpath : (offerDevice (updPath s p fun k =>
      { k with rsps := k.rsps ++ [r], rspRing := ringStore k.rspRing 16384 k.rspWr.toNat (rspBytes r), rspWr := count32 k.rspWr r.size }) 6 taken s.tb.now).path p =
      { s.path p with
        rsps := (s.path p).rsps ++ [r]
        rspRing := ringStore (s.path p).rspRing 16384 (s.path p).rspWr.toNat (rspBytes r)
        rspWr := count32 (s.path p).rspWr r.size } := by
    rw [path_of_paths (offerDevice_paths ..), updPath_path_self]
  have hne : ¬ (p == .hht) = true := fun e => hp (beq_iff_eq.1 e)
  rw [postNow]
  dsimp only
  rw [if_neg hne]
  split
  · rw [path_of_paths (raise_paths ..)]
    exact ⟨congrArg (·.rsps) hpath, congrArg (·.cmdRd) hpath⟩
  · exact ⟨congrArg (·.rsps) hpath, congrArg (·.cmdRd) hpath⟩

/-- A response for which there is room, and nothing before it. -/
theorem respond_path {s : State} {p : Path} {r : Rsp} (taken : Nat) (hp : p ≠ .hht) (hnone : (s.path p).unposted = []) (hroom : r.size ≤ rspRoom (s.path p)) :
    ((respond s p r taken).path p).rsps = (s.path p).rsps ++ [r] ∧ ((respond s p r taken).path p).cmdRd = (s.path p).cmdRd := by
  have hone : (updPath s p fun k => { k with unposted := k.unposted ++ [(r, taken)] }).path p = { s.path p with unposted := [(r, taken)] } := by
    rw [updPath_path_self, hnone]
    rfl
  have hno : ¬ (p == .hht && !s.hht.live) = true := by
    rw [beq_eq_false_iff_ne.2 hp, Bool.false_and]
    decide
  have hpost (u : State) (hu : u.path p = { s.path p with unposted := [(r, taken)] }) :
      postAll u p = postNow (updPath u p fun k => { k with unposted := [] }) p r taken := by
    rw [postAll, hu]
    show postWaiting 1 u p = _
    rw [postWaiting, hu]
    exact if_pos hroom
  rw [respond, if_neg hno, hpost _ hone]
  obtain ⟨hrsps, hrd⟩ := postNow_path (updPath (updPath s p fun k => { k with unposted := k.unposted ++ [(r, taken)] }) p fun k => { k with unposted := [] }) r taken hp
  rw [updPath_path_self, hone] at hrsps hrd
  exact ⟨hrsps, hrd⟩

theorem answerUnknown_posts {s : State} {p : Path} (hp : p = .pcie ∨ p = .spi)
    (htime : headField (s.path p) 0x10 8 = 0 ∨ s.tb.now ≤ headField (s.path p) 0x10 8) (hnone : (s.path p).unposted = []) (hroom : 16 ≤ rspRoom (s.path p)) :
    ((answerUnknown s p).path p).rsps = (s.path p).rsps ++ [⟨headField (s.path p) 0 2, 1, word (headField (s.path p) 8 4), []⟩]
      ∧ ((answerUnknown s p).path p).cmdRd = (s.path p).cmdRd + word (headField (s.path p) 4 4) := by
  have hne : p ≠ .hht := by
    rcases hp with rfl | rfl
    · decide
    · decide
  have hlate : pastDeadline s (headField (s.path p) 0x10 8) = false := by
    rw [pastDeadline]
    rcases htime with h | h
    · rw [h]; rfl
    · rw [decide_eq_false (Nat.not_lt.2 h), Bool.and_false]
  obtain ⟨w, o, hpath⟩ := passMessage_path s p (headField (s.path p) 4 4)
  have hanswer : answerUnknown s p = respond (passMessage s p (headField (s.path p) 4 4)) p
      ⟨headField (s.path p) 0 2, 1, word (headField (s.path p) 8 4), []⟩ s.tb.now := by
    rw [answerUnknown]
    rw [hlate, if_neg Bool.false_ne_true, if_neg Bool.false_ne_true]
    rfl
  have hsize : (⟨headField (s.path p) 0 2, 1, word (headField (s.path p) 8 4), []⟩ : Rsp).size = 16 := by
    rw [Rsp.size]
    simp [padded, zeros]
  obtain ⟨hrsps, hrd⟩ := respond_path (s := passMessage s p (headField (s.path p) 4 4)) (r := ⟨headField (s.path p) 0 2, 1, word (headField (s.path p) 8 4), []⟩)
    s.tb.now hne (by rw [hpath]; exact hnone) (by rw [hpath, hsize]; exact hroom)
  rw [hpath] at hrsps hrd
  rw [hanswer]
  exact ⟨hrsps, hrd⟩

/-! ### The HHT session -/

theorem hhtOpen_begins {s : State} {k : Lane} (host : HostAddr) (hport : hhtPort s k = true) (hen : s.hht.en = true) (hlive : s.hht.live = false) :
    Completes (.hhtOpen k host) s fun t =>
      t.hht.live = true ∧ t.hht.lane = k.val ∧ t.hht.host = host ∧ t.hht.session = Config.freeWord s.free
        ∧ t.hht.out = s.hht.out ++ [.opened 0 (Config.freeWord s.free) Config.hhtSmax]
        ∧ t.mm = s.mm ∧ ∀ d : Ring, t.rings[d] = { s.rings[d] with sentTo := s.rings[d].rd, maxSent := s.rings[d].rd } := by
  refine ⟨beginSession s k host, congrArg Host.Outcome.next ?_, rfl, rfl, rfl, rfl, rfl, rfl, fun d => ?_⟩
  · rw [openHht, hport, if_neg (by decide), hen, if_neg (by decide), hlive, Bool.false_and, if_neg Bool.false_ne_true, if_neg Bool.false_ne_true]
  · show (s.rings.map restartStream)[d] = _
    simp [restartStream]

theorem hhtOpen_busy {s : State} {k : Lane} {host : HostAddr} (hport : hhtPort s k = true) (hen : s.hht.en = true) (hlive : s.hht.live = true)
    (hhost : s.hht.host ≠ host) : exec (.hhtOpen k host) s = .next (sendHht s (.opened 1 0 Config.hhtSmax)) := by
  refine congrArg Host.Outcome.next ?_
  rw [openHht, hport, if_neg (by decide), hen, if_neg (by decide), hlive, Bool.true_and, if_pos (bne_iff_ne.2 hhost)]

/-- A datagram of the live session. -/
def InSession (s : State) (k : Lane) (host : HostAddr) (session : Word) : Prop :=
  hhtPort s k = true ∧ s.hht.en = true ∧ s.hht.live = true ∧ s.hht.lane = k.val ∧ s.hht.host = host ∧ s.hht.session = session

theorem inSession_live {s : State} {k : Lane} {host : HostAddr} {session : Word} (h : InSession s k host session) (f : State → State) :
    inSession s k host session f = f s := by
  obtain ⟨hport, hen, hlive, hlane, hhost, hsession⟩ := h
  rw [inSession, hport, if_neg (by decide)]
  refine if_pos ?_
  rw [hen, hlive, hlane, hhost, hsession]
  simp

theorem inSession_dropped {s : State} {k : Lane} {host : HostAddr} {session : Word} (hport : hhtPort s k = true)
    (h : s.hht.live = false ∨ s.hht.session ≠ session ∨ s.hht.host ≠ host) (f : State → State) : inSession s k host session f = frameDropped s := by
  rw [inSession, hport, if_neg (by decide), ← dropFrame_drops]
  refine if_neg fun hgo => ?_
  simp only [Bool.and_eq_true, beq_iff_eq] at hgo
  obtain ⟨⟨⟨⟨-, hlive⟩, -⟩, hhost⟩, hsession⟩ := hgo
  rcases h with h | h | h
  · exact absurd hlive (ne_true_of_eq_false h)
  · exact h hsession
  · exact h hhost

theorem hhtKeepalive_alive {s : State} {k : Lane} {host : HostAddr} {session : Word} (h : InSession s k host session) :
    exec (.hhtKeepalive k host session) s = .next (sendHht s .alive) := congrArg Host.Outcome.next (inSession_live h _)

/-- What an end of the session leaves. -/
theorem endSession_ends (s : State) : (endSession s).hht.live = false ∧ (endSession s).hht.session = 0 ∧ (endSession s).hht.events = []
    ∧ ((endSession s).path .hht).unposted = [] ∧ (endSession s).rings = s.rings ∧ (endSession s).mm.mem = s.mm.mem := by
  refine ⟨rfl, rfl, rfl, ?_, rfl, rfl⟩
  exact congrArg (·.unposted) (updPath_path_self (updHht s fun h => { h with live := false, session := 0, events := [] }) .hht fun k =>
    { k with unposted := [], offers := [], cmdWr := k.cmdRd, rspRd := k.rspWr })

/-- The bytes of CMD stand in the ring of the path. -/
def cmdStored (s : State) (bytes : List Byte) : State :=
  updPath s .hht fun m => { m with cmdRing := ringStore m.cmdRing 32768 m.cmdWr.toNat bytes }

theorem cmdStored_offered (s : State) (bytes : List Byte) (v : Word) : bytesOffered (cmdStored s bytes) .hht v = updPath s .hht fun m => { m with
    cmdWr := v, offers := m.offers ++ [(v.toNat, s.tb.now)], cmdRing := ringStore m.cmdRing 32768 m.cmdWr.toNat bytes } := updPath_updPath ..

theorem hhtBytes_takes {s : State} {bytes : List Byte} (h : bytes.length ≤ cmdRoom (s.path .hht)) : hhtBytes s (s.path .hht).cmdWr.toNat bytes =
    (fun t => sendHht t (.ack (t.path .hht).cmdWr.toNat (cmdRoom (t.path .hht))))
      (offerBytes (cmdStored s bytes) .hht ((s.path .hht).cmdWr + word bytes.length)) := by
  rw [hhtBytes]
  dsimp only
  rw [if_pos (by rw [decide_eq_true rfl, decide_eq_true h]; rfl)]
  rfl

theorem hhtBytes_refused {s : State} {offset : Nat} {bytes : List Byte} (h : offset ≠ (s.path .hht).cmdWr.toNat ∨ cmdRoom (s.path .hht) < bytes.length) :
    hhtBytes s offset bytes = sendHht s (.ack (s.path .hht).cmdWr.toNat (cmdRoom (s.path .hht))) := by
  have hno : ¬ (decide (offset = (s.path .hht).cmdWr.toNat) && decide (bytes.length ≤ cmdRoom (s.path .hht))) = true := by
    rcases h with h | h
    · rw [decide_eq_false h, Bool.false_and]; decide
    · rw [decide_eq_false (Nat.not_le.2 h), Bool.and_false]; decide
  rw [hhtBytes, if_neg hno]

theorem hhtRspAck_frees {s : State} {offset : Nat} (hoffset : offset < 2 ^ 32)
    (hread : ahead (word offset) (s.path .hht).rspRd ≤ ahead (s.path .hht).rspWr (s.path .hht).rspRd) (hnone : (s.path .hht).unposted = []) :
    hhtRspAck s offset = updPath s .hht fun m => { m with rspRd := word offset } := by
  rw [hhtRspAck, if_pos (by rw [decide_eq_true hoffset, decide_eq_true hread]; rfl), freeRsp_quiet _ hnone]

end Sys2Proof.Machine
end

section
/-!
PROOFS. The streams of a session, its repeats, and IEEE 1588 (R439, R440, R424).
-/
namespace Sys2Proof.Machine

/-! ### Streams -/

theorem updStream_congr {s : State} {i : Fin 9} {f g : RingState → RingState} (h : f (streamRing s i) = g (streamRing s i)) : updStream s i f = updStream s i g := by
  unfold streamRing at h
  unfold updStream
  split
  · next hi =>
    rw [dif_pos hi] at h
    exact congrArg (fun r => ({ s with rings := s.rings.set i.val r } : State)) h
  · next hi =>
    rw [dif_neg hi] at h
    exact congrArg (fun r => updPf s fun p => { p with ring := r }) h

theorem hhtDack_acknowledges {s : State} {k : Lane} {host : HostAddr} {session : Word} {i : Fin 9} {offset : Nat} (h : InSession s k host session)
    (hi : s.hht.stream.getLsbD i.val = true) (hnew : (streamRing s i).rd < offset) (hsent : offset ≤ (streamRing s i).maxSent) (hmul : offset % 4 = 0) :
    exec (.hhtDack k host session i offset) s =
      .next (updStream s i fun r => { r with rd := offset, rdLo := word offset, sentTo := max r.sentTo offset }) := by
  refine congrArg Host.Outcome.next ((inSession_live h _).trans ((if_pos hi).trans (updStream_congr ?_)))
  rw [dackRing]
  exact if_pos (by rw [decide_eq_true hnew, decide_eq_true hsent, decide_eq_true hmul]; rfl)

theorem hhtDnak_rewinds {s : State} {k : Lane} {host : HostAddr} {session : Word} {i : Fin 9} {offset : Nat} (h : InSession s k host session)
    (hi : s.hht.stream.getLsbD i.val = true) (hkept : (streamRing s i).rd ≤ offset) (hsent : offset ≤ (streamRing s i).maxSent) :
    exec (.hhtDnak k host session i offset) s = .next (updStream s i fun r => { r with sentTo := offset }) := by
  refine congrArg Host.Outcome.next ((inSession_live h _).trans ?_)
  rw [dnakStream]
  exact if_pos (by rw [assigned, hi, decide_eq_true hkept, decide_eq_true hsent]; rfl)

theorem hhtDnak_ignored {s : State} {k : Lane} {host : HostAddr} {session : Word} {i : Fin 9} {offset : Nat} (h : InSession s k host session)
    (hout : offset < (streamRing s i).rd ∨ (streamRing s i).maxSent < offset) :
    exec (.hhtDnak k host session i offset) s = .next { s with hht := { s.hht with ign := min 65535 (s.hht.ign + 1) } } := by
  have hno : ¬ (assigned s i && decide ((streamRing s i).rd ≤ offset) && decide (offset ≤ (streamRing s i).maxSent)) = true := by
    simp only [Bool.and_eq_true, decide_eq_true_eq]
    omega
  refine congrArg Host.Outcome.next ((inSession_live h _).trans ?_)
  rw [dnakStream, if_neg hno, updHht, satAdd_one]

/-- The next data of a stream, at most to the window. -/
theorem hhtDataSend_sends {s : State} {i : Fin 9} (hlive : s.hht.live = true) (hi : s.hht.stream.getLsbD i.val = true) (ecc : EccResult) :
    exec (.hhtDataSend i ecc) s = .next (
      if nextLen s.hht (streamRing s i) = 0 ∨ streamNext s i = false then s
      else updStream { streamEcc s (streamRing s i) ecc with hht := { serveStream (readyStreams s) i (streamEcc s (streamRing s i) ecc).hht with
          out := (serveStream (readyStreams s) i (streamEcc s (streamRing s i) ecc).hht).out ++ [.data i.val (streamRing s i).sentTo (nextLen s.hht (streamRing s i))]
          retx := if (streamRing s i).sentTo < (streamRing s i).maxSent then min 65535 ((serveStream (readyStreams s) i (streamEcc s (streamRing s i) ecc).hht).retx + 1)
            else (serveStream (readyStreams s) i (streamEcc s (streamRing s i) ecc).hht).retx } } i fun r =>
        { r with sentTo := r.sentTo + nextLen s.hht (streamRing s i), maxSent := max r.maxSent (r.sentTo + nextLen s.hht (streamRing s i)) }) := by
  have hguard : (!s.hht.live || !assigned s i || decide (nextLen s.hht (streamRing s i) = 0) || !streamNext s i) =
      (decide (nextLen s.hht (streamRing s i) = 0) || !streamNext s i) := by rw [hlive, assigned, hi]; rfl
  refine congrArg Host.Outcome.next ?_
  rw [sendData]
  dsimp only
  rw [hguard]
  generalize streamEcc s (streamRing s i) ecc = t
  refine ite_of_iff (by simp) rfl ?_
  split
  · simp only [satAdd_one]
    rfl
  · rfl

theorem readyStreams_sorted (s : State) : (readyStreams s).Pairwise (· < ·) := by
  rw [readyStreams]
  exact ((List.pairwise_lt_finRange 9).filter _).map _ fun _ _ h => h

/-- With no stream owed its turn the lowest ready stream is next. -/
theorem streamNext_lowest {s : State} (h : s.hht.owed = []) (i : Fin 9) : streamNext s i = true ↔ i.val ∈ readyStreams s ∧ ∀ j ∈ readyStreams s, i.val ≤ j := by
  have hsorted := readyStreams_sorted s
  rw [streamNext, decide_eq_true_eq]
  simp only [h, List.any_nil, Bool.not_false]
  generalize readyStreams s = ready at hsorted
  cases ready with
  | nil => simp
  | cons k l =>
    rw [List.pairwise_cons] at hsorted
    rw [List.find?_cons_of_pos rfl, Option.some.injEq]
    constructor
    · rintro rfl
      refine ⟨List.mem_cons_self, fun j hj => ?_⟩
      rcases List.mem_cons.1 hj with rfl | hl
      · exact Nat.le_refl _
      · exact Nat.le_of_lt (hsorted.1 j hl)
    · rintro ⟨hmem, hleast⟩
      rcases List.mem_cons.1 hmem with hk | hl
      · exact hk.symm
      · exact absurd (hsorted.1 _ hl) (Nat.not_lt.2 (hleast k List.mem_cons_self))

theorem hhtDataResend_rewinds {s : State} {i : Fin 9} (hlive : s.hht.live = true) (hi : s.hht.stream.getLsbD i.val = true)
    (h : (streamRing s i).rd < (streamRing s i).maxSent) : exec (.hhtDataResend i) s = .next (updStream s i fun r => { r with sentTo := r.rd }) := by
  refine congrArg Host.Outcome.next ?_
  rw [resendData]
  exact if_pos (by rw [hlive, assigned, hi, decide_eq_true h]; rfl)

theorem hhtRspResend_sends {s : State} (hlive : s.hht.live = true) (h : (s.path .hht).rspRd ≠ (s.path .hht).rspWr) : exec .hhtRspResend s =
    .next (sendHht s (.rsp (s.path .hht).rspRd.toNat (ahead (s.path .hht).rspWr (s.path .hht).rspRd))) := by
  refine congrArg Host.Outcome.next ?_
  rw [resendRsp]
  exact if_pos (by rw [hlive, Bool.true_and]; exact bne_iff_ne.2 h)

theorem hhtEventRepeat_repeats {s : State} (hlive : s.hht.live = true) (hen : s.hht.evtEn = true) : exec .hhtEventRepeat s =
    .next { s with hht := { s.hht with out := s.hht.out ++ s.hht.events.map fun e => .event e.1 e.2 } } := by
  refine congrArg Host.Outcome.next ?_
  rw [repeatEvents]
  exact if_pos (by rw [hlive, hen]; rfl)

/-! ### IEEE 1588 -/

theorem ptpEventMessage_stamps {s : State} {k : Lane} (kind : PtpKind) (tick : Nat) (domain : Byte) (time : Nat) (h : etherUp s k = true) :
    exec (.ptpEventMessage k kind true tick domain time) s = .next (updLane s k fun l =>
        { l with ptpLog := l.ptpLog ++ [⟨kind, true, tick + Config.laneLatency l.proto true, domain, time⟩] })
      ∧ exec (.ptpEventMessage k kind false tick domain time) s = .next (updLane s k fun l =>
        { l with ptpLog := l.ptpLog ++ [⟨kind, false, tick - Config.laneLatency l.proto false, domain, time⟩] }) :=
  ⟨congrArg Host.Outcome.next (if_pos h), congrArg Host.Outcome.next (if_pos h)⟩

theorem ptpEventMessage_down {s : State} {k : Lane} (kind : PtpKind) (sent : Bool) (tick : Nat) (domain : Byte) (time : Nat) (h : etherUp s k = false) :
    exec (.ptpEventMessage k kind sent tick domain time) s = .next s := congrArg Host.Outcome.next (if_neg (ne_true_of_eq_false h))

/-- The mapping that one lane gives: the tick of the Sync message, and its time corrected by the delay. -/
theorem laneMapping_maps {f : Firmware} {l : LaneState} {sync req : PtpStamp} {ns : Nat} (hpeer : ptpPeer f = false)
    (hsync : lastStamp l.ptpLog (ptpDomain f) .sync false = some sync) (hreq : lastStamp l.ptpLog (ptpDomain f) .delayReq true = some req)
    (hns : (ns : Int) * 16 = 16 * sync.time + (8 * ((req.time : Int) - sync.time) - 5 * ((req.tick : Int) - sync.tick))) :
    laneMapping f l = some (sync.tick, ns / 1000000000, ns % 1000000000) := by
  have hdelay : twiceDelay (ptpPeer f) l.ptpLog (ptpDomain f) sync = some (8 * ((req.time : Int) - sync.time) - 5 * ((req.tick : Int) - sync.tick)) := by
    rw [twiceDelay, hpeer, if_neg Bool.false_ne_true, hreq]
  have hround : ((16 * (sync.time : Int) + (8 * ((req.time : Int) - sync.time) - 5 * ((req.tick : Int) - sync.tick))) / 16).toNat = ns := by omega
  rw [laneMapping, hsync]
  dsimp only
  rw [hdelay, Option.map_some, hround]

/-- The firmware with the mapping's state and the TAI time. -/
def withMapping (s : State) (state : Nat) (tai : Nat × Nat × Nat) : State := { s with fw := { s.fw with ptpState := state, tai := tai } }

theorem ptpUpdate_running {s : State} (hready : s.fw.ready = true) (hmp : mpStopped s = false) (tracked agree lost : Bool) : ptpUpdate s tracked agree lost =
    if ptpNext s.fw.ptpState tracked agree lost = 1 then
      (match ptpMapping s with | some m => withMapping s 1 m | none => withMapping s 0 (0, 0, 0))
    else if ptpNext s.fw.ptpState tracked agree lost = 2 then withMapping s 2 s.fw.tai else withMapping s 0 (0, 0, 0) := by
  rw [ptpUpdate, hready, hmp, if_neg (by decide)]
  rfl

theorem ptpUpdate_tracked {s : State} (hready : s.fw.ready = true) (hmp : mpStopped s = false) (lost : Bool) :
    (∀ m, ptpMapping s = some m → ptpUpdate s true true lost = withMapping s 1 m)
      ∧ (ptpMapping s = none → ptpUpdate s true true lost = withMapping s 0 (0, 0, 0)) := by
  rw [ptpUpdate_running hready hmp, if_pos (show ptpNext s.fw.ptpState true true lost = 1 from rfl)]
  exact ⟨fun m h => by rw [h], fun h => by rw [h]⟩

theorem ptpUpdate_disagreeing {s : State} (hready : s.fw.ready = true) (hmp : mpStopped s = false) (lost : Bool) :
    ptpUpdate s true false lost = withMapping s 0 (0, 0, 0) := by
  have hnext : ptpNext s.fw.ptpState true false lost = 0 := rfl
  rw [ptpUpdate_running hready hmp, hnext]
  rfl

theorem ptpUpdate_untracked {s : State} (hready : s.fw.ready = true) (hmp : mpStopped s = false) (agree lost : Bool) :
    ptpUpdate s false agree lost = if s.fw.ptpState ≠ 0 ∧ lost = false then withMapping s 2 s.fw.tai else withMapping s 0 (0, 0, 0) := by
  have hnext : ptpNext s.fw.ptpState false agree lost = if s.fw.ptpState ≠ 0 ∧ lost = false then 2 else 0 := by
    rw [ptpNext, if_neg Bool.false_ne_true]
    exact ite_of_iff (by simp) rfl rfl
  rw [ptpUpdate_running hready hmp, hnext]
  split
  · rfl
  · rfl

/-- Settles O53. -/
theorem hostTransport : Obligations.HostTransport := by
  unfold Obligations.HostTransport
  intro s p v k session host
  refine ⟨fun hp hmul hback hroom hnew => ?offers, answerUnknown_posts, fwCmdWrWrite_rejects, fwRspRdWrite_frees, fwRspRdWrite_rejects, hhtOpen_begins host, hhtOpen_busy,
    fun hport h => congrArg Host.Outcome.next (inSession_dropped hport h _), hhtKeepalive_alive,
    fun h => ⟨endSession s, congrArg Host.Outcome.next (inSession_live h _), endSession_ends s⟩,
    fun h => ⟨endSession s, congrArg Host.Outcome.next (if_pos h), endSession_ends s⟩, fun h bytes hroom => ?cmd, fun h offset bytes hout => ?refused,
    fun h offset hoffset hread hnone => ?rspack, fun h i hi offset => ⟨hhtDack_acknowledges h hi, hhtDnak_rewinds h hi, hhtDnak_ignored h⟩,
    fun i hlive hi => ⟨hhtDataSend_sends hlive hi, fun howed => streamNext_lowest howed i, hhtDataResend_rewinds hlive hi⟩, hhtRspResend_sends,
    hhtEventRepeat_repeats, fun kind tick domain time => ptpEventMessage_stamps kind tick domain time, fun kind sent tick domain time => ptpEventMessage_down kind sent tick domain time,
    fun f l sync req ns => laneMapping_maps, fun lost hready hmp => ?mapping⟩
  case offers =>
    rw [fwCmdWrWrite_offers hp hmul hback hroom hnew]
    exact ⟨fun h => congrArg _ (offerBytes_plain h), fun htakes hfirst hnext => congrArg _ (offerBytes_unknown htakes hfirst hnext)⟩
  case cmd =>
    have hrun : exec (.hhtCmd k host session (s.path .hht).cmdWr.toNat bytes) s = _ := congrArg Host.Outcome.next ((inSession_live h _).trans (hhtBytes_takes hroom))
    rw [hrun]
    refine ⟨fun hplain => ?_, fun htakes hfirst hnext => ?_⟩
    · rw [← cmdStored_offered] at hplain
      rw [offerBytes_plain hplain, cmdStored_offered]
      dsimp only
      rw [updPath_path_self]
      rfl
    · rw [← cmdStored_offered] at htakes hfirst hnext
      rw [offerBytes_unknown htakes hfirst hnext, cmdStored_offered]
      rfl
  case refused => exact congrArg Host.Outcome.next ((inSession_live h _).trans (hhtBytes_refused hout))
  case rspack => exact congrArg Host.Outcome.next ((inSession_live h _).trans (hhtRspAck_frees hoffset hread hnone))
  case mapping =>
    obtain ⟨hmapped, hunmapped⟩ := ptpUpdate_tracked hready hmp lost
    exact ⟨fun m hm => congrArg Host.Outcome.next (hmapped m hm), fun h => congrArg Host.Outcome.next (hunmapped h),
      congrArg Host.Outcome.next (ptpUpdate_disagreeing hready hmp lost), fun agree => congrArg Host.Outcome.next (ptpUpdate_untracked hready hmp agree lost)⟩

end Sys2Proof.Machine
end

section
/-!
PROOFS. O54, the update session: its commands, the library, the settings and the log (R451 to R457, R461, R462).
-/
namespace Sys2Proof.Machine

/-! ### What taking a message leaves of the session and of the firmware -/

theorem updPath_events (s : State) (p : Path) (f : PathRegs → PathRegs) : SameButEvents (updPath s p f) s := rfl

theorem offerDevice_events (s : State) (d : Fin 8) (a b : Nat) : SameButEvents (offerDevice s d a b) s := by rw [SameButEvents, offerDevice_same]

theorem passMessage_events (s : State) (p : Path) (len : Nat) : SameButEvents (passMessage s p len) s := by
  rw [passMessage]
  exact (updPath_events ..).trans (offerDevice_events ..)

theorem postNow_events (s : State) (p : Path) (r : Rsp) (taken : Nat) : SameButEvents (postNow s p r taken) s := by
  have h := (offerDevice_events (updPath s p fun k => { k with
      rsps := k.rsps ++ [r], rspRing := ringStore k.rspRing 16384 k.rspWr.toNat (rspBytes r), rspWr := count32 k.rspWr r.size }) 6 taken s.tb.now).trans
    (updPath_events s p _)
  rw [postNow]
  dsimp only
  split
  · split
    · exact (raiseAt_events ..).trans (SameButEvents.trans rfl h)
    · exact SameButEvents.trans rfl h
  · split
    · exact (raiseAt_events ..).trans h
    · exact h

theorem postWaiting_events (fuel : Nat) : ∀ (s : State) (p : Path), SameButEvents (postWaiting fuel s p) s := by
  induction fuel with
  | zero => exact fun _ _ => rfl
  | succ fuel ih =>
    intro s p
    rw [postWaiting]
    split
    · rfl
    · split
      · exact (ih _ p).trans ((postNow_events ..).trans (updPath_events ..))
      · rfl

theorem respond_events (s : State) (p : Path) (r : Rsp) (taken : Nat) : SameButEvents (respond s p r taken) s := by
  rw [respond]
  split
  · rfl
  · exact (postWaiting_events ..).trans (updPath_events ..)

theorem answerUnknown_events (s : State) (p : Path) : SameButEvents (answerUnknown s p) s := by
  rw [answerUnknown]
  refine (respond_events ..).trans ?_
  split
  · exact SameButEvents.trans rfl (passMessage_events ..)
  · exact passMessage_events ..

theorem answerUnknownsN_events (fuel : Nat) : ∀ (s : State) (p : Path), SameButEvents (answerUnknownsN fuel s p) s := by
  induction fuel with
  | zero => exact fun _ _ => rfl
  | succ fuel ih =>
    intro s p
    rw [answerUnknownsN]
    split
    · exact (ih _ p).trans (answerUnknown_events ..)
    · rfl

theorem takeMessage_host (s : State) (h : Hdr) : (takeMessage s h).hht.host = s.hht.host := by
  have hevents : SameButEvents (takeMessage s h) s := (passMessage_events ..).trans (answerUnknownsN_events ..)
  rw [hevents]

/-- Taking a message counts TIMEOUTs at most. -/
theorem takeMessage_fw (s : State) (h : Hdr) : (takeMessage s h).fw = { s.fw with timeouts := (takeMessage s h).fw.timeouts } :=
  congrArg State.fw (takeMessage_answers s h)

/-! ### The session of a path -/

/-- A command of the session renews its life. -/
def renewed (s : State) (h : Hdr) (u : Update) : State :=
  { takeMessage s h with fw := { (takeMessage s h).fw with update := some { u with lastCmd := s.tb.now } } }

theorem touchSession_own {s : State} {p : Path} {u : Update} (hu : s.fw.update = some u) (hp : u.path = p) :
    touchSession s p = { s with fw := { s.fw with update := some { u with lastCmd := s.tb.now } } } := by
  rw [touchSession, hu]
  exact if_pos (beq_iff_eq.2 hp)

theorem touchSession_mine {s : State} {h : Hdr} {u : Update} (hu : s.fw.update = some u) (hp : u.path = h.path) :
    touchSession (takeMessage s h) h.path = renewed s h u := by
  have hnow : (takeMessage s h).tb.now = s.tb.now := congrArg Timebase.now (takeMessage_tb s h)
  rw [touchSession_own (s := takeMessage s h) (by rw [takeMessage_fw]; exact hu) hp, hnow, renewed]

theorem touchSession_eq (s : State) (p : Path) : ∃ v, touchSession s p = { s with fw := { s.fw with update := v } } := by
  rw [touchSession]
  split
  · split
    · exact ⟨_, rfl⟩
    · exact ⟨_, rfl⟩
  · exact ⟨_, rfl⟩

theorem renewed_fw (s : State) (h : Hdr) (u : Update) : (renewed s h u).fw =
    { s.fw with timeouts := (takeMessage s h).fw.timeouts, update := some { u with lastCmd := s.tb.now } } := by
  rw [renewed, takeMessage_fw]

theorem updFw_renewed (s : State) (h : Hdr) (u : Update) (g : Firmware → Firmware) : updFw (renewed s h u) g =
    { takeMessage s h with fw := g { (takeMessage s h).fw with update := some { u with lastCmd := s.tb.now } } } := by
  rw [renewed]
  generalize takeMessage s h = c
  rfl

theorem sessionOf_renewed {s : State} {h : Hdr} {u : Update} (hp : u.path = h.path) :
    sessionOf (renewed s h u) h.path = some { u with lastCmd := s.tb.now } := by
  rw [sessionOf, renewed_fw]
  simp [hp]

/-- A command of the path's own session. -/
theorem sessionCommand_mine {s t : State} {h : Hdr} {args opcode st : Nat} {inRecovery : Bool} {body : State → Reply} {u : Update} {data : List Byte}
    (ha : Accepted s h args) (hu : s.fw.update = some u) (hp : u.path = h.path) (hb : body (renewed s h u) = (some (st, data), t)) :
    sessionCommand s h opcode args inRecovery body = answered t s h opcode st data :=
  hostCommand_answers ha opcode inRecovery ((congrArg body (touchSession_mine hu hp)).trans hb)

/-- A command of the path's own session, that writes the firmware's state. -/
theorem sessionCommand_writes {s : State} {h : Hdr} {args opcode st : Nat} {inRecovery : Bool} {body : State → Reply} {u : Update} {data : List Byte}
    {g : Firmware → Firmware} (ha : Accepted s h args) (hu : s.fw.update = some u) (hp : u.path = h.path)
    (hb : body (renewed s h u) = (some (st, data), updFw (renewed s h u) g)) : sessionCommand s h opcode args inRecovery body =
      answered { takeMessage s h with fw := g { (takeMessage s h).fw with update := some { u with lastCmd := s.tb.now } } } s h opcode st data :=
  (sessionCommand_mine ha hu hp hb).trans (by rw [updFw_renewed])


/-! ### Opening and writing -/

theorem updOpenOp_board {s : State} {p : Path} {slot : Bool} {digest : Digest} (hrec : s.fw.recovery = false) (hu : s.fw.update = none)
    (ho : s.pf.owner = none) : updOpenOp s p .board slot digest none = reply stOk { s with fw := { s.fw with
      object := []
      update := some ⟨p, if p = .hht then s.hht.host else ⟨0, 0⟩, .board, targetSlot s.fw slot, digest, s.tb.now, [], false, 0, (otherHalf s.fw).val⟩ } } := by
  have htoken : updToken s p digest none = (stOk, s) := by rw [updToken]; simp only [ho]
  have hhost : (if p == .hht then s.hht.host else (⟨0, 0⟩ : HostAddr)) = if p = .hht then s.hht.host else ⟨0, 0⟩ := ite_of_iff beq_iff_eq rfl rfl
  rw [updOpenOp, hrec, hu]
  simp only [Option.filter_none, htoken]
  rw [← hhost]
  rfl

theorem updOpenOp_busy {s : State} {p : Path} {u : Update} (hrec : s.fw.recovery = false) (hu : s.fw.update = some u) (hp : u.path ≠ p)
    (kind : UpdKind) (slot : Bool) (digest : Digest) (t : Option Token) : updOpenOp s p kind slot digest t = (some (stBusy, holderRecord s u), s) := by
  have hother : s.fw.update.filter (fun v => v.path != p) = some u := by rw [hu]; simp [hp]
  rw [updOpenOp, hrec, hother]
  rfl

theorem updDataOp_board {s : State} {p : Path} {u : Update} {offset : Nat} {bytes : List Byte} (hs : sessionOf s p = some u) (hu : s.fw.update = some u)
    (hk : u.kind = .board) (hf : u.finished = false) (hlen : bytes.length % 4 = 0) (hend : offset + bytes.length ≤ 0x20000) :
    updDataOp s p offset bytes = reply stOk (updFw s fun f => { f with
      boardFlash := memWriteBytes s.fw.boardFlash offset bytes, update := some { u with ranges := u.ranges ++ [(offset, bytes.length)] } }) := by
  have hlimit : ¬ offset + bytes.length > objectLimit u.kind := by rw [hk]; exact Nat.not_lt.2 hend
  have hnone (l : List Nat) : (l.find? fun i => u.kind == .image && !blockOk (objectOf (writeObject s u offset bytes) u) i) = none := by
    rw [hk]
    simp
  have hwrite : writeObject s u offset bytes = { s with fw := { s.fw with boardFlash := memWriteBytes s.fw.boardFlash offset bytes } } := by
    rw [writeObject, hk]
    rfl
  rw [updDataOp, hs]
  dsimp only
  rw [if_neg (ne_true_of_eq_false hf), if_neg (by simp [hlen]), if_neg hlimit, if_neg (by simp [hk]), hnone, hwrite]
  dsimp only
  rw [updSession, updFw]
  dsimp only
  rw [hu]
  rfl

/-! ### Finishing -/

theorem updFinishOp_finished {s : State} {p : Path} {u : Update} (hs : sessionOf s p = some u) (hf : u.finished = true) (high : Bool) :
    updFinishOp s p high = reply stState s := by
  rw [updFinishOp, hs]
  exact if_pos hf

theorem updFinishOp_board {s t : State} {p : Path} {u : Update} {st : Nat} (hs : sessionOf s p = some u) (hf : u.finished = false) (hk : u.kind = .board)
    (hb : finishBoard s u = (st, t)) (high : Bool) : updFinishOp s p high = reply st t := by
  rw [updFinishOp, hs]
  dsimp only
  rw [if_neg (ne_true_of_eq_false hf), hk]
  exact congrArg statusOnly hb

theorem finishBoard_covered {s : State} {u : Update} (hu : s.fw.update = some u) (hc : covers u 0 (flashField s.fw.boardFlash 8 4 + 32) = true) :
    finishBoard s u = if boardValid s.fw.boardFlash = true ∧ boardDigest s.fw.boardFlash = u.digest then
        (stOk, updFw s fun f => { f with update := some { u with finished := true } })
      else (stBadArg, s) := by
  rw [finishBoard, hc]
  by_cases hgood : boardValid s.fw.boardFlash = true ∧ boardDigest s.fw.boardFlash = u.digest
  · rw [if_pos hgood, if_neg (by simp [hgood.1, hgood.2]), updSession, updFw, hu]
    rfl
  · rw [if_neg hgood, if_pos]
    simpa [Classical.not_and_iff_not_or_not, Classical.or_iff_not_imp_left] using hgood

theorem finishBoard_uncovered {s : State} {u : Update} (hc : covers u 0 (flashField s.fw.boardFlash 8 4 + 32) = false) :
    finishBoard s u = (stBadArg, s) := by
  rw [finishBoard, hc]
  rfl

/-! ### Activation -/

theorem activateOp_accepted {s : State} {p : Path} {u : Update} (hs : sessionOf s p = some u) (hk : u.kind = .image) (hf : u.finished = true)
    (hm : s.mm.maGib ≠ 0) (hfmt : imageHfmtMin (s.fw.slot u.slotB) ≤ imageHfmt (s.fw.slot s.fw.runB)) (hv : s.fw.dir.state u.slotB = .valid)
    (ht : s.fw.dir.state s.fw.runB ≠ .trial) (hsvn : s.fw.svnCnt ≤ imageSvn (s.fw.slot u.slotB)) :
    activateOp s p = reply stOk (updFw s fun f => { f with handover := .preload u.slotB }) := by
  have hst : activateStatus s u = stOk := by
    rw [activateStatus, hk, hf, hv]
    simp [hm, Nat.not_lt.2 hfmt, ht, Nat.not_lt.2 hsvn]
  rw [activateOp, hs]
  dsimp only
  rw [hst]
  rfl

/-! ### The directory -/

theorem writeDir_made {f : Firmware} (g : Directory → Directory) (h : Config.readback f.writes = true) :
    (writeDir f g).dir = { g f.dir with seq := f.dir.seq + 1 } := by
  rw [writeDir]
  exact congrArg Firmware.dir (if_pos h)

theorem writeDir_lost {f : Firmware} (g : Directory → Directory) (h : Config.readback f.writes = false) : (writeDir f g).dir = f.dir := by
  rw [writeDir]
  exact (congrArg Firmware.dir (if_neg (show ¬ (readBack f).1 = true from ne_true_of_eq_false h))).trans rfl

/-- A write of the directory takes effect once its read-back has passed. -/
theorem dirMade_writeDir (f : Firmware) (g : Directory → Directory) : dirMade f (writeDir f g) = Config.readback f.writes := by
  rw [dirMade]
  cases h : Config.readback f.writes with
  | true =>
    rw [writeDir_made g h]
    exact beq_self_eq_true _
  | false =>
    rw [writeDir_lost g h]
    exact beq_eq_false_iff_ne.2 (Nat.succ_ne_self _).symm

/-! ### The library -/

theorem memRead_copied_ne (src : Mem) (base len a : Nat) (hlen : len ≤ 0x400000) (ha : a < base ∨ base + 0x400000 ≤ a) :
    ∀ m : Mem, memRead (src.foldl (fun m c => if c.1 < len then memWrite m (base + c.1) c.2 else m) m) a = memRead m a := by
  induction src with
  | nil => exact fun m => rfl
  | cons c src ih =>
    intro m
    rw [List.foldl_cons, ih]
    split
    · exact memRead_write_ne m _ _ _ (by omega)
    · rfl

theorem memRead_copyRegion_ne {dst src : Mem} {base len a : Nat} (hlen : len ≤ 0x400000) (ha : a < base ∨ base + 0x400000 ≤ a) :
    memRead (copyRegion dst src base len) a = memRead dst a := by
  rw [copyRegion, memRead_copied_ne src base len a hlen ha, memRead_memZero_out ha]

/-- The directory that names the library of a session. -/
def namesLibrary (u : Update) (d : Directory) : Directory := { d with libHalf := u.libHalf, libDigest := u.digest, libLen := u.libLen }

theorem libActivateOp_finished {s : State} {p : Path} {u : Update} (hs : sessionOf s p = some u) (hk : u.kind = .library) (hf : u.finished = true) :
    libActivateOp s p =
      (if Config.readback s.fw.writes then reply stOk (copyLibrary { s with fw := writeDir s.fw (namesLibrary u) })
      else reply stState { s with fw := writeDir s.fw (namesLibrary u) }) := by
  have hguard : (u.kind == .library && u.finished) = true := by rw [hk, hf]; rfl
  rw [libActivateOp, hs]
  dsimp only
  rw [if_pos hguard, dirMade_writeDir]
  rfl

theorem copyLibrary_library {s : State} (a : Nat) (ha : a < 0x800000C00000 ∨ 0x800001000000 ≤ a) (hlen : s.fw.dir.libLen ≤ 0x400000) :
    memRead (copyLibrary s).mm.mem a = memRead s.mm.mem a := by
  rw [copyLibrary]
  exact memRead_copyRegion_ne hlen ha

/-! ### Settings, counter and log -/

theorem setSaveOp_saved (s : State) (blob : List Byte) : setSaveOp s blob =
    reply (if Config.readback s.fw.writes then stOk else stState) { s with fw := saveSettings s.fw (imageSetFmt (s.fw.slot s.fw.runB)) blob } := rfl

/-- What a save leaves as the settings, and in the half that it writes. -/
theorem saveSettings_passed {f : Firmware} (fmt : Nat) (blob : List Byte) (h : Config.readback f.writes = true) :
    (saveSettings f fmt blob).settings = blob ∧ (saveSettings f fmt blob).halves[(nextHalf f).1] = some ⟨(nextHalf f).2, fmt, blob⟩ := by
  have hsaved : saveSettings f fmt blob = _ := if_pos (show (readBack f).1 = true from h)
  rw [hsaved]
  exact ⟨rfl, Vector.getElem_set_self _⟩

theorem saveSettings_lost {f : Firmware} (fmt : Nat) (blob : List Byte) (h : Config.readback f.writes = false) :
    (saveSettings f fmt blob).settings = f.settings ∧ (saveSettings f fmt blob).halves[(nextHalf f).1] = none := by
  have hsaved : saveSettings f fmt blob = _ := if_neg (show ¬ (readBack f).1 = true from ne_true_of_eq_false h)
  rw [hsaved]
  exact ⟨rfl, Vector.getElem_set_self _⟩

theorem saveSettings_other {f : Firmware} (fmt : Nat) (blob : List Byte) {i : Fin 2} (h : i ≠ (nextHalf f).1) :
    (saveSettings f fmt blob).halves[i] = f.halves[i] := by
  have hne : ¬ (nextHalf f).1.val = i.val := fun e => h (Fin.ext e.symm)
  rw [saveSettings]
  dsimp only
  split
  · exact Vector.getElem_set_ne (nextHalf f).1.isLt i.isLt hne
  · exact Vector.getElem_set_ne (nextHalf f).1.isLt i.isLt hne

section
variable {f : Firmware} {a b : Saved}

theorem newestHalf_both (h0 : f.halves[0] = some a) (h1 : f.halves[1] = some b) :
    newestHalf f = if a.seq < b.seq then some (1, b) else some (0, a) := by rw [newestHalf]; simp only [h0, h1]

theorem newestHalf_first (h0 : f.halves[0] = some a) (h1 : f.halves[1] = none) : newestHalf f = some (0, a) := by rw [newestHalf]; simp only [h0, h1]

theorem newestHalf_second (h0 : f.halves[0] = none) (h1 : f.halves[1] = some b) : newestHalf f = some (1, b) := by rw [newestHalf]; simp only [h0, h1]

theorem newestHalf_neither (h0 : f.halves[0] = none) (h1 : f.halves[1] = none) : newestHalf f = none := by rw [newestHalf]; simp only [h0, h1]

theorem nextHalf_some {i : Fin 2} (h : newestHalf f = some (i, a)) : nextHalf f = (1 - i, a.seq + 1) := by rw [nextHalf, h]

theorem nextHalf_none (h : newestHalf f = none) : nextHalf f = (0, 1) := by rw [nextHalf, h]

theorem newestHalf_stands {i : Fin 2} (h : newestHalf f = some (i, a)) : f.halves[i] = some a := by
  rcases h0 : f.halves[0] with _ | c
  · rcases h1 : f.halves[1] with _ | d
    · cases (newestHalf_neither h0 h1).symm.trans h
    · cases (newestHalf_second h0 h1).symm.trans h
      exact h1
  · rcases h1 : f.halves[1] with _ | d
    · cases (newestHalf_first h0 h1).symm.trans h
      exact h0
    · rw [newestHalf_both h0 h1] at h
      split at h
      · cases h
        exact h1
      · cases h
        exact h0

theorem newestHalf_alone {i : Fin 2} (h : f.halves[i] = some a) (hnone : f.halves[1 - i] = none) : newestHalf f = some (i, a) := by
  obtain rfl | rfl : i = 0 ∨ i = 1 := by omega
  · exact newestHalf_first h hnone
  · exact newestHalf_second hnone h

theorem newestHalf_newer {i : Fin 2} (h : f.halves[i] = some a) (hother : f.halves[1 - i] = some b) (hlt : a.seq < b.seq) :
    newestHalf f = some (1 - i, b) := by
  obtain rfl | rfl : i = 0 ∨ i = 1 := by omega
  · exact (newestHalf_both h hother).trans (if_pos hlt)
  · exact (newestHalf_both hother h).trans (if_neg (Nat.lt_asymm hlt))

theorem halves_none (h : newestHalf f = none) (i : Fin 2) : f.halves[i] = none := by
  rcases hi : f.halves[i] with _ | a
  · rfl
  · rcases hj : f.halves[1 - i] with _ | b
    · cases (newestHalf_alone hi hj).symm.trans h
    · obtain rfl | rfl : i = 0 ∨ i = 1 := by omega
      · rw [newestHalf_both hi hj] at h
        split at h
        · cases h
        · cases h
      · rw [newestHalf_both hj hi] at h
        split at h
        · cases h
        · cases h

end

section
variable {f : Firmware} (fmt : Nat) (blob : List Byte)

/-- A save that is lost spoils the older half alone. -/
theorem saveSettings_keeps (h : Config.readback f.writes = false) : newestHalf (saveSettings f fmt blob) = newestHalf f := by
  have hlost := (saveSettings_lost fmt blob h).2
  rcases hnew : newestHalf f with _ | ⟨i, a⟩
  · have hother : (saveSettings f fmt blob).halves[(1 : Fin 2)] = none :=
      (saveSettings_other fmt blob (by rw [nextHalf_none hnew]; decide)).trans (halves_none hnew 1)
    simp only [nextHalf_none hnew] at hlost
    exact newestHalf_neither hlost hother
  · have hother : (saveSettings f fmt blob).halves[i] = some a :=
      (saveSettings_other fmt blob (by rw [nextHalf_some hnew]; dsimp only; omega)).trans (newestHalf_stands hnew)
    simp only [nextHalf_some hnew] at hlost
    exact newestHalf_alone hother hlost

/-- The first save goes into half 0. -/
theorem saveSettings_first (h : Config.readback f.writes = true) (hnew : newestHalf f = none) :
    newestHalf (saveSettings f fmt blob) = some (0, ⟨1, fmt, blob⟩) := by
  have hsaved := (saveSettings_passed fmt blob h).2
  have hother : (saveSettings f fmt blob).halves[(1 : Fin 2)] = none :=
    (saveSettings_other fmt blob (by rw [nextHalf_none hnew]; decide)).trans (halves_none hnew 1)
  simp only [nextHalf_none hnew] at hsaved
  exact newestHalf_first hsaved hother

/-- A save that passes is newer than what stood. -/
theorem saveSettings_renews (h : Config.readback f.writes = true) {i : Fin 2} {a : Saved} (hnew : newestHalf f = some (i, a)) :
    newestHalf (saveSettings f fmt blob) = some (1 - i, ⟨a.seq + 1, fmt, blob⟩) := by
  have hsaved := (saveSettings_passed fmt blob h).2
  have hother : (saveSettings f fmt blob).halves[i] = some a :=
    (saveSettings_other fmt blob (by rw [nextHalf_some hnew]; dsimp only; omega)).trans (newestHalf_stands hnew)
  simp only [nextHalf_some hnew] at hsaved
  exact newestHalf_newer hother hsaved (Nat.lt_succ_self _)

end

end Sys2Proof.Machine
end

section
/-!
PROOFS. O54, the rest: the handover, the confirmation, the counter, and the obligation itself (R408, R445, R452 to R460).
-/
namespace Sys2Proof.Machine

/-! ### Activation and handover -/

theorem preloadDone_verified {s : State} {b : Bool} (hh : s.fw.handover = .preload b) (hv : imageVerified s.fw.svnCnt (s.fw.slot b) = true) :
    preloadDone s = if Config.readback s.fw.writes then
        { restartRuns s with fw := { writeDir s.fw fun d => { d with journal := true, jslotB := b } with handover := .pause b } }
      else { s with fw := { writeDir s.fw fun d => { d with journal := true, jslotB := b } with handover := .none } } := by
  rw [preloadDone, hh]
  dsimp only
  rw [if_pos hv, dirMade_writeDir]
  rfl

theorem preloadDone_unverified {s : State} {b : Bool} (hh : s.fw.handover = .preload b) (hv : imageVerified s.fw.svnCnt (s.fw.slot b) = false) :
    preloadDone s = { s with fw := { writeDir s.fw (setSlot b .invalid 0) with handover := .none } } := by
  rw [preloadDone, hh]
  exact if_neg (ne_true_of_eq_false hv)

/-- The directory as the new image starts. -/
def startsTrial (b : Bool) (d : Directory) : Directory := { setSlot b .trial 1 d with journal := false }

theorem imageStart_lost {s : State} {b : Bool} (hh : s.fw.handover = .pause b) : imageStart s false = warmRestart s 3 := by
  rw [imageStart, hh]
  rfl

theorem imageStart_adopted {s : State} {b : Bool} (hh : s.fw.handover = .pause b) : imageStart s true =
    if Config.readback s.fw.writes then
      updInterval (updFw s fun _ => { loadImage (writeDir s.fw (startsTrial b)) b with handover := .none, trialStart := some s.tb.now })
        fun v => { v with fwchg := true }
    else warmRestart (updFw s fun _ => writeDir s.fw (startsTrial b)) 3 := by
  rw [imageStart, hh]
  show (if !dirMade s.fw (writeDir s.fw (startsTrial b)) then _ else _) = _
  rw [dirMade_writeDir]
  cases Config.readback s.fw.writes with
  | true => rfl
  | false => rfl

theorem setSlot_state (b : Bool) (st : SlotState) (tries : Nat) (d : Directory) : (setSlot b st tries d).state b = st := by
  cases b with
  | true => rfl
  | false => rfl

theorem setSlot_other (b : Bool) (st : SlotState) (tries : Nat) (d : Directory) : (setSlot b st tries d).state (!b) = d.state (!b) := by
  cases b with
  | true => rfl
  | false => rfl

/-- What a restart that abandons the handover leaves. -/
theorem warmRestart_falls {s : State} (cause : Nat) (h : s.fw.porn = true) :
    (warmRestart s cause).fw.handover = .none ∧ (warmRestart s cause).fw.restarting = true ∧ (warmRestart s cause).mm.mem = s.mm.mem := by
  obtain ⟨hrestarting, -, -, hmem, -⟩ := warmRestart_restarts cause h
  refine ⟨?_, hrestarting, hmem⟩
  rw [warmRestart_up cause h, dropTaken, (restartRuns_runs { s with fw := restarted s.fw cause }).rest]
  rfl

/-! ### Confirmation -/

/-- The directory that a confirmation writes. -/
def confirms (f : Firmware) (b : Bool) (d : Directory) : Directory :=
  setSlot b .confirmed 0 (if f.dir.state (!b) == .confirmed then setSlot (!b) .valid 0 d else d)

theorem confirmSlot_eq (f : Firmware) (b : Bool) : confirmSlot f b =
    if Config.readback f.writes then raiseSvn { writeDir f (confirms f b) with trialStart := none } else writeDir f (confirms f b) := by
  rw [← dirMade_writeDir f (confirms f b)]
  rfl

/-- A confirmation leaves one CONFIRMED slot. -/
theorem confirms_one (f : Firmware) (b : Bool) : (confirms f b f.dir).state b = .confirmed ∧ (confirms f b f.dir).state (!b) ≠ .confirmed := by
  refine ⟨setSlot_state .., ?_⟩
  rw [confirms, setSlot_other]
  split
  · rw [setSlot_state]
    decide
  · next h => exact fun e => h (beq_iff_eq.2 e)

theorem confirmSlot_confirms {f : Firmware} (b : Bool) (h : Config.readback f.writes = true) :
    (confirmSlot f b).dir.state b = .confirmed ∧ (confirmSlot f b).dir.state (!b) ≠ .confirmed ∧ f.svnCnt ≤ (confirmSlot f b).svnCnt
      ∧ (confirmSlot f b).trialStart = none := by
  have hdir := writeDir_made (confirms f b) h
  have hsvn : (writeDir f (confirms f b)).svnCnt = f.svnCnt := by rw [writeDir_same f (confirms f b)]
  have hrises := raiseSvn_rises { writeDir f (confirms f b) with trialStart := none }
  rw [confirmSlot_eq, h, if_pos rfl]
  refine ⟨?_, ?_, hsvn ▸ hrises, ?_⟩
  · rw [raiseSvn_same { writeDir f (confirms f b) with trialStart := none }]
    dsimp only
    rw [hdir]
    exact (confirms_one f b).1
  · rw [raiseSvn_same { writeDir f (confirms f b) with trialStart := none }]
    dsimp only
    rw [hdir]
    exact (confirms_one f b).2
  · rw [raiseSvn_same { writeDir f (confirms f b) with trialStart := none }]

theorem confirmSlot_lost {f : Firmware} (b : Bool) (h : Config.readback f.writes = false) :
    (confirmSlot f b).dir = f.dir ∧ (confirmSlot f b).svnCnt = f.svnCnt := by
  rw [confirmSlot_eq, h, if_neg Bool.false_ne_true]
  exact ⟨writeDir_lost _ h, by rw [writeDir_same f (confirms f b)]⟩

theorem slotIn_trial {d : Directory} {b : Bool} (hb : d.state b = .trial) (ha : b = true → d.stateA ≠ .trial) : slotIn d .trial = some b := by
  rw [slotIn]
  cases b with
  | false => exact if_pos (beq_iff_eq.2 hb)
  | true => exact (if_neg fun e => ha rfl (beq_iff_eq.1 e)).trans (if_pos (beq_iff_eq.2 hb))

theorem confirmOp_trial {s : State} {b : Bool} (hb : s.fw.dir.state b = .trial) (ha : b = true → s.fw.dir.stateA ≠ .trial) :
    ∃ st, confirmOp s = reply st { s with fw := confirmSlot s.fw b } := by
  rw [confirmOp, slotIn_trial hb ha]
  exact ⟨_, rfl⟩

theorem autoConfirm_trial {s : State} (ha : s.fw.autoconf = true) (hr : s.fw.running = true) (hw : s.fw.restarting = false)
    (ht : s.fw.trialStart.isSome = true) (hs : s.fw.dir.state s.fw.runB = .trial) : autoConfirm s = { s with fw := confirmSlot s.fw s.fw.runB } := by
  rw [autoConfirm]
  exact if_pos (by rw [ha, hr, hw, ht, hs]; rfl)

/-! ### The security version counter -/

/-- A write of the counter tries its read-back a second time. -/
theorem readBack_twice (f : Firmware) : (if (readBack f).1 then readBack f else readBack (readBack f).2).1
    = (Config.readback f.writes || Config.readback (f.writes + 1)) := by
  cases h : Config.readback f.writes with
  | true =>
    rw [if_pos (show (readBack f).1 = true from h), Bool.true_or]
    exact h
  | false =>
    rw [if_neg (show ¬ (readBack f).1 = true from ne_true_of_eq_false h), Bool.false_or]
    rfl

theorem svnSlot_other (i : Fin 2) : ¬ (1 - i).val = i.val := by
  obtain rfl | rfl : i = 0 ∨ i = 1 := by omega
  · decide
  · decide

/-- The counter goes into the slot that is not the current one. -/
theorem writeSvn_writes (f : Firmware) (v : Nat) :
    (writeSvn f v).svnCnt = (if Config.readback f.writes || Config.readback (f.writes + 1) then v else f.svnCnt)
      ∧ (writeSvn f v).svnSlots[f.svnSlot] = f.svnSlots[f.svnSlot] := by
  have hsame : (if (readBack f).1 then readBack f else readBack (readBack f).2).2.svnCnt = f.svnCnt := by
    split
    · rfl
    · rfl
  have hget (x : Option (Nat × Nat)) : (f.svnSlots.set (1 - f.svnSlot : Fin 2) x)[f.svnSlot] = f.svnSlots[f.svnSlot] :=
    Vector.getElem_set_ne (1 - f.svnSlot : Fin 2).isLt f.svnSlot.isLt (svnSlot_other _)
  rw [writeSvn, ← readBack_twice]
  generalize (if (readBack f).1 then readBack f else readBack (readBack f).2) = r at hsame
  dsimp only
  split
  · exact ⟨rfl, hget _⟩
  · exact ⟨hsame, hget _⟩

/-! ### The commands -/

section
variable (t s : State) (h : Hdr) (opcode st : Nat) (data : List Byte)

theorem answered_dir : (answered t s h opcode st data).fw.dir = t.fw.dir := by rw [answered, respond_answers]
theorem answered_svnCnt : (answered t s h opcode st data).fw.svnCnt = t.fw.svnCnt := by rw [answered, respond_answers]
theorem answered_trialStart : (answered t s h opcode st data).fw.trialStart = t.fw.trialStart := by rw [answered, respond_answers]
theorem answered_mem : (answered t s h opcode st data).mm.mem = t.mm.mem := by rw [answered, respond_answers]

end

section
variable {s : State} {h : Hdr}

theorem updOpen_opens (slot : Bool) (digest : Digest) (ha : Accepted s h 36) (hu : s.fw.update = none) (ho : s.pf.owner = none) :
    exec (.updOpen h .board slot digest none) s = .next (answered { takeMessage s h with fw := { (takeMessage s h).fw with
      object := []
      update := some ⟨h.path, if h.path = .hht then s.hht.host else ⟨0, 0⟩, .board, targetSlot s.fw slot, digest, s.tb.now, [], false, 0, (otherHalf s.fw).val⟩ } }
        s h 0x40 0 []) := by
  have hop := updOpenOp_board (s := takeMessage s h) (p := h.path) (slot := slot) (digest := digest) (by rw [takeMessage_fw]; exact ha.2.2.2)
    (by rw [takeMessage_fw]; exact hu) (by rw [takeMessage_pf]; exact ho)
  have hnow : (takeMessage s h).tb.now = s.tb.now := congrArg Timebase.now (takeMessage_tb s h)
  have htarget : targetSlot (takeMessage s h).fw slot = targetSlot s.fw slot := by rw [takeMessage_fw]; rfl
  have hhalf : otherHalf (takeMessage s h).fw = otherHalf s.fw := by rw [takeMessage_fw]; rfl
  rw [takeMessage_host, hnow, htarget, hhalf] at hop
  exact congrArg Host.Outcome.next (hostCommand_answers ha 0x40 true hop)

theorem updOpen_waits {u : Update} (slot : Bool) (digest : Digest) (ha : Accepted s h 36) (hu : s.fw.update = some u) (hp : u.path ≠ h.path) :
    Completes (.updOpen h .board slot digest none) s fun t => t.fw.update = some u := by
  have hop := updOpenOp_busy (s := takeMessage s h) (by rw [takeMessage_fw]; exact ha.2.2.2) (by rw [takeMessage_fw]; exact hu) hp .board slot digest none
  refine completes_of (congrArg Host.Outcome.next (hostCommand_answers ha 0x40 true hop)) ?_
  rw [answered, respond_answers, takeMessage_fw]
  exact hu

section
variable {u : Update} (hu : s.fw.update = some u) (hp : u.path = h.path)
include hu hp

theorem updData_writes {offset : Nat} {bytes : List Byte} (ha : Accepted s h (8 + bytes.length)) (hk : u.kind = .board) (hf : u.finished = false)
    (hlen : bytes.length % 4 = 0) (hend : offset + bytes.length ≤ 0x20000) :
    exec (.updData h offset bytes) s = .next (answered { takeMessage s h with fw := { (takeMessage s h).fw with
      boardFlash := memWriteBytes s.fw.boardFlash offset bytes
      update := some { u with lastCmd := s.tb.now, ranges := u.ranges ++ [(offset, bytes.length)] } } } s h 0x41 0 []) := by
  have hop := updDataOp_board (s := renewed s h u) (sessionOf_renewed hp) rfl hk hf hlen hend
  have hflash : (renewed s h u).fw.boardFlash = s.fw.boardFlash := by rw [renewed_fw]
  rw [hflash] at hop
  have hrun := sessionCommand_writes (body := fun s => updDataOp s h.path offset bytes) (opcode := 0x41) (inRecovery := true) ha hu hp hop
  exact congrArg Host.Outcome.next hrun

theorem updFinish_again (high : Bool) (ha : Accepted s h 0) (hf : u.finished = true) :
    exec (.updFinish h high) s = .next (answered (renewed s h u) s h 0x42 9 []) :=
  congrArg Host.Outcome.next (sessionCommand_mine ha hu hp (updFinishOp_finished (sessionOf_renewed (s := s) hp) hf high))

theorem updFinish_covered (high : Bool) (ha : Accepted s h 0) (hf : u.finished = false) (hk : u.kind = .board)
    (hc : covers u 0 (flashField s.fw.boardFlash 8 4 + 32) = true) :
    exec (.updFinish h high) s = .next (
      if boardValid s.fw.boardFlash = true ∧ boardDigest s.fw.boardFlash = u.digest then
        answered { takeMessage s h with fw := { (takeMessage s h).fw with update := some { u with lastCmd := s.tb.now, finished := true } } } s h 0x42 0 []
      else answered (renewed s h u) s h 0x42 0x17 []) := by
  have hflash : (renewed s h u).fw.boardFlash = s.fw.boardFlash := by rw [renewed_fw]
  have hboard := finishBoard_covered (s := renewed s h u) (u := { u with lastCmd := s.tb.now }) rfl (by rw [hflash]; exact hc)
  rw [hflash] at hboard
  refine congrArg Host.Outcome.next ?_
  split
  · next hgood =>
    have hop := updFinishOp_board (sessionOf_renewed (s := s) hp) hf hk (hboard.trans (if_pos hgood)) high
    have hrun := sessionCommand_writes (body := fun s => updFinishOp s h.path high) (opcode := 0x42) (inRecovery := true) ha hu hp hop
    exact hrun
  · next hbad =>
    exact sessionCommand_mine ha hu hp (updFinishOp_board (sessionOf_renewed (s := s) hp) hf hk (hboard.trans (if_neg hbad)) high)

theorem updFinish_uncovered (high : Bool) (ha : Accepted s h 0) (hf : u.finished = false) (hk : u.kind = .board)
    (hc : covers u 0 (flashField s.fw.boardFlash 8 4 + 32) = false) : exec (.updFinish h high) s = .next (answered (renewed s h u) s h 0x42 0x17 []) := by
  have hflash : (renewed s h u).fw.boardFlash = s.fw.boardFlash := by rw [renewed_fw]
  have hboard := finishBoard_uncovered (s := renewed s h u) (u := { u with lastCmd := s.tb.now }) (by rw [hflash]; exact hc)
  exact congrArg Host.Outcome.next (sessionCommand_mine ha hu hp (updFinishOp_board (sessionOf_renewed (s := s) hp) hf hk hboard high))

theorem updAbort_ends (ha : Accepted s h 0) :
    exec (.updAbort h) s = .next (answered { takeMessage s h with fw := { (takeMessage s h).fw with update := none, object := [] } } s h 0x43 0 []) := by
  have hop : updAbortOp (renewed s h u) h.path = reply stOk (endUpdate (renewed s h u)) := by rw [updAbortOp, sessionOf_renewed hp]
  have hrun := sessionCommand_writes (body := fun s => updAbortOp s h.path) (opcode := 0x43) (inRecovery := true) ha hu hp hop
  exact congrArg Host.Outcome.next hrun

theorem fwActivate_preloads (ha : Accepted s h 0) (hk : u.kind = .image) (hf : u.finished = true) (hm : s.mm.maGib ≠ 0)
    (hfmt : imageHfmtMin (s.fw.slot u.slotB) ≤ imageHfmt (s.fw.slot s.fw.runB)) (hv : s.fw.dir.state u.slotB = .valid)
    (ht : s.fw.dir.state s.fw.runB ≠ .trial) (hsvn : s.fw.svnCnt ≤ imageSvn (s.fw.slot u.slotB)) :
    exec (.fwActivate h) s = .next (answered { takeMessage s h with fw := { (takeMessage s h).fw with
      handover := .preload u.slotB, update := some { u with lastCmd := s.tb.now } } } s h 0x44 0 []) := by
  have hslot (b : Bool) : (renewed s h u).fw.slot b = s.fw.slot b := by rw [renewed_fw]; rfl
  have hrun : (renewed s h u).fw.runB = s.fw.runB := by rw [renewed_fw]
  have hdir : (renewed s h u).fw.dir = s.fw.dir := by rw [renewed_fw]
  have hcnt : (renewed s h u).fw.svnCnt = s.fw.svnCnt := by rw [renewed_fw]
  have hmm : (renewed s h u).mm = s.mm := takeMessage_mm s h
  have hop := activateOp_accepted (s := renewed s h u) (sessionOf_renewed hp) hk hf (by rw [hmm]; exact hm)
    (by rw [hslot, hslot, hrun]; exact hfmt) (by rw [hdir]; exact hv) (by rw [hdir, hrun]; exact ht) (by rw [hcnt, hslot]; exact hsvn)
  have hrun := sessionCommand_writes (body := fun s => activateOp s h.path) (opcode := 0x44) (inRecovery := false) ha hu hp hop
  exact congrArg Host.Outcome.next hrun

theorem libActivate_activates (ha : Accepted s h 0) (hk : u.kind = .library) (hf : u.finished = true) : Completes (.libActivate h) s fun t =>
    if Config.readback s.fw.writes then
      t.fw.dir.libHalf = u.libHalf ∧ t.fw.dir.libLen = u.libLen ∧ t.fw.dir.libDigest = u.digest ∧ t.fw.dir.seq = s.fw.dir.seq + 1
        ∧ ∀ a, (a < 0x800000C00000 ∨ 0x800001000000 ≤ a) → (u.libLen ≤ 0x400000 → memRead t.mm.mem a = memRead s.mm.mem a)
    else t.fw.dir = s.fw.dir ∧ t.mm.mem = s.mm.mem := by
  have hdir : (renewed s h u).fw.dir = s.fw.dir := by rw [renewed_fw]
  have hmm : (renewed s h u).mm = s.mm := takeMessage_mm s h
  have hwrites : (renewed s h u).fw.writes = s.fw.writes := by rw [renewed_fw]
  have hop := libActivateOp_finished (sessionOf_renewed (s := s) hp) hk hf
  rw [hwrites] at hop
  split
  · next hpass =>
    have hmade := writeDir_made (namesLibrary { u with lastCmd := s.tb.now }) (hwrites ▸ hpass)
    rw [if_pos hpass] at hop
    refine completes_of (congrArg Host.Outcome.next (sessionCommand_mine ha hu hp hop)) ?_
    have hlib : (copyLibrary { renewed s h u with fw := writeDir (renewed s h u).fw (namesLibrary { u with lastCmd := s.tb.now }) }).fw.dir
        = { namesLibrary { u with lastCmd := s.tb.now } (renewed s h u).fw.dir with seq := (renewed s h u).fw.dir.seq + 1 } := hmade
    rw [answered_dir, answered_mem, hlib, hdir]
    refine ⟨rfl, rfl, rfl, rfl, fun a ha hlen => ?_⟩
    rw [copyLibrary_library a ha, hmm]
    dsimp only
    rw [hmade]
    exact hlen
  · next hfail =>
    have hlost := writeDir_lost (namesLibrary { u with lastCmd := s.tb.now }) (hwrites ▸ Bool.eq_false_iff.2 hfail)
    rw [if_neg hfail] at hop
    refine completes_of (congrArg Host.Outcome.next (sessionCommand_mine ha hu hp hop)) ?_
    rw [answered_dir, answered_mem]
    dsimp only
    rw [hlost, hdir, hmm]
    exact ⟨rfl, rfl⟩

end

/-! ### Other commands -/

theorem updAbort_none (ha : Accepted s h 0) (hu : s.fw.update = none) : exec (.updAbort h) s = .next (answered (takeMessage s h) s h 0x43 9 []) := by
  have hnone : (takeMessage s h).fw.update = none := by rw [takeMessage_fw]; exact hu
  have hop : updAbortOp (touchSession (takeMessage s h) h.path) h.path = reply stState (takeMessage s h) := by
    rw [touchSession, hnone]
    dsimp only
    rw [updAbortOp, sessionOf, hnone]
    rfl
  exact congrArg Host.Outcome.next (hostCommand_answers ha 0x43 true hop)

theorem handoverPreloadDone_carries {b : Bool} (hh : s.fw.handover = .preload b) : exec .handoverPreloadDone s = .next (
    if imageVerified s.fw.svnCnt (s.fw.slot b) then
      (if Config.readback s.fw.writes then
        { restartRuns s with fw := { writeDir s.fw fun d => { d with journal := true, jslotB := b } with handover := .pause b } }
      else { s with fw := { writeDir s.fw fun d => { d with journal := true, jslotB := b } with handover := .none } })
    else { s with fw := { writeDir s.fw (setSlot b .invalid 0) with handover := .none } }) := by
  refine congrArg Host.Outcome.next ?_
  split
  · next hv => exact preloadDone_verified hh hv
  · next hv => exact preloadDone_unverified hh (Bool.eq_false_iff.2 hv)

theorem handoverImageStart_starts {b : Bool} (hh : s.fw.handover = .pause b) (hporn : s.fw.porn = true) : Completes (.handoverImageStart true) s fun t =>
    if Config.readback s.fw.writes then
      t.fw.handover = .none ∧ t.fw.runB = b ∧ t.fw.dir.state b = .trial ∧ t.fw.dir.journal = false ∧ t.fw.trialStart = some s.tb.now
        ∧ t.fw.version = word (imageVersion (s.fw.slot b)) ∧ t.chans = s.chans ∧ t.mm = s.mm ∧ t.queues = s.queues
    else t.fw.handover = .none ∧ t.fw.restarting = true ∧ t.mm.mem = s.mm.mem := by
  refine completes_of (congrArg Host.Outcome.next (imageStart_adopted hh)) ?_
  split
  · next hpass =>
    have hdir := writeDir_made (startsTrial b) hpass
    have hslot : (writeDir s.fw (startsTrial b)).slot b = s.fw.slot b := by rw [writeDir_same s.fw (startsTrial b)]; rfl
    have hstate : (writeDir s.fw (startsTrial b)).dir.state b = .trial := by
      rw [hdir]
      exact setSlot_state b .trial 1 s.fw.dir
    exact ⟨rfl, rfl, hstate, congrArg Directory.journal hdir, rfl, congrArg (fun m => word (imageVersion m)) hslot, rfl, rfl, rfl⟩
  · next hfail =>
    exact warmRestart_falls 3 (by rw [updFw]; dsimp only; rw [writeDir_same s.fw (startsTrial b)]; exact hporn)

theorem handoverImageStart_falls {b : Bool} (hh : s.fw.handover = .pause b) (hporn : s.fw.porn = true) : Completes (.handoverImageStart false) s fun t =>
    t.fw.handover = .none ∧ t.fw.restarting = true ∧ t.mm.mem = s.mm.mem :=
  ⟨_, congrArg Host.Outcome.next (imageStart_lost hh), warmRestart_falls 3 hporn⟩

theorem fwConfirm_confirms {b : Bool} (hb : s.fw.dir.state b = .trial) (hfirst : b = true → s.fw.dir.stateA ≠ .trial) (ha : Accepted s h 0) :
    Completes (.fwConfirm h) s fun t =>
      if Config.readback s.fw.writes then
        t.fw.dir.state b = .confirmed ∧ t.fw.dir.state (!b) ≠ .confirmed ∧ s.fw.svnCnt ≤ t.fw.svnCnt ∧ t.fw.trialStart = none
      else t.fw.dir = s.fw.dir ∧ t.fw.svnCnt = s.fw.svnCnt := by
  obtain ⟨v, hv⟩ := touchSession_eq (takeMessage s h) h.path
  have hfw : (touchSession (takeMessage s h) h.path).fw = { s.fw with timeouts := (takeMessage s h).fw.timeouts, update := v } := by rw [hv, takeMessage_fw]
  have hdir : (touchSession (takeMessage s h) h.path).fw.dir = s.fw.dir := by rw [hfw]
  have hcnt : (touchSession (takeMessage s h) h.path).fw.svnCnt = s.fw.svnCnt := by rw [hfw]
  have hwrites : (touchSession (takeMessage s h) h.path).fw.writes = s.fw.writes := by rw [hfw]
  obtain ⟨st, hop⟩ := confirmOp_trial (s := touchSession (takeMessage s h) h.path) (by rw [hdir]; exact hb) (by rw [hdir]; exact hfirst)
  refine completes_of (congrArg Host.Outcome.next (hostCommand_answers ha 0x45 false hop)) ?_
  rw [answered_dir, answered_svnCnt, answered_trialStart]
  split
  · next hpass =>
    have hconfirms := confirmSlot_confirms b (hwrites ▸ hpass)
    rw [hcnt] at hconfirms
    exact hconfirms
  · next hfail =>
    have hlost := confirmSlot_lost b (hwrites ▸ Bool.eq_false_iff.2 hfail)
    rw [hdir, hcnt] at hlost
    exact hlost

theorem trialAutoconfirm_confirms (ha : s.fw.autoconf = true) (hr : s.fw.running = true) (hw : s.fw.restarting = false)
    (ht : s.fw.trialStart.isSome = true) (hs : s.fw.dir.state s.fw.runB = .trial) : Completes .trialAutoconfirm s fun t => t = { s with fw := t.fw }
      ∧ if Config.readback s.fw.writes then t.fw.dir.state s.fw.runB = .confirmed ∧ t.fw.dir.state (!s.fw.runB) ≠ .confirmed else t.fw.dir = s.fw.dir := by
  refine ⟨_, congrArg Host.Outcome.next (autoConfirm_trial ha hr hw ht hs), rfl, ?_⟩
  split
  · next hpass =>
    obtain ⟨hone, hother, -⟩ := confirmSlot_confirms s.fw.runB hpass
    exact ⟨hone, hother⟩
  · next hfail => exact (confirmSlot_lost s.fw.runB (Bool.eq_false_iff.2 hfail)).1

theorem fwRestart_restarts (ha : Accepted s h 0) (hporn : s.fw.porn = true) : Completes (.fwRestart h) s fun t =>
    t.fw.restarting = true ∧ t.fw.wrcnt = min 255 (s.fw.wrcnt + 1) ∧ t.mm.mem = s.mm.mem ∧ t.queues = s.queues := by
  have hup : (takeMessage s h).fw.porn = true := by rw [takeMessage_fw]; exact hporn
  have hcnt : (takeMessage s h).fw.wrcnt = s.fw.wrcnt := by rw [takeMessage_fw]
  obtain ⟨hrestarting, hwrcnt, -, hmem, -, hqueues, -⟩ := warmRestart_restarts 2 hup
  rw [hcnt] at hwrcnt
  rw [takeMessage_mm] at hmem
  rw [takeMessage_queues] at hqueues
  exact ⟨_, congrArg Host.Outcome.next (hostCommand_waits ha 0x46 false rfl), hrestarting, hwrcnt, hmem, hqueues⟩

theorem setSave_saves {blob : List Byte} (opcode : Nat) {args : Nat} (ha : Accepted s h args) :
    hostCommand s h opcode args false (fun s => setSaveOp s blob) =
      answered { takeMessage s h with fw := saveSettings (takeMessage s h).fw (imageSetFmt (s.fw.slot s.fw.runB)) blob } s h opcode
        (if Config.readback s.fw.writes then 0 else 9) [] := by
  have hop := setSaveOp_saved (takeMessage s h) blob
  have hwrites : (takeMessage s h).fw.writes = s.fw.writes := by rw [takeMessage_fw]
  have hslot : (takeMessage s h).fw.slot (takeMessage s h).fw.runB = s.fw.slot s.fw.runB := by rw [takeMessage_fw]; rfl
  rw [hwrites, hslot] at hop
  exact hostCommand_answers ha opcode false hop

theorem saveSettings_saved (f : Firmware) (fmt : Nat) (blob : List Byte) :
    if Config.readback f.writes then
      (saveSettings f fmt blob).settings = blob ∧ newestHalf (saveSettings f fmt blob) = some (
        match newestHalf f with
        | some a => (1 - a.1, ⟨a.2.seq + 1, fmt, blob⟩)
        | none => (0, ⟨1, fmt, blob⟩))
    else (saveSettings f fmt blob).settings = f.settings ∧ newestHalf (saveSettings f fmt blob) = newestHalf f := by
  split
  · next hpass =>
    refine ⟨(saveSettings_passed fmt blob hpass).1, ?_⟩
    rcases hnew : newestHalf f with _ | ⟨i, a⟩
    · exact saveSettings_first fmt blob hpass hnew
    · exact saveSettings_renews fmt blob hpass hnew
  · next hfail => exact ⟨(saveSettings_lost fmt blob (Bool.eq_false_iff.2 hfail)).1, saveSettings_keeps fmt blob (Bool.eq_false_iff.2 hfail)⟩

theorem logRead_reads {first count : Nat} (ha : Accepted s h 8) (hlo : 1 ≤ count) (hhi : count ≤ 256) :
    exec (.logRead h first count) s = .next (answered (takeMessage s h) s h 0x4A 0
      (((s.fw.log.drop first).take count).flatMap fun e => Config.logEntry e.1 e.2)) := by
  have hlog : (takeMessage s h).fw.log = s.fw.log := by rw [takeMessage_fw]
  have hop : logReadOp (takeMessage s h) first count =
      (some (stOk, (((takeMessage s h).fw.log.drop first).take count).flatMap fun e => Config.logEntry e.1 e.2), takeMessage s h) := by
    rw [logReadOp]
    exact if_neg (by simp; omega)
  rw [hlog] at hop
  exact congrArg Host.Outcome.next (hostCommand_answers ha 0x4A false hop)

end

/-- Settles O54: each command finds the firmware that it was sent to, with its session renewed, and a write of the flash takes effect with its read-back. -/
theorem firmwareUpdates : Obligations.FirmwareUpdates := by
  unfold Obligations.FirmwareUpdates
  intro s h slot digest c touched file mine trial passes same
  refine ⟨updOpen_opens slot digest, fun ha u hu hp => updOpen_waits slot digest ha hu hp, ?data, ?mine, ?abort, ?timeout,
    fun b hh => handoverPreloadDone_carries hh, ?start, fun b hb ha => fwConfirm_confirms hb.1 hb.2 ha, trialAutoconfirm_confirms,
    fwRestart_restarts, ?save, ?defaults, fun fmt blob => saveSettings_saved s.fw fmt blob, writeSvn_writes s.fw, fun first count => logRead_reads⟩
  case data => exact fun u offset bytes ha hu hk hf hlen hend => updData_writes hu.1 hu.2 ha hk hf hlen hend
  case mine =>
    intro u high ha hu
    obtain ⟨hu, hp⟩ := hu
    exact ⟨updFinish_again hu hp high ha, updFinish_covered hu hp high ha, updFinish_uncovered hu hp high ha, updAbort_ends hu hp ha,
      fun hk hf => fwActivate_preloads hu hp ha hk hf, libActivate_activates hu hp ha⟩
  case abort => exact fun ha hu => updAbort_none ha hu
  case timeout => exact fun hu => congrArg Host.Outcome.next (if_pos hu)
  case start => exact fun b hh hporn => ⟨handoverImageStart_starts hh hporn, handoverImageStart_falls hh hporn⟩
  case save => exact fun blob ha => congrArg Host.Outcome.next (setSave_saves 0x48 ha)
  case defaults => exact fun ha => congrArg Host.Outcome.next (setSave_saves 0x49 ha)

end Sys2Proof.Machine
end
